-- ==== Sys2Proof/Word.lean ====
section
/-!
DEFINITION. The word types of the W96 (R7): what the manual treats as bits.
-/
namespace Sys2Proof

/-- One byte. -/
abbrev Byte := BitVec 8
/-- A 16-bit field. -/
abbrev Half := BitVec 16
/-- A 32-bit register, lane or memory half (R454, R71). -/
abbrev Word := BitVec 32
/-- A 64-bit memory word or sideband flit (R129, R169). -/
abbrev DWord := BitVec 64
/-- One beat of a scheduled link: 1,024 data bits (R147). -/
abbrev Beat := BitVec 1024
/-- One program word: a bundle or a descriptor (R84). -/
abbrev ProgWord := BitVec 256

end Sys2Proof
end

