-- ==== Sys2Proof/Machine/Types.lean ====
section
/-!
DEFINITION. Names for the places of the module (R11 to R14) and for the senders of control-channel accesses (R457),
and the plain records that commands carry as operands.
-/
namespace Sys2Proof

/-- A cluster F(x,y).c: its region_index (R11) and its cluster number (R14). -/
structure Site where
  r : Fin 96
  c : Fin 28
  deriving DecidableEq, Repr

/-- Who made a control-channel access (R457). A relayed requester is further identified by its origin route. -/
inductive Requester where
  | core (k : Fin 8)
  | host
  | relay (odx ody : BitVec 5)
  | management
  | sequencer
  deriving DecidableEq, Repr

/-- The two accumulation modes of a placement image (R23). -/
inductive AccMode where
  | blend
  | singleOrigin
  deriving DecidableEq, Repr

/-- Compass sides, in the code of route descriptors and link sides (R108, R148): 0 N, 1 E, 2 S, 3 W. -/
inductive Side where
  | n | e | s | w
  deriving DecidableEq, Repr

/-- The three parts sold (R1). -/
inductive Variant where
  | s | m | e
  deriving DecidableEq, Repr, Inhabited

/-- One sample of the cold plate's sensors (R361): temperatures in 0.01 °C, flow in 0.1 L/min, pressures in kPa. -/
structure PlateSample where
  flow : Nat
  inA  : Int
  inB  : Int
  outA : Int
  outB : Int
  press : Nat
  drop  : Nat
  deriving DecidableEq, Repr

/-- One hot spot's readings (R364): diodes A and B and the ring-oscillator estimate, each in 1/8 °C. -/
structure HotSpot where
  a : Nat
  b : Nat
  est : Nat
  deriving DecidableEq, Repr

/-- What the P3 steps of R385 found in one cluster: physical macros and banks that failed, a program-memory word
beyond correction, a failing table, and single-bit errors corrected. -/
structure ClusterBist where
  c : Fin 28
  macros : List (Fin 38)
  banks : List (Fin 24)
  progBad : Bool
  tableBad : Bool
  corrected : Nat
  deriving DecidableEq, Repr

/-- What the P3 steps of R385 found in one region: the latch it met while it ramped, cause and peak (R343), the VSRAM that it
reached, mV, and whether every valid sense point came within 20 mV of the setpoint (R340), whether its PLL
locks, whether its controller passed its self-test, its ring-oscillator count, its clusters' findings and the failing entries
(inbound queue, entry) of its queue training. -/
structure RegionBist where
  r : Fin 96
  latch : Option (Fin 4 × BitVec 12)
  vsram : BitVec 10
  settled : Bool
  locks : Bool
  controllerOk : Bool
  ro : BitVec 16
  clusters : List ClusterBist
  badEntries : List (Fin 22 × Fin 64)
  deriving DecidableEq, Repr

/-- What stage P4 found in one stack (R390): channels that fail after repair, rows repaired, errors corrected. -/
structure StackBist where
  n : Fin 24
  badChannels : List (Fin 32)
  rows : Nat
  corrected : Nat
  deriving DecidableEq, Repr

end Sys2Proof
end

