-- ==== Sys2Proof/Syntax.lean ====
section
/-!
DEFINITION. The commands and events of the W96: one constructor for each row of spec/opcode_table.json.
Operands are what the rule of the row makes the step depend on: the place it acts at, the fields of the slot,
packet, entry or register value it carries, and, for an event, the readings or host data that arrive with it.
-/
namespace Sys2Proof

/-- A command or event of the block (the rows of the opcode table, in chapter order). -/
inductive Instr where
  /-- CTL IDLE: the bundle occupies `n` + 1 schedule cycles (R91). -/
  | idle (at_ : Site) (n : BitVec 16)
  /-- CTL LOOP: the next `len` + 1 bundles run `cnt` + 1 times (R91). -/
  | loop (at_ : Site) (len : BitVec 10) (cnt : BitVec 16)
  /-- CTL SEGEND: the cluster's segment ends (R91). -/
  | segend (at_ : Site)
  /-- CTL MARK: `v` into the region's trace buffer (R91, R465). -/
  | mark (at_ : Site) (v : BitVec 16)
  /-- The region's enabled clusters pop the segment queue together (R176). -/
  | segmentBegin (r : Fin 96)
  /-- One ACLK of the region for its pending schedule cycle (R163); `errs` are the errors that its links bring into the beats
  present at its clusters (R148): cluster, side and error pattern. -/
  | scheduleCycleExecutes (r : Fin 96) (errs : List (Fin 28 × Fin 4 × BitVec 1096) := [])
  /-- The stall ACLK of the pending cycle have reached 2^LIMEXP (R165). -/
  | queueTimeout (r : Fin 96)
  /-- PRESS slot RUN (R92). -/
  | pressRun (at_ : Site) (daddr : BitVec 14) (half : Bool) (accb : BitVec 8) (tile : BitVec 13)
  /-- POUR slot RUN (R92). -/
  | pourRun (at_ : Site) (daddr : BitVec 14) (half : Bool) (accb : BitVec 8) (tile : BitVec 13)
  /-- POUR slot CBLOAD of `nt` + 1 tiles (R92). -/
  | cbload (at_ : Site) (tile : BitVec 13) (nt : BitVec 2)
  /-- The accumulators of engine operations that are due hold their final values (R96). -/
  | engineOpComplete (at_ : Site)
  /-- The oldest due tile comparison completes (R125). -/
  | tileCrcComparison (at_ : Site)
  /-- D = A × B + C (R113). -/
  | fma (at_ : Site) (d a b c : Fin 32) (pair : Bool)
  /-- D = FMA(A, B, −0) (R99). -/
  | mul (at_ : Site) (d a b : Fin 32) (pair : Bool)
  /-- D = FMA(A, +1, B) (R99). -/
  | add (at_ : Site) (d a b : Fin 32) (pair : Bool)
  /-- D = FMA(B, −1, A) (R99). -/
  | sub (at_ : Site) (d a b : Fin 32) (pair : Bool)
  /-- Larger value (R114). -/
  | max (at_ : Site) (d a b : Fin 32) (pair : Bool)
  /-- Smaller value (R114). -/
  | min (at_ : Site) (d a b : Fin 32) (pair : Bool)
  /-- All ones if equal (R114). -/
  | cmpeq (at_ : Site) (d a b : Fin 32)
  /-- All ones if less (R114). -/
  | cmplt (at_ : Site) (d a b : Fin 32)
  /-- All ones if less or equal (R114). -/
  | cmple (at_ : Site) (d a b : Fin 32)
  /-- D = (C ≠ 0) ? A : B, bitwise (R99). -/
  | sel (at_ : Site) (d a b c : Fin 32)
  /-- 32-bit add (R116). -/
  | iadd (at_ : Site) (d a b : Fin 32)
  /-- 32-bit subtract (R116). -/
  | isub (at_ : Site) (d a b : Fin 32)
  /-- Bitwise and (R116). -/
  | and (at_ : Site) (d a b : Fin 32)
  /-- Bitwise or (R116). -/
  | or (at_ : Site) (d a b : Fin 32)
  /-- Bitwise exclusive or (R116). -/
  | xor (at_ : Site) (d a b : Fin 32)
  /-- Shift left by B[4:0] (R116). -/
  | shl (at_ : Site) (d a b : Fin 32)
  /-- Logical shift right by B[4:0] (R116). -/
  | shr (at_ : Site) (d a b : Fin 32)
  /-- Arithmetic shift right by B[4:0] (R116). -/
  | sar (at_ : Site) (d a b : Fin 32)
  /-- Each lane's index (R99). -/
  | laneid (at_ : Site) (d : Fin 32)
  /-- Lane `x` of A in every lane (R99). -/
  | bcast (at_ : Site) (d a : Fin 32) (x : BitVec 8)
  /-- BF16 to binary32 (R115). -/
  | cvtw (at_ : Site) (d a : Fin 32)
  /-- binary32 to BF16 (R115). -/
  | cvtn (at_ : Site) (d a : Fin 32)
  /-- Tested narrowing at widening point `x` (R103, R52). -/
  | narrowt (at_ : Site) (d a : Fin 32) (x : BitVec 8)
  /-- Untested narrowing to MXFP4 (R103). -/
  | narrowu (at_ : Site) (d a : Fin 32)
  /-- Narrowing to MXFP8 E4M3 (R103). -/
  | cvtb8 (at_ : Site) (d a : Fin 32)
  /-- Narrowing to MXFP8 E5M2 (R103). -/
  | cvtb5 (at_ : Site) (d a : Fin 32)
  /-- Narrowing to MXINT8 (R103). -/
  | cvtbi (at_ : Site) (d a : Fin 32)
  /-- Decode records of form `x` to binary32 (R103). -/
  | widen (at_ : Site) (d a : Fin 32) (x : BitVec 8)
  /-- 2^x (R119). -/
  | exp2 (at_ : Site) (d a : Fin 32)
  /-- log2 x (R119). -/
  | log2 (at_ : Site) (d a : Fin 32)
  /-- 1/x (R119). -/
  | rcp (at_ : Site) (d a : Fin 32)
  /-- 1/√x (R119). -/
  | rsqrt (at_ : Site) (d a : Fin 32)
  /-- SiLU (R119). -/
  | silu (at_ : Site) (d a : Fin 32)
  /-- GELU (R119). -/
  | gelu (at_ : Site) (d a : Fin 32)
  /-- Sum over the span by the tree (R73). -/
  | rsum (at_ : Site) (d a : Fin 32) (m : Fin 9) (l0 : BitVec 8)
  /-- Maximum over the span (R73). -/
  | rmax (at_ : Site) (d a : Fin 32) (m : Fin 9) (l0 : BitVec 8)
  /-- Minimum over the span (R73). -/
  | rmin (at_ : Site) (d a : Fin 32) (m : Fin 9) (l0 : BitVec 8)
  /-- Pair merge over the span (R101). -/
  | rlse (at_ : Site) (d a b : Fin 32) (m : Fin 9) (l0 : BitVec 8)
  /-- Candidate list of `x` + 1 entries (R102). -/
  | topl (at_ : Site) (d a b : Fin 32) (x : BitVec 8) (m : Fin 9) (l0 : BitVec 8)
  /-- Exact A of each lane into the file (R99). -/
  | xacc (at_ : Site) (a : Fin 32) (x : BitVec 8) (m : Fin 9) (l0 : BitVec 8)
  /-- Exact A × B of each lane into the file (R99). -/
  | xmac (at_ : Site) (a b : Fin 32) (pair : Bool) (x : BitVec 8) (m : Fin 9) (l0 : BitVec 8)
  /-- Accumulator X + i gains accumulator X + 2^M + i (R99). -/
  | xfold (at_ : Site) (x : BitVec 8) (m : Fin 8)
  /-- Accumulators to lanes by one rounding (R43). -/
  | xcvt (at_ : Site) (d : Fin 32) (bf16 : Bool) (x : BitVec 8) (m : Fin 9) (l0 : BitVec 8)
  /-- Accumulators to their reset state (R99). -/
  | xrst (at_ : Site) (x : BitVec 8) (m : Fin 9)
  /-- Vector results that are due land (R87). -/
  | vecResult (at_ : Site)
  /-- Transfer of kind 0 (R106). -/
  | xferFromScratchpad (at_ : Site) (taddr : BitVec 14) (form : Bool)
  /-- Transfer of kind 1 (R106). -/
  | xferIntoScratchpad (at_ : Site) (taddr : BitVec 14) (form : Bool)
  /-- Transfer of kind 2 (R139). -/
  | fill (at_ : Site) (taddr : BitVec 14)
  /-- Transfer of kind 3 (R140). -/
  | copy (at_ : Site) (taddr : BitVec 14)
  /-- Transfer of kind 4 (R223). -/
  | dmaCommand (at_ : Site) (taddr : BitVec 14) (form : Bool)
  /-- Transfer of kind 5 (R224). -/
  | dmaCompletion (at_ : Site) (taddr : BitVec 14) (form : Bool)
  /-- Release of handle `h` (R141). -/
  | rel (at_ : Site) (h : Fin 64)
  /-- The transfer's last row has moved (R106). -/
  | transferComplete (at_ : Site)
  /-- ROUTE of a pass stream (R108). -/
  | routePass (at_ : Site) (raddr : BitVec 14) (form : Bool)
  /-- ROUTE of a binary32-sum stream (R152). -/
  | routeBinary32Sum (at_ : Site) (raddr : BitVec 14) (form : Bool)
  /-- ROUTE of a BF16-in sum stream (R152). -/
  | routeBf16InSum (at_ : Site) (raddr : BitVec 14) (form : Bool)
  /-- ROUTE of an XS-sum stream (R152). -/
  | routeXsSum (at_ : Site) (raddr : BitVec 14) (form : Bool)
  /-- ROUTE of a maximum stream (R152). -/
  | routeMax (at_ : Site) (raddr : BitVec 14) (form : Bool)
  /-- ROUTE of a log-sum-exp merge stream (R152). -/
  | routeLseMerge (at_ : Site) (raddr : BitVec 14) (form : Bool)
  /-- ROUTE of a top-k merge stream (R152). -/
  | routeTopkMerge (at_ : Site) (raddr : BitVec 14) (form : Bool)
  /-- The oldest pushed entry of inbound queue `q` becomes visible (R160); `flip` is the error of its storage entry (R162). -/
  | queueEntryVisible (r : Fin 96) (q : Fin 22) (flip : BitVec 1096 := 0)
  /-- The oldest freed slot of inbound queue `q` becomes visible to the writer (R160). -/
  | queueSlotVisible (r : Fin 96) (q : Fin 22)
  /-- The neighbours fence every crossing they share with region `r` (R167). -/
  | fenceApplied (r : Fin 96)
  /-- RD packet at its destination (R173); with requester `host`, a 4-byte read of BAR0 offset `addr`, or of BAR2 when bit 47
  is set (R319). `ord` is the packet's ORD (R171), `lost` the router at which a flit of it had an uncorrectable error (R170). -/
  | rd (src : BitVec 16) (tag : Byte) (req : Requester) (addr : BitVec 48) (ord : Bool := false) (lost : Option (BitVec 16) := none)
  /-- WR packet at its destination (R173); with requester `host`, a 4-byte write of a BAR (R319). -/
  | wr (src : BitVec 16) (tag : Byte) (req : Requester) (addr : BitVec 48) (data : Word) (ord : Bool := false)
      (lost : Option (BitVec 16) := none)
  /-- RSP packet from `src` on its way to its requester (R173). -/
  | rsp (dest : BitVec 16) (tag : Byte) (status : Byte) (data : Option Word) (src : BitVec 16 := 0x8000) (ord : Bool := false)
      (lost : Option (BitVec 16) := none)
  /-- DMA packet; `hostPeer` is the host data when the peer is host memory and the direction is inward (R227). -/
  | controlDma (src : BitVec 16) (f0 peer f2 : DWord) (tag : Word) (hostPeer : Option (List Byte))
      (ord : Bool := false) (lost : Option (BitVec 16) := none)
  /-- DMADONE packet at its requester (R227). -/
  | dmadone (src : BitVec 16) (tag : Word) (status : Byte) (dest : BitVec 16 := 0x8000) (ord : Bool := false)
      (lost : Option (BitVec 16) := none)
  /-- FAULT packet at the error-log assist (R403). -/
  | fault (src : BitVec 16) (rec : BitVec 256) (ord : Bool := false) (lost : Option (BitVec 16) := none)
  /-- ERRLOG packet at the error-log assist (R401). -/
  | errlog (src : BitVec 16) (rec : BitVec 256) (ord : Bool := false) (lost : Option (BitVec 16) := none)
  /-- SEGCMD packet at a region controller (R176). -/
  | segcmd (r : Fin 96) (segno : BitVec 15) (ord : Bool := false) (lost : Option (BitVec 16) := none)
  /-- TOKEN packet at the control complex (R272). -/
  | token (f0 f1 : DWord) (src : BitVec 16 := 0x8000) (ord : Bool := false) (lost : Option (BitVec 16) := none)
  /-- HALT packet at a region controller (R173). -/
  | halt (r : Fin 96) (src : BitVec 16) (ord : Bool := false) (lost : Option (BitVec 16) := none)
  /-- A request unanswered for 65,536 CBCLK (R170). -/
  | sidebandTimeout (src : BitVec 16) (tag : Byte)
  /-- The DMA engine runs the KVREAD at the front of its command queue (R223); `net` counts its transactions before the one that
  meets an error on the memory network, if one does (R226). -/
  | kvread (at_ : Site) (net : Option Nat)
  /-- The DMA engine runs the KVWRITE at the front of its command queue (R223). -/
  | kvwrite (at_ : Site) (net : Option Nat)
  /-- Write of PFX_LAUNCH (R236). -/
  | pfxLaunch (req : Requester) (rec : Word)
  /-- A running lookup ends (R236). -/
  | pfxLookupDone (rec : Word)
  /-- SUBMIT entry, with the host data read for it (R245). -/
  | submit (ring : Fin 64) (entry : List Byte) (params : Option (List Byte)) (prompt : Option (List Word))
  /-- ABORT entry (R256). -/
  | abort (ring : Fin 64) (entry : List Byte)
  /-- TENANT entry (R257). -/
  | tenant (ring : Fin 64) (entry : List Byte)
  /-- GRAMMAR entry, with the host data read for it (R245). -/
  | grammar (ring : Fin 64) (entry : List Byte) (body : Option (List Byte))
  /-- The 32-byte command in a core's commit window (R252). -/
  | commit (core : Fin 8) (cmd : BitVec 256)
  /-- Commit of ADV alone (R252). -/
  | adv (core : Fin 8) (req : Word) (nadv : Fin 10) (lasttok expn : Word)
  /-- Commit of DEBIT alone (R258). -/
  | debit (core : Fin 8) (req : Word) (nadv : Fin 10)
  /-- Commit of RING alone (R252). -/
  | ring (core : Fin 8) (req : Word) (nent : Fin 129)
  /-- Commit of ADJ alone (R258). -/
  | adj (core : Fin 8) (req : Word) (chg : Word)
  /-- Commit of SLOT alone (R252). -/
  | slot (core : Fin 8) (req : Word) (slotNo : Word)
  /-- ADM_CMD of decode kind (R259). -/
  | decodeAdmission (req : Requester) (n : BitVec 21)
  /-- ADM_CMD of prefill kind (R259). -/
  | prefillAdmission (req : Requester) (n : BitVec 21)
  /-- The millisecond's refill of every enabled tenant (R258). -/
  | budgetRefill
  /-- The region's feeder serves one row of the current row-ring slot (R266). -/
  | feed (r : Fin 96) (row : Fin 4096)
  /-- The sampling unit decides a row (R269). -/
  | sample (r : Fin 96) (row : Fin 4096)
  /-- The sampling unit tests a verify row (R275). -/
  | verify (r : Fin 96) (row : Fin 4096)
  /-- An image load, with the five model-image headers read for it (R197). -/
  | load (img : List Byte) (place : BitVec 4) (headers : List (Option (List Byte)))
  /-- The next fetched segment or tile record of model `m` (R287). -/
  | loadSegment (m : Fin 5) (data : Option (List Byte))
  /-- WLD_CTL GO with OP SWAP (R294). -/
  | swap (req : Requester) (resume : Bool) (companion : Option (List Byte)) (headers : List (Option (List Byte)))
  /-- WLD_CTL GO with OP STOP (R299). -/
  | stop (req : Requester) (resume : Bool)
  /-- Write of SWP_HOLD (R295). -/
  | swpHoldArm (req : Requester) (r : Fin 96) (v : Word)
  /-- HELLO at the source (R290). -/
  | hello (nr chain model : List Byte)
  /-- The peer's attestation quote (R290). -/
  | transferQuote (quote chain nonce : List Byte)
  /-- The signed session-key message at the receiver (R290). -/
  | sessionKey (msg sig : List Byte)
  /-- The sealed request list at the source (R290). -/
  | requestList (sealed : List Byte)
  /-- The next sealed transfer segment at the receiver (R291). -/
  | transferSegment (sealed : Option (List Byte))
  /-- The sealed DONE at the source (R290). -/
  | transferDone (sealed : List Byte)
  /-- An abort message of the peer; `missing` when it says that a requested tile is not held (R288, R290). -/
  | transferAbort (missing : Bool)
  /-- A data flit arrives (R302): `flip` is the error of the storage entry that its beat takes (R313), `fec` the corrected and
  uncorrectable FEC codewords since the last flit, here and below (R310). -/
  | linkDataFlit (p : Fin 32) (flit : List Byte) (flip : BitVec 1096 := 0) (fec : Nat × Nat := (0, 0))
  /-- A control flit arrives (R304); `lost` is the router at which a packet of it meets an uncorrectable flit as it crosses the array
  to the control complex (R170). -/
  | linkControlFlit (p : Fin 32) (flit : List Byte) (fec : Nat × Nat := (0, 0)) (lost : Option (BitVec 16) := none)
  /-- An idle flit arrives (R302). -/
  | idleFlit (p : Fin 32) (flit : List Byte) (fec : Nat × Nat := (0, 0))
  /-- A training flit arrives (R306). -/
  | trainingFlit (p : Fin 32) (flit : List Byte) (fec : Nat × Nat := (0, 0))
  /-- Write of VYB_CTL that sets EN (R305). -/
  | portEn (req : Requester) (p : Fin 32) (v : Word)
  /-- Write of VYB_CTL with RETRAIN (R305). -/
  | retrain (req : Requester) (p : Fin 32) (v : Word)
  /-- DETECT is tried again (R305). -/
  | detectRetry (p : Fin 32) (signal : Bool)
  /-- The port's training phase completes; `lanes` locked in LOCK (R305), and the peer's VYB_DOMVER is `peerDom` (R307). -/
  | trainingPhaseComplete (p : Fin 32) (lanes : Byte) (peerDom : BitVec 4 := 1)
  /-- The port's training phase exceeds its limit (R305). -/
  | trainingPhaseLimit (p : Fin 32)
  /-- FEC lock lost on a lane in use (R309). -/
  | linkLoss (p : Fin 32)
  /-- The peer was silent for 2^16 flit times (R309). -/
  | peerSilent (p : Fin 32)
  /-- A Vybin cable is mated; CTYPE open if `active` (R482). -/
  | cableMated (seg : Fin 4) (active : Bool)
  /-- A Vybin cable is removed (R482). -/
  | cableRemoved (seg : Fin 4)
  /-- VCAB current above 3.5 A for 1 ms (R482). -/
  | vcabOvercurrent (seg : Fin 4)
  /-- Relay read of host memory; `hostData` is what the host answers (R322). -/
  | hrd (hdr addr : DWord) (hostData : Option (List Byte))
  /-- Relay data of a host read (R322). -/
  | hrdd (hdr addr : DWord) (data : List DWord)
  /-- Relay write of host memory (R322). -/
  | hwr (hdr addr : DWord) (data : List DWord)
  /-- Relay read of a control register (R322). -/
  | crd (hdr addr : DWord)
  /-- Relay write of a control register (R322). -/
  | cwr (hdr addr : DWord) (data : Word)
  /-- Relay response (R322). -/
  | crsp (hdr addr : DWord) (data : Word)
  /-- Relay request for an MSI-X vector (R322). -/
  | irq (hdr addr : DWord)
  /-- A host BAR request that is not single, aligned and 4 bytes (R319). -/
  | hostMalformedRequest (write : Bool) (addr : DWord) (len : Nat)
  /-- GOP_CMD ARRIVE (R324). -/
  | gopArrive (req : Requester) (id : BitVec 15)
  /-- GOP_CMD BCAST (R325). -/
  | gopBcast (req : Requester) (id : BitVec 15)
  /-- GOP_CMD SNAP (R326). -/
  | gopSnap (req : Requester) (id : BitVec 15)
  /-- GOP_CMD QUIESCE (R326). -/
  | gopQuiesce (req : Requester) (id : BitVec 15)
  /-- GOP_CMD RESUME (R326). -/
  | gopResume (req : Requester) (id : BitVec 15)
  /-- ARRIVE marker from a child edge (R324). -/
  | markArrive (edge : Side) (id : BitVec 15)
  /-- RELEASE marker from the parent edge (R324). -/
  | markRelease (edge : Side) (id : BitVec 15)
  /-- BCAST marker (R325). -/
  | markBcast (edge : Side) (id : BitVec 15) (origin : Byte) (data : Word)
  /-- SNAP marker (R326). -/
  | markSnap (edge : Side) (id : BitVec 15) (origin : Byte) (data : Word)
  /-- QUIESCE marker (R326). -/
  | markQuiesce (edge : Side) (id : BitVec 15) (origin : Byte) (data : Word)
  /-- RESUME marker (R326). -/
  | markResume (edge : Side) (id : BitVec 15) (origin : Byte) (data : Word)
  /-- Every region held and, for a snapshot, ports drained (R326). -/
  | moduleHeld
  /-- Second half of a guarded write of GOP_RESET (R327). -/
  | gopReset (req : Requester) (w : Word)
  /-- The 50 µs region reset ends (R327). -/
  | domainResetDone
  /-- GOP_TMO passes (R328). -/
  | gopTimeout
  /-- PWR_EN high: the input's and the rails' readings in mV, and how many of VAUX, VEDGE, VSD and VSTK came into regulation in
  their order (R339). -/
  | powerUp (vin vaux vedge vsd075 vsd12 : BitVec 16) (rails : Fin 5 := 4)
  /-- PWR_EN falls, or the control complex firmware commands the power-down that follows it (R341). -/
  | pwrEnFall (firmware : Bool := false)
  /-- Input below 11.0 V for 20 µs (R332). -/
  | inputUndervoltage
  /-- Input above 13.2 V for 20 µs (R332). -/
  | inputOvervoltage
  /-- Input below 10.0 V (R332). -/
  | inputCollapse
  /-- A lateral rail leaves regulation: 0 VAUX, 1 VEDGE, 2 VSD, 3 VSTK (R339). -/
  | railFault (rail : Fin 4) (stack : Fin 24)
  /-- The adaptive-voltage loop with four slack readings (R336) and the mean ring-oscillator count of a µs (R337). -/
  | avsTick (r : Fin 96) (s0 s1 s2 s3 : Byte) (ro : BitVec 16 := 0)
  /-- A sense point deviated 80 mV for 100 µs (R335). -/
  | senseInvalid (r : Fin 96) (point : Fin 4) (mv : BitVec 10)
  /-- A droop detector: one stretched period, and whether it still fires (R338). -/
  | droop (r : Fin 96) (firing : Bool)
  /-- A latch of cause `cause` + 1 (R343). -/
  | regionShort (r : Fin 96) (cause : Fin 4) (peak : BitVec 12)
  /-- The retry 100 ms after a first latch, with what it and the P3 steps after it find (R345). -/
  | shortRetry (find : RegionBist)
  /-- Second half of a guarded write of RPWR_CTL (R345). -/
  | regionFence (req : Requester) (r : Fin 96) (w : Word)
  /-- Second half of a guarded write of RPWR_VSET (R358). -/
  | vset (req : Requester) (r : Fin 96) (w : Word)
  /-- Reference input REFA or REFB (`b`) misses 2 edges (R347). -/
  | refLost (b : Bool)
  /-- Reference input REFA or REFB (`b`) becomes valid (R347). -/
  | refValid (b : Bool)
  /-- A region input is lost (R349). -/
  | regionRefLost (r : Fin 96) (side : Side)
  /-- A region in clean hold relocks to a valid input (R350). -/
  | regionRelock (r : Fin 96) (side : Side)
  /-- EFF moves one step toward the least of its caps (R353). -/
  | effStep (r : Fin 96) (settled : Bool)
  /-- Write of CLKTUNE (R354). -/
  | ceil (req : Requester) (r : Fin 96) (v : Word)
  /-- ILIM from the mean VCORE current, A (R355). -/
  | ilimTick (r : Fin 96) (mean : Nat)
  /-- PLIM from the mean input power, W, with the input current, A, and the VCORE and VSRAM currents of the regions, A (R356). -/
  | powerCapTick (p : Nat) (icore : List Nat) (iin : BitVec 16 := 0) (isram : List Nat := List.replicate 96 0)
      (vin : Option (BitVec 16) := none)
  /-- The current brake engages (R357): for P, or for the input current, A. -/
  | currentBrake (power : Bool) (pin : BitVec 16) (iin : BitVec 16 := 0)
  /-- P has been below PCAP_EFF for 100 µs (R357). -/
  | brakeRelease (p : Nat)
  /-- The cold-plate sensors are sampled (R361). -/
  | cpSample (x : PlateSample)
  /-- The cooling cap, with the mean input power over 100 ms, W (R362); `flow`, `tin` and `tout` are the means of the flow, 0.1 L/min,
  and of the inlet and the outlet, 0.01 °C, of a tick before the first sampling, and are not read after it. -/
  | pcoolTick (flow : Nat) (tin tout : Int) (p : Nat)
  /-- Inlet above 45 °C for 1 s (R363). -/
  | coolantOvertemp
  /-- The region samples its diodes (R364). -/
  | regionThermalSample (r : Fin 96) (h0 h1 h2 h3 : HotSpot)
  /-- TLIM steps from THOT (R365). -/
  | tlimStep (r : Fin 96)
  /-- THOT below 90 °C for 1 s (R366). -/
  | regionTripClear (r : Fin 96)
  /-- Four stack readings, 1/8 °C (R367), with the errors that the on-die ECC of each quarter reports, corrected and not (R206). -/
  | stackThermalSample (n : Fin 24) (t0 t1 t2 t3 : Nat) (ecc : List (Nat × Nat) := [])
  /-- STLIM steps from TSTK (R368). -/
  | stlimStep (n : Fin 24)
  /-- TSTK below 90 °C for 1 s (R369). -/
  | stackTripClear (n : Fin 24)
  /-- ALARM recognised on CHAIN_IN (R371). -/
  | alarmReceived
  /-- BOOT_CTL.GO, with the image and list read for it (R382). -/
  | bootGo (req : Requester) (fw : Option (List Byte)) (rl : Option (List Byte))
  /-- A reference is valid and is forwarded to column 0 (R384). -/
  | clockSeed
  /-- The regions of column `x` are powered, locked, tested and repaired (R385). -/
  | regionWavefront (x : Fin 12) (finds : List RegionBist)
  /-- Stage P4 (R390). -/
  | stackBringup (finds : List StackBist)
  /-- Stage P5 ends (R391). -/
  | linkStage
  /-- Stage P6 (R392). -/
  | knownAnswerRuns (failed : List (Fin 8 × Site)) (regions : List (Fin 96)) (results spread : List Byte) (spreadOk : Bool)
  /-- Stage P7 (R394). -/
  | bringupReady
  /-- Write of a region's or the edge ring's FBACK (R403). -/
  | fback (req : Requester) (r : Option (Fin 96)) (v : Word)
  /-- A record not released within 65,536 CBCLK (R403). -/
  | faultResend (r : Option (Fin 96))
  /-- A merged entry is sent 1 ms after its first occurrence (R400). -/
  | errlogHoldExpiry (r : Option (Fin 96))
  /-- Write of ELOG_HEAD (R402). -/
  | elogHead (req : Requester) (v : Word)
  /-- An ADDRESS token on CHAIN_IN (R427). -/
  | addressToken (n : BitVec 6)
  /-- A TIME pulse on CHAIN_IN (R430). -/
  | timePulse
  /-- Quivor WRITE of BOOTCLOSE (R429). -/
  | bootclose (frame : List Byte) (mac : BitVec 48)
  /-- 10 s after PGOOD rose (R429). -/
  | bootWindowTimeout
  /-- Quivor READ (R437). -/
  | read (frame : List Byte) (mac : BitVec 48)
  /-- Quivor WRITE (R438). -/
  | write (frame : List Byte) (mac : BitVec 48)
  /-- A 10 ms interval ends (R441). -/
  | notifyTimer
  /-- A gPTP Sync and Follow_Up: the grandmaster's time now, ns (R434). -/
  | sync (aligned : Nat)
  /-- A gPTP peer-delay request (R434). -/
  | peerDelayRequest (seq : BitVec 16)
  /-- The second's offset correction (R435). -/
  | offsetTick
  /-- Quivor WRITE of QUOTE_GO (R451). -/
  | quoteGo (frame : List Byte) (mac : BitVec 48)
  /-- The quote in progress completes (R451). -/
  | quoteDone
  /-- Second half of a guarded CRY_CMD with OP 1 (R468). -/
  | cryQuote (req : Requester) (w : Word)
  /-- Second half of a guarded CRY_CMD with OP 2 (R468). -/
  | sign (req : Requester) (w : Word)
  /-- Second half of a guarded CRY_CMD with OP 3 (R468). -/
  | unwrap (req : Requester) (w : Word)
  /-- Second half of a guarded CRY_CMD with OP 4 (R468). -/
  | wrap (req : Requester) (w : Word)
  /-- Second half of a guarded CRY_CMD with OP 5 (R468). -/
  | erase (req : Requester) (w : Word)
  /-- Second half of a guarded FUSE_PGM with OP 1 (R467). -/
  | fuseProgramSlot (req : Requester) (w : Word)
  /-- Second half of a guarded FUSE_PGM with OP 2 (R467). -/
  | fuseRevokeSlot (req : Requester) (w : Word)
  /-- Second half of a guarded FUSE_PGM with OP 3 (R467). -/
  | fuseRaiseSvnmin (req : Requester) (w : Word)
  /-- The programming in progress completes (R467). -/
  | fusePgmDone
  /-- Write of CMCLR_GO (R470). -/
  | cmclrGo (req : Requester) (v : Word)
  /-- The clear in progress ends (R470). -/
  | cmclrDone
  /-- Write of SPFLIP_CTL (R143). -/
  | spflipArm (req : Requester) (at_ : Site) (v : Word)
  /-- Write of WTCRC_TEST (R144). -/
  | wtcrcTest (req : Requester) (at_ : Site) (v : Word)
  /-- Write of DFLIP_CTL (R213). -/
  | dflipArm (req : Requester) (r : Fin 96) (v : Word)
  /-- Control-channel write of a tile's tag (R128). -/
  | tagArrayWrite (req : Requester) (at_ : Site) (tile : BitVec 13) (v : Word)
  /-- Control-channel read of a raw memory window (R146). -/
  | rawWindowRead (req : Requester) (addr : BitVec 48)
  /-- A write to a guarded register (R459). -/
  | gpFirstHalf (req : Requester) (addr : BitVec 48) (v : Word)
  /-- The deadline of an armed pair passes (R459). -/
  | gpLapse (addr : BitVec 48)
  /-- A write to A+4 that the pair does not accept (R459). -/
  | gpSecondHalfRefused (req : Requester) (addr : BitVec 48) (v : Word)
  /-- A write to a register with no row of its own (R455). -/
  | registerWrite (req : Requester) (addr : BitVec 48) (v : Word)
  /-- A submission entry with a reserved OPC or byte (R245). -/
  | badOpcode (ring : Fin 64) (entry : List Byte)
  /-- A packet no unit can take; `reason` + 1 is the DETAIL of R399 (R173). -/
  | packetDiscard (place : BitVec 32) (type : BitVec 4) (reason : Fin 5)
  /-- A pattern of no recognised form on CHAIN_IN (R426). -/
  | badpat
  /-- Read of TB_LO (R436). -/
  | tbLoRead (req : Requester)
  /-- The SIGN, WRAP, UNWRAP or ERASE in progress ends (R468). -/
  | cryDone
  /-- The active bridge's host link trains (R318). -/
  | hostLinkTrained (rate : BitVec 4) (width : BitVec 5)
  /-- PERST# low or JH removed (R480). -/
  | hostLinkLost
  /-- A region input becomes valid again (R349). -/
  | regionInputValid (r : Fin 96) (side : Side) (depth : BitVec 5)
  /-- No reference valid 1 s after P2 began (R384). -/
  | clockSeedTimeout
  /-- A region in clean hold for 1 s during P3 to P6 (R395). -/
  | clockHoldTimeout (r : Fin 96)
  deriving DecidableEq, Repr

end Sys2Proof
end

