-- ==== Sys2Proof/Machine/Store.lean ====
section
/-!
DEFINITION. Sparse memories. A memory is a list of (address, content) pairs in one canonical form: addresses strictly
rising, and no entry equal to what an unlisted address reads as. `Store.set` keeps that form; `Store.put` keeps the
order and is used where an entry's presence is itself state.
-/
namespace Sys2Proof.Store

variable {α : Type}

/-- What address `a` reads as; `d` is what an unlisted address reads as. -/
def get (d : α) : List (Nat × α) → Nat → α
  | [], _ => d
  | (k, v) :: m, a => if k = a then v else get d m a

/-- The content listed at address `a`, if any. -/
def find : List (Nat × α) → Nat → Option α
  | [], _ => none
  | (k, v) :: m, a => if k = a then some v else find m a

/-- Is address `a` listed? -/
def has : List (Nat × α) → Nat → Bool
  | [], _ => false
  | (k, _) :: m, a => if k = a then true else has m a

/-- The memory without address `a`. -/
def erase (m : List (Nat × α)) (a : Nat) : List (Nat × α) := m.filter fun e => e.1 != a

/-- The memory with `v` listed at `a`, in address order. -/
def put : List (Nat × α) → Nat → α → List (Nat × α)
  | [], a, v => [(a, v)]
  | (k, w) :: m, a, v =>
    if a < k then (a, v) :: (k, w) :: m
    else if a = k then (a, v) :: m
    else (k, w) :: put m a v

/-- The memory with `v` at `a`: the default is never listed. -/
def set [DecidableEq α] (d : α) (m : List (Nat × α)) (a : Nat) (v : α) : List (Nat × α) :=
  if v = d then erase m a else put m a v

/-- The canonical form, for the default `d`. -/
def wf [DecidableEq α] (d : α) : List (Nat × α) → Bool
  | [] => true
  | [(_, v)] => v != d
  | (k, v) :: (k', v') :: m => v != d && k < k' && wf d ((k', v') :: m)

/-- The order half of the canonical form. -/
def sorted : List (Nat × α) → Bool
  | [] => true
  | [_] => true
  | (k, _) :: (k', v') :: m => k < k' && sorted ((k', v') :: m)

/-- Writes of a list of consecutive contents from address `a`. -/
def setMany [DecidableEq α] (d : α) (m : List (Nat × α)) (a : Nat) : List α → List (Nat × α)
  | [] => m
  | v :: vs => setMany d (set d m a v) (a + 1) vs

/-- `n` consecutive contents from address `a`. -/
def getMany (d : α) (m : List (Nat × α)) (a : Nat) : Nat → List α
  | 0 => []
  | n + 1 => get d m a :: getMany d m (a + 1) n

/-- The memory without the addresses from `a` to `a + n - 1`. -/
def eraseRange (m : List (Nat × α)) (a n : Nat) : List (Nat × α) :=
  m.filter fun e => !(a ≤ e.1 && e.1 < a + n)

end Sys2Proof.Store
end

