-- ==== Sys2Proof/Machine/Bits.lean ====
section
/-!
DEFINITION. Bit fields, little-endian byte images (R7), saturation (R463) and the published CRC-32C (R123).
-/
namespace Sys2Proof.Machine

/-- Bits [hi:lo] of `x`, as a number (R7). -/
def bits (x : Nat) (hi lo : Nat) : Nat := (x >>> lo) % 2 ^ (hi + 1 - lo)

/-- `x` with bits [hi:lo] replaced by the low bits of `v`. -/
def setBits (x : Nat) (hi lo v : Nat) : Nat :=
  x - (bits x hi lo) * 2 ^ lo + (v % 2 ^ (hi + 1 - lo)) * 2 ^ lo

/-- Bit `k` of `x`. -/
def bit (x k : Nat) : Bool := x.testBit k

/-- The signed value of the low `w` bits of `x`. -/
def signed (w x : Nat) : Int := (BitVec.ofNat w x).toInt

/-- An integer in `w`-bit two's complement. -/
def wrapInt (w : Nat) (v : Int) : Nat := (BitVec.ofInt w v).toNat

/-- The `n` bytes of `x`, least significant first (R7). -/
def leBytes : Nat → Nat → List Byte
  | 0, _ => []
  | n + 1, x => BitVec.ofNat 8 x :: leBytes n (x / 256)

/-- The number whose little-endian bytes are `bs`. -/
def leNat : List Byte → Nat
  | [] => 0
  | b :: bs => b.toNat + 256 * leNat bs

/-- Byte `i` of an image; bytes past its end read as zero. -/
def byteAt (bs : List Byte) (i : Nat) : Nat := (bs.getD i 0).toNat

/-- The `n`-byte little-endian field at offset `i` of an image. -/
def fieldAt (bs : List Byte) (i n : Nat) : Nat := leNat ((bs.drop i).take n)

/-- `n` bytes at offset `i` of an image. -/
def bytesAt (bs : List Byte) (i n : Nat) : List Byte := (bs.drop i).take n

/-- Every byte of `n` bytes at offset `i` is zero. -/
def zeroAt (bs : List Byte) (i n : Nat) : Bool := ((bs.drop i).take n).all fun b => b == 0

/-- `bs` padded with zero bytes to `n` bytes. -/
def padTo (n : Nat) (bs : List Byte) : List Byte := bs ++ List.replicate (n - bs.length) 0

/-- The 64-bit words of a byte image, the last padded with zeros. `n` is at least the number of words. -/
def toWords : Nat → List Byte → List DWord
  | 0, _ => []
  | n + 1, bs => if bs.isEmpty then [] else BitVec.ofNat 64 (leNat (bs.take 8)) :: toWords n (bs.drop 8)

/-- The byte image of 64-bit words. -/
def ofWords (ws : List DWord) : List Byte := ws.flatMap fun w => leBytes 8 w.toNat

/-- ⌈a / b⌉. -/
def ceilDiv (a b : Nat) : Nat := (a + b - 1) / b

/-- A 32-bit count that saturates (R463). -/
def sat32 (n : Nat) : Nat := Nat.min n 0xFFFFFFFF

/-- The number of bits set among the low `n` bits. -/
def popcount : Nat → Nat → Nat
  | 0, _ => 0
  | n + 1, x => x % 2 + popcount n (x / 2)

/-- The positions of the bits set among bits `k` to `k + n - 1`. -/
def bitList (x : Nat) : Nat → Nat → List Nat
  | 0, _ => []
  | n + 1, k => if bit x k then k :: bitList x n (k + 1) else bitList x n (k + 1)

/-- One bit of the reflected CRC-32C (R123). -/
def crcBit (c : Nat) : Nat := if c % 2 = 1 then (c >>> 1) ^^^ 0x82F63B78 else c >>> 1

/-- One byte of the reflected CRC-32C (R123). -/
def crcByte (c : Nat) (b : Byte) : Nat :=
  crcBit (crcBit (crcBit (crcBit (crcBit (crcBit (crcBit (crcBit (c ^^^ b.toNat))))))))

/-- CRC-32C with the parameters of R123. -/
def crc32c (bs : List Byte) : Nat := (bs.foldl crcByte 0xFFFFFFFF) ^^^ 0xFFFFFFFF

/-- The greatest `n` of at most `k` bits, built on `acc`, with `p n`; `p` holds of 0 and fails for good once it fails. -/
def greatest (p : Nat → Bool) : Nat → Nat → Nat
  | 0, acc => acc
  | k + 1, acc => if p (acc + 2 ^ k) then greatest p k (acc + 2 ^ k) else greatest p k acc

end Sys2Proof.Machine
end

