-- ==== Sys2Proof/Machine/Num.lean ====
section
/-!
DEFINITION. Exact values and the number formats of chapter 02: element decoding (R32 to R34), the one rounding of R47,
the block conversion of R48, the widening test of R52, the records of R35, R36 and R38, and the XS group of R44 and R45.
-/
namespace Sys2Proof.Machine

/-- An exact value of any format: a NaN, an infinity, or (−1)^neg × m × 2^e. A zero keeps its sign (R37, R47). -/
inductive FVal where
  | nan
  | inf (neg : Bool)
  | fin (neg : Bool) (m : Nat) (e : Int)
  deriving DecidableEq, Repr

/-- +0. -/
def FVal.zero : FVal := .fin false 0 0
/-- 1.0. -/
def FVal.one : FVal := .fin false 1 0
/-- Is this a NaN? -/
def FVal.isNan : FVal → Bool | .nan => true | _ => false
/-- Is this a zero of either sign? -/
def FVal.isZero : FVal → Bool | .fin _ 0 _ => true | _ => false
/-- Is this finite? -/
def FVal.isFin : FVal → Bool | .fin _ _ _ => true | _ => false
/-- The sign bit (false for a NaN). -/
def FVal.neg : FVal → Bool | .nan => false | .inf s => s | .fin s _ _ => s
/-- The value with its sign changed. -/
def FVal.negate : FVal → FVal | .nan => .nan | .inf s => .inf (!s) | .fin s m e => .fin (!s) m e
/-- The magnitude. -/
def FVal.abs : FVal → FVal | .nan => .nan | .inf _ => .inf false | .fin _ m e => .fin false m e

/-- A floating-point format: exponent bits, mantissa bits, bias, and which encodings are special (R32, R33). -/
structure FFmt where
  eb : Nat
  mb : Nat
  bias : Nat
  hasInf : Bool
  hasNan : Bool
  deriving DecidableEq, Repr

/-- binary32 (R33). -/
def b32 : FFmt := ⟨8, 23, 127, true, true⟩
/-- BF16 (R33). -/
def bf16 : FFmt := ⟨8, 7, 127, true, true⟩
/-- E2M1, the MXFP4 element (R33). -/
def e2m1 : FFmt := ⟨2, 1, 1, false, false⟩
/-- E2M3, an MXFP6 element (R33). -/
def e2m3 : FFmt := ⟨2, 3, 1, false, false⟩
/-- E3M2, an MXFP6 element (R33). -/
def e3m2 : FFmt := ⟨3, 2, 3, false, false⟩
/-- E4M3, an MXFP8 element with a NaN and no infinity (R33). -/
def e4m3 : FFmt := ⟨4, 3, 7, false, true⟩
/-- E5M2, an MXFP8 element (R33). -/
def e5m2 : FFmt := ⟨5, 2, 15, true, true⟩

/-- The value of an encoding (R32, R33). -/
def decodeF (f : FFmt) (x : Nat) : FVal :=
  let m := x % 2 ^ f.mb
  let e := (x >>> f.mb) % 2 ^ f.eb
  let s := (x >>> (f.mb + f.eb)) % 2 == 1
  if f.hasInf && e == 2 ^ f.eb - 1 then (if m == 0 then .inf s else .nan)
  else if f.hasNan && !f.hasInf && e == 2 ^ f.eb - 1 && m == 2 ^ f.mb - 1 then .nan
  else if e == 0 then .fin s m (1 - (f.bias : Int) - f.mb)
  else .fin s (m + 2 ^ f.mb) ((e : Int) - f.bias - f.mb)

/-- `m` × 2^-k rounded to an integer, to nearest with ties to even (R47). -/
def rneShift (m k : Nat) : Nat :=
  let q := m >>> k
  let r := m % 2 ^ k
  if 2 * r > 2 ^ k || (2 * r == 2 ^ k && q % 2 == 1) then q + 1 else q

/-- The magnitude code (sign bit aside) that `m` × 2^e, not zero, rounds to on the grid of a format without a bound
on its exponent: normals and subnormals, to nearest with ties to even (R47, R48). -/
def roundCode (f : FFmt) (m : Nat) (e : Int) : Nat :=
  let lowest : Int := 1 - (f.bias : Int) - f.mb
  let q : Int := Max.max ((Nat.log2 m : Int) + e - f.mb) lowest
  let n := if q ≤ e then m <<< (e - q).toNat else rneShift m (q - e).toNat
  (q - lowest).toNat * 2 ^ f.mb + n

/-- The exponent-all-ones code of a format, the code of infinity where it has one. -/
def infCode (f : FFmt) : Nat := (2 ^ f.eb - 1) * 2 ^ f.mb

/-- Conversion to binary32 or BF16 by one rounding (R47); the canonical NaN of R37. -/
def roundF (f : FFmt) : FVal → Nat
  | .nan => infCode f + 2 ^ (f.mb - 1)
  | .inf s => (if s then 2 ^ (f.eb + f.mb) else 0) + infCode f
  | .fin s m e =>
    (if s then 2 ^ (f.eb + f.mb) else 0) + (if m = 0 then 0 else Nat.min (roundCode f m e) (infCode f))

/-- The binary32 encoding of a value, rounded once (R47). -/
def r47 (v : FVal) : Word := BitVec.ofNat 32 (roundF b32 v)
/-- The value of a binary32 encoding. -/
def f32 (w : Word) : FVal := decodeF b32 w.toNat
/-- The value `v` rounded once to binary32 (R47). -/
def rv (v : FVal) : FVal := f32 (r47 v)
/-- The value of a BF16 encoding. -/
def fbf (h : Nat) : FVal := decodeF bf16 h

/-- The signed integer `m` × 2^e has over the exponent `q` ≤ e. -/
def alignTo (s : Bool) (m : Nat) (e q : Int) : Int :=
  let n : Int := m <<< (e - q).toNat
  if s then -n else n

/-- The value i × 2^q, with sign `z` if it is zero. -/
def ofSigned (z : Bool) (i q : Int) : FVal :=
  if i = 0 then .fin z 0 0 else .fin (decide (i < 0)) i.natAbs q

/-- The exact sum of two finite values, with sign `z` if the sum is zero. -/
def addFin (z : Bool) (s1 : Bool) (m1 : Nat) (e1 : Int) (s2 : Bool) (m2 : Nat) (e2 : Int) : FVal :=
  let q := Min.min e1 e2
  ofSigned z (alignTo s1 m1 e1 q + alignTo s2 m2 e2 q) q

/-- Exact addition with the operand cases of R65 (and of R113 with the product already formed): opposite infinities
give NaN, zeros of equal sign keep it, and any other exact zero is +0. -/
def addV : FVal → FVal → FVal
  | .nan, _ => .nan
  | _, .nan => .nan
  | .inf a, .inf b => if a = b then .inf a else .nan
  | .inf a, .fin _ _ _ => .inf a
  | .fin _ _ _, .inf b => .inf b
  | .fin s1 m1 e1, .fin s2 m2 e2 =>
    if m1 = 0 ∧ m2 = 0 then .fin (s1 && s2) 0 0 else addFin false s1 m1 e1 s2 m2 e2

/-- Exact product (R113): a NaN operand or ∞ × 0 gives NaN. -/
def mulV : FVal → FVal → FVal
  | .nan, _ => .nan
  | _, .nan => .nan
  | .inf a, .inf b => .inf (a != b)
  | .inf a, .fin s m _ => if m = 0 then .nan else .inf (a != s)
  | .fin s m _, .inf b => if m = 0 then .nan else .inf (s != b)
  | .fin s1 m1 e1, .fin s2 m2 e2 => .fin (s1 != s2) (m1 * m2) (e1 + e2)

/-- `v` × 2^n exactly. -/
def scaleV (n : Int) : FVal → FVal
  | .fin s m e => .fin s m (e + n)
  | v => v

/-- FMA(a, b, c) before its one rounding (R113). -/
def fmaV (a b c : FVal) : FVal := addV (mulV a b) c

/-- Exact comparison of two finite or infinite values: a < b. A NaN compares false (R114). -/
def ltV : FVal → FVal → Bool
  | .nan, _ => false
  | _, .nan => false
  | .inf a, .inf b => a && !b
  | .inf a, .fin _ _ _ => a
  | .fin _ _ _, .inf b => !b
  | .fin s1 m1 e1, .fin s2 m2 e2 =>
    let q := Min.min e1 e2
    decide (alignTo s1 m1 e1 q < alignTo s2 m2 e2 q)

/-- Equality by value; +0 equals −0 and a NaN equals nothing (R114). -/
def eqV (a b : FVal) : Bool := !a.isNan && !b.isNan && !ltV a b && !ltV b a

/-- MAX of R114. -/
def maxV (a b : FVal) : FVal :=
  if a.isNan || b.isNan then .nan
  else if a.isZero && b.isZero then (if a.neg && b.neg then a else .fin false 0 0)
  else if ltV a b then b else a

/-- MIN of R114. -/
def minV (a b : FVal) : FVal :=
  if a.isNan || b.isNan then .nan
  else if a.isZero && b.isZero then (if a.neg || b.neg then .fin true 0 0 else a)
  else if ltV b a then b else a

/-- The order of candidate lists: is value `a` before value `b`, a NaN below −∞ (R77, R102)? -/
def beforeV (a b : FVal) : Bool :=
  if a.isNan then false else if b.isNan then true else ltV b a

/-- Are two values equal in the order of candidate lists? -/
def sameV (a b : FVal) : Bool := (a.isNan && b.isNan) || eqV a b

/-! ### Microscaling blocks -/

/-- A microscaling element format (R30, R33). -/
inductive MxFmt where
  | fp4 | fp6a | fp6b | e4m3 | e5m2 | int8
  deriving DecidableEq, Repr

/-- The floating-point parameters of an element format; MXINT8 has none and reads as E2M1 here, unused. -/
def MxFmt.ff : MxFmt → FFmt
  | .fp4 => Machine.e2m1 | .fp6a => Machine.e2m3 | .fp6b => Machine.e3m2
  | .e4m3 => Machine.e4m3 | .e5m2 => Machine.e5m2 | .int8 => Machine.e2m1

/-- emax of R48. -/
def MxFmt.emax : MxFmt → Int
  | .fp4 => 2 | .fp6a => 2 | .fp6b => 4 | .e4m3 => 8 | .e5m2 => 15 | .int8 => 0

/-- Bits of one element (R30). -/
def MxFmt.width : MxFmt → Nat
  | .fp4 => 4 | .fp6a => 6 | .fp6b => 6 | .e4m3 => 8 | .e5m2 => 8 | .int8 => 8

/-- Bytes of a compact record (R35). -/
def MxFmt.recBytes (f : MxFmt) : Nat := 1 + 4 * f.width

/-- The largest finite code of an element format (R33). -/
def MxFmt.maxCode : MxFmt → Nat
  | .fp4 => 7 | .fp6a => 31 | .fp6b => 31 | .e4m3 => 0x7E | .e5m2 => 0x7B | .int8 => 127

/-- A microscaling block: its E8M0 scale byte and 32 element codes (R34). -/
structure Block where
  scale : Nat
  elems : List Nat
  deriving DecidableEq, Repr

/-- The value of one element code, unscaled (R32, R33). -/
def MxFmt.decode (f : MxFmt) (x : Nat) : FVal :=
  match f with
  | .int8 => let k := signed 8 x; .fin (decide (k < 0)) k.natAbs (-6)
  | _ => decodeF f.ff x

/-- The value of element `i` of a block, scale applied (R34). -/
def Block.value (f : MxFmt) (b : Block) (i : Nat) : FVal :=
  if b.scale = 255 then .nan else scaleV ((b.scale : Int) - 127) (f.decode (b.elems.getD i 0))

/-- The 32 values of a block. -/
def Block.values (f : MxFmt) (b : Block) : List FVal := (List.range 32).map (b.value f)

/-- One element of a block conversion (R48): `v` × 2^-X rounded to the element grid and saturated. -/
def mxElem (f : MxFmt) (x : Int) (v : FVal) : Nat :=
  match v with
  | .fin s m e =>
    match f with
    | .int8 =>
      let e' := e - x + 6
      let n := if 0 ≤ e' then m <<< e'.toNat else rneShift m (-e').toNat
      wrapInt 8 (let k : Int := Nat.min n 127; if s then -k else k)
    | _ =>
      let c := if m = 0 then 0 else Nat.min (roundCode f.ff m (e - x)) f.maxCode
      (if s then 2 ^ (f.width - 1) else 0) + c
  | _ => 0

/-- ⌊log2 m·2^e⌋ for m ≠ 0. -/
def floorLog2 (m : Nat) (e : Int) : Int := (Nat.log2 m : Int) + e

/-- The greatest ⌊log2⌋ among the non-zero finite values, if any. -/
def maxLog2 (vs : List FVal) : Option Int :=
  vs.foldl (fun acc v =>
    match v with
    | .fin _ m e => if m = 0 then acc else
        match acc with
        | none => some (floorLog2 m e)
        | some a => some (Max.max a (floorLog2 m e))
    | _ => acc) none

/-- Conversion of 32 values to one microscaling block (R48). -/
def mxConvert (f : MxFmt) (vs : List FVal) : Block :=
  if vs.all FVal.isFin then
    let x : Int := match maxLog2 vs with
      | none => -127
      | some l => Max.max (-127) (Min.min 127 (l - f.emax))
    ⟨(x + 127).toNat, vs.map (mxElem f x)⟩
  else ⟨255, List.replicate 32 0⟩

/-- A widening descriptor (R51): W, TOL, NEG and the wide format. -/
structure WidenDesc where
  w : Nat
  tol : Nat
  neg : Nat
  wide : MxFmt
  deriving DecidableEq, Repr

/-- The fields of a 16-bit widening descriptor (R51). -/
def WidenDesc.ofNat (x : Nat) : WidenDesc :=
  ⟨bits x 5 0, bits x 9 6, bits x 13 10, if bit x 14 then .e5m2 else .e4m3⟩

/-- The greatest magnitude of a list of values. -/
def amax (vs : List FVal) : FVal := vs.foldl (fun a v => if ltV a v.abs then v.abs else a) FVal.zero

/-- Does element `v`, which became `q`, count in the widening test (R52)? -/
def lossy (d : WidenDesc) (top v q : FVal) : Bool :=
  if !q.isZero then ltV v.abs (scaleV d.tol (addV v q.negate).abs)
  else !v.isZero && !ltV v.abs (scaleV (-(d.neg : Int)) top)

/-- The count of the widening test (R52). -/
def lossCount (d : WidenDesc) (vs : List FVal) (q : Block) : Nat :=
  ((List.range 32).filter fun i => lossy d (amax vs) (vs.getD i FVal.zero) (q.value .fp4 i)).length

/-- Tested narrowing at a widening point (R52): the block and the format it travels in. -/
def narrowTested (d : WidenDesc) (vs : List FVal) : MxFmt × Block :=
  let q := mxConvert .fp4 vs
  if q.scale = 255 then (.fp4, q)
  else if lossCount d vs q > d.w then (d.wide, mxConvert d.wide vs) else (.fp4, q)

/-! ### Records -/

/-- Elements packed little-endian, `w` bits each (R35). -/
def packElems (w : Nat) (es : List Nat) : Nat := es.foldr (fun x acc => x % 2 ^ w + acc * 2 ^ w) 0

/-- `n` elements of `w` bits unpacked from a number. -/
def unpackElems (w n x : Nat) : List Nat := (List.range n).map fun i => (x >>> (w * i)) % 2 ^ w

/-- The compact record of a block (R35). -/
def compact (f : MxFmt) (b : Block) : List Byte :=
  BitVec.ofNat 8 b.scale :: leBytes (4 * f.width) (packElems f.width b.elems)

/-- The block of a compact record (R35). -/
def ofCompact (f : MxFmt) (bs : List Byte) : Block :=
  ⟨byteAt bs 0, unpackElems f.width 32 (fieldAt bs 1 (4 * f.width))⟩

/-- The tag of a block's format in a tagged slot (R36). -/
def tagOf : MxFmt → Nat | .fp4 => 4 | .e4m3 => 8 | .e5m2 => 9 | _ => 0

/-- The format a tag names; other tags are reserved (R36). -/
def ofTag : Nat → Option MxFmt | 4 => some .fp4 | 8 => some .e4m3 | 9 => some .e5m2 | _ => none

/-- The 34-byte tagged slot of a block (R36). -/
def tagged (f : MxFmt) (b : Block) : List Byte := BitVec.ofNat 8 (tagOf f) :: padTo 33 (compact f b)

/-- The format and block of a tagged slot; none for a reserved TAG (R36). -/
def ofTagged (bs : List Byte) : Option (MxFmt × Block) :=
  (ofTag (byteAt bs 0)).map fun f => (f, ofCompact f (bs.drop 1))

/-! ### Single-origin accumulators and XS groups -/

/-- A single-origin accumulator: the integer A of R41 and its three sticky flags. -/
structure Acc where
  a : Int
  pinf : Bool
  ninf : Bool
  nan : Bool
  deriving DecidableEq, Repr

/-- The reset state of an accumulator (R41). -/
def Acc.reset : Acc := ⟨0, false, false, false⟩

/-- Is an integer in the 640-bit range of R41? -/
def accInRange (a : Int) : Bool := decide (-(2 ^ 639 : Int) ≤ a) && decide (a < (2 ^ 639 : Int))

/-- The accumulator-grid integer of a finite value (R41); every device product lies on the grid (R42). -/
def gridInt (s : Bool) (m : Nat) (e : Int) : Int :=
  let n : Int := if 0 ≤ e + 320 then (m <<< (e + 320).toNat : Nat) else (m >>> (-(e + 320)).toNat : Nat)
  if s then -n else n

/-- Exact addition of a value (R41, R67); none when the result would leave the range (R69). -/
def Acc.add (x : Acc) (v : FVal) : Option Acc :=
  match v with
  | .nan => some { x with nan := true }
  | .inf true => some { x with ninf := true }
  | .inf false => some { x with pinf := true }
  | .fin s m e =>
    let a := x.a + gridInt s m e
    if accInRange a then some { x with a := a } else none

/-- Exact addition of one accumulator into another (R70): integers add and flags join; none out of range (R69). -/
def Acc.fold (x y : Acc) : Option Acc :=
  if accInRange (x.a + y.a) then some ⟨x.a + y.a, x.pinf || y.pinf, x.ninf || y.ninf, x.nan || y.nan⟩ else none

/-- The exact value of an accumulator, by its flags (R43). -/
def Acc.val (x : Acc) : FVal :=
  if x.nan || (x.pinf && x.ninf) then .nan
  else if x.pinf then .inf false
  else if x.ninf then .inf true
  else ofSigned false x.a (-320)

/-- The 88-byte exact record of an accumulator (R70). -/
def accRecord (x : Acc) : List Byte :=
  leBytes 80 (wrapInt 640 x.a) ++
    [BitVec.ofNat 8 ((if x.pinf then 4 else 0) + (if x.ninf then 2 else 0) + (if x.nan then 1 else 0))] ++ List.replicate 7 0

/-- The accumulator of an 88-byte exact record (R70). -/
def ofAccRecord (bs : List Byte) : Acc :=
  let f := byteAt bs 80
  ⟨signed 640 (fieldAt bs 0 80), bit f 2, bit f 1, bit f 0⟩

/-- width(v) of R45: the least n with −2^n ≤ v < 2^n. -/
def xsWidth (v : Int) : Nat :=
  if 0 ≤ v then (if v = 0 then 0 else Nat.log2 v.toNat + 1)
  else (let n := (-v - 1).toNat; if n = 0 then 0 else Nat.log2 n + 1)

/-- The canonical XS encoding of 32 accumulator integers (R44, R45). -/
def xsEncode (a : List Int) : List Byte :=
  let m := a.foldl (fun w v => Nat.max w (xsWidth v)) 0
  let b := m - 255
  let escaped (v : Int) : Bool := decide (v % (2 ^ b : Int) ≠ 0)
  let esc := packElems 1 (a.map fun v => if escaped v then 1 else 0)
  leBytes 2 b ++ leBytes 4 esc ++ leBytes 2 0
    ++ a.flatMap (fun v => leBytes 32 (if escaped v then 0 else wrapInt 256 (v / (2 ^ b : Int))))
    ++ (a.filter escaped).flatMap (fun v => leBytes 80 (wrapInt 640 v))

/-- The values of an XS group (R44); none when its base or a reserved field is refused (R45). -/
def xsDecode (bs : List Byte) : Option (List Int) :=
  let base := fieldAt bs 0 2
  let b := bits base 9 0
  let esc := fieldAt bs 2 4
  if b > 384 || bits base 15 10 != 0 || fieldAt bs 6 2 != 0 then none
  else some ((List.range 32).map fun i =>
    if bit esc i then signed 640 (fieldAt bs (1032 + 80 * popcount i esc) 80)
    else signed 256 (fieldAt bs (8 + 32 * i) 32) * (2 ^ b : Int))

/-- The bytes of an XS group, from its escape mask (R44). -/
def xsBytes (bs : List Byte) : Nat := 1032 + 80 * popcount 32 (fieldAt bs 2 4)

/-- The 16-byte flag word of 32 accumulators (R105): bit 0 PINF, bit 1 NINF, bit 2 NAN of each 4-bit field. -/
def flagWord (xs : List Acc) : List Byte :=
  leBytes 16 (packElems 4 (xs.map fun x => (if x.pinf then 1 else 0) + (if x.ninf then 2 else 0) + (if x.nan then 4 else 0)))

/-- The AFX image of 32 accumulators (R105): the flag word, then the XS group. -/
def afxImage (xs : List Acc) : List Byte := flagWord xs ++ xsEncode (xs.map Acc.a)

/-- The accumulators of an AFX image (R105); none for a refused group (R45). -/
def ofAfx (bs : List Byte) : Option (List Acc) :=
  (xsDecode (bs.drop 16)).map fun as =>
    (List.range 32).map fun i =>
      let f := bits (fieldAt bs 0 16) (4 * i + 3) (4 * i)
      ⟨as.getD i 0, bit f 0, bit f 1, bit f 2⟩

end Sys2Proof.Machine
end

