-- ==== Sys2Proof/Machine/Operands.lean ====
section
/-!
DEFINITION. The operand forms of a bundle: the six slots of R89, the operation descriptor of R93, the transfer
descriptor of R105, the route descriptor of R108, and the operands that a slot row and a bundle slot share.
-/
namespace Sys2Proof.Machine

/-- Bits [hi:lo] of a program word. -/
def wbits (w : ProgWord) (hi lo : Nat) : Nat := bits w.toNat hi lo

/-- Byte fields of a descriptor word: `n` bytes at offset `o`. -/
def wbytes (w : ProgWord) (o n : Nat) : Nat := bits w.toNat (8 * (o + n) - 1) (8 * o)

/-- The VEC slot (R98). -/
structure VecSlot where
  op : Nat
  d : Nat
  a : Nat
  b : Nat
  c : Nat
  p : Nat
  m : Nat
  l0 : Nat
  x : Nat
  deriving DecidableEq, Repr

/-- The VEC slot of a bundle (R89, R98). -/
def VecSlot.ofWord (w : ProgWord) : VecSlot :=
  let v := wbits w 191 128
  ⟨bits v 63 56, bits v 55 51, bits v 50 46, bits v 45 41, bits v 40 36, bits v 35 34, bits v 33 30, bits v 29 22,
   bits v 21 14⟩

/-- A VEC slot of an elementwise operation: M = 0, L0 = 0 and X = 0 (R98). -/
def VecSlot.plain (op d a b c p : Nat) : VecSlot := ⟨op, d, a, b, c, p, 0, 0, 0⟩

/-- The PRESS and POUR slots (R92). -/
structure EngSlot where
  op : Nat
  daddr : Nat
  half : Bool
  accb : Nat
  tile : Nat
  low : Nat
  deriving DecidableEq, Repr

/-- A 48-bit engine slot (R92). -/
def EngSlot.ofNat (v : Nat) : EngSlot :=
  ⟨bits v 47 44, bits v 43 30, bit v 29, bits v 28 21, bits v 20 8, bits v 7 0⟩

/-- The operation descriptor (R93). -/
structure OpDesc where
  kind : Nat
  wfmt : Nat
  afmt : Nat
  rows : Nat
  ksteps : Nat
  units : Nat
  rsv : Nat
  init : Nat
  biash : Nat
  cblen : Nat
  pbytes : Nat
  ntiles : Nat
  deriving DecidableEq, Repr

/-- The operation descriptor in a program word (R93). -/
def OpDesc.ofWord (w : ProgWord) : OpDesc :=
  ⟨wbytes w 0 1, wbytes w 1 1, wbytes w 2 1, wbytes w 3 1, wbytes w 4 2, wbytes w 6 2, wbytes w 8 1, wbytes w 9 1,
   wbytes w 10 1, wbytes w 12 2, wbytes w 14 2, wbytes w 16 4⟩

/-- The transfer descriptor (R105). -/
structure XferDesc where
  kind : Nat
  port : Nat
  h : Nat
  h2 : Nat
  off : Nat
  off2 : Nat
  len : Nat
  const : DWord
  cvt : Nat
  vsel : Nat
  acc0 : Nat
  deriving DecidableEq, Repr

/-- The transfer descriptor in a program word (R105). -/
def XferDesc.ofWord (w : ProgWord) : XferDesc :=
  ⟨wbytes w 0 1, wbytes w 1 1, wbytes w 2 1, wbytes w 3 1, wbytes w 4 4, wbytes w 8 4, wbytes w 12 4,
   BitVec.ofNat 64 (wbytes w 16 8), wbytes w 24 1, wbytes w 25 1, wbytes w 26 1⟩

/-- The route descriptor (R108). -/
structure RouteDesc where
  sink : Nat
  srca : Nat
  srcb : Nat
  rmode : Nat
  beats : Nat
  lh : Nat
  frame : Nat
  loff : Nat
  deriving DecidableEq, Repr

/-- The route descriptor in a program word (R108). -/
def RouteDesc.ofWord (w : ProgWord) : RouteDesc :=
  ⟨wbytes w 0 1, wbytes w 1 1, wbytes w 2 1, wbytes w 3 1, wbytes w 4 2, wbytes w 6 1, wbytes w 7 1, wbytes w 8 4⟩

/-- A buffer handle's registers (R135). -/
structure Handle where
  en : Bool
  wp : Bool
  dm : Bool
  il : Nat
  lbank : Nat
  row : Nat
  lenw : Nat
  deriving DecidableEq, Repr

/-- Banks of an interleave code (R135). -/
def ilBanks (k : Nat) : Nat := [1, 2, 4, 8, 16, 24].getD k 1

/-- The handle in HANDLE_LO and HANDLE_HI (R135). -/
def Handle.ofRegs (lo hi : Nat) : Handle :=
  ⟨bit lo 31, bit lo 30, bit lo 29, ilBanks (bits lo 28 26), bits lo 25 21, bits lo 12 0, bits hi 17 0⟩

/-- The physical bank of logical bank `l` under a mask of retired banks (R136); none when too few are left. -/
def physBank (mask l : Nat) : Option Nat := ((List.range 24).filter fun b => !bit mask b)[l]?

/-- The bank-row address, bank × 8,192 + row, of word `w` of a handle (R136). -/
def Handle.word (h : Handle) (mask w : Nat) : Option Nat :=
  (physBank mask (h.lbank + w % h.il)).map fun b => b * 8192 + (h.row + w / h.il)

/-- Bank rows that words `w0` to `w1` of a handle touch (R139). -/
def Handle.rows (h : Handle) (w0 w1 : Nat) : Nat := w1 / h.il - w0 / h.il + 1

/-- Is a BF16 pair selected (R98)? -/
def pairBit (b : Bool) : Nat := if b then 1 else 0

/-- Pass factor of a weight format (R57). -/
def wFactor (wfmt : Nat) : Nat := if wfmt = 0 then 1 else if wfmt ≤ 3 then 2 else 4

/-- The D of a press operation (R96). -/
def pressD (d : OpDesc) : Nat :=
  if d.afmt = 0 then
    (d.ksteps + (d.ksteps / 32) * d.rsv + d.rsv * (d.ksteps % 32) / 32) * wFactor d.wfmt
  else d.ksteps * 4 * wFactor d.wfmt

/-- The cap column of R61. -/
def pourCap (d : OpDesc) : Nat :=
  if d.afmt = 1 then 2048
  else if d.wfmt = 0 then 8192 else if d.wfmt ≤ 3 then 4096 else if d.wfmt = 4 then 2048 else 8192

/-- The D of a pour operation (R96). -/
def pourD (d : OpDesc) : Nat :=
  Nat.max (ceilDiv (d.ntiles * 16384) d.pbytes) (ceilDiv (d.units * d.ksteps * 32 * d.rows) (pourCap d))

/-- The duration of an engine operation (R96). -/
def OpDesc.dur (d : OpDesc) : Nat := if d.kind = 1 then pressD d else pourD d

/-- The duration of a CBLOAD of `nt` tiles (R92): ⌈6.4 × nt⌉. -/
def cbloadD (nt : Nat) : Nat := ceilDiv (64 * nt) 10

/-- Latency of a vector opcode (R99). -/
def vecLatency (op m : Nat) : Nat :=
  if op = 0x22 ∨ op = 0x23 ∨ op = 0x24 ∨ op = 0x25 ∨ op = 0x26 ∨ op = 0x27 ∨ op = 0x53 then 8
  else if 0x30 ≤ op ∧ op ≤ 0x33 then 12
  else if op = 0x34 ∨ op = 0x35 then 24
  else if 0x40 ≤ op ∧ op ≤ 0x42 then 4 * (1 + (m + 1) / 2)
  else if op = 0x43 then 4 + 28 * m
  else if op = 0x44 then 4 * (2 + m)
  else 4

/-- The added latency of a route mode (R109). -/
def routeLatency (rmode : Nat) : Nat :=
  if rmode = 0 then 0 else if rmode = 4 then 1 else if rmode = 1 ∨ rmode = 2 then 2
  else if rmode = 3 ∨ rmode = 6 then 4 else 8

/-- Blocks of frame `f` of a framed stream of `nblk` blocks (R156). -/
def frameBlocks (nblk f : Nat) : Nat := Nat.min 32 (nblk - 32 * f)

/-- Beats of a frame of `nb` blocks, `w` of them wide (R154). -/
def frameBeats (nb w : Nat) : Nat := ceilDiv (8 + 17 * nb + 16 * w) 128

/-- Allotment of a frame (R156). -/
def frameAllot (rsv nb : Nat) : Nat := frameBeats nb (rsv * nb / 32)

/-- Local time of a frame (R156). -/
def frameLocal (nb : Nat) : Nat := ceilDiv (ceilDiv (34 * nb) 8) 24

/-- Period of a frame (R156). -/
def framePeriod (loc : Bool) (rsv nb : Nat) : Nat :=
  if loc then Nat.max (frameAllot rsv nb) (frameLocal nb) else frameAllot rsv nb

end Sys2Proof.Machine
end

