-- ==== Sys2Proof/Config.lean ====
section
/-!
DEFINITION. What one unit fixes and what the manual leaves open: the fuses, the error-code outcomes beyond its stated
properties, and the published cryptographic functions and keys as uninterpreted functions. Nothing here has a body.
-/
namespace Sys2Proof

/-- The values fused at manufacture (R466, R307). `owner` is the 64 words of FUSE_OWNER in address order. -/
structure Fuses where
  serial : List Byte
  silrev : Nat
  archrev : Nat
  variant : Variant
  pcap : Nat
  fmax : Nat
  svnmin : Nat
  prog : Nat
  revoked : Nat
  mac : Nat
  owner : List Word
  vermax : Nat
  deriving DecidableEq, Repr, Inhabited

/-- The fused ACLK limit of each part, MHz (R1). -/
def Variant.limit : Variant → Nat
  | .s => 3000
  | .m => 2700
  | .e => 2200

/-- The fused power cap of each part, W (R1, R19). -/
def Variant.cap : Variant → Nat
  | .s => 24000
  | .m => 18000
  | .e => 12000

/-- The largest 12 V input current of each part, A (R1). -/
def Variant.current : Variant → Nat
  | .s => 2250
  | .m => 1688
  | .e => 1125

/-- Fuses of a part as R1 has them: its power cap and its ACLK limit. -/
def Fuses.ofPart (f : Fuses) : Fuses := { f with pcap := f.variant.cap, fmax := f.variant.limit }

/-- The fuses of this unit as manufactured, but for what R1 fixes for its part. -/
opaque Config.fuses : Fuses

/-- What a check-bit decoder makes of three or more bit errors in one unit of `w` bits with error pattern `p`: not
covered by the properties of R131. `none`: detected; `some q`: accepted or miscorrected, leaving data pattern `q`. -/
opaque Config.manyErrors (w p : Nat) : Option Nat

/-- The syndrome that an entry reports for error pattern `p` in a unit of `w` bits: the equations of the code are not
part of the architecture revision (R131). -/
opaque Config.syndrome (w p : Nat) : Nat

/-- Records that a region's SMPQ can hold: the manual gives no depth (R105, R266). -/
opaque Config.samplerDepth : Nat

/-- Where Vybin port `p` stands along its segment, as a mesh row or column: the spec leaves it open (log 120). -/
opaque Config.portPlace (p : Nat) : Nat

/-- AES-256-GCM decryption of R281: key, IV, associated data, ciphertext and 16-byte tag; none when the tag is wrong. -/
opaque Config.gcmOpen (key iv aad ct tag : List Byte) : Option (List Byte)

/-- AES-256-GCM encryption of R281: ciphertext and tag. -/
opaque Config.gcmSeal (key iv aad pt : List Byte) : List Byte

/-- RSAES-OAEP decryption (R282) of a 512-byte blob with this module's key-transport key; none when decoding fails. -/
opaque Config.oaepOpen (blob : List Byte) : Option (List Byte)

/-- RSAES-OAEP encryption (R282) under a modulus, with randomness drawn as number `n`. -/
opaque Config.oaepSeal (modulus pt : List Byte) (n : Nat) : List Byte

/-- The RSASSA-PSS signature (R290) of a message by this module's identity key, with the salt drawn as number `n`. -/
opaque Config.pssSign (msg : List Byte) (n : Nat) : List Byte

/-- Does a signature verify under the identity key that a certificate chain certifies? -/
opaque Config.pssVerify (chain msg sig : List Byte) : Bool

/-- Is a certificate chain valid to the Ikiore root (R290)? -/
opaque Config.chainOk (chain : List Byte) : Bool

/-- Does an RSASSA-PSS signature over a message verify under an RSA-4096 modulus (R381)? -/
opaque Config.rsaVerify (modulus msg sig : List Byte) : Bool

/-- The digest of the Ikiore firmware root, held by the boot ROM (R382). -/
opaque Config.rootDigest : List Byte

/-- The key-transport modulus that a certificate chain reports (R282). -/
opaque Config.chainModulus (chain : List Byte) : List Byte

/-- This module's certificate chain (R290). -/
opaque Config.ownChain : List Byte

/-- The certificate chain of this module's key-transport key (R449). -/
opaque Config.ktChain : List Byte

/-- The payload of the IEEE 802.1AS response to peer-delay request number `seq`, received at time `ns` (R434). -/
opaque Config.pdelayResp (seq ns : Nat) : List Byte

/-- VINIT(t), mV above 600, of a region whose ring-oscillator count is `ro` at tuning step `t`: a table that is not part of
the architecture revision (R340). -/
opaque Config.vinit (ro t : Nat) : Nat

/-- The results of runs 4, 6 and 7 and the special-function results of run 3 that a usable cluster gives, in run order: the
architecture revision's, of which the manual gives no value (R392, R393). -/
opaque Config.kaResults : List Byte

/-- The exact store of the run-8 sum of the architecture revision (R393), of which the manual gives no value; 88 bytes are read. -/
opaque Config.kaSpread : List Byte

/-- What host memory answers when a register write that comes with no host data starts a read of it, as read number `n`: a
failure or bytes. -/
opaque Config.hostBytes (n : Nat) : Option (List Byte)

/-- What a DRAM word holds after its content was lost for the `v`th time, by the word's key (R210, R420). -/
opaque Config.lostWord (v key : Nat) : Nat

/-- A fresh value of `w` bits that the manual leaves open; `n` counts the free values taken. -/
opaque Config.freeValue (n : Nat) : Nat

end Sys2Proof
end

