-- ==== Sys2Proof/Machine/Regs.lean ====
section
/-!
DEFINITION. The control registers of the module: addresses and fields under the names of the register tables of
chapters 05 to 17, the access of every field (R455) and the reset values (R462), and the address map of R17, R18
and R456.
-/
namespace Sys2Proof.Machine

/-- A field of a control register: its address and bits [hi:lo]. -/
structure Fld where
  addr : Nat
  hi : Nat
  lo : Nat
  deriving DecidableEq, Repr

/-- Base of region r's window (R17). -/
def regionBase (r : Nat) : Nat := 0x200000000000 + r * 0x200000000
/-- Base of the window of cluster c of region r (R18). -/
def clusterBase (r c : Nat) : Nat := regionBase r + c * 0x10000000
/-- Base of stack n's window (R17). -/
def stackBase (n : Nat) : Nat := 0x100000000000 + n * 0x2000000000
/-- Base of control memory (R456). -/
def cmemBase : Nat := 0x800000000

namespace Rg

/-- SPFLIP_D0 (R144). -/
def SPFLIP_D0 (r c : Nat) : Nat := clusterBase r c + 0xF000410
/-- SPFLIP_D1 (R144). -/
def SPFLIP_D1 (r c : Nat) : Nat := clusterBase r c + 0xF000414
/-- SPFLIP_CTL (R144). -/
def SPFLIP_CTL (r c : Nat) : Nat := clusterBase r c + 0xF000418
/-- SPFLIP_CTL.ARM (R144). -/
def SPFLIP_CTL_ARM (r c : Nat) : Fld := ⟨SPFLIP_CTL r c, 31, 31⟩
/-- SPFLIP_CTL.BANK (R144). -/
def SPFLIP_CTL_BANK (r c : Nat) : Fld := ⟨SPFLIP_CTL r c, 12, 8⟩
/-- SPFLIP_CTL.CHK (R144). -/
def SPFLIP_CTL_CHK (r c : Nat) : Fld := ⟨SPFLIP_CTL r c, 7, 0⟩
/-- WTCRC_TEST (R144). -/
def WTCRC_TEST (r c : Nat) : Nat := clusterBase r c + 0xF000420
/-- WTCRC_TEST.ARM (R144). -/
def WTCRC_TEST_ARM (r c : Nat) : Fld := ⟨WTCRC_TEST r c, 31, 31⟩
/-- WTCRC_TEST.TILE (R144). -/
def WTCRC_TEST_TILE (r c : Nat) : Fld := ⟨WTCRC_TEST r c, 12, 0⟩
/-- FRTAB_LO (R155). -/
def FRTAB_LO (r c : Nat) (i : Nat) : Nat := clusterBase r c + 0xF000600 + 8 * i
/-- FRTAB_LO.EN (R155). -/
def FRTAB_LO_EN (r c : Nat) (i : Nat) : Fld := ⟨FRTAB_LO r c i, 31, 31⟩
/-- FRTAB_LO.DADDR (R155). -/
def FRTAB_LO_DADDR (r c : Nat) (i : Nat) : Fld := ⟨FRTAB_LO r c i, 19, 6⟩
/-- FRTAB_LO.RSV (R155). -/
def FRTAB_LO_RSV (r c : Nat) (i : Nat) : Fld := ⟨FRTAB_LO r c i, 5, 0⟩
/-- FRTAB_HI (R155). -/
def FRTAB_HI (r c : Nat) (i : Nat) : Nat := clusterBase r c + 0xF000604 + 8 * i
/-- FRTAB_HI.NBLK (R155). -/
def FRTAB_HI_NBLK (r c : Nat) (i : Nat) : Fld := ⟨FRTAB_HI r c i, 19, 0⟩
/-- QSTAT (R161). -/
def QSTAT (r : Nat) (i : Nat) : Nat := regionBase r + 0x1F0001000 + 4 * i
/-- QSTAT.FENCED (R161). -/
def QSTAT_FENCED (r : Nat) (i : Nat) : Fld := ⟨QSTAT r i, 31, 31⟩
/-- QSTAT.WAIT (R161). -/
def QSTAT_WAIT (r : Nat) (i : Nat) : Fld := ⟨QSTAT r i, 30, 30⟩
/-- QSTAT.OCC (R161). -/
def QSTAT_OCC (r : Nat) (i : Nat) : Fld := ⟨QSTAT r i, 22, 16⟩
/-- QSTAT.DEPTH (R161). -/
def QSTAT_DEPTH (r : Nat) (i : Nat) : Fld := ⟨QSTAT r i, 6, 0⟩
/-- QRET_LO (R161). -/
def QRET_LO (r : Nat) (i : Nat) : Nat := regionBase r + 0x1F0001100 + 8 * i
/-- QRET_HI (R161). -/
def QRET_HI (r : Nat) (i : Nat) : Nat := regionBase r + 0x1F0001104 + 8 * i
/-- QCTL (R161). -/
def QCTL (r : Nat) : Nat := regionBase r + 0x1F0001200
/-- QCTL.LIMEXP (R161). -/
def QCTL_LIMEXP (r : Nat) : Fld := ⟨QCTL r, 4, 0⟩
/-- REMAPSTAT (R186). -/
def REMAPSTAT (r : Nat) : Nat := regionBase r + 0x1F0000300
/-- REMAPSTAT.V1 (R186). -/
def REMAPSTAT_V1 (r : Nat) : Fld := ⟨REMAPSTAT r, 31, 31⟩
/-- REMAPSTAT.COV1 (R186). -/
def REMAPSTAT_COV1 (r : Nat) : Fld := ⟨REMAPSTAT r, 28, 24⟩
/-- REMAPSTAT.SPR1 (R186). -/
def REMAPSTAT_SPR1 (r : Nat) : Fld := ⟨REMAPSTAT r, 20, 16⟩
/-- REMAPSTAT.V0 (R186). -/
def REMAPSTAT_V0 (r : Nat) : Fld := ⟨REMAPSTAT r, 15, 15⟩
/-- REMAPSTAT.COV0 (R186). -/
def REMAPSTAT_COV0 (r : Nat) : Fld := ⟨REMAPSTAT r, 12, 8⟩
/-- REMAPSTAT.SPR0 (R186). -/
def REMAPSTAT_SPR0 (r : Nat) : Fld := ⟨REMAPSTAT r, 4, 0⟩
/-- ENVELOPE (R195). -/
def ENVELOPE (r : Nat) : Nat := regionBase r + 0x1F0000200
/-- ENVELOPE.AUENV (R195). -/
def ENVELOPE_AUENV (r : Nat) : Fld := ⟨ENVELOPE r, 20, 0⟩
/-- AU_WIN (R195). -/
def AU_WIN (r : Nat) : Nat := regionBase r + 0x1F0000204
/-- AU_WIN.COUNT (R195). -/
def AU_WIN_COUNT (r : Nat) : Fld := ⟨AU_WIN r, 20, 0⟩
/-- AU_PEAK (R195). -/
def AU_PEAK (r : Nat) : Nat := regionBase r + 0x1F0000208
/-- AU_PEAK.CLR (R195). -/
def AU_PEAK_CLR (r : Nat) : Fld := ⟨AU_PEAK r, 31, 31⟩
/-- AU_PEAK.PEAK (R195). -/
def AU_PEAK_PEAK (r : Nat) : Fld := ⟨AU_PEAK r, 20, 0⟩
/-- STALL_AU (R195). -/
def STALL_AU (r : Nat) : Nat := regionBase r + 0x1F000020C
/-- IMG_STAT (R196). -/
def IMG_STAT : Nat := 0x10040
/-- IMG_STAT.STATE (R196). -/
def IMG_STAT_STATE : Fld := ⟨IMG_STAT, 31, 28⟩
/-- IMG_STAT.PLACE (R196). -/
def IMG_STAT_PLACE : Fld := ⟨IMG_STAT, 27, 24⟩
/-- IMG_STAT.CODE (R196). -/
def IMG_STAT_CODE : Fld := ⟨IMG_STAT, 15, 0⟩
/-- KVSALT (R239). -/
def KVSALT : Nat := 0x10100
/-- SEQBASE (R239). -/
def SEQBASE : Nat := 0x10104
/-- PFX_NODEBASE (R239). -/
def PFX_NODEBASE : Nat := 0x10108
/-- PFX_BUCKBASE (R239). -/
def PFX_BUCKBASE : Nat := 0x1010C
/-- PFX_CFG (R239). -/
def PFX_CFG : Nat := 0x10110
/-- PFX_CFG.NBEXP (R239). -/
def PFX_CFG_NBEXP : Fld := ⟨PFX_CFG, 28, 24⟩
/-- PFX_CFG.NNODE (R239). -/
def PFX_CFG_NNODE : Fld := ⟨PFX_CFG, 23, 0⟩
/-- PFX_EPOCH (R239). -/
def PFX_EPOCH : Nat := 0x10114
/-- PFX_LAUNCH (R239). -/
def PFX_LAUNCH : Nat := 0x10118
/-- PFX_STAT (R239). -/
def PFX_STAT : Nat := 0x1011C
/-- PFX_STAT.BUSY (R239). -/
def PFX_STAT_BUSY : Fld := ⟨PFX_STAT, 2, 0⟩
/-- SQBASE_LO (R241). -/
def SQBASE_LO (i : Nat) : Nat := 0x11000 + 64 * i
/-- SQBASE_HI (R241). -/
def SQBASE_HI (i : Nat) : Nat := 0x11004 + 64 * i
/-- CQBASE_LO (R241). -/
def CQBASE_LO (i : Nat) : Nat := 0x11008 + 64 * i
/-- CQBASE_HI (R241). -/
def CQBASE_HI (i : Nat) : Nat := 0x1100C + 64 * i
/-- RCFG (R241). -/
def RCFG (i : Nat) : Nat := 0x11010 + 64 * i
/-- RCFG.EN (R241). -/
def RCFG_EN (i : Nat) : Fld := ⟨RCFG i, 31, 31⟩
/-- RCFG.CQLOG (R241). -/
def RCFG_CQLOG (i : Nat) : Fld := ⟨RCFG i, 9, 5⟩
/-- RCFG.SQLOG (R241). -/
def RCFG_SQLOG (i : Nat) : Fld := ⟨RCFG i, 4, 0⟩
/-- SQTAIL (R241). -/
def SQTAIL (i : Nat) : Nat := 0x11014 + 64 * i
/-- SQTAIL.IDX (R241). -/
def SQTAIL_IDX (i : Nat) : Fld := ⟨SQTAIL i, 23, 0⟩
/-- SQHEAD (R241). -/
def SQHEAD (i : Nat) : Nat := 0x11018 + 64 * i
/-- SQHEAD.IDX (R241). -/
def SQHEAD_IDX (i : Nat) : Fld := ⟨SQHEAD i, 23, 0⟩
/-- CQHEAD (R241). -/
def CQHEAD (i : Nat) : Nat := 0x1101C + 64 * i
/-- CQHEAD.IDX (R241). -/
def CQHEAD_IDX (i : Nat) : Fld := ⟨CQHEAD i, 23, 0⟩
/-- CQTAIL (R241). -/
def CQTAIL (i : Nat) : Nat := 0x11020 + 64 * i
/-- CQTAIL.IDX (R241). -/
def CQTAIL_IDX (i : Nat) : Fld := ⟨CQTAIL i, 23, 0⟩
/-- RQTAB (R263). -/
def RQTAB : Nat := 0x10200
/-- RQTAB.OFF (R263). -/
def RQTAB_OFF : Fld := ⟨RQTAB, 27, 0⟩
/-- TENTAB (R263). -/
def TENTAB : Nat := 0x10204
/-- TENTAB.OFF (R263). -/
def TENTAB_OFF : Fld := ⟨TENTAB, 27, 0⟩
/-- ROWRING (R263). -/
def ROWRING : Nat := 0x10208
/-- ROWRING.OFF (R263). -/
def ROWRING_OFF : Fld := ⟨ROWRING, 27, 0⟩
/-- CTXBASE (R263). -/
def CTXBASE : Nat := 0x1020C
/-- CTXN (R263). -/
def CTXN : Nat := 0x10210
/-- CTXN.N (R263). -/
def CTXN_N : Fld := ⟨CTXN, 17, 0⟩
/-- ADM_CMD (R263). -/
def ADM_CMD : Nat := 0x10600
/-- ADM_CMD.KIND (R263). -/
def ADM_CMD_KIND : Fld := ⟨ADM_CMD, 31, 31⟩
/-- ADM_CMD.N (R263). -/
def ADM_CMD_N : Fld := ⟨ADM_CMD, 20, 0⟩
/-- ADM_LIST (R263). -/
def ADM_LIST : Nat := 0x10604
/-- ADM_LIST.OFF (R263). -/
def ADM_LIST_OFF : Fld := ⟨ADM_LIST, 27, 0⟩
/-- ADM_RES (R263). -/
def ADM_RES : Nat := 0x10608
/-- ADM_RES.DONE (R263). -/
def ADM_RES_DONE : Fld := ⟨ADM_RES, 31, 31⟩
/-- ADM_RES.IGN (R263). -/
def ADM_RES_IGN : Fld := ⟨ADM_RES, 30, 30⟩
/-- ADM_RES.COUNT (R263). -/
def ADM_RES_COUNT : Fld := ⟨ADM_RES, 20, 0⟩
/-- WLD_LIST (R289). -/
def WLD_LIST : Nat := 0x10700
/-- WLD_LIST.OFF (R289). -/
def WLD_LIST_OFF : Fld := ⟨WLD_LIST, 27, 0⟩
/-- WLD_PIMG_LO (R289). -/
def WLD_PIMG_LO : Nat := 0x10704
/-- WLD_PIMG_HI (R289). -/
def WLD_PIMG_HI : Nat := 0x10708
/-- WLD_CTL (R289). -/
def WLD_CTL : Nat := 0x1070C
/-- WLD_CTL.GO (R289). -/
def WLD_CTL_GO : Fld := ⟨WLD_CTL, 31, 31⟩
/-- WLD_CTL.OP (R289). -/
def WLD_CTL_OP : Fld := ⟨WLD_CTL, 30, 28⟩
/-- WLD_CTL.RESUME (R289). -/
def WLD_CTL_RESUME : Fld := ⟨WLD_CTL, 27, 27⟩
/-- WLD_STAT (R289). -/
def WLD_STAT : Nat := 0x10710
/-- WLD_STAT.STATE (R289). -/
def WLD_STAT_STATE : Fld := ⟨WLD_STAT, 31, 28⟩
/-- WLD_STAT.CAUSE (R289). -/
def WLD_STAT_CAUSE : Fld := ⟨WLD_STAT, 7, 0⟩
/-- WLD_FAIL (R289). -/
def WLD_FAIL : Nat := 0x10714
/-- WLD_PROG (R289). -/
def WLD_PROG : Nat := 0x10718
/-- WLD_RDONE (R289). -/
def WLD_RDONE (i : Nat) : Nat := 0x1071C + 4 * i
/-- SWP_HOLD (R295). -/
def SWP_HOLD (r : Nat) : Nat := regionBase r + 0x1F0000320
/-- SWP_HOLD.ARM (R295). -/
def SWP_HOLD_ARM (r : Nat) : Fld := ⟨SWP_HOLD r, 31, 31⟩
/-- SWP_HOLD.IDLE (R295). -/
def SWP_HOLD_IDLE (r : Nat) : Fld := ⟨SWP_HOLD r, 30, 30⟩
/-- SWP_HOLD.DONE (R295). -/
def SWP_HOLD_DONE (r : Nat) : Fld := ⟨SWP_HOLD r, 29, 29⟩
/-- SWP_HOLD.REMAIN (R295). -/
def SWP_HOLD_REMAIN (r : Nat) : Fld := ⟨SWP_HOLD r, 16, 0⟩
/-- VYB_CTL (R310). -/
def VYB_CTL (i : Nat) : Nat := 0x20000 + 64 * i
/-- VYB_CTL.EN (R310). -/
def VYB_CTL_EN (i : Nat) : Fld := ⟨VYB_CTL i, 31, 31⟩
/-- VYB_CTL.RETRAIN (R310). -/
def VYB_CTL_RETRAIN (i : Nat) : Fld := ⟨VYB_CTL i, 30, 30⟩
/-- VYB_CTL.LANEMIN (R310). -/
def VYB_CTL_LANEMIN (i : Nat) : Fld := ⟨VYB_CTL i, 29, 28⟩
/-- VYB_CTL.FECALLOW (R310). -/
def VYB_CTL_FECALLOW (i : Nat) : Fld := ⟨VYB_CTL i, 27, 26⟩
/-- VYB_CTL.LOOP (R310). -/
def VYB_CTL_LOOP (i : Nat) : Fld := ⟨VYB_CTL i, 25, 25⟩
/-- VYB_STAT (R310). -/
def VYB_STAT (i : Nat) : Nat := 0x20004 + 64 * i
/-- VYB_STAT.STATE (R310). -/
def VYB_STAT_STATE (i : Nat) : Fld := ⟨VYB_STAT i, 31, 28⟩
/-- VYB_STAT.VER (R310). -/
def VYB_STAT_VER (i : Nat) : Fld := ⟨VYB_STAT i, 27, 24⟩
/-- VYB_STAT.LANES (R310). -/
def VYB_STAT_LANES (i : Nat) : Fld := ⟨VYB_STAT i, 23, 20⟩
/-- VYB_STAT.FEC (R310). -/
def VYB_STAT_FEC (i : Nat) : Fld := ⟨VYB_STAT i, 19, 18⟩
/-- VYB_STAT.PEERPORT (R310). -/
def VYB_STAT_PEERPORT (i : Nat) : Fld := ⟨VYB_STAT i, 15, 8⟩
/-- VYB_STAT.TRIES (R310). -/
def VYB_STAT_TRIES (i : Nat) : Fld := ⟨VYB_STAT i, 7, 0⟩
/-- VYB_PEER (R310). -/
def VYB_PEER (i : Nat) : Nat := 0x20008 + 64 * i
/-- VYB_PEER.PEERPOS (R310). -/
def VYB_PEER_PEERPOS (i : Nat) : Fld := ⟨VYB_PEER i, 31, 16⟩
/-- VYB_PEER.MATCH (R310). -/
def VYB_PEER_MATCH (i : Nat) : Fld := ⟨VYB_PEER i, 15, 15⟩
/-- VYB_PEER.MISMATCH (R310). -/
def VYB_PEER_MISMATCH (i : Nat) : Fld := ⟨VYB_PEER i, 14, 14⟩
/-- VYB_PEER.PEERARCH (R310). -/
def VYB_PEER_PEERARCH (i : Nat) : Fld := ⟨VYB_PEER i, 7, 0⟩
/-- VYB_BIND (R310). -/
def VYB_BIND (i : Nat) : Nat := 0x2000C + 64 * i
/-- VYB_BIND.EN (R310). -/
def VYB_BIND_EN (i : Nat) : Fld := ⟨VYB_BIND i, 31, 31⟩
/-- VYB_BIND.OUTQ (R310). -/
def VYB_BIND_OUTQ (i : Nat) : Fld := ⟨VYB_BIND i, 28, 16⟩
/-- VYB_BIND.INQ (R310). -/
def VYB_BIND_INQ (i : Nat) : Fld := ⟨VYB_BIND i, 12, 0⟩
/-- MBQSTAT (R310). -/
def MBQSTAT (i : Nat) : Nat := 0x20010 + 64 * i
/-- MBQSTAT.FENCED (R310). -/
def MBQSTAT_FENCED (i : Nat) : Fld := ⟨MBQSTAT i, 31, 31⟩
/-- MBQSTAT.OCC (R310). -/
def MBQSTAT_OCC (i : Nat) : Fld := ⟨MBQSTAT i, 28, 16⟩
/-- MBQSTAT.DEPTH (R310). -/
def MBQSTAT_DEPTH (i : Nat) : Fld := ⟨MBQSTAT i, 12, 0⟩
/-- MBQRET_LO (R310). -/
def MBQRET_LO (i : Nat) : Nat := 0x20014 + 64 * i
/-- MBQRET_HI (R310). -/
def MBQRET_HI (i : Nat) : Nat := 0x20018 + 64 * i
/-- VYB_DOMVER (R310). -/
def VYB_DOMVER : Nat := 0x20800
/-- VYB_DOMVER.VERMAX (R310). -/
def VYB_DOMVER_VERMAX : Fld := ⟨VYB_DOMVER, 7, 4⟩
/-- VYB_DOMVER.VER (R310). -/
def VYB_DOMVER_VER : Fld := ⟨VYB_DOMVER, 3, 0⟩
/-- HB_CFG (R321). -/
def HB_CFG : Nat := 0x22000
/-- HB_CFG.ACTIVE (R321). -/
def HB_CFG_ACTIVE : Fld := ⟨HB_CFG, 31, 31⟩
/-- HB_CFG.RATE (R321). -/
def HB_CFG_RATE : Fld := ⟨HB_CFG, 27, 24⟩
/-- HB_CFG.WIDTH (R321). -/
def HB_CFG_WIDTH : Fld := ⟨HB_CFG, 23, 19⟩
/-- HB_MEMBER (R321). -/
def HB_MEMBER (i : Nat) : Nat := 0x22040 + 4 * i
/-- HB_MEMBER.EN (R321). -/
def HB_MEMBER_EN (i : Nat) : Fld := ⟨HB_MEMBER i, 31, 31⟩
/-- HB_MEMBER.DY (R321). -/
def HB_MEMBER_DY (i : Nat) : Fld := ⟨HB_MEMBER i, 9, 5⟩
/-- HB_MEMBER.DX (R321). -/
def HB_MEMBER_DX (i : Nat) : Fld := ⟨HB_MEMBER i, 4, 0⟩
/-- HB_WIN_LO (R321). -/
def HB_WIN_LO (i : Nat) : Nat := 0x22080 + 8 * i
/-- HB_WIN_LO.BASE (R321). -/
def HB_WIN_LO_BASE (i : Nat) : Fld := ⟨HB_WIN_LO i, 31, 28⟩
/-- HB_WIN_LO.EN (R321). -/
def HB_WIN_LO_EN (i : Nat) : Fld := ⟨HB_WIN_LO i, 4, 4⟩
/-- HB_WIN_LO.MEMBER (R321). -/
def HB_WIN_LO_MEMBER (i : Nat) : Fld := ⟨HB_WIN_LO i, 3, 0⟩
/-- HB_WIN_HI (R321). -/
def HB_WIN_HI (i : Nat) : Nat := 0x22084 + 8 * i
/-- HB_WIN_HI.BASE (R321). -/
def HB_WIN_HI_BASE (i : Nat) : Fld := ⟨HB_WIN_HI i, 15, 0⟩
/-- HB_ROUTE (R321). -/
def HB_ROUTE : Nat := 0x22100
/-- HB_ROUTE.EN (R321). -/
def HB_ROUTE_EN : Fld := ⟨HB_ROUTE, 31, 31⟩
/-- HB_ROUTE.DY (R321). -/
def HB_ROUTE_DY : Fld := ⟨HB_ROUTE, 9, 5⟩
/-- HB_ROUTE.DX (R321). -/
def HB_ROUTE_DX : Fld := ⟨HB_ROUTE, 4, 0⟩
/-- GOP_CMD (R328). -/
def GOP_CMD : Nat := 0x21000
/-- GOP_CMD.OP (R328). -/
def GOP_CMD_OP : Fld := ⟨GOP_CMD, 31, 28⟩
/-- GOP_CMD.ID (R328). -/
def GOP_CMD_ID : Fld := ⟨GOP_CMD, 14, 0⟩
/-- GOP_DATA (R328). -/
def GOP_DATA : Nat := 0x21004
/-- GOP_TREE (R328). -/
def GOP_TREE : Nat := 0x21008
/-- GOP_TREE.CHILD (R328). -/
def GOP_TREE_CHILD : Fld := ⟨GOP_TREE, 7, 4⟩
/-- GOP_TREE.PARENT (R328). -/
def GOP_TREE_PARENT : Fld := ⟨GOP_TREE, 2, 0⟩
/-- GOP_STAT (R328). -/
def GOP_STAT : Nat := 0x2100C
/-- GOP_STAT.STATE (R328). -/
def GOP_STAT_STATE : Fld := ⟨GOP_STAT, 31, 28⟩
/-- GOP_REL (R328). -/
def GOP_REL : Nat := 0x21010
/-- GOP_REL.ID (R328). -/
def GOP_REL_ID : Fld := ⟨GOP_REL, 14, 0⟩
/-- GOP_BCAST (R328). -/
def GOP_BCAST : Nat := 0x21014
/-- GOP_BCAST.ORIGIN (R328). -/
def GOP_BCAST_ORIGIN : Fld := ⟨GOP_BCAST, 22, 15⟩
/-- GOP_BCAST.ID (R328). -/
def GOP_BCAST_ID : Fld := ⟨GOP_BCAST, 14, 0⟩
/-- GOP_BDATA (R328). -/
def GOP_BDATA : Nat := 0x21018
/-- GOP_TMO (R328). -/
def GOP_TMO : Nat := 0x2101C
/-- GOP_TMO.US (R328). -/
def GOP_TMO_US : Fld := ⟨GOP_TMO, 15, 0⟩
/-- GOP_RESET (R328). -/
def GOP_RESET : Nat := 0x21020
/-- PM_IN (R358). -/
def PM_IN : Nat := 0x30000
/-- PM_IN.IIN (R358). -/
def PM_IN_IIN : Fld := ⟨PM_IN, 31, 16⟩
/-- PM_IN.VIN (R358). -/
def PM_IN_VIN : Fld := ⟨PM_IN, 15, 0⟩
/-- PM_POWER (R358). -/
def PM_POWER : Nat := 0x30004
/-- PM_POWER.CAPEFF (R358). -/
def PM_POWER_CAPEFF : Fld := ⟨PM_POWER, 31, 16⟩
/-- PM_POWER.PIN (R358). -/
def PM_POWER_PIN : Fld := ⟨PM_POWER, 15, 0⟩
/-- PM_CAPSRC (R358). -/
def PM_CAPSRC : Nat := 0x30008
/-- PM_CAPSRC.SRC (R358). -/
def PM_CAPSRC_SRC : Fld := ⟨PM_CAPSRC, 2, 0⟩
/-- PM_CREDCAP (R358). -/
def PM_CREDCAP : Nat := 0x3000C
/-- PM_CREDCAP.CREDCAP (R358). -/
def PM_CREDCAP_CREDCAP : Fld := ⟨PM_CREDCAP, 27, 0⟩
/-- PM_BRAKE_CNT (R358). -/
def PM_BRAKE_CNT : Nat := 0x30010
/-- REF_CTL (R358). -/
def REF_CTL : Nat := 0x30100
/-- REF_CTL.REVERT (R358). -/
def REF_CTL_REVERT : Fld := ⟨REF_CTL, 1, 1⟩
/-- REF_CTL.PREF (R358). -/
def REF_CTL_PREF : Fld := ⟨REF_CTL, 0, 0⟩
/-- REF_STAT (R358). -/
def REF_STAT : Nat := 0x30104
/-- REF_STAT.STATE (R358). -/
def REF_STAT_STATE : Fld := ⟨REF_STAT, 31, 28⟩
/-- REF_STAT.VALID (R358). -/
def REF_STAT_VALID : Fld := ⟨REF_STAT, 1, 0⟩
/-- RPWR_CTL (R358). -/
def RPWR_CTL (i : Nat) : Nat := 0x31000 + 16 * i
/-- RPWR_CTL.FENCE (R358). -/
def RPWR_CTL_FENCE (i : Nat) : Fld := ⟨RPWR_CTL i, 31, 31⟩
/-- RPWR_STAT (R358). -/
def RPWR_STAT (i : Nat) : Nat := 0x31004 + 16 * i
/-- RPWR_STAT.STATE (R358). -/
def RPWR_STAT_STATE (i : Nat) : Fld := ⟨RPWR_STAT i, 31, 28⟩
/-- RPWR_STAT.VCORE (R358). -/
def RPWR_STAT_VCORE (i : Nat) : Fld := ⟨RPWR_STAT i, 25, 16⟩
/-- RPWR_STAT.SENSE (R358). -/
def RPWR_STAT_SENSE (i : Nat) : Fld := ⟨RPWR_STAT i, 15, 12⟩
/-- RPWR_STAT.ICORE (R358). -/
def RPWR_STAT_ICORE (i : Nat) : Fld := ⟨RPWR_STAT i, 11, 0⟩
/-- RPWR_VSET (R358). -/
def RPWR_VSET (i : Nat) : Nat := 0x31008 + 16 * i
/-- RPWR_VSET.OVR (R358). -/
def RPWR_VSET_OVR (i : Nat) : Fld := ⟨RPWR_VSET i, 31, 31⟩
/-- RPWR_VSET.MV (R358). -/
def RPWR_VSET_MV (i : Nat) : Fld := ⟨RPWR_VSET i, 9, 0⟩
/-- RPWR_MEAS (R358). -/
def RPWR_MEAS (i : Nat) : Nat := 0x3100C + 16 * i
/-- RPWR_MEAS.VSRAM (R358). -/
def RPWR_MEAS_VSRAM (i : Nat) : Fld := ⟨RPWR_MEAS i, 25, 16⟩
/-- RPWR_MEAS.ISRAM (R358). -/
def RPWR_MEAS_ISRAM (i : Nat) : Fld := ⟨RPWR_MEAS i, 11, 0⟩
/-- CLKTUNE (R359). -/
def CLKTUNE (r : Nat) : Nat := regionBase r + 0x1F0000800
/-- CLKTUNE.CEILREF (R359). -/
def CLKTUNE_CEILREF (r : Nat) : Fld := ⟨CLKTUNE r, 31, 31⟩
/-- CLKTUNE.EFF (R359). -/
def CLKTUNE_EFF (r : Nat) : Fld := ⟨CLKTUNE r, 30, 24⟩
/-- CLKTUNE.ILIM (R359). -/
def CLKTUNE_ILIM (r : Nat) : Fld := ⟨CLKTUNE r, 22, 16⟩
/-- CLKTUNE.CEIL (R359). -/
def CLKTUNE_CEIL (r : Nat) : Fld := ⟨CLKTUNE r, 6, 0⟩
/-- CLKCAP (R359). -/
def CLKCAP (r : Nat) : Nat := regionBase r + 0x1F0000804
/-- CLKCAP.PLIM (R359). -/
def CLKCAP_PLIM (r : Nat) : Fld := ⟨CLKCAP r, 30, 24⟩
/-- CLKCAP.TLIM (R359). -/
def CLKCAP_TLIM (r : Nat) : Fld := ⟨CLKCAP r, 22, 16⟩
/-- CLKCAP.TCAP (R359). -/
def CLKCAP_TCAP (r : Nat) : Fld := ⟨CLKCAP r, 14, 8⟩
/-- CLKCAP.SCAP (R359). -/
def CLKCAP_SCAP (r : Nat) : Fld := ⟨CLKCAP r, 6, 0⟩
/-- CLKSRC (R359). -/
def CLKSRC (r : Nat) : Nat := regionBase r + 0x1F0000808
/-- CLKSRC.STATE (R359). -/
def CLKSRC_STATE (r : Nat) : Fld := ⟨CLKSRC r, 31, 28⟩
/-- CLKSRC.SEL (R359). -/
def CLKSRC_SEL (r : Nat) : Fld := ⟨CLKSRC r, 27, 26⟩
/-- CLKSRC.DEPTH (R359). -/
def CLKSRC_DEPTH (r : Nat) : Fld := ⟨CLKSRC r, 25, 21⟩
/-- CLKSRC.VALID (R359). -/
def CLKSRC_VALID (r : Nat) : Fld := ⟨CLKSRC r, 19, 16⟩
/-- CLKSRC.ORDER (R359). -/
def CLKSRC_ORDER (r : Nat) : Fld := ⟨CLKSRC r, 15, 8⟩
/-- CLKSRC.INEN (R359). -/
def CLKSRC_INEN (r : Nat) : Fld := ⟨CLKSRC r, 3, 0⟩
/-- DROOP_CNT (R359). -/
def DROOP_CNT (r : Nat) : Nat := regionBase r + 0x1F0000810
/-- REFSW_CNT (R359). -/
def REFSW_CNT (r : Nat) : Nat := regionBase r + 0x1F0000814
/-- RMON (R359). -/
def RMON (r : Nat) : Nat := regionBase r + 0x1F0000818
/-- RMON.COUNT (R359). -/
def RMON_COUNT (r : Nat) : Fld := ⟨RMON r, 15, 0⟩
/-- REPSLACK (R359). -/
def REPSLACK (r : Nat) : Nat := regionBase r + 0x1F000081C
/-- CP_FLOW (R374). -/
def CP_FLOW : Nat := 0x30200
/-- CP_FLOW.FHEAT (R374). -/
def CP_FLOW_FHEAT : Fld := ⟨CP_FLOW, 31, 16⟩
/-- CP_FLOW.FLOW (R374). -/
def CP_FLOW_FLOW : Fld := ⟨CP_FLOW, 15, 0⟩
/-- CP_TEMP (R374). -/
def CP_TEMP : Nat := 0x30204
/-- CP_TEMP.TOUT (R374). -/
def CP_TEMP_TOUT : Fld := ⟨CP_TEMP, 31, 16⟩
/-- CP_TEMP.TIN (R374). -/
def CP_TEMP_TIN : Fld := ⟨CP_TEMP, 15, 0⟩
/-- CP_PRESS (R374). -/
def CP_PRESS : Nat := 0x30208
/-- CP_PRESS.PIN (R374). -/
def CP_PRESS_PIN : Fld := ⟨CP_PRESS, 31, 16⟩
/-- CP_PRESS.DP (R374). -/
def CP_PRESS_DP : Fld := ⟨CP_PRESS, 15, 0⟩
/-- CP_CAP (R374). -/
def CP_CAP : Nat := 0x3020C
/-- CP_CAP.PCOOL (R374). -/
def CP_CAP_PCOOL : Fld := ⟨CP_CAP, 15, 0⟩
/-- CP_STAT (R374). -/
def CP_STAT : Nat := 0x30210
/-- CP_STAT.ALARM (R374). -/
def CP_STAT_ALARM : Fld := ⟨CP_STAT, 31, 31⟩
/-- CP_STAT.ASRC (R374). -/
def CP_STAT_ASRC : Fld := ⟨CP_STAT, 30, 28⟩
/-- CP_STAT.FLOWSUS (R374). -/
def CP_STAT_FLOWSUS : Fld := ⟨CP_STAT, 27, 27⟩
/-- CP_STAT.INLO (R374). -/
def CP_STAT_INLO : Fld := ⟨CP_STAT, 26, 26⟩
/-- CP_STAT.INHI (R374). -/
def CP_STAT_INHI : Fld := ⟨CP_STAT, 25, 25⟩
/-- CP_STAT.PRANGE (R374). -/
def CP_STAT_PRANGE : Fld := ⟨CP_STAT, 24, 24⟩
/-- CP_STAT.PAIRDIS (R374). -/
def CP_STAT_PAIRDIS : Fld := ⟨CP_STAT, 23, 22⟩
/-- STK_THERM (R374). -/
def STK_THERM (i : Nat) : Nat := 0x30240 + 4 * i
/-- STK_THERM.TTRIP (R374). -/
def STK_THERM_TTRIP (i : Nat) : Fld := ⟨STK_THERM i, 31, 31⟩
/-- STK_THERM.THROT (R374). -/
def STK_THERM_THROT (i : Nat) : Fld := ⟨STK_THERM i, 30, 30⟩
/-- STK_THERM.SUS (R374). -/
def STK_THERM_SUS (i : Nat) : Fld := ⟨STK_THERM i, 29, 26⟩
/-- STK_THERM.STLIM (R374). -/
def STK_THERM_STLIM (i : Nat) : Fld := ⟨STK_THERM i, 22, 16⟩
/-- STK_THERM.TSTK (R374). -/
def STK_THERM_TSTK (i : Nat) : Fld := ⟨STK_THERM i, 11, 0⟩
/-- THERM_STAT (R375). -/
def THERM_STAT (r : Nat) : Nat := regionBase r + 0x1F0000900
/-- THERM_STAT.TTRIP (R375). -/
def THERM_STAT_TTRIP (r : Nat) : Fld := ⟨THERM_STAT r, 31, 31⟩
/-- THERM_STAT.HOT (R375). -/
def THERM_STAT_HOT (r : Nat) : Fld := ⟨THERM_STAT r, 30, 30⟩
/-- THERM_STAT.TEST (R375). -/
def THERM_STAT_TEST (r : Nat) : Fld := ⟨THERM_STAT r, 23, 12⟩
/-- THERM_STAT.THOT (R375). -/
def THERM_STAT_THOT (r : Nat) : Fld := ⟨THERM_STAT r, 11, 0⟩
/-- TPAIR (R375). -/
def TPAIR (r : Nat) (i : Nat) : Nat := regionBase r + 0x1F0000910 + 4 * i
/-- TPAIR.SUSA (R375). -/
def TPAIR_SUSA (r : Nat) (i : Nat) : Fld := ⟨TPAIR r i, 31, 31⟩
/-- TPAIR.SUSB (R375). -/
def TPAIR_SUSB (r : Nat) (i : Nat) : Fld := ⟨TPAIR r i, 30, 30⟩
/-- TPAIR.DIS (R375). -/
def TPAIR_DIS (r : Nat) (i : Nat) : Fld := ⟨TPAIR r i, 29, 29⟩
/-- TPAIR.TA (R375). -/
def TPAIR_TA (r : Nat) (i : Nat) : Fld := ⟨TPAIR r i, 23, 12⟩
/-- TPAIR.TB (R375). -/
def TPAIR_TB (r : Nat) (i : Nat) : Fld := ⟨TPAIR r i, 11, 0⟩
/-- BOOT_FW_LO (R380). -/
def BOOT_FW_LO : Nat := 0x40000
/-- BOOT_FW_HI (R380). -/
def BOOT_FW_HI : Nat := 0x40004
/-- BOOT_RL_LO (R380). -/
def BOOT_RL_LO : Nat := 0x40008
/-- BOOT_RL_HI (R380). -/
def BOOT_RL_HI : Nat := 0x4000C
/-- BOOT_RL_N (R380). -/
def BOOT_RL_N : Nat := 0x40010
/-- BOOT_RL_N.N (R380). -/
def BOOT_RL_N_N : Fld := ⟨BOOT_RL_N, 12, 0⟩
/-- BOOT_CTL (R380). -/
def BOOT_CTL : Nat := 0x40014
/-- BOOT_CTL.GO (R380). -/
def BOOT_CTL_GO : Fld := ⟨BOOT_CTL, 31, 31⟩
/-- BOOT_STAT (R380). -/
def BOOT_STAT : Nat := 0x40018
/-- BOOT_STAT.STATE (R380). -/
def BOOT_STAT_STATE : Fld := ⟨BOOT_STAT, 31, 28⟩
/-- BOOT_STAT.CAUSE (R380). -/
def BOOT_STAT_CAUSE : Fld := ⟨BOOT_STAT, 7, 0⟩
/-- YMAP_FENCE (R388). -/
def YMAP_FENCE (i : Nat) : Nat := 0x40100 + 4 * i
/-- YMAP_CL (R388). -/
def YMAP_CL (i : Nat) : Nat := 0x40200 + 4 * i
/-- YMAP_CL.FENCED (R388). -/
def YMAP_CL_FENCED (i : Nat) : Fld := ⟨YMAP_CL i, 31, 31⟩
/-- YMAP_CL.CAUSE (R388). -/
def YMAP_CL_CAUSE (i : Nat) : Fld := ⟨YMAP_CL i, 30, 28⟩
/-- YMAP_CL.USABLE (R388). -/
def YMAP_CL_USABLE (i : Nat) : Fld := ⟨YMAP_CL i, 27, 0⟩
/-- BU_STAT (R394). -/
def BU_STAT : Nat := 0x40040
/-- BU_STAT.STAGE (R394). -/
def BU_STAT_STAGE : Fld := ⟨BU_STAT, 31, 28⟩
/-- BU_STAT.DONE (R394). -/
def BU_STAT_DONE : Fld := ⟨BU_STAT, 27, 27⟩
/-- BU_STAT.OUTSPEC (R394). -/
def BU_STAT_OUTSPEC : Fld := ⟨BU_STAT, 26, 26⟩
/-- BU_STAT.LASTFAIL (R394). -/
def BU_STAT_LASTFAIL : Fld := ⟨BU_STAT, 25, 25⟩
/-- BU_STAT.NREP (R394). -/
def BU_STAT_NREP : Fld := ⟨BU_STAT, 15, 0⟩
/-- ELOG_TAIL (R402). -/
def ELOG_TAIL : Nat := 0x50000
/-- ELOG_HEAD (R402). -/
def ELOG_HEAD : Nat := 0x50004
/-- ELOG_LOST (R402). -/
def ELOG_LOST : Nat := 0x50008
/-- ELOG_WAIT (R402). -/
def ELOG_WAIT : Nat := 0x5000C
/-- ELOG_WAIT.N (R402). -/
def ELOG_WAIT_N : Fld := ⟨ELOG_WAIT, 7, 0⟩
/-- FBREC (R403). -/
def FBREC (r : Nat) (i : Nat) : Nat := regionBase r + 0x1F0002000 + 4 * i
/-- FBSTAT (R403). -/
def FBSTAT (r : Nat) : Nat := regionBase r + 0x1F0002400
/-- FBSTAT.OVF (R403). -/
def FBSTAT_OVF (r : Nat) : Fld := ⟨FBSTAT r, 31, 31⟩
/-- FBSTAT.N (R403). -/
def FBSTAT_N (r : Nat) : Fld := ⟨FBSTAT r, 5, 0⟩
/-- FBACK (R403). -/
def FBACK (r : Nat) : Nat := regionBase r + 0x1F0002404
/-- FBACK.N (R403). -/
def FBACK_N (r : Nat) : Fld := ⟨FBACK r, 5, 0⟩
/-- MG_NODE (R436). -/
def MG_NODE : Nat := 0x60000
/-- MG_NODE.VALID (R436). -/
def MG_NODE_VALID : Fld := ⟨MG_NODE, 31, 31⟩
/-- MG_NODE.OVF (R436). -/
def MG_NODE_OVF : Fld := ⟨MG_NODE, 30, 30⟩
/-- MG_NODE.NODE (R436). -/
def MG_NODE_NODE : Fld := ⟨MG_NODE, 5, 0⟩
/-- MG_CHAIN (R436). -/
def MG_CHAIN : Nat := 0x60004
/-- MG_CHAIN.PHASE (R436). -/
def MG_CHAIN_PHASE : Fld := ⟨MG_CHAIN, 31, 28⟩
/-- MG_CHAIN.BOOTWIN (R436). -/
def MG_CHAIN_BOOTWIN : Fld := ⟨MG_CHAIN, 27, 27⟩
/-- MG_CHAIN.BADPAT (R436). -/
def MG_CHAIN_BADPAT : Fld := ⟨MG_CHAIN, 26, 26⟩
/-- TB_LO (R436). -/
def TB_LO : Nat := 0x60010
/-- TB_HI (R436). -/
def TB_HI : Nat := 0x60014
/-- TB_STAT (R436). -/
def TB_STAT : Nat := 0x60018
/-- TB_STAT.STATE (R436). -/
def TB_STAT_STATE : Fld := ⟨TB_STAT, 31, 28⟩
/-- TB_STAT.STEPS (R436). -/
def TB_STAT_STEPS : Fld := ⟨TB_STAT, 15, 0⟩
/-- TB_OFS (R436). -/
def TB_OFS : Nat := 0x6001C
/-- EDGE_CFGIGN (R462). -/
def EDGE_CFGIGN : Nat := 0x73000
/-- EDGE_CFGIGN.BLK (R462). -/
def EDGE_CFGIGN_BLK : Fld := ⟨EDGE_CFGIGN, 6, 0⟩
/-- CFGIGN_CAP0 (R462). -/
def CFGIGN_CAP0 : Nat := 0x73004
/-- CFGIGN_CAP1 (R462). -/
def CFGIGN_CAP1 : Nat := 0x73008
/-- CFGIGN_CAP1.VALID (R462). -/
def CFGIGN_CAP1_VALID : Fld := ⟨CFGIGN_CAP1, 31, 31⟩
/-- CFGIGN_CAP1.REQ (R462). -/
def CFGIGN_CAP1_REQ : Fld := ⟨CFGIGN_CAP1, 23, 16⟩
/-- CFGIGN_CAP1.ADDR (R462). -/
def CFGIGN_CAP1_ADDR : Fld := ⟨CFGIGN_CAP1, 15, 0⟩
/-- GP_LAPSE (R462). -/
def GP_LAPSE : Nat := 0x73010
/-- GP_REFUSED (R462). -/
def GP_REFUSED : Nat := 0x73014
/-- CL_STAT (R464). -/
def CL_STAT (r c : Nat) : Nat := clusterBase r c + 0xF000700
/-- CL_STAT.EN (R464). -/
def CL_STAT_EN (r c : Nat) : Fld := ⟨CL_STAT r c, 31, 31⟩
/-- CL_STAT.SPARE (R464). -/
def CL_STAT_SPARE (r c : Nat) : Fld := ⟨CL_STAT r c, 30, 30⟩
/-- CL_STAT.COVERED (R464). -/
def CL_STAT_COVERED (r c : Nat) : Fld := ⟨CL_STAT r c, 29, 29⟩
/-- CL_STAT.CFGIGN (R464). -/
def CL_STAT_CFGIGN (r c : Nat) : Fld := ⟨CL_STAT r c, 28, 28⟩
/-- CL_STAT.CHK (R464). -/
def CL_STAT_CHK (r c : Nat) : Fld := ⟨CL_STAT r c, 15, 14⟩
/-- RC_STAT (R465). -/
def RC_STAT (r : Nat) : Nat := regionBase r + 0x1F0000000
/-- RC_STAT.STATE (R465). -/
def RC_STAT_STATE (r : Nat) : Fld := ⟨RC_STAT r, 31, 28⟩
/-- RC_STAT.CFGIGN (R465). -/
def RC_STAT_CFGIGN (r : Nat) : Fld := ⟨RC_STAT r, 27, 27⟩
/-- RC_STAT.NEN (R465). -/
def RC_STAT_NEN (r : Nat) : Fld := ⟨RC_STAT r, 20, 16⟩
/-- RC_STAT.SEGQ (R465). -/
def RC_STAT_SEGQ (r : Nat) : Fld := ⟨RC_STAT r, 4, 0⟩
/-- SEGSEQ (R465). -/
def SEGSEQ (r : Nat) : Nat := regionBase r + 0x1F0000104
/-- TRACE_IDX (R465). -/
def TRACE_IDX (r : Nat) : Nat := regionBase r + 0x1F0000108
/-- TRACE_IDX.IDX (R465). -/
def TRACE_IDX_IDX (r : Nat) : Fld := ⟨TRACE_IDX r, 7, 0⟩
/-- SBROUTE (R465). -/
def SBROUTE (r : Nat) : Nat := regionBase r + 0x1F0000110
/-- SBROUTE.HUB (R465). -/
def SBROUTE_HUB (r : Nat) : Fld := ⟨SBROUTE r, 7, 7⟩
/-- SBROUTE.ROW (R465). -/
def SBROUTE_ROW (r : Nat) : Fld := ⟨SBROUTE r, 4, 0⟩
/-- SQ_STAT (R465). -/
def SQ_STAT (r : Nat) : Nat := regionBase r + 0x1F0004130
/-- SQ_STAT.USABLE (R465). -/
def SQ_STAT_USABLE (r : Nat) : Fld := ⟨SQ_STAT r, 31, 24⟩
/-- SMP_STAT (R465). -/
def SMP_STAT (r : Nat) : Nat := regionBase r + 0x1F0005010
/-- SMP_STAT.BUSY (R465). -/
def SMP_STAT_BUSY (r : Nat) : Fld := ⟨SMP_STAT r, 31, 31⟩
/-- SMP_STAT.SMPQ (R465). -/
def SMP_STAT_SMPQ (r : Nat) : Fld := ⟨SMP_STAT r, 12, 0⟩
/-- FUSE_SERIAL (R466). -/
def FUSE_SERIAL (i : Nat) : Nat := 0x70000 + 4 * i
/-- FUSE_ID (R466). -/
def FUSE_ID : Nat := 0x70010
/-- FUSE_ID.SILREV (R466). -/
def FUSE_ID_SILREV : Fld := ⟨FUSE_ID, 31, 16⟩
/-- FUSE_ID.ARCHREV (R466). -/
def FUSE_ID_ARCHREV : Fld := ⟨FUSE_ID, 15, 8⟩
/-- FUSE_ID.VARIANT (R466). -/
def FUSE_ID_VARIANT : Fld := ⟨FUSE_ID, 7, 0⟩
/-- FUSE_LIMIT (R466). -/
def FUSE_LIMIT : Nat := 0x70014
/-- FUSE_LIMIT.PCAP (R466). -/
def FUSE_LIMIT_PCAP : Fld := ⟨FUSE_LIMIT, 31, 16⟩
/-- FUSE_LIMIT.FMAX (R466). -/
def FUSE_LIMIT_FMAX : Fld := ⟨FUSE_LIMIT, 15, 0⟩
/-- FUSE_SVNMIN (R466). -/
def FUSE_SVNMIN : Nat := 0x70018
/-- FUSE_SLOT (R466). -/
def FUSE_SLOT : Nat := 0x7001C
/-- FUSE_SLOT.REVOKED (R466). -/
def FUSE_SLOT_REVOKED : Fld := ⟨FUSE_SLOT, 7, 4⟩
/-- FUSE_SLOT.PROG (R466). -/
def FUSE_SLOT_PROG : Fld := ⟨FUSE_SLOT, 3, 0⟩
/-- FUSE_MAC_LO (R466). -/
def FUSE_MAC_LO : Nat := 0x70020
/-- FUSE_MAC_HI (R466). -/
def FUSE_MAC_HI : Nat := 0x70024
/-- FUSE_MAC_HI.MAC (R466). -/
def FUSE_MAC_HI_MAC : Fld := ⟨FUSE_MAC_HI, 15, 0⟩
/-- FUSE_OWNER (R466). -/
def FUSE_OWNER (i : Nat) : Nat := 0x70040 + 4 * i
/-- FUSE_PGM_DATA (R466). -/
def FUSE_PGM_DATA (i : Nat) : Nat := 0x70200 + 4 * i
/-- FUSE_PGM (R466). -/
def FUSE_PGM : Nat := 0x70240
/-- FUSE_PGM.OP (R466). -/
def FUSE_PGM_OP : Fld := ⟨FUSE_PGM, 31, 28⟩
/-- FUSE_PGM.SLOT (R466). -/
def FUSE_PGM_SLOT : Fld := ⟨FUSE_PGM, 27, 24⟩
/-- FUSE_PGM.VALUE (R466). -/
def FUSE_PGM_VALUE : Fld := ⟨FUSE_PGM, 23, 0⟩
/-- FUSE_STAT (R466). -/
def FUSE_STAT : Nat := 0x70244
/-- FUSE_STAT.STATE (R466). -/
def FUSE_STAT_STATE : Fld := ⟨FUSE_STAT, 31, 28⟩
/-- FUSE_STAT.CAUSE (R466). -/
def FUSE_STAT_CAUSE : Fld := ⟨FUSE_STAT, 7, 0⟩
/-- CRY_ARG (R468). -/
def CRY_ARG : Nat := 0x71000
/-- CRY_ARG.OFF (R468). -/
def CRY_ARG_OFF : Fld := ⟨CRY_ARG, 27, 0⟩
/-- CRY_CMD (R468). -/
def CRY_CMD : Nat := 0x71004
/-- CRY_CMD.OP (R468). -/
def CRY_CMD_OP : Fld := ⟨CRY_CMD, 31, 28⟩
/-- CRY_CMD.SLOT (R468). -/
def CRY_CMD_SLOT : Fld := ⟨CRY_CMD, 27, 26⟩
/-- CRY_STAT (R468). -/
def CRY_STAT : Nat := 0x71008
/-- CRY_STAT.STATE (R468). -/
def CRY_STAT_STATE : Fld := ⟨CRY_STAT, 31, 28⟩
/-- CRY_STAT.CAUSE (R468). -/
def CRY_STAT_CAUSE : Fld := ⟨CRY_STAT, 7, 0⟩
/-- CMCLR_OFF (R470). -/
def CMCLR_OFF : Nat := 0x72000
/-- CMCLR_OFF.OFF (R470). -/
def CMCLR_OFF_OFF : Fld := ⟨CMCLR_OFF, 27, 0⟩
/-- CMCLR_LEN (R470). -/
def CMCLR_LEN : Nat := 0x72004
/-- CMCLR_LEN.LEN (R470). -/
def CMCLR_LEN_LEN : Fld := ⟨CMCLR_LEN, 28, 0⟩
/-- CMCLR_GO (R470). -/
def CMCLR_GO : Nat := 0x72008
/-- CMCLR_GO.GO (R470). -/
def CMCLR_GO_GO : Fld := ⟨CMCLR_GO, 31, 31⟩
/-- CMCLR_STAT (R470). -/
def CMCLR_STAT : Nat := 0x7200C
/-- CMCLR_STAT.BUSY (R470). -/
def CMCLR_STAT_BUSY : Fld := ⟨CMCLR_STAT, 31, 31⟩
/-- CMCLR_STAT.REFUSED (R470). -/
def CMCLR_STAT_REFUSED : Fld := ⟨CMCLR_STAT, 30, 30⟩
/-- HANDLE_LO (R135). -/
def HANDLE_LO (r c : Nat) (i : Nat) : Nat := clusterBase r c + 0xF000000 + 8 * i
/-- HANDLE_LO.EN (R135). -/
def HANDLE_LO_EN (r c : Nat) (i : Nat) : Fld := ⟨HANDLE_LO r c i, 31, 31⟩
/-- HANDLE_LO.WP (R135). -/
def HANDLE_LO_WP (r c : Nat) (i : Nat) : Fld := ⟨HANDLE_LO r c i, 30, 30⟩
/-- HANDLE_LO.DM (R135). -/
def HANDLE_LO_DM (r c : Nat) (i : Nat) : Fld := ⟨HANDLE_LO r c i, 29, 29⟩
/-- HANDLE_LO.IL (R135). -/
def HANDLE_LO_IL (r c : Nat) (i : Nat) : Fld := ⟨HANDLE_LO r c i, 28, 26⟩
/-- HANDLE_LO.LBANK (R135). -/
def HANDLE_LO_LBANK (r c : Nat) (i : Nat) : Fld := ⟨HANDLE_LO r c i, 25, 21⟩
/-- HANDLE_LO.ROW (R135). -/
def HANDLE_LO_ROW (r c : Nat) (i : Nat) : Fld := ⟨HANDLE_LO r c i, 12, 0⟩
/-- HANDLE_HI (R135). -/
def HANDLE_HI (r c : Nat) (i : Nat) : Nat := clusterBase r c + 0xF000004 + 8 * i
/-- HANDLE_HI.LENW (R135). -/
def HANDLE_HI_LENW (r c : Nat) (i : Nat) : Fld := ⟨HANDLE_HI r c i, 17, 0⟩
/-- SPBANKMASK (R138). -/
def SPBANKMASK (r c : Nat) : Nat := clusterBase r c + 0xF000400
/-- SPBANKMASK.RETIRED (R138). -/
def SPBANKMASK_RETIRED (r c : Nat) : Fld := ⟨SPBANKMASK r c, 23, 0⟩
/-- WTREPAIR (R122). -/
def WTREPAIR (r c : Nat) (i : Nat) : Nat := clusterBase r c + 0xF000500 + 4 * i
/-- WTREPAIR.PHYS (R122). -/
def WTREPAIR_PHYS (r c : Nat) (i : Nat) : Fld := ⟨WTREPAIR r c i, 5, 0⟩
/-- DFLIP_P (R213). -/
def DFLIP_P (r : Nat) (i : Nat) : Nat := regionBase r + 0x1F0004000 + 4 * i
/-- DFLIP_CTL (R213). -/
def DFLIP_CTL (r : Nat) : Nat := regionBase r + 0x1F0004024
/-- DFLIP_CTL.ARM (R213). -/
def DFLIP_CTL_ARM (r : Nat) : Fld := ⟨DFLIP_CTL r, 31, 31⟩
/-- DFLIP_CTL.CH (R213). -/
def DFLIP_CTL_CH (r : Nat) : Fld := ⟨DFLIP_CTL r, 2, 0⟩
/-- commit window CMD (R252). -/
def CMT_CMD (k w : Nat) : Nat := 0x10400 + 64 * k + 4 * w
/-- commit window RES (R252). -/
def CMT_RES (i : Nat) : Nat := 0x10420 + 64 * i
/-- CMT_RES.STATUS (R252). -/
def CMT_RES_STATUS (i : Nat) : Fld := ⟨CMT_RES i, 31, 28⟩
/-- CMT_RES.IDX (R252). -/
def CMT_RES_IDX (i : Nat) : Fld := ⟨CMT_RES i, 23, 0⟩
/-- TRACE (R465). -/
def TRACE (r : Nat) (i : Nat) : Nat := regionBase r + 0x1F0003000 + 4 * i
/-- EDGE_FBREC (R403). -/
def EDGE_FBREC (i : Nat) : Nat := 0x51000 + 4 * i
/-- EDGE_FBSTAT (R403). -/
def EDGE_FBSTAT : Nat := 0x51400
/-- EDGE_FBSTAT.OVF (R403). -/
def EDGE_FBSTAT_OVF : Fld := ⟨EDGE_FBSTAT, 31, 31⟩
/-- EDGE_FBSTAT.N (R403). -/
def EDGE_FBSTAT_N : Fld := ⟨EDGE_FBSTAT, 5, 0⟩
/-- EDGE_FBACK (R403). -/
def EDGE_FBACK : Nat := 0x51404
/-- EDGE_FBACK.N (R403). -/
def EDGE_FBACK_N : Fld := ⟨EDGE_FBACK, 5, 0⟩
/-- SP_CE_COUNT (R131). -/
def SP_CE_COUNT (r c : Nat) : Nat := clusterBase r c + 0xF000800
/-- PM_CE_COUNT (R145). -/
def PM_CE_COUNT (r c : Nat) : Nat := clusterBase r c + 0xF000804
/-- WT_CHK_COUNT (R125). -/
def WT_CHK_COUNT (r c : Nat) : Nat := clusterBase r c + 0xF000808
/-- LINK_CE_COUNT (R148). -/
def LINK_CE_COUNT (r c : Nat) : Nat := clusterBase r c + 0xF00080C
/-- Q_CE_COUNT (R162). -/
def Q_CE_COUNT (r c : Nat) : Nat := clusterBase r c + 0xF000810
/-- XSTEP_COUNT (R82). -/
def XSTEP_COUNT (r c : Nat) : Nat := clusterBase r c + 0xF000814
/-- XBEAT_COUNT (R82). -/
def XBEAT_COUNT (r c : Nat) : Nat := clusterBase r c + 0xF000818
/-- WP_TESTED (R54). -/
def WP_TESTED (r c : Nat) (i : Nat) : Nat := clusterBase r c + 0xF001000 + 8 * i
/-- WP_WIDENED (R54). -/
def WP_WIDENED (r c : Nat) (i : Nat) : Nat := clusterBase r c + 0xF001004 + 8 * i
/-- WSTALL_COUNT (R164). -/
def WSTALL_COUNT (r : Nat) : Nat := regionBase r + 0x1F0000A00
/-- QSTALL_COUNT (R164). -/
def QSTALL_COUNT (r : Nat) : Nat := regionBase r + 0x1F0000A04
/-- SQ_TXN (R211). -/
def SQ_TXN (r : Nat) (i : Nat) : Nat := regionBase r + 0x1F0004100 + 4 * i
/-- SQ_CE_COUNT (R212). -/
def SQ_CE_COUNT (r : Nat) : Nat := regionBase r + 0x1F0004120
/-- SQ_UE_COUNT (R212). -/
def SQ_UE_COUNT (r : Nat) : Nat := regionBase r + 0x1F0004124
/-- SMP_TOKENS (R269). -/
def SMP_TOKENS (r : Nat) : Nat := regionBase r + 0x1F0005000
/-- SMP_ACCEPT (R275). -/
def SMP_ACCEPT (r : Nat) : Nat := regionBase r + 0x1F0005004
/-- SMP_REJECT (R275). -/
def SMP_REJECT (r : Nat) : Nat := regionBase r + 0x1F0005008
/-- SMP_NOFIN (R463). -/
def SMP_NOFIN (r : Nat) : Nat := regionBase r + 0x1F000500C
/-- VYB_FEC_CE (R310). -/
def VYB_FEC_CE (i : Nat) : Nat := 0x2001C + 64 * i
/-- VYB_FEC_UE (R310). -/
def VYB_FEC_UE (i : Nat) : Nat := 0x20020 + 64 * i
/-- VYB_CRC (R310). -/
def VYB_CRC (i : Nat) : Nat := 0x20024 + 64 * i
/-- VYB_RESEND (R310). -/
def VYB_RESEND (i : Nat) : Nat := 0x20028 + 64 * i
/-- VYB_LOSS (R310). -/
def VYB_LOSS (i : Nat) : Nat := 0x2002C + 64 * i

end Rg

/-- The blocks that govern RWD fields (R461). -/
inductive Blk where
  | none | cluster | weightTier | regionCtl | port | kv | serving | ring | loader | boot
  deriving DecidableEq, Repr

/-- How a register's reset value is given: a constant, its index in the row (WTREPAIR), 4y + 1 in ROW (SBROUTE),
member 0 enabled (HB_MEMBER) or the unit's highest link version in both fields (VYB_DOMVER). -/
inductive RstKind where
  | const (w : Word) | index | sbroute | member0 | vermax
  deriving DecidableEq, Repr

/-- One row of the register map: offset in its window, stride and count, reset, the mask of each access type (R455),
whether it is a counter (R463) and the block of its RWD fields. -/
structure RegRow where
  name : String
  off : Nat
  stride : Nat
  count : Nat
  rst : RstKind
  rw : Nat
  rwd : Nat
  rwg : Nat
  w1c : Nat
  wo : Nat
  counter : Bool
  blk : Blk
  deriving DecidableEq, Repr

/-- Edge rows, part 0. -/
def edgeRows0 : List RegRow := [
  ⟨"IMG_STAT", 0x10040, 4, 1, .const 0x0, 0, 0, 0, 0, 0, false, .none⟩,
  ⟨"KVSALT", 0x10100, 4, 1, .const 0x0, 0, 0xFFFFFFFF, 0, 0, 0, false, .kv⟩,
  ⟨"SEQBASE", 0x10104, 4, 1, .const 0xFFFFFFFF, 0, 0xFFFFFFFF, 0, 0, 0, false, .kv⟩,
  ⟨"PFX_NODEBASE", 0x10108, 4, 1, .const 0xFFFFFFFF, 0, 0xFFFFFFFF, 0, 0, 0, false, .kv⟩,
  ⟨"PFX_BUCKBASE", 0x1010C, 4, 1, .const 0xFFFFFFFF, 0, 0xFFFFFFFF, 0, 0, 0, false, .kv⟩,
  ⟨"PFX_CFG", 0x10110, 4, 1, .const 0xA000000, 0, 0x1FFFFFFF, 0, 0, 0, false, .kv⟩,
  ⟨"PFX_EPOCH", 0x10114, 4, 1, .const 0x0, 0xFFFFFFFF, 0, 0, 0, 0, false, .none⟩,
  ⟨"PFX_LAUNCH", 0x10118, 4, 1, .const 0x0, 0, 0, 0, 0, 0xFFFFFFFF, false, .none⟩,
  ⟨"PFX_STAT", 0x1011C, 4, 1, .const 0x0, 0, 0, 0, 0, 0, false, .none⟩,
  ⟨"SQBASE_LO", 0x11000, 64, 64, .const 0x0, 0, 0xFFFFFFFF, 0, 0, 0, false, .ring⟩,
  ⟨"SQBASE_HI", 0x11004, 64, 64, .const 0x0, 0, 0xFFFFFFFF, 0, 0, 0, false, .ring⟩,
  ⟨"CQBASE_LO", 0x11008, 64, 64, .const 0x0, 0, 0xFFFFFFFF, 0, 0, 0, false, .ring⟩]
/-- Edge rows, part 1. -/
def edgeRows1 : List RegRow := [
  ⟨"CQBASE_HI", 0x1100C, 64, 64, .const 0x0, 0, 0xFFFFFFFF, 0, 0, 0, false, .ring⟩,
  ⟨"RCFG", 0x11010, 64, 64, .const 0x108, 0x80000000, 0x3FF, 0, 0, 0, false, .ring⟩,
  ⟨"SQTAIL", 0x11014, 64, 64, .const 0x0, 0xFFFFFF, 0, 0, 0, 0, false, .none⟩,
  ⟨"SQHEAD", 0x11018, 64, 64, .const 0x0, 0, 0, 0, 0, 0, false, .none⟩,
  ⟨"CQHEAD", 0x1101C, 64, 64, .const 0x0, 0xFFFFFF, 0, 0, 0, 0, false, .none⟩,
  ⟨"CQTAIL", 0x11020, 64, 64, .const 0x0, 0, 0, 0, 0, 0, false, .none⟩,
  ⟨"RQTAB", 0x10200, 4, 1, .const 0x0, 0, 0xFFFFFFF, 0, 0, 0, false, .serving⟩,
  ⟨"TENTAB", 0x10204, 4, 1, .const 0x0, 0, 0xFFFFFFF, 0, 0, 0, false, .serving⟩,
  ⟨"ROWRING", 0x10208, 4, 1, .const 0x0, 0, 0xFFFFFFF, 0, 0, 0, false, .serving⟩,
  ⟨"CTXBASE", 0x1020C, 4, 1, .const 0xFFFFFFFF, 0, 0xFFFFFFFF, 0, 0, 0, false, .serving⟩,
  ⟨"CTXN", 0x10210, 4, 1, .const 0x0, 0, 0x3FFFF, 0, 0, 0, false, .serving⟩,
  ⟨"ADM_CMD", 0x10600, 4, 1, .const 0x0, 0, 0, 0, 0, 0x801FFFFF, false, .none⟩]
/-- Edge rows, part 2. -/
def edgeRows2 : List RegRow := [
  ⟨"ADM_LIST", 0x10604, 4, 1, .const 0x0, 0xFFFFFFF, 0, 0, 0, 0, false, .none⟩,
  ⟨"ADM_RES", 0x10608, 4, 1, .const 0x80000000, 0, 0, 0, 0, 0, false, .none⟩,
  ⟨"WLD_LIST", 0x10700, 4, 1, .const 0x0, 0, 0xFFFFFFF, 0, 0, 0, false, .loader⟩,
  ⟨"WLD_PIMG_LO", 0x10704, 4, 1, .const 0x0, 0, 0xFFFFFFFF, 0, 0, 0, false, .loader⟩,
  ⟨"WLD_PIMG_HI", 0x10708, 4, 1, .const 0x0, 0, 0xFFFFFFFF, 0, 0, 0, false, .loader⟩,
  ⟨"WLD_CTL", 0x1070C, 4, 1, .const 0x0, 0, 0, 0, 0, 0xF8000000, false, .none⟩,
  ⟨"WLD_STAT", 0x10710, 4, 1, .const 0x0, 0, 0, 0, 0, 0, false, .none⟩,
  ⟨"WLD_FAIL", 0x10714, 4, 1, .const 0x0, 0, 0, 0, 0, 0, false, .none⟩,
  ⟨"WLD_PROG", 0x10718, 4, 1, .const 0x0, 0, 0, 0, 0, 0, false, .none⟩,
  ⟨"WLD_RDONE", 0x1071C, 4, 3, .const 0x0, 0, 0, 0, 0, 0, false, .none⟩,
  ⟨"VYB_CTL", 0x20000, 64, 32, .const 0x9C000000, 0xBE000000, 0, 0, 0, 0x40000000, false, .none⟩,
  ⟨"VYB_STAT", 0x20004, 64, 32, .const 0x0, 0, 0, 0, 0, 0, false, .none⟩]
/-- Edge rows, part 3. -/
def edgeRows3 : List RegRow := [
  ⟨"VYB_PEER", 0x20008, 64, 32, .const 0xFFFF0000, 0, 0, 0, 0, 0, false, .none⟩,
  ⟨"VYB_BIND", 0x2000C, 64, 32, .const 0x0, 0, 0x9FFF1FFF, 0, 0, 0, false, .port⟩,
  ⟨"MBQSTAT", 0x20010, 64, 32, .const 0x1000, 0, 0, 0, 0, 0, false, .none⟩,
  ⟨"MBQRET_LO", 0x20014, 64, 32, .const 0x0, 0, 0xFFFFFFFF, 0, 0, 0, false, .port⟩,
  ⟨"MBQRET_HI", 0x20018, 64, 32, .const 0x0, 0, 0xFFFFFFFF, 0, 0, 0, false, .port⟩,
  ⟨"VYB_DOMVER", 0x20800, 4, 1, .vermax, 0xF, 0, 0, 0, 0, false, .none⟩,
  ⟨"HB_CFG", 0x22000, 4, 1, .const 0x0, 0, 0, 0, 0, 0, false, .none⟩,
  ⟨"HB_MEMBER", 0x22040, 4, 16, .member0, 0x800003FF, 0, 0, 0, 0, false, .none⟩,
  ⟨"HB_WIN_LO", 0x22080, 8, 16, .const 0x0, 0xF000001F, 0, 0, 0, 0, false, .none⟩,
  ⟨"HB_WIN_HI", 0x22084, 8, 16, .const 0x0, 0xFFFF, 0, 0, 0, 0, false, .none⟩,
  ⟨"HB_ROUTE", 0x22100, 4, 1, .const 0x0, 0x800003FF, 0, 0, 0, 0, false, .none⟩,
  ⟨"GOP_CMD", 0x21000, 4, 1, .const 0x0, 0, 0, 0, 0, 0xF0007FFF, false, .none⟩]
/-- Edge rows, part 4. -/
def edgeRows4 : List RegRow := [
  ⟨"GOP_DATA", 0x21004, 4, 1, .const 0x0, 0xFFFFFFFF, 0, 0, 0, 0, false, .none⟩,
  ⟨"GOP_TREE", 0x21008, 4, 1, .const 0x0, 0xF7, 0, 0, 0, 0, false, .none⟩,
  ⟨"GOP_STAT", 0x2100C, 4, 1, .const 0x0, 0, 0, 0, 0, 0, false, .none⟩,
  ⟨"GOP_REL", 0x21010, 4, 1, .const 0x7FFF, 0, 0, 0, 0, 0, false, .none⟩,
  ⟨"GOP_BCAST", 0x21014, 4, 1, .const 0x0, 0, 0, 0, 0, 0, false, .none⟩,
  ⟨"GOP_BDATA", 0x21018, 4, 1, .const 0x0, 0, 0, 0, 0, 0, false, .none⟩,
  ⟨"GOP_TMO", 0x2101C, 4, 1, .const 0x3E8, 0xFFFF, 0, 0, 0, 0, false, .none⟩,
  ⟨"GOP_RESET", 0x21020, 4, 1, .const 0x0, 0, 0, 0xFFFFFFFF, 0, 0, false, .none⟩,
  ⟨"PM_IN", 0x30000, 4, 1, .const 0x0, 0, 0, 0, 0, 0, false, .none⟩,
  ⟨"PM_POWER", 0x30004, 4, 1, .const 0x0, 0, 0, 0, 0, 0, false, .none⟩,
  ⟨"PM_CAPSRC", 0x30008, 4, 1, .const 0x0, 0, 0, 0, 0, 0, false, .none⟩,
  ⟨"PM_CREDCAP", 0x3000C, 4, 1, .const 0x0, 0, 0, 0, 0, 0, false, .none⟩]
/-- Edge rows, part 5. -/
def edgeRows5 : List RegRow := [
  ⟨"PM_BRAKE_CNT", 0x30010, 4, 1, .const 0x0, 0, 0, 0, 0xFFFFFFFF, 0, true, .none⟩,
  ⟨"REF_CTL", 0x30100, 4, 1, .const 0x0, 0x3, 0, 0, 0, 0, false, .none⟩,
  ⟨"REF_STAT", 0x30104, 4, 1, .const 0x20000000, 0, 0, 0, 0, 0, false, .none⟩,
  ⟨"RPWR_CTL", 0x31000, 16, 96, .const 0x0, 0, 0, 0x80000000, 0, 0, false, .none⟩,
  ⟨"RPWR_STAT", 0x31004, 16, 96, .const 0x0, 0, 0, 0, 0, 0, false, .none⟩,
  ⟨"RPWR_VSET", 0x31008, 16, 96, .const 0x0, 0, 0, 0x800003FF, 0, 0, false, .none⟩,
  ⟨"RPWR_MEAS", 0x3100C, 16, 96, .const 0x0, 0, 0, 0, 0, 0, false, .none⟩,
  ⟨"CP_FLOW", 0x30200, 4, 1, .const 0xFFFF0000, 0, 0, 0, 0, 0, false, .none⟩,
  ⟨"CP_TEMP", 0x30204, 4, 1, .const 0x0, 0, 0, 0, 0, 0, false, .none⟩,
  ⟨"CP_PRESS", 0x30208, 4, 1, .const 0x0, 0, 0, 0, 0, 0, false, .none⟩,
  ⟨"CP_CAP", 0x3020C, 4, 1, .const 0xFFFF, 0, 0, 0, 0, 0, false, .none⟩,
  ⟨"CP_STAT", 0x30210, 4, 1, .const 0x0, 0, 0, 0, 0, 0, false, .none⟩]
/-- Edge rows, part 6. -/
def edgeRows6 : List RegRow := [
  ⟨"STK_THERM", 0x30240, 4, 24, .const 0x400000, 0, 0, 0, 0, 0, false, .none⟩,
  ⟨"BOOT_FW_LO", 0x40000, 4, 1, .const 0x0, 0, 0xFFFFFFFF, 0, 0, 0, false, .boot⟩,
  ⟨"BOOT_FW_HI", 0x40004, 4, 1, .const 0x0, 0, 0xFFFFFFFF, 0, 0, 0, false, .boot⟩,
  ⟨"BOOT_RL_LO", 0x40008, 4, 1, .const 0x0, 0, 0xFFFFFFFF, 0, 0, 0, false, .boot⟩,
  ⟨"BOOT_RL_HI", 0x4000C, 4, 1, .const 0x0, 0, 0xFFFFFFFF, 0, 0, 0, false, .boot⟩,
  ⟨"BOOT_RL_N", 0x40010, 4, 1, .const 0x0, 0, 0x1FFF, 0, 0, 0, false, .boot⟩,
  ⟨"BOOT_CTL", 0x40014, 4, 1, .const 0x0, 0, 0, 0, 0, 0x80000000, false, .none⟩,
  ⟨"BOOT_STAT", 0x40018, 4, 1, .const 0x0, 0, 0, 0, 0, 0, false, .none⟩,
  ⟨"YMAP_FENCE", 0x40100, 4, 3, .const 0x0, 0, 0, 0, 0, 0, false, .none⟩,
  ⟨"YMAP_CL", 0x40200, 4, 96, .const 0x0, 0, 0, 0, 0, 0, false, .none⟩,
  ⟨"BU_STAT", 0x40040, 4, 1, .const 0x0, 0, 0, 0, 0, 0, false, .none⟩,
  ⟨"ELOG_TAIL", 0x50000, 4, 1, .const 0x0, 0, 0, 0, 0, 0, false, .none⟩]
/-- Edge rows, part 7. -/
def edgeRows7 : List RegRow := [
  ⟨"ELOG_HEAD", 0x50004, 4, 1, .const 0x0, 0xFFFFFFFF, 0, 0, 0, 0, false, .none⟩,
  ⟨"ELOG_LOST", 0x50008, 4, 1, .const 0x0, 0, 0, 0, 0xFFFFFFFF, 0, true, .none⟩,
  ⟨"ELOG_WAIT", 0x5000C, 4, 1, .const 0x0, 0, 0, 0, 0, 0, false, .none⟩,
  ⟨"MG_NODE", 0x60000, 4, 1, .const 0x0, 0, 0, 0, 0, 0, false, .none⟩,
  ⟨"MG_CHAIN", 0x60004, 4, 1, .const 0x8000000, 0, 0, 0, 0x4000000, 0, false, .none⟩,
  ⟨"TB_LO", 0x60010, 4, 1, .const 0x0, 0, 0, 0, 0, 0, false, .none⟩,
  ⟨"TB_HI", 0x60014, 4, 1, .const 0x0, 0, 0, 0, 0, 0, false, .none⟩,
  ⟨"TB_STAT", 0x60018, 4, 1, .const 0x0, 0, 0, 0, 0, 0, false, .none⟩,
  ⟨"TB_OFS", 0x6001C, 4, 1, .const 0x0, 0, 0, 0, 0, 0, false, .none⟩,
  ⟨"EDGE_CFGIGN", 0x73000, 4, 1, .const 0x0, 0, 0, 0, 0x7F, 0, false, .none⟩,
  ⟨"CFGIGN_CAP0", 0x73004, 4, 1, .const 0x0, 0, 0, 0, 0, 0, false, .none⟩,
  ⟨"CFGIGN_CAP1", 0x73008, 4, 1, .const 0x0, 0, 0, 0, 0x80000000, 0, false, .none⟩]
/-- Edge rows, part 8. -/
def edgeRows8 : List RegRow := [
  ⟨"GP_LAPSE", 0x73010, 4, 1, .const 0x0, 0, 0, 0, 0xFFFFFFFF, 0, true, .none⟩,
  ⟨"GP_REFUSED", 0x73014, 4, 1, .const 0x0, 0, 0, 0, 0xFFFFFFFF, 0, true, .none⟩,
  ⟨"FUSE_SERIAL", 0x70000, 4, 4, .const 0x0, 0, 0, 0, 0, 0, false, .none⟩,
  ⟨"FUSE_ID", 0x70010, 4, 1, .const 0x0, 0, 0, 0, 0, 0, false, .none⟩,
  ⟨"FUSE_LIMIT", 0x70014, 4, 1, .const 0x0, 0, 0, 0, 0, 0, false, .none⟩,
  ⟨"FUSE_SVNMIN", 0x70018, 4, 1, .const 0x0, 0, 0, 0, 0, 0, false, .none⟩,
  ⟨"FUSE_SLOT", 0x7001C, 4, 1, .const 0x0, 0, 0, 0, 0, 0, false, .none⟩,
  ⟨"FUSE_MAC_LO", 0x70020, 4, 1, .const 0x0, 0, 0, 0, 0, 0, false, .none⟩,
  ⟨"FUSE_MAC_HI", 0x70024, 4, 1, .const 0x0, 0, 0, 0, 0, 0, false, .none⟩,
  ⟨"FUSE_OWNER", 0x70040, 4, 64, .const 0x0, 0, 0, 0, 0, 0, false, .none⟩,
  ⟨"FUSE_PGM_DATA", 0x70200, 4, 16, .const 0x0, 0xFFFFFFFF, 0, 0, 0, 0, false, .none⟩,
  ⟨"FUSE_PGM", 0x70240, 4, 1, .const 0x0, 0, 0, 0xFFFFFFFF, 0, 0, false, .none⟩]
/-- Edge rows, part 9. -/
def edgeRows9 : List RegRow := [
  ⟨"FUSE_STAT", 0x70244, 4, 1, .const 0x0, 0, 0, 0, 0, 0, false, .none⟩,
  ⟨"CRY_ARG", 0x71000, 4, 1, .const 0x0, 0xFFFFFFF, 0, 0, 0, 0, false, .none⟩,
  ⟨"CRY_CMD", 0x71004, 4, 1, .const 0x0, 0, 0, 0xFC000000, 0, 0, false, .none⟩,
  ⟨"CRY_STAT", 0x71008, 4, 1, .const 0x0, 0, 0, 0, 0, 0, false, .none⟩,
  ⟨"CMCLR_OFF", 0x72000, 4, 1, .const 0x0, 0xFFFFFFF, 0, 0, 0, 0, false, .none⟩,
  ⟨"CMCLR_LEN", 0x72004, 4, 1, .const 0x0, 0x1FFFFFFF, 0, 0, 0, 0, false, .none⟩,
  ⟨"CMCLR_GO", 0x72008, 4, 1, .const 0x0, 0, 0, 0, 0, 0x80000000, false, .none⟩,
  ⟨"CMCLR_STAT", 0x7200C, 4, 1, .const 0x0, 0, 0, 0, 0x40000000, 0, false, .none⟩,
  ⟨"COMMIT_CMD", 0x10400, 64, 8, .const 0x0, 0xFFFFFFFF, 0, 0, 0, 0, false, .none⟩,
  ⟨"COMMIT_CMD", 0x10404, 64, 8, .const 0x0, 0xFFFFFFFF, 0, 0, 0, 0, false, .none⟩,
  ⟨"COMMIT_CMD", 0x10408, 64, 8, .const 0x0, 0xFFFFFFFF, 0, 0, 0, 0, false, .none⟩,
  ⟨"COMMIT_CMD", 0x1040C, 64, 8, .const 0x0, 0xFFFFFFFF, 0, 0, 0, 0, false, .none⟩]
/-- Edge rows, part 10. -/
def edgeRows10 : List RegRow := [
  ⟨"COMMIT_CMD", 0x10410, 64, 8, .const 0x0, 0xFFFFFFFF, 0, 0, 0, 0, false, .none⟩,
  ⟨"COMMIT_CMD", 0x10414, 64, 8, .const 0x0, 0xFFFFFFFF, 0, 0, 0, 0, false, .none⟩,
  ⟨"COMMIT_CMD", 0x10418, 64, 8, .const 0x0, 0xFFFFFFFF, 0, 0, 0, 0, false, .none⟩,
  ⟨"COMMIT_CMD", 0x1041C, 64, 8, .const 0x0, 0xFFFFFFFF, 0, 0, 0, 0, false, .none⟩,
  ⟨"COMMIT_RES", 0x10420, 64, 8, .const 0x0, 0, 0, 0, 0, 0, false, .none⟩,
  ⟨"EDGE_FBREC", 0x51000, 4, 256, .const 0x0, 0, 0, 0, 0, 0, false, .none⟩,
  ⟨"EDGE_FBSTAT", 0x51400, 4, 1, .const 0x0, 0, 0, 0, 0x80000000, 0, false, .none⟩,
  ⟨"EDGE_FBACK", 0x51404, 4, 1, .const 0x0, 0, 0, 0, 0, 0x3F, false, .none⟩,
  ⟨"VYB_FEC_CE", 0x2001C, 64, 32, .const 0x0, 0, 0, 0, 0xFFFFFFFF, 0, true, .none⟩,
  ⟨"VYB_FEC_UE", 0x20020, 64, 32, .const 0x0, 0, 0, 0, 0xFFFFFFFF, 0, true, .none⟩,
  ⟨"VYB_CRC", 0x20024, 64, 32, .const 0x0, 0, 0, 0, 0xFFFFFFFF, 0, true, .none⟩,
  ⟨"VYB_RESEND", 0x20028, 64, 32, .const 0x0, 0, 0, 0, 0xFFFFFFFF, 0, true, .none⟩]
/-- Edge rows, part 11. -/
def edgeRows11 : List RegRow := [
  ⟨"VYB_LOSS", 0x2002C, 64, 32, .const 0x0, 0, 0, 0, 0xFFFFFFFF, 0, true, .none⟩]
/-- The registers of the edge window. -/
def edgeRows : List RegRow := edgeRows0 ++ edgeRows1 ++ edgeRows2 ++ edgeRows3 ++ edgeRows4 ++ edgeRows5 ++ edgeRows6 ++ edgeRows7 ++ edgeRows8 ++ edgeRows9 ++ edgeRows10 ++ edgeRows11

/-- Region rows, part 0. -/
def regionRows0 : List RegRow := [
  ⟨"QSTAT", 0x1F0001000, 4, 22, .const 0x40, 0, 0, 0, 0, 0, false, .none⟩,
  ⟨"QRET_LO", 0x1F0001100, 8, 22, .const 0x0, 0, 0xFFFFFFFF, 0, 0, 0, false, .regionCtl⟩,
  ⟨"QRET_HI", 0x1F0001104, 8, 22, .const 0x0, 0, 0xFFFFFFFF, 0, 0, 0, false, .regionCtl⟩,
  ⟨"QCTL", 0x1F0001200, 4, 1, .const 0x18, 0x1F, 0, 0, 0, 0, false, .none⟩,
  ⟨"REMAPSTAT", 0x1F0000300, 4, 1, .const 0x0, 0, 0x9F1F9F1F, 0, 0, 0, false, .regionCtl⟩,
  ⟨"ENVELOPE", 0x1F0000200, 4, 1, .const 0x0, 0, 0x1FFFFF, 0, 0, 0, false, .regionCtl⟩,
  ⟨"AU_WIN", 0x1F0000204, 4, 1, .const 0x0, 0, 0, 0, 0, 0, false, .none⟩,
  ⟨"AU_PEAK", 0x1F0000208, 4, 1, .const 0x0, 0, 0, 0, 0, 0x80000000, false, .none⟩,
  ⟨"STALL_AU", 0x1F000020C, 4, 1, .const 0x0, 0, 0, 0, 0xFFFFFFFF, 0, true, .none⟩,
  ⟨"SWP_HOLD", 0x1F0000320, 4, 1, .const 0x0, 0x80000000, 0, 0, 0, 0, false, .none⟩,
  ⟨"CLKTUNE", 0x1F0000800, 4, 1, .const 0x400040, 0x7F, 0, 0, 0x80000000, 0, false, .none⟩,
  ⟨"CLKCAP", 0x1F0000804, 4, 1, .const 0x40404040, 0, 0, 0, 0, 0, false, .none⟩]
/-- Region rows, part 1. -/
def regionRows1 : List RegRow := [
  ⟨"CLKSRC", 0x1F0000808, 4, 1, .const 0x3E09C0F, 0xFF0F, 0, 0, 0, 0, false, .none⟩,
  ⟨"DROOP_CNT", 0x1F0000810, 4, 1, .const 0x0, 0, 0, 0, 0xFFFFFFFF, 0, true, .none⟩,
  ⟨"REFSW_CNT", 0x1F0000814, 4, 1, .const 0x0, 0, 0, 0, 0xFFFFFFFF, 0, true, .none⟩,
  ⟨"RMON", 0x1F0000818, 4, 1, .const 0x0, 0, 0, 0, 0, 0, false, .none⟩,
  ⟨"REPSLACK", 0x1F000081C, 4, 1, .const 0x0, 0, 0, 0, 0, 0, false, .none⟩,
  ⟨"THERM_STAT", 0x1F0000900, 4, 1, .const 0x0, 0, 0, 0, 0, 0, false, .none⟩,
  ⟨"TPAIR", 0x1F0000910, 4, 4, .const 0x0, 0, 0, 0, 0, 0, false, .none⟩,
  ⟨"FBREC", 0x1F0002000, 4, 256, .const 0x0, 0, 0, 0, 0, 0, false, .none⟩,
  ⟨"FBSTAT", 0x1F0002400, 4, 1, .const 0x0, 0, 0, 0, 0x80000000, 0, false, .none⟩,
  ⟨"FBACK", 0x1F0002404, 4, 1, .const 0x0, 0, 0, 0, 0, 0x3F, false, .none⟩,
  ⟨"RC_STAT", 0x1F0000000, 4, 1, .const 0x0, 0, 0, 0, 0x8000000, 0, false, .none⟩,
  ⟨"SEGSEQ", 0x1F0000104, 4, 1, .const 0x0, 0, 0, 0, 0, 0, false, .none⟩]
/-- Region rows, part 2. -/
def regionRows2 : List RegRow := [
  ⟨"TRACE_IDX", 0x1F0000108, 4, 1, .const 0x0, 0, 0, 0, 0, 0, false, .none⟩,
  ⟨"SBROUTE", 0x1F0000110, 4, 1, .sbroute, 0x9F, 0, 0, 0, 0, false, .none⟩,
  ⟨"SQ_STAT", 0x1F0004130, 4, 1, .const 0x0, 0, 0, 0, 0, 0, false, .none⟩,
  ⟨"SMP_STAT", 0x1F0005010, 4, 1, .const 0x0, 0, 0, 0, 0, 0, false, .none⟩,
  ⟨"DFLIP_P", 0x1F0004000, 4, 9, .const 0x0, 0xFFFFFFFF, 0, 0, 0, 0, false, .none⟩,
  ⟨"DFLIP_CTL", 0x1F0004024, 4, 1, .const 0x0, 0x80000007, 0, 0, 0, 0, false, .none⟩,
  ⟨"TRACE", 0x1F0003000, 4, 1024, .const 0x0, 0, 0, 0, 0, 0, false, .none⟩,
  ⟨"WSTALL_COUNT", 0x1F0000A00, 4, 1, .const 0x0, 0, 0, 0, 0xFFFFFFFF, 0, true, .none⟩,
  ⟨"QSTALL_COUNT", 0x1F0000A04, 4, 1, .const 0x0, 0, 0, 0, 0xFFFFFFFF, 0, true, .none⟩,
  ⟨"SQ_TXN", 0x1F0004100, 4, 8, .const 0x0, 0, 0, 0, 0xFFFFFFFF, 0, true, .none⟩,
  ⟨"SQ_CE_COUNT", 0x1F0004120, 4, 1, .const 0x0, 0, 0, 0, 0xFFFFFFFF, 0, true, .none⟩,
  ⟨"SQ_UE_COUNT", 0x1F0004124, 4, 1, .const 0x0, 0, 0, 0, 0xFFFFFFFF, 0, true, .none⟩]
/-- Region rows, part 3. -/
def regionRows3 : List RegRow := [
  ⟨"SMP_TOKENS", 0x1F0005000, 4, 1, .const 0x0, 0, 0, 0, 0xFFFFFFFF, 0, true, .none⟩,
  ⟨"SMP_ACCEPT", 0x1F0005004, 4, 1, .const 0x0, 0, 0, 0, 0xFFFFFFFF, 0, true, .none⟩,
  ⟨"SMP_REJECT", 0x1F0005008, 4, 1, .const 0x0, 0, 0, 0, 0xFFFFFFFF, 0, true, .none⟩,
  ⟨"SMP_NOFIN", 0x1F000500C, 4, 1, .const 0x0, 0, 0, 0, 0xFFFFFFFF, 0, true, .none⟩]
/-- The registers of the region window. -/
def regionRows : List RegRow := regionRows0 ++ regionRows1 ++ regionRows2 ++ regionRows3

/-- Cluster rows, part 0. -/
def clusterRows0 : List RegRow := [
  ⟨"SPFLIP_D0", 0xF000410, 4, 1, .const 0x0, 0xFFFFFFFF, 0, 0, 0, 0, false, .none⟩,
  ⟨"SPFLIP_D1", 0xF000414, 4, 1, .const 0x0, 0xFFFFFFFF, 0, 0, 0, 0, false, .none⟩,
  ⟨"SPFLIP_CTL", 0xF000418, 4, 1, .const 0x0, 0x80001FFF, 0, 0, 0, 0, false, .none⟩,
  ⟨"WTCRC_TEST", 0xF000420, 4, 1, .const 0x0, 0x80001FFF, 0, 0, 0, 0, false, .none⟩,
  ⟨"FRTAB_LO", 0xF000600, 8, 32, .const 0x0, 0, 0x800FFFFF, 0, 0, 0, false, .cluster⟩,
  ⟨"FRTAB_HI", 0xF000604, 8, 32, .const 0x0, 0, 0xFFFFF, 0, 0, 0, false, .cluster⟩,
  ⟨"CL_STAT", 0xF000700, 4, 1, .const 0x0, 0, 0, 0, 0x10000000, 0, false, .none⟩,
  ⟨"HANDLE_LO", 0xF000000, 8, 64, .const 0x0, 0, 0xFFE01FFF, 0, 0, 0, false, .cluster⟩,
  ⟨"HANDLE_HI", 0xF000004, 8, 64, .const 0x0, 0, 0x3FFFF, 0, 0, 0, false, .cluster⟩,
  ⟨"SPBANKMASK", 0xF000400, 4, 1, .const 0x0, 0, 0xFFFFFF, 0, 0, 0, false, .cluster⟩,
  ⟨"WTREPAIR", 0xF000500, 4, 36, .index, 0, 0x3F, 0, 0, 0, false, .weightTier⟩,
  ⟨"SP_CE_COUNT", 0xF000800, 4, 1, .const 0x0, 0, 0, 0, 0xFFFFFFFF, 0, true, .none⟩]
/-- Cluster rows, part 1. -/
def clusterRows1 : List RegRow := [
  ⟨"PM_CE_COUNT", 0xF000804, 4, 1, .const 0x0, 0, 0, 0, 0xFFFFFFFF, 0, true, .none⟩,
  ⟨"WT_CHK_COUNT", 0xF000808, 4, 1, .const 0x0, 0, 0, 0, 0xFFFFFFFF, 0, true, .none⟩,
  ⟨"LINK_CE_COUNT", 0xF00080C, 4, 1, .const 0x0, 0, 0, 0, 0xFFFFFFFF, 0, true, .none⟩,
  ⟨"Q_CE_COUNT", 0xF000810, 4, 1, .const 0x0, 0, 0, 0, 0xFFFFFFFF, 0, true, .none⟩,
  ⟨"XSTEP_COUNT", 0xF000814, 4, 1, .const 0x0, 0, 0, 0, 0xFFFFFFFF, 0, true, .none⟩,
  ⟨"XBEAT_COUNT", 0xF000818, 4, 1, .const 0x0, 0, 0, 0, 0xFFFFFFFF, 0, true, .none⟩,
  ⟨"WP_TESTED", 0xF001000, 8, 256, .const 0x0, 0, 0, 0, 0xFFFFFFFF, 0, true, .none⟩,
  ⟨"WP_WIDENED", 0xF001004, 8, 256, .const 0x0, 0, 0, 0, 0xFFFFFFFF, 0, true, .none⟩]
/-- The registers of the cluster window. -/
def clusterRows : List RegRow := clusterRows0 ++ clusterRows1

/-- Does offset `o` fall on a register of the row, and at which index? -/
def RegRow.at_ (w : RegRow) (o : Nat) : Option Nat :=
  if w.off ≤ o ∧ (o - w.off) % w.stride = 0 ∧ (o - w.off) / w.stride < w.count then some ((o - w.off) / w.stride) else none

/-- The first row that holds offset `o`, with the index in it. -/
def findRow (o : Nat) : List RegRow → Option (RegRow × Nat)
  | [] => none
  | w :: ws => match w.at_ o with | some i => some (w, i) | none => findRow o ws

/-- What a control address reaches (R17, R18, R456). -/
inductive Place where
  | edgeReg (w : RegRow) (i : Nat)
  | regionReg (r : Nat) (w : RegRow) (i : Nat)
  | clusterReg (r c : Nat) (w : RegRow) (i : Nat)
  | cmem (off : Nat)
  | stack (n off : Nat)
  | weight (r c off : Nat)
  | tagArray (r c tile : Nat)
  | spRaw (r c off : Nat)
  | prog (r c off : Nat)
  | none
  deriving DecidableEq, Repr

/-- What a cluster-window offset reaches (R18, R464). -/
def clusterPlace (r c o : Nat) : Place :=
  if o < 0x4800000 then .weight r c o
  else if 0x8000000 ≤ o ∧ o < 0x8180000 then .spRaw r c (o - 0x8000000)
  else if 0x9000000 ≤ o ∧ o < 0x9080000 then .prog r c (o - 0x9000000)
  else if 0xA000000 ≤ o ∧ o < 0xA004800 then .tagArray r c ((o - 0xA000000) / 4)
  else match findRow o clusterRows with
    | some (w, i) => .clusterReg r c w i
    | .none => .none

/-- What a region-window offset reaches (R18, R465). -/
def regionPlace (r o : Nat) : Place :=
  if o < 28 * 0x10000000 then clusterPlace r (o / 0x10000000) (o % 0x10000000)
  else match findRow o regionRows with
    | some (w, i) => .regionReg r w i
    | .none => .none

/-- What a control address reaches; the address is a multiple of 4 (R454). -/
def placeOf (a : Nat) : Place :=
  if a < 0x1000000000 then
    if cmemBase ≤ a ∧ a < cmemBase + 0x10000000 then .cmem (a - cmemBase)
    else match findRow a edgeRows with
      | some (w, i) => .edgeReg w i
      | .none => .none
  else if 0x100000000000 ≤ a ∧ a < 0x130000000000 then
    .stack ((a - 0x100000000000) / 0x2000000000) ((a - 0x100000000000) % 0x2000000000)
  else if 0x200000000000 ≤ a ∧ a < 0x200000000000 + 96 * 0x200000000 then
    regionPlace ((a - 0x200000000000) / 0x200000000) ((a - 0x200000000000) % 0x200000000)
  else .none

/-- The reset value of register `i` of a row; `y` is the row of its region (R462, R465). -/
def RegRow.resetAt (w : RegRow) (i y : Nat) : Word :=
  match w.rst with
  | .const v => v
  | .index => BitVec.ofNat 32 i
  | .sbroute => BitVec.ofNat 32 (4 * y + 1)
  | .member0 => if i = 0 then 0x80000000 else 0
  | .vermax => BitVec.ofNat 32 (Config.fuses.vermax % 16 * 17)

/-- The value the register at an address takes at power-up (R462). -/
def resetReg (a : Nat) : Word :=
  match placeOf a with
  | .edgeReg w i => w.resetAt i 0
  | .regionReg r w i => w.resetAt i (r / 12)
  | .clusterReg _ _ w i => w.resetAt i 0
  | _ => 0

end Sys2Proof.Machine
end

