-- ==== Sys2Proof/Machine/Parts.lean ====
section
/-!
DEFINITION. The parts of the machine's state that belong to clusters, regions and the fabric, as plain data, with their
reset contents. What a part holds at power-up where the manual gives no value is zero (DESIGN CHOICE, log 2).
-/
namespace Sys2Proof.Machine

/-- A 64-bit word of a memory with check bits and a duplicated valid bit (R129, R134). It is listed when it is valid.
`flip` is the difference between the stored 72 bits and the code word of `data` ([63:0] data, [71:64] check bits);
`twin` says that the two copies of its valid bit agree. -/
structure Cell where
  data : DWord
  flip : BitVec 72
  twin : Bool
  deriving DecidableEq, Repr

/-- A word stored without error. -/
def Cell.ofWord (w : DWord) : Cell := ⟨w, 0, true⟩

/-- A word of program memory (R84, R145): four 64-bit parts, each with its own 72-bit error pattern. -/
structure PCell where
  w : ProgWord
  flip : BitVec 288
  deriving DecidableEq, Repr

/-- The all-NOP word. -/
def PCell.zero : PCell := ⟨0, 0⟩

/-- A 64-bit DRAM word with its 72-bit error pattern (R212). -/
structure DCell where
  data : DWord
  flip : BitVec 72
  deriving DecidableEq, Repr

/-- A DRAM word of zero. -/
def DCell.zero : DCell := ⟨0, 0⟩

/-- A beat with the error pattern of its eight 128-bit sub-words, 137 bits each (R147, R148). -/
structure LBeat where
  data : Beat
  flip : BitVec 1096
  deriving DecidableEq, Repr

/-- A beat without error. -/
def LBeat.ofBeat (b : Beat) : LBeat := ⟨b, 0⟩

/-- An entry of a region-boundary queue: its beat and the storage entry that holds it (R160, R162). -/
structure QEntry where
  beat : LBeat
  slot : Nat
  deriving DecidableEq, Repr

/-- A region-boundary queue (R159, R160): entries visible to the reader, entries pushed and not yet visible, slots
freed and not yet visible to the writer, the storage entry that the next push takes, and the fence of R167. -/
structure Queue where
  vis : List QEntry
  hid : List QEntry
  freed : Nat
  next : Nat
  fenced : Bool
  deriving DecidableEq, Repr

/-- An empty queue. -/
def Queue.empty : Queue := ⟨[], [], 0, 0, false⟩

/-- One frame of the loop stack: first bundle of the body, its length and the executions left (R91). -/
structure LoopFrame where
  start : Nat
  len : Nat
  left : Nat
  deriving DecidableEq, Repr

/-- An effect that lands when its latency has elapsed (R87). -/
inductive Eff where
  /-- Lanes `vals` from index `key` of the vector registers. -/
  | vreg (key : Nat) (vals : List Word)
  /-- Exact addition of a term into accumulator `i` (R67). -/
  | accAdd (i : Nat) (v : FVal)
  /-- A fold of accumulator contents into accumulator `i` (R70). -/
  | accFold (i : Nat) (x : Acc)
  /-- Accumulator `i` takes contents `x`: a reset (XRST) or an exact load (R70). -/
  | accSet (i : Nat) (x : Acc)
  /-- Blend accumulator `i` of the press engine. -/
  | pacc (i : Nat) (w : Word)
  /-- Blend accumulator `i` of the pour engine. -/
  | qacc (i : Nat) (w : Word)
  /-- Bytes `bs` arrive at port `port` (0 to 3, 6 or 7) from byte `o` on; `sel` is VSEL or ACC0, and `h` the handle they
  come from (R105, R106). -/
  | port (port sel o h : Nat) (bs : List Byte)
  /-- A read of word `key` through handle `h` returns an uncorrectable word (R131). -/
  | spBad (key h : Nat)
  /-- A read of word `key` returns a corrected word; `syn` is the syndrome (R131). -/
  | spFixed (key syn : Nat)
  /-- The bank access of a write of one word (R130): visible four cycles later. -/
  | spAccess (a : Nat) (w : DWord)
  /-- A written word becomes visible. -/
  | spVisible (a : Nat) (c : Cell)
  /-- A valid-bit clear (R141). -/
  | spClear (a : Nat)
  /-- A format fault found in bytes that come from what `qh` names: its detail and offending value (R204). -/
  | format (detail aux qh : Nat)
  /-- The first byte of a tile leaves the port, in segment `seg` (R128). -/
  | tileFirst (t seg : Nat)
  /-- A tile's comparison completes; `seg` is the segment of the RUN or CBLOAD (R125). -/
  | tileCmp (t seg : Nat)
  /-- The codebook store is filled (R60, R92). -/
  | cbStore (bs : List Byte) (len : Nat)
  /-- A beat delivered to outgoing link `side`: beat `idx` of the stream that issued in cycle `iss` (R109). -/
  | deliver (side : Nat) (beat : LBeat) (idx : Nat) (form : Bool) (iss : Nat)
  deriving DecidableEq, Repr

/-- A pending effect: the schedule cycle in which it lands, the bundle address and slot that caused it (R200), and
the effect. -/
structure Pend where
  due : Nat
  bundle : Nat
  slot : Nat
  eff : Eff
  deriving DecidableEq, Repr

/-- An operation on the MEM path (R106): a transfer, or the release of handle `h` when `rel`; its issue cycle, the
bundle that issued it, the queue form, the words moved so far and the bytes held for a whole group or command. -/
structure MemOp where
  d : XferDesc
  rel : Bool
  form : Bool
  issue : Nat
  bundle : Nat
  buf : List Byte
  deriving DecidableEq, Repr

/-- An engine operation that runs (R92 to R97): its engine (1 press, 2 pour), slot, descriptor, issue cycle and bundle, the
bias words and the activation slots that it has read, its next K-step with the schedule cycle in which that begins, and the
slack left in the group (R79). -/
structure EngRun where
  kind : Nat
  e : EngSlot
  d : OpDesc
  issue : Nat
  bundle : Nat
  bias : List DWord
  buf : List Byte
  step : Nat
  at_ : Nat
  slack : Nat
  deriving DecidableEq, Repr

/-- How far a stream has taken one of its sources (R149, R158): the moves it made in stall ACLK, its next stream beat index,
the excess beats still to take of the frame whose period has ended, and those taken. -/
structure Flow where
  adv : Nat
  k : Nat
  x : Nat
  y : Nat
  deriving DecidableEq, Repr

/-- A flow before its first beat. -/
def Flow.start : Flow := ⟨0, 0, 0, 0⟩

/-- A route stream (R108): descriptor and its word address, queue form, issue cycle and bundle, frame-table values
(RSV, NBLK) when framed, whether it carries XS frames (R157), the flows of its sources, beats read from the local source and
not yet taken, beats of the current group or list taken from SRCA and SRCB, and of an XS sum the whole groups held of each
source, the groups summed and the excess beats of sums still to send, each with the stream index it follows and its number from 1. -/
structure Stream where
  d : RouteDesc
  addr : Nat
  form : Bool
  issue : Nat
  bundle : Nat
  rsv : Nat
  nblk : Nat
  xs : Bool
  fa : Flow
  fb : Flow
  held : List (Nat × List LBeat)
  part : List Byte
  takenA : List LBeat
  takenB : List LBeat
  doneA : List (List LBeat)
  doneB : List (List LBeat)
  sums : Nat
  outs : List (Nat × Nat × LBeat)
  deriving DecidableEq, Repr

/-- A stream as a ROUTE starts it. -/
def Stream.start (d : RouteDesc) (addr : Nat) (form : Bool) (issue bundle rsv nblk : Nat) (xs : Bool) : Stream :=
  { d := d, addr := addr, form := form, issue := issue, bundle := bundle, rsv := rsv, nblk := nblk, xs := xs, fa := .start,
    fb := .start, held := [], part := [], takenA := [], takenB := [], doneA := [], doneB := [], sums := 0, outs := [] }

/-- A beat present at an incoming link in schedule cycle `at_` only (R149); `iss` is the issue of the stream that sent it. -/
structure InBeat where
  side : Nat
  at_ : Nat
  beat : LBeat
  iss : Nat
  deriving DecidableEq, Repr

/-- A stall asked for (R80, R158): the schedule cycle it falls on, its length, the AU of each of its ACLK (R191), and for an
excess-beat stall the flow that moves: cluster, issue of the stream, and 0 SRCA, 1 SRCB, 2 the output of an XS sum. -/
structure StallReq where
  cycle : Nat
  len : Nat
  au : Nat
  seed : Option (Nat × Nat × Nat)
  deriving DecidableEq, Repr

/-- A DMA command of a cluster's command queue: its argument word, its CONST fields, the write data that goes with it
and the bundle that issued it (R223). -/
structure DmaCmd where
  arg : DWord
  const : DWord
  data : List DWord
  bundle : Nat
  deriving DecidableEq, Repr

/-- A word of a completion queue: data, or a fault word: the fault that popping it raises and the bundle of the
command (R224, R226, R229). -/
inductive DmaWord where
  | data (w : DWord)
  | bad (code detail aux bundle : Nat)
  deriving DecidableEq, Repr

/-- A cluster's memories, registers and what is in flight in it. Control registers are in `State.regs`. -/
structure Cluster where
  /-- Program memory by word address (R84). -/
  prog : List (Nat × PCell)
  /-- Weight tier by physical macro × 2 MiB + offset (R121). -/
  wt : List (Nat × Byte)
  /-- Tag array by logical tile (R123). -/
  tags : List (Nat × Word)
  /-- Tiles that are not pending (R128). -/
  proven : List (Nat × Bool)
  /-- Scratchpad words by bank × 8,192 + row; a listed word is valid (R129). -/
  sp : List (Nat × Cell)
  /-- Activation buffers: PB0, PB1, QB0, QB1 at 0, 0x10000, 0x20000, 0x28000 (R56, R58). -/
  abuf : List (Nat × Byte)
  /-- Press blend accumulators, index 32·row + column (R55, R105). -/
  pacc : List (Nat × Word)
  /-- Pour blend accumulators, index 256·row + unit (R58, R105). -/
  qacc : List (Nat × Word)
  /-- The codebook store (R60). -/
  cb : List (Nat × Byte)
  /-- The codebook store's store length (R60). -/
  cbLen : Nat
  /-- The accumulator file (R67). -/
  accs : List (Nat × Acc)
  /-- Vector registers by (context × 32 + register) × 256 + lane (R71). -/
  vregs : List (Nat × Word)
  /-- Word address of the next bundle (R85). -/
  pc : Nat
  /-- Schedule cycles that the current bundle still occupies after IDLE (R91). -/
  idle : Nat
  /-- The loop stack, innermost first (R91). -/
  loops : List LoopFrame
  /-- Effects that have not landed (R87). -/
  pend : List Pend
  /-- The operations on the MEM path, oldest first (R106): one, and a second in the cycle in which the first one's last row
  moves. -/
  mem : List MemOp
  /-- The engine operations that read their operands, oldest first (R92). -/
  runs : List EngRun
  /-- The handle from which a port was last written, where one was: buffer halves 0 to 3, and 4 + 32 × context + register
  (R204). -/
  from_ : List (Nat × Nat)
  /-- Route streams running (R108). -/
  streams : List Stream
  /-- Beats present at incoming links (R149). -/
  inb : List InBeat
  /-- Last schedule cycle that the press engine, and the pour engine or port, are occupied (R96, R92). -/
  pressEnd : Nat
  pourEnd : Nat
  /-- Spans of schedule cycles, from the first up to but not including the last, in which operations occupy the
  special-function unit (R100). -/
  sfu : List (Nat × Nat)
  /-- DMA commands waiting with their write data (R223), the completion words in the queue, and those that the engine still
  holds for want of room in it (R224). -/
  dmaCmd : List DmaCmd
  dmaDone : List DmaWord
  dmaOut : List DmaWord
  deriving DecidableEq, Repr

/-- A cluster at power-up. -/
def Cluster.reset : Cluster :=
  { prog := [], wt := [], tags := [], proven := [], sp := [], abuf := [], pacc := [], qacc := [], cb := [], cbLen := 0,
    accs := [], vregs := [], pc := 0, idle := 0, loops := [], pend := [], mem := [], runs := [], from_ := [], streams := [], inb := [],
    pressEnd := 0, pourEnd := 0, sfu := [], dmaCmd := [], dmaDone := [], dmaOut := [] }

/-- Completion words enter the queue while it has room (R224). -/
def Cluster.dmaFill (k : Cluster) : Cluster :=
  let n := 8192 - k.dmaDone.length
  { k with dmaDone := k.dmaDone ++ k.dmaOut.take n, dmaOut := k.dmaOut.drop n }

/-- The segment a region runs: its number and its index in the segment table (R187). -/
structure SegRun where
  no : Nat
  idx : Nat
  deriving DecidableEq, Repr

/-- A merged entry of the corrected or event class that waits for its millisecond (R400). -/
structure HeldEntry where
  entry : BitVec 256
  since : Nat
  deriving DecidableEq, Repr

/-- A fault record in a fault buffer, and the CBCLK of its last sending (R403). -/
structure FaultEntry where
  entry : BitVec 256
  sentAt : Nat
  deriving DecidableEq, Repr

/-- The counters of a pair of diodes, in samples (R364): disagreeing, agreeing, and each diode an outlier. -/
structure PairRun where
  dis : Nat
  agree : Nat
  outA : Nat
  outB : Nat
  deriving DecidableEq, Repr

/-- The fields of a fault or refusal record that its maker supplies (R200). -/
structure FaultRec where
  code : Nat
  region : Nat := 0xFF
  cluster : Nat := 0xFF
  segment : Nat := 0x7FFF
  bundle : Nat := 0xFFFF
  qh : Nat := 0
  slot : Nat := 0xFF
  flags : Nat := 0
  cycle : Nat := 0
  detail : Nat := 0
  aux : Nat := 0
  deriving DecidableEq, Repr

/-- The 32 bytes of a record (R200), little-endian. -/
def FaultRec.image (f : FaultRec) (time : Nat) : BitVec 256 :=
  BitVec.ofNat 256 (leNat (leBytes 2 f.code ++ leBytes 1 f.region ++ leBytes 1 f.cluster ++ leBytes 2 f.segment
    ++ leBytes 2 f.bundle ++ leBytes 2 f.qh ++ leBytes 1 f.slot ++ leBytes 1 f.flags ++ leBytes 4 f.cycle
    ++ leBytes 4 f.detail ++ leBytes 4 f.aux ++ leBytes 8 time))

/-- The state of a region controller and its quarter and sampling unit outside their registers. -/
structure Region where
  /-- Segment in progress, if any; none while the region waits at SEGEND or before its first segment (R91). -/
  seg : Option SegRun
  /-- The schedule cycle that executes next (R85). -/
  cycle : Nat
  /-- Segment commands waiting, at most 16 (R176). -/
  segq : List Nat
  /-- The region is halted (R166). -/
  halted : Bool
  /-- A HALT packet waits for the next schedule cycle; its source (R173). -/
  haltReq : Option Nat
  /-- Stall ACLK of the pending cycle, and those that were widening stalls (R163, R164). -/
  stall : Nat
  wstall : Nat
  /-- Widening and excess-beat stalls asked for (R80, R158). -/
  stallReqs : List StallReq
  /-- Fault records kept until released, oldest first (R403). -/
  faults : List FaultEntry
  /-- The faults of the ACLK in progress, whose records are made in the order of R112 at its end (the model's own, none
  between commands). -/
  batch : Option (List FaultRec)
  /-- Entries held for merging (R400). -/
  merged : List HeldEntry
  /-- Sampler requests and results of the region's queues, by cluster (R266). -/
  smpq : List DWord
  smpr : List (Nat × DWord)
  /-- The feeder's place (R266): the SEGSEQ it serves, its pass (0 for the declared records) and its next row. -/
  feedSeq : Nat
  feedPass : Nat
  feedRow : Nat
  /-- The adaptive-voltage loop's counters (R336). -/
  calm : Nat
  cool : Nat
  /-- Droop detectors fire (R338); 10 µs intervals that the mean VCORE current stayed below 280 A (R355). -/
  droop : Bool
  ilimRun : Nat
  /-- Power: the ring-oscillator count of the first power-up (R340), whether a latch was retried, and the CBCLK at which the
  retry is due (R345). -/
  ro : Option Nat
  retried : Bool
  retryAt : Nat
  /-- Clock: time of the last step of EFF, and the CBCLK at which clean hold began (R350, R353). -/
  effAt : Nat
  holdAt : Nat
  /-- Thermal: sample counters of TLIM steps up, of consecutive trip samples and of the clear (R365, R366). -/
  coolRun : Nat
  tripRun : Nat
  clearRun : Nat
  pairs : List PairRun
  /-- Depth that each reference input advertises, W, N, E, S (R348). -/
  depths : List Nat
  deriving DecidableEq, Repr

/-- A region controller at power-up. -/
def Region.reset : Region :=
  { seg := none, cycle := 0, segq := [], halted := false, haltReq := none, stall := 0, wstall := 0,
    stallReqs := [], faults := [], batch := none, merged := [], smpq := [],
    smpr := [], feedSeq := 0, feedPass := 0, feedRow := 0, calm := 0, cool := 0, droop := false, ilimRun := 0, ro := none, retried := false, retryAt := 0, effAt := 0, holdAt := 0,
    coolRun := 0, tripRun := 0, clearRun := 0, pairs := List.replicate 4 ⟨0, 0, 0, 0⟩, depths := [31, 31, 31, 31] }

/-- A sideband packet (R171); `arg` is 15 bits, and `ord` says that it routes along Y first. -/
structure Packet where
  type : Nat
  dest : Nat
  src : Nat
  tag : Nat
  arg : Nat
  pay : List DWord
  ord : Bool
  deriving DecidableEq, Repr

end Sys2Proof.Machine
end

