-- ==== Sys2Proof/Machine/Units.lean ====
section
/-!
DEFINITION. The parts of the machine's state that belong to the edge ring and the control complex, as plain data, with
their reset contents.
-/
namespace Sys2Proof.Machine

/-- A completion ring (R241, R244): the index that the next reservation takes, and the entries written out of order. -/
structure Ring where
  next : Nat
  written : List Nat
  deriving DecidableEq, Repr

/-- An ABORT whose commit found its request's ring full (R256): the ring pair of the ABORT, the index reserved for its
ACK, its CTAG and HANDLE. -/
structure WaitAbort where
  ring : Nat
  ack : Nat
  ctag : Nat
  handle : Nat
  deriving DecidableEq, Repr

/-- Serving: completion rings, the ring pair served last (R242), the tenants considered last by admission of decode and
prefill kind (R259), grammars loaded by GID, prompts kept by request index (R245, R405), and ABORTs that wait. -/
structure Serving where
  rings : List (Nat × Ring)
  last : Nat
  ptrD : Nat
  ptrP : Nat
  grammars : List (Nat × List Byte)
  prompts : List (Nat × List Word)
  aborts : List WaitAbort
  deriving DecidableEq, Repr

/-- Serving at power-up (R259). -/
def Serving.reset : Serving :=
  { rings := [], last := 63, ptrD := 4095, ptrP := 4095, grammars := [], prompts := [], aborts := [] }

/-- What the loader does for one model with a source (R286, R287): its form (1 sealed, 2 final-layout), the key and nonce
of its segments, its DIGEST, LAYDIG, the segments or records still to come, the tries of each that has failed, the body taken so
far (final-layout), the source (1 host, 2 a neighbouring module), and the path to that module: its first Vybin port and its
ports (R286). -/
structure ModelJob where
  m : Nat
  src : Nat
  form : Nat
  key : List Byte
  nonce : List Byte
  digest : List Byte
  laydig : List Byte
  todo : List Nat
  tries : List (Nat × Nat)
  body : List Byte
  path : Nat × Nat
  deriving DecidableEq, Repr

/-- A source of the list of R286 as sampled when a load begins (R279): the model, SRC, PORT and NPORT, and the header that the
host has for it. -/
structure Source where
  m : Nat
  src : Nat
  path : Nat × Nat
  header : Option (List Byte)
  deriving DecidableEq, Repr

/-- What the loader runs (R289). -/
inductive LoadJob where
  | none
  | load
  | swap
  | stop
  deriving DecidableEq, Repr

/-- The loader: its job; the image being loaded, or the swap companion; its placement; the work of each model; the sources of
the models it has not yet come to; WEIGHTFORM
as sampled (R279); the treatment of held requests (R296); the tiles of the job as region, cluster, logical tile, model and
model tile; the DIGEST of each model in force; the image and placement that the weight tier holds, with the clusters that hold
it, each as the cluster itself and the one whose sections it has, both as 28 × region_index + cluster (R184, R407); the regions
whose REMAPSTAT was written since the last load, and the remaps that the load in progress makes for the driver (R416); the tiles
that a swap has rewritten, as region, cluster and logical tile, until it ends (R294), and whether a swap has failed since the last
load (R298). -/
structure Loader where
  job : LoadJob
  img : List Byte
  place : Nat
  models : List ModelJob
  sources : List Source
  form : Nat
  resume : Bool
  tiles : List (Nat × Nat × Nat × Nat × Nat)
  inForce : List (Nat × List Byte)
  prev : Option (List Byte × Nat × List (Nat × Nat))
  asked : List Nat
  remaps : List (Nat × Nat × Nat)
  swapped : List (Nat × Nat × Nat)
  broken : Bool
  chans : List Nat
  lost : List (Nat × Nat)
  deriving DecidableEq, Repr

/-- The loader at power-up. -/
def Loader.reset : Loader :=
  { job := .none, img := [], place := 0, models := [], sources := [], form := 1, resume := false, tiles := [], inForce := [], prev := none, asked := [], remaps := [],
    swapped := [], broken := false,
    chans := [], lost := [] }

/-- A quote or another command of the attestation assist (R451, R468): requested by the network, or a crypto command by OP,
slot and argument offset. -/
inductive CryJob where
  | network
  | command (op slot arg : Nat)
  deriving DecidableEq, Repr

/-- The management engine: dictionary values written, by index × 256 + subindex (R442); HOSTBRIDGE as sampled (R429); the
journal ring and its counts (R446, R447); the response kept for each node (R439); NOTIFY count, CBCLK of the last
error-log NOTIFY and whether another is due (R441); the time base less the aligned value as gPTP and as the pulses since the
last offset measurement gave it (R434, R435), and the CBCLK of the last alignment; steps in this power-on; what remains to slew,
in thirds of a nanosecond; tokens committed, by tenant (R443); and when PGOOD rose. -/
structure Mgmt where
  dict : List (Nat × Nat)
  hostbridge : Nat
  jring : List (Nat × List Byte)
  jseq : Nat
  jlost : Nat
  kept : List (Nat × Nat × List Byte)
  notifySeq : Nat
  elogAt : Option Nat
  elogDue : Bool
  ptp : Option Int
  pulse : Option Int
  alignedAt : Option Nat
  steps : Nat
  correct : Int
  tokens : List (Nat × Nat)
  pgoodAt : Option Nat
  deriving DecidableEq, Repr

/-- The management engine at power-up. -/
def Mgmt.reset : Mgmt :=
  { dict := [], hostbridge := 0, jring := [], jseq := 0, jlost := 0, kept := [], notifySeq := 0, elogAt := none,
    elogDue := false, ptp := none, pulse := none, alignedAt := none, steps := 0, correct := 0, tokens := [],
    pgoodAt := none }

/-- A transfer session of R290 at one of its ends: the step reached (0 none), the model, the nonces, the wanted identifier,
the peer's certificate chain, the session key and nonce, the tiles of the request list in its order, the next transfer
segment, and at the receiver the path to the source: its first Vybin port and its ports (R286). -/
structure Session where
  step : Nat
  model : Nat
  nr : List Byte
  ns : List Byte
  wanted : List Byte
  chain : List Byte
  sk : List Byte
  snonce : List Byte
  tiles : List Nat
  next : Nat
  path : Nat × Nat
  deriving DecidableEq, Repr

/-- No session. -/
def Session.idle : Session :=
  { step := 0, model := 0, nr := [], ns := [], wanted := [], chain := [], sk := [], snonce := [], tiles := [], next := 0,
    path := (0, 0) }

/-- A phase of a port's training (R305); none while the port is DOWN without training, UP or FAILED. -/
inductive Phase where
  | none
  | detect
  | equalise
  | lock
  | exchange
  | check
  deriving DecidableEq, Repr

/-- A flit in the replay buffer: SEQ, TYPE, payload and the times it was resent (R302). -/
structure SentFlit where
  seq : Nat
  type : Nat
  pay : List Byte
  resent : Nat
  deriving DecidableEq, Repr

/-- A Vybin port outside its registers (R302 to R313): training phase, the CBCLK at which it began and that at which the
training began, passes from EQUALISE, whether this training skips EQUALISE, LANEOK; the peer's capability word and how many
identical copies came; version, lane mask and FEC mode agreed in EXCHANGE; next SEQ
expected and to send; the replay buffer; data flits sent since the last control flit; words of packets waiting to be sent and
words received of a packet not yet whole; data entries and control buffers freed since training (DCRED, CCRED), and as the
peer last said; data and control flits sent since training; the two module-boundary queues, an inbound entry with its storage
entry; the storage entry that the next inbound beat takes; whether a NAK was asked for the flit expected, and whether one waits for the next flit; DCRED, CCRED and the next
SEQ expected as the last flit sent told them; and the flits that near-end loopback is yet to bring back. -/
structure Port where
  phase : Phase
  since : Nat
  began : Nat
  passes : Nat
  fast : Bool
  lanes : Nat
  peer : List Byte
  copies : Nat
  deal : Nat × Nat × Nat
  rxNext : Nat
  txNext : Nat
  replay : List SentFlit
  run : Nat
  ctl : List DWord
  rxWords : List DWord
  freedD : Nat
  freedC : Nat
  peerD : Nat
  peerC : Nat
  sentD : Nat
  sentC : Nat
  outq : List LBeat
  inq : List (Nat × LBeat)
  next : Nat
  nak : Bool
  nakDue : Bool
  told : Nat × Nat × Nat
  loop : List (List Byte)
  deriving DecidableEq, Repr

/-- A port at power-up. -/
def Port.reset : Port :=
  { phase := .none, since := 0, began := 0, passes := 0, fast := false, lanes := 0, peer := [], copies := 0, deal := (0, 0, 0), rxNext := 0, txNext := 0,
    replay := [], run := 0, ctl := [], rxWords := [], freedD := 0, freedC := 0, peerD := 0, peerC := 0, sentD := 0,
    sentC := 0, outq := [], inq := [], next := 0, nak := false, nakDue := false, told := (0, 0, 0),
    loop := [] }

/-- The active bridge's relayed host accesses that wait for their response, tag and whether it is a read (R319, R322), and
the tag of the next relayed access. -/
structure Bridge where
  out : List (Nat × Bool)
  tag : Nat
  deriving DecidableEq, Repr

/-- The global-operation unit outside its registers (R324 to R328): whether a barrier is outstanding, its ID, the CBCLK of its
start and whether ARRIVE went to the parent; ARRIVE markers by array side and ID; the abandoned barrier ID; the hold in force
(marker kind 4 snapshot or 5 quiesce, 0 none), its ID, its K, the CBCLK of its start and whether the module is HELD; whether
a barrier, and whether a hold, timed out; the (origin, ID) pairs taken; and the CBCLK at which a domain reset began. -/
structure Gop where
  bar : Bool
  id : Nat
  since : Nat
  up : Bool
  arrived : List (Nat × Nat)
  dead : Option Nat
  hold : Nat
  holdId : Nat
  k : Nat
  holdSince : Nat
  held : Bool
  late : Bool
  holdLate : Bool
  seen : List (Nat × Nat)
  resetAt : Option Nat
  deriving DecidableEq, Repr

/-- The global-operation unit at power-up. -/
def Gop.reset : Gop :=
  { bar := false, id := 0, since := 0, up := false, arrived := [], dead := none, hold := 0, holdId := 0, k := 0, holdSince := 0,
    held := false, late := false, holdLate := false, seen := [], resetAt := none }

/-- A power-down that runs (R341, R370): the CBCLK at which ALARM's began, that at which an orderly one began, and the steps
done. -/
structure Down where
  alarm : Option Nat
  orderly : Option Nat
  stage : Nat
  deriving DecidableEq, Repr

/-- A Vybin connector (R482): cable mated (CPRES), active (CTYPE open), VCAB on, VCAB latched off. -/
structure Cable where
  mated : Bool
  active : Bool
  on : Bool
  latched : Bool
  deriving DecidableEq, Repr

/-- No cable. -/
def Cable.none : Cable := ⟨false, false, false, false⟩

/-- The lateral rails that are in regulation (R333): VAUX, VEDGE, VSD, and the VSTK sets as a mask by stack. -/
structure Rails where
  vaux : Bool
  vedge : Bool
  vsd : Bool
  vstk : Nat
  deriving DecidableEq, Repr

/-- No lateral rail is on. -/
def Rails.off : Rails := ⟨false, false, false, 0⟩

/-- The first `n` steps of R339 are done: VAUX, VEDGE, VSD and the VSTK sets, in this order. -/
def Rails.upTo (n : Nat) : Rails := ⟨decide (1 ≤ n), decide (2 ≤ n), decide (3 ≤ n), if 4 ≤ n then 0xFFFFFF else 0⟩

/-- Is rail `rail` (0 VAUX, 1 VEDGE, 2 VSD, 3 the VSTK of a stack) in regulation? -/
def Rails.has (x : Rails) (rail stack : Nat) : Bool :=
  match rail with
  | 0 => x.vaux
  | 1 => x.vedge
  | 2 => x.vsd
  | _ => bit x.vstk stack

/-- The rails of either. -/
def Rails.join (x y : Rails) : Rails := ⟨x.vaux || y.vaux, x.vedge || y.vedge, x.vsd || y.vsd, x.vstk ||| y.vstk⟩

/-- The power manager outside its registers (R330 to R357): P0 has begun, the power-up of R339 is complete, its lateral rails, the PGOOD pin, a power-down that
runs, the current brake, the 10 µs intervals that P exceeded PCAP_EFF with no region left to slow, PLIM's calm counter, the
Vybin connectors, the CBCLK at which the module last went off (R487), and the regions that a fence is taking down, each with the
CBCLK at which its ramp ends (R345). -/
structure Power where
  began : Bool
  on : Bool
  rails : Rails
  pgood : Bool
  down : Option Down
  brake : Bool
  above : Nat
  calm : Nat
  cables : List (Nat × Cable)
  offAt : Option Nat
  falling : List (Nat × Nat)
  deriving DecidableEq, Repr

/-- The power manager before power-up. -/
def Power.reset : Power :=
  { began := false, on := false, rails := Rails.off, pgood := false, down := none, brake := false, above := 0, calm := 0, cables := [], offAt := none, falling := [] }

/-- A condition that sets a status bit after it has held for a time and clears it after it has been absent as long: samples
held and samples absent (R361, R374). -/
structure Held where
  yes : Nat
  no : Nat
  deriving DecidableEq, Repr

/-- The cold plate's sampling (R361 to R363, R370): consecutive flow samples below 10 L/min, outlet, flow and inlet readings of
the last 100 ms newest first, and the timers of INLO, INHI, PRANGE and the two PAIRDIS bits; and samples of the inlet above 45 °C. -/
structure Plate where
  low : Nat
  outlet : List Int
  flows : List Nat
  inlets : List Int
  inlo : Held
  inhi : Held
  prange : Held
  pairIn : Held
  pairOut : Held
  above : Nat
  deriving DecidableEq, Repr

/-- The cold plate at power-up. -/
def Plate.reset : Plate :=
  { low := 0, outlet := [], flows := [], inlets := [], inlo := ⟨0, 0⟩, inhi := ⟨0, 0⟩, prange := ⟨0, 0⟩, pairIn := ⟨0, 0⟩, pairOut := ⟨0, 0⟩,
    above := 0 }

/-- A stack's temperature control (R367 to R369): samples for which each quarter's reading was an outlier, samples below
82 °C, consecutive samples at or above 100 °C, and samples below 90 °C. -/
structure StackHeat where
  sus : List Nat
  cool : Nat
  trip : Nat
  clear : Nat
  deriving DecidableEq, Repr

/-- A stack at power-up. -/
def StackHeat.reset : StackHeat := ⟨[0, 0, 0, 0], 0, 0, 0⟩

/-- Bring-up (R376 to R395): the stage in progress, its start by the time base and by CBCLK, the
standing report of each stage, the next offset of the bring-up log, the firmware's FWDIG, KEYSLOT and SVN, the offset at which
core 0 was started (R381), the accepted retirement entries (kind, region, cluster, index), the P3 record of each region whose
steps have run (R389), what the tests find in the regions whose steps are still to come, the first column not yet brought up,
and what the host answers for the image and the list while the boot ROM fetches or checks them (R380). -/
structure Bring where
  stage : Nat
  start : Nat
  stageAt : Nat
  seedLate : Bool
  reports : List (Nat × List Byte)
  off : Nat
  fwdig : List Byte
  keyslot : Nat
  svn : Nat
  entry : Option Nat
  rl : List (Nat × Nat × Nat × Nat)
  recs : List (Nat × List Byte)
  pend : List RegionBist
  col : Nat
  boot : Option (Option (List Byte) × Option (List Byte))
  deriving DecidableEq, Repr

/-- Bring-up at power-up. -/
def Bring.reset : Bring :=
  { stage := 0, start := 0, stageAt := 0, seedLate := false, reports := [], off := 0, fwdig := [], keyslot := 0xFF, svn := 0, entry := none,
    rl := [], recs := [], pend := [], col := 0, boot := none }

/-- The crypto engine (R451, R467, R468): requests in their order, the first in progress, with the quote body it took at its
start; the last quote made for the network; the session keys by slot; the fuse programming in progress, its command and data;
and the range being cleared (R470), by its first word, its words, and those written since that will not be cleared. -/
structure Crypto where
  jobs : List CryJob
  body : List Byte
  quote : List Byte
  slots : List (Nat × List Byte)
  fuse : Option (Nat × List Word)
  clear : Option (Nat × Nat × List Nat)
  deriving DecidableEq, Repr

/-- The crypto engine at power-up. -/
def Crypto.reset : Crypto := { jobs := [], body := [], quote := [], slots := [], fuse := none, clear := none }

/-- A transaction that the quarters of a tripped stack hold (R369): a control DMA with its source, fields and host data; a
control-channel write of a stack word; or an admission of a kind that reads a page. -/
inductive HeldTxn where
  | dma (src : Nat) (f0 peer f2 : DWord) (tag : Word) (host : Option (List Byte))
  | write (addr : Nat) (v : Word)
  | admission (kind n : Nat)
  deriving DecidableEq, Repr

/-- A guarded register that is ARMED (R459): the value, the requester and the deadline. -/
structure Armed where
  value : Word
  req : Requester
  deadline : Nat
  deriving DecidableEq, Repr

end Sys2Proof.Machine
end

