-- ==== Sys2Proof/Machine/State.lean ====
section
/-!
DEFINITION. The state of the module: everything the manual gives it, as plain data, its value at power-up, and the
reasons a step can stop.
-/
namespace Sys2Proof.Machine

/-- Why the model stops with a fault. -/
inductive Fault where
  /-- A slot, descriptor or operand that R90 calls reserved or refuses at load reached execution. Raised by the slot
  rows and by the execution of a schedule cycle; safe: no loaded image contains one. -/
  | reservedEncoding
  deriving DecidableEq, Repr

/-- Why the model has no meaning for a command. -/
inductive Refusal where
  /-- No meaning yet: raised by the dispatch arm of the named row; safe. -/
  | notModelled (mnemonic : String)
  deriving DecidableEq, Repr

/-- What CHAIN_OUT carries (R426, R427, R430, R431): an ADDRESS token, a TIME pulse, the ALARM pattern from then on,
or a pattern of no recognised form that the bypass carries on (R425). -/
inductive ChainOut where
  | token (n : Nat)
  | pulse
  | alarm
  | unknown
  deriving DecidableEq, Repr

/-- What the module sends: the outbox, oldest first. -/
inductive Output where
  /-- A sideband packet (R171). -/
  | packet (p : Packet)
  /-- A control-channel access completes (R455): requester, status 0 OK, 1 bus error, 2 timeout, and the data of a read. -/
  | access (req : Requester) (status : Nat) (data : Option Word)
  /-- A transfer-handshake message to the peer module (R290): step 0 for an abort, its parts, and the path on which it goes, its
  first Vybin port and its ports (R286); (0, 0) where it goes back on the path on which the peer's came. -/
  | handshake (step : Nat) (parts : List (List Byte)) (path : Nat × Nat := (0, 0))
  /-- Bytes written to host memory through the bridge (R318). -/
  | hostWrite (addr : Nat) (bytes : List Byte)
  /-- A frame on the management segment (R422, R437): destination MAC, EtherType and payload. -/
  | frame (dst : Nat) (etype : Nat) (bytes : List Byte)
  /-- An MSI-X vector raised at the host (R320). -/
  | msix (vector : Nat)
  /-- A link flit of a Vybin port (R301). -/
  | flit (port : Nat) (bytes : List Byte)
  /-- The completion of a host request (R319): status 0 success, 1 Completer Abort, 2 Unsupported Request, 3 an error
  reported through AER, and the data of a read. -/
  | hostDone (status : Nat) (data : Option Word)
  /-- A pattern on CHAIN_OUT (R426). -/
  | chain (p : ChainOut)
  /-- The PGOOD pin changes (R339). -/
  | pgood (high : Bool)
  /-- VCAB of a Vybin connector is switched (R482). -/
  | vcab (seg : Nat) (on : Bool)
  deriving DecidableEq, Repr

/-- What requesters and the control complex receive: the inbox, oldest first. -/
inductive Arrival where
  /-- A response to a sideband request of node `dest` (R173), or the timeout of R170 (status 2). -/
  | response (dest tag status : Nat) (data : Option Word)
  /-- A control DMA is done (R227): requester, tag and status. -/
  | dmaDone (dest tag status : Nat)
  /-- A token record (R272). -/
  | token (f0 f1 : DWord)
  /-- The control complex is signalled an event of MSI-X class `cls` (R320, R324, R441). -/
  | event (cls : Nat)
  /-- A relay response at its requester (R322): ROP, RTAG, STATUS and data flits. -/
  | relay (rop tag status : Nat) (data : List DWord)
  /-- A handshake message of R290 at the control complex: step 0 for an abort. -/
  | handshake (step : Nat) (parts : List (List Byte))
  deriving DecidableEq, Repr

/-- The module's clocks: CBCLK count, and the time base in thirds of a nanosecond (CBCLK is 1.5 GHz). -/
structure Time where
  cb : Nat
  tb3 : Nat
  deriving DecidableEq, Repr

/-- The state of the module. -/
structure State where
  /-- Commands waiting, first in, first out (the model's own). -/
  pending : List Instr
  /-- What the module has sent, oldest first (the model's own). -/
  sent : List Output
  /-- Free values taken (the model's own). -/
  free : Nat
  /-- Clocks. -/
  time : Time
  /-- Fuses (R466). -/
  fuse : Fuses
  /-- Control registers, by control address; an unlisted one holds its reset value (R462). -/
  regs : List (Nat × Word)
  /-- Regions that differ from their power-up state, by region_index. -/
  regions : List (Nat × Region)
  /-- Clusters that differ from their power-up state, by 28 × region_index + cluster. -/
  clusters : List (Nat × Cluster)
  /-- Region-boundary queues: 22 × reader + q (R161), and from 2,112 those that the edge ring reads (R159). -/
  queues : List (Nat × Queue)
  /-- The placement image in force (R178); empty in NOIMAGE. -/
  image : List Byte
  /-- Control memory by word address, a listed word being valid (R134). -/
  cmem : List (Nat × Cell)
  /-- DRAM words by (32 × stack + channel) × 2^29 + channel byte / 8 (R207, R212). -/
  dram : List (Nat × DCell)
  /-- The stack-hash salt in effect since the last load (R210). -/
  salt : Nat
  /-- What the control complex and other requesters have received, oldest first (the model's own). -/
  inbox : List Arrival
  /-- Prefix lookups in progress: record offset and the epoch at launch (R236, R239). -/
  lookups : List (Nat × Nat)
  /-- The error-log assist: the last 256 records it has written, and the sources (a region, or 96 for the edge ring)
  holding records that the ring could not take (R402, R403). -/
  recent : List (BitVec 256)
  waiting : List Nat
  /-- Rings, requests and tenants outside control memory (R240 to R263). -/
  serve : Serving
  /-- The loader (R286 to R299). -/
  loader : Loader
  /-- The management engine (R422 to R448). -/
  mg : Mgmt
  /-- Guarded registers that are ARMED, by address (R459). -/
  armed : List (Nat × Armed)
  /-- The Vybin ports that differ from their power-up state (R300 to R313). -/
  ports : List (Nat × Port)
  /-- The relay of the host bridge (R318 to R323). -/
  bridge : Bridge
  /-- The global-operation unit (R324 to R328). -/
  gop : Gop
  /-- The power manager (R330 to R357). -/
  power : Power
  /-- The cold plate (R360 to R374). -/
  plate : Plate
  /-- Stacks whose temperature control differs from its power-up state (R367 to R369). -/
  heat : List (Nat × StackHeat)
  /-- Bring-up (R376 to R395). -/
  bring : Bring
  /-- The crypto engine and its assists (R451, R466 to R470). -/
  crypto : Crypto
  /-- Transactions that the quarters of a tripped stack hold, oldest first (R369). -/
  held : List HeldTxn
  /-- A transaction of the command in progress met a quarter that holds it (R369; the model's own, false between commands). -/
  blocked : Bool
  /-- The transfer session in which the module receives (R290). -/
  rxSession : Session
  /-- The transfer session in which the module is the source (R290). -/
  txSession : Session
  deriving DecidableEq, Repr

/-- The module right after power-up (R462). -/
def State.reset : State :=
  { pending := [], sent := [], free := 0, time := ⟨0, 0⟩, fuse := Config.fuses.ofPart, regs := [], regions := [],
    clusters := [], queues := [], image := [], cmem := [], dram := [],
    salt := 0, inbox := [], lookups := [], recent := [], waiting := [], serve := Serving.reset, loader := Loader.reset,
    mg := Mgmt.reset, armed := [], ports := [], bridge := ⟨[], 0⟩, gop := Gop.reset, power := Power.reset, plate := Plate.reset,
    heat := [], bring := Bring.reset, crypto := Crypto.reset, held := [], blocked := false, rxSession := Session.idle, txSession := Session.idle }

end Sys2Proof.Machine
end

