-- ==== Sys2Proof/Machine/Ops.lean ====
section
/-!
DEFINITION. The named operations over the state: registers, regions, clusters and queues; check-bit protected reads;
raising a fault and making an error-log entry; sending. Every family of commands is written over these.
-/
namespace Sys2Proof.Machine
namespace State

/-! ### Registers -/

/-- The register at control address `a`. -/
def reg (s : State) (a : Nat) : Word := Store.get (resetReg a) s.regs a
/-- The register at control address `a` takes value `v`. -/
def setReg (s : State) (a : Nat) (v : Word) : State := { s with regs := Store.set (resetReg a) s.regs a v }
/-- A register as a number. -/
def rd (s : State) (a : Nat) : Nat := (s.reg a).toNat
/-- A register takes the low 32 bits of a number. -/
def wr (s : State) (a v : Nat) : State := s.setReg a (BitVec.ofNat 32 v)
/-- The value of a register field. -/
def fld (s : State) (f : Fld) : Nat := bits (s.rd f.addr) f.hi f.lo
/-- A register field takes a value; the register's other bits keep theirs. -/
def setFld (s : State) (f : Fld) (v : Nat) : State := s.wr f.addr (setBits (s.rd f.addr) f.hi f.lo v)
/-- Is a one-bit field set? -/
def flag (s : State) (f : Fld) : Bool := s.fld f == 1
/-- A saturating counter increases (R463). -/
def count (s : State) (a n : Nat) : State := s.wr a (sat32 (s.rd a + n))

/-! ### Parts -/

/-- Region `r`; slot 96 is the edge ring's fault buffer and held entries (R403). -/
def region (s : State) (r : Nat) : Region := Store.get Region.reset s.regions r
/-- Region `r` becomes `x`. -/
def setRegion (s : State) (r : Nat) (x : Region) : State := { s with regions := Store.set Region.reset s.regions r x }
/-- Region `r` changes by `f`. -/
def modRegion (s : State) (r : Nat) (f : Region → Region) : State := s.setRegion r (f (s.region r))
/-- Cluster `c` of region `r`. -/
def cluster (s : State) (r c : Nat) : Cluster := Store.get Cluster.reset s.clusters (28 * r + c)
/-- Cluster `c` of region `r` becomes `x`. -/
def setCluster (s : State) (r c : Nat) (x : Cluster) : State :=
  { s with clusters := Store.set Cluster.reset s.clusters (28 * r + c) x }
/-- Cluster `c` of region `r` changes by `f`. -/
def modCluster (s : State) (r c : Nat) (f : Cluster → Cluster) : State := s.setCluster r c (f (s.cluster r c))
/-- Region-boundary queue `k`. -/
def queue (s : State) (k : Nat) : Queue := Store.get Queue.empty s.queues k
/-- Region-boundary queue `k` becomes `x`. -/
def setQueue (s : State) (k : Nat) (x : Queue) : State := { s with queues := Store.set Queue.empty s.queues k x }

/-- The module's time base, ns (R430). -/
def ns (s : State) : Nat := s.time.tb3 / 3
/-- The module sends something. -/
def emit (s : State) (o : Output) : State := { s with sent := s.sent ++ [o] }
/-- The control complex or another requester receives something. -/
def receive (s : State) (x : Arrival) : State := { s with inbox := s.inbox ++ [x] }
/-- The module sends a sideband packet (R171). -/
def packet (s : State) (type dest src tag arg : Nat) (pay : List DWord) : State :=
  s.emit (.packet ⟨type, dest, src, tag, arg, pay, false⟩)

/-- A free value of `w` bits, and the state that has taken it. -/
def fresh (s : State) (w : Nat) : Nat × State := (Config.freeValue s.free % 2 ^ w, { s with free := s.free + 1 })

/-! ### The signals of R441 -/

/-- A dictionary value that was written, or its default `d` (R442). -/
def dict (s : State) (idx sub d : Nat) : Nat := Store.get d s.mg.dict (256 * idx + sub)

/-- A Quivor message (R437). -/
def quivor (op src dst seq idx sub status : Nat) (len off : Nat) (data : List Byte) : List Byte :=
  leBytes 1 1 ++ leBytes 1 op ++ leBytes 1 src ++ leBytes 1 dst ++ leBytes 2 seq ++ leBytes 2 idx ++ leBytes 1 sub
    ++ leBytes 1 status ++ leBytes 2 len ++ leBytes 4 off ++ data

/-- A frame on the segment: a module whose node number is not valid never transmits (R423). -/
def frame (s : State) (dst etype : Nat) (bytes : List Byte) : State :=
  if s.flag Rg.MG_NODE_VALID then s.emit (.frame dst etype bytes) else s

/-- Does the module send NOTIFY messages: NOTIFYDST is not 0, and the module has a node number (R441)? -/
def notifies (s : State) : Bool := s.dict 0x5002 1 0 != 0 && s.flag Rg.MG_NODE_VALID

/-- NOTIFY for object `idx`, `sub`, when NOTIFYDST is not 0 (R441), to the broadcast address (R424); one that a module whose node
number is not valid cannot send (R423) is not counted. -/
def notify (s : State) (idx sub : Nat) : State :=
  let dst := s.dict 0x5002 1 0
  if !s.notifies then s
  else
    let s' := s.frame 0xFFFFFFFFFFFF 0x88B5 (quivor 4 (s.fld Rg.MG_NODE_NODE) dst s.mg.notifySeq idx sub 0 0 0 [])
    { s' with mg := { s'.mg with notifySeq := (s'.mg.notifySeq + 1) % 65536 } }

/-- An event of R441: NOTIFY, and the signal to the control complex. -/
def signal (s : State) (idx sub : Nat) : State := (s.notify idx sub).receive (.event 3)

/-- IMG_STAT takes a value; a change is an event of R441. -/
def setImg (s : State) (v : Nat) : State :=
  let s' := s.wr Rg.IMG_STAT v
  if s.rd Rg.IMG_STAT = s'.rd Rg.IMG_STAT then s' else s'.signal 0x1003 2

/-- IMG_STAT.STATE takes a value (R196). -/
def setImgState (s : State) (v : Nat) : State := s.setImg (setBits (s.rd Rg.IMG_STAT) 31 28 v)

/-- BU_STAT takes a value; a change is an event of R441. -/
def setBu (s : State) (v : Nat) : State :=
  let s' := s.wr Rg.BU_STAT v
  if s.rd Rg.BU_STAT = s'.rd Rg.BU_STAT then s' else s'.signal 0x1003 1

/-! ### Conditions of clusters and regions -/

/-- Is the cluster enabled by a load (R197, R464)? -/
def enabled (s : State) (r c : Nat) : Bool := s.flag (Rg.CL_STAT_EN r c)
/-- The enabled clusters of a region, ascending. -/
def enabledClusters (s : State) (r : Nat) : List Nat := (List.range 28).filter (s.enabled r)
/-- Is the region's power ON (R358)? -/
def powered (s : State) (r : Nat) : Bool := s.fld (Rg.RPWR_STAT_STATE r) == 2
/-- Is the region tripped (R366)? -/
def tripped (s : State) (r : Nat) : Bool := s.flag (Rg.THERM_STAT_TTRIP r)
/-- Is the region in clean hold or relocking (R350)? -/
def clockHold (s : State) (r : Nat) : Bool := s.fld (Rg.CLKSRC_STATE r) != 0
/-- Is the region fenced in the yield map (R388)? -/
def yFenced (s : State) (r : Nat) : Bool := s.flag (Rg.YMAP_CL_FENCED r)
/-- Does the region's controller answer: is the region ON, which a tripped region and one in clean hold are too (R359,
R455)? -/
def reachable (s : State) (r : Nat) : Bool := s.powered r

/-- Does a snapshot or quiesce hold the region: it has popped segment K (R326)? -/
def gopHolds (s : State) (r : Nat) : Bool := s.gop.hold != 0 && decide (s.gop.k < s.rd (Rg.SEGSEQ r))

/-- Address of region r's controller on the sideband (R172). -/
def nodeOfRegion (r : Nat) : Nat := 0x4000 + r

/-! ### Faults and error-log entries -/

/-- The four payload flits of a 32-byte record (R173). -/
def recFlits (e : BitVec 256) : List DWord := (List.range 4).map fun i => BitVec.ofNat 64 (e.toNat >>> (64 * i))

/-- The node that sends for buffer `b`: a region, or the W hub for the edge ring (R172). -/
def bufNode (b : Nat) : Nat := if b < 96 then nodeOfRegion b else 0x8000

/-- The node that sends an entry of buffer `b`: a DRAM entry comes from the region's stack-controller quarter (R401). -/
def entryNode (b : Nat) (e : BitVec 256) : Nat :=
  if b < 96 ∧ e.toNat % 65536 = 0x305 then 0xC000 + b else bufNode b

/-- The overflow flag of buffer `b` (R403). -/
def bufOvf (b : Nat) : Fld := if b < 96 then Rg.FBSTAT_OVF b else Rg.EDGE_FBSTAT_OVF

/-- A record enters fault buffer `b` and is sent, or is dropped with OVF set when the buffer is full (R403). -/
def record (s : State) (b : Nat) (e : BitVec 256) : State :=
  if (s.region b).faults.length < 32 then
    (s.modRegion b fun g => { g with faults := g.faults ++ [⟨e, s.time.cb⟩] }).packet 6 0x8000 (bufNode b) 0 0 (recFlits e)
  else s.setFld (bufOvf b) 1

/-- A region halts (R166): its pending stalls are dropped. -/
def halt (s : State) (r : Nat) : State :=
  s.modRegion r fun g => { g with halted := true, stall := 0, wstall := 0, stallReqs := [] }

/-- FLAGS of a record (R200): the remap bit of the cluster and the selected placement. -/
def recFlags (s : State) (r c : Nat) : Nat :=
  (if c < 28 then 2 * s.fld (Rg.CL_STAT_SPARE r c) else 0) + 16 * s.fld Rg.IMG_STAT_PLACE

/-- A fault of region `r` that arises in segment `seg` and schedule cycle `cyc` (R199, R200): its record is made, at the end of
the ACLK in progress if there is one (R112), and the region halts. -/
def raiseAt (s : State) (r seg cyc : Nat) (f : FaultRec) : State :=
  let f := { f with region := r, segment := seg, cycle := cyc, flags := s.recFlags r f.cluster }
  (match (s.region r).batch with
    | none => s.record r (f.image s.ns)
    | some l => s.modRegion r fun g => { g with batch := some (l ++ [f]) }).halt r

/-- The segment that region `r` runs, as a record names it (R200). -/
def segNo (s : State) (r : Nat) : Nat := ((s.region r).seg.map SegRun.no).getD 0x7FFF

/-- A fault of region `r` (R199, R200), in the segment and schedule cycle in progress. -/
def raise (s : State) (r : Nat) (f : FaultRec) : State :=
  s.raiseAt r (s.segNo r) (if (s.region r).seg.isSome then (s.region r).cycle % 2 ^ 32 else 0) f

/-- Does record `x` come before record `y` of the same ACLK (R112): ascending cluster, then LINK down to CTL? -/
def faultBefore (x y : FaultRec) : Bool :=
  decide (x.cluster < y.cluster) || (x.cluster == y.cluster && decide (y.slot < x.slot))

/-- A record takes its place among the records of an ACLK. -/
def faultInsert (x : FaultRec) : List FaultRec → List FaultRec
  | [] => [x]
  | y :: ys => if faultBefore x y then x :: y :: ys else y :: faultInsert x ys

/-- The faults of an ACLK in their order (R112). -/
def faultSort (l : List FaultRec) : List FaultRec := l.foldl (fun acc x => faultInsert x acc) []

/-- An ACLK of region `r` begins: its faults are gathered. -/
def openBatch (s : State) (r : Nat) : State := s.modRegion r fun g => { g with batch := some [] }

/-- An ACLK of region `r` ends: the records of its faults are made (R112). -/
def flush (s : State) (r : Nat) : State :=
  (faultSort ((s.region r).batch.getD [])).foldl (fun s f => s.record r (f.image s.ns))
    (s.modRegion r fun g => { g with batch := none })

/-- The fields of a corrected or event entry (R398). -/
structure LogRec where
  code : Nat
  region : Nat := 0xFF
  cluster : Nat := 0xFF
  loc0 : Nat := 0
  loc1 : Nat := 0
  detail : Nat := 0
  aux : Nat := 0
  deriving DecidableEq, Repr

/-- The 32 bytes of an entry (R398), REPEAT 0. -/
def LogRec.image (f : LogRec) (time : Nat) : BitVec 256 :=
  BitVec.ofNat 256 (leNat (leBytes 2 f.code ++ leBytes 1 f.region ++ leBytes 1 f.cluster ++ leBytes 4 0
    ++ leBytes 4 f.loc0 ++ leBytes 4 f.loc1 ++ leBytes 4 f.detail ++ leBytes 4 f.aux ++ leBytes 8 time))

/-- Is the code held for merging (R400)? -/
def mergeCode (code : Nat) : Bool := code / 256 == 3 || code == 0x408 || code == 0x40E || code == 0x40F

/-- Do two entries agree in CODE, REGION, CLUSTER, LOC0 and LOC1 (R400)? -/
def sameSpot (a b : BitVec 256) : Bool :=
  a.toNat % 2 ^ 32 == b.toNat % 2 ^ 32 && bits a.toNat 127 64 == bits b.toNat 127 64

/-- An entry with one more occurrence in REPEAT, which saturates (R398, R400). -/
def moreRepeat (e : BitVec 256) : BitVec 256 :=
  BitVec.ofNat 256 (setBits e.toNat 47 32 (Nat.min 0xFFFF (bits e.toNat 47 32 + 1)))

/-- Merging of an occurrence into the held entries, if one matches (R400). -/
def mergeInto (e : BitVec 256) : List HeldEntry → Option (List HeldEntry)
  | [] => none
  | h :: hs =>
    if sameSpot h.entry e then some ({ h with entry := moreRepeat h.entry } :: hs)
    else (mergeInto e hs).map (h :: ·)

/-- Source `b` (a region, or 96 for the edge ring) makes a corrected or event entry: held or merged for 1 ms under
R400, or sent at once in an ERRLOG packet (R401). -/
def log (s : State) (b : Nat) (f : LogRec) : State :=
  let e := f.image s.ns
  if mergeCode f.code then
    s.modRegion b fun g =>
      { g with merged := (mergeInto e g.merged).getD (g.merged ++ [⟨e, s.time.cb⟩]) }
  else s.packet 7 0x8000 (entryNode b e) 0 0 (recFlits e)

/-- An entry of the edge ring (R398): REGION 0xFF, CLUSTER 0xFE. -/
def logEdge (s : State) (code loc0 loc1 detail : Nat) : State :=
  s.log 96 { code := code, cluster := 0xFE, loc0 := loc0, loc1 := loc1, detail := detail }

/-- An entry of a region controller (R398). -/
def logRegion (s : State) (r code loc0 loc1 detail : Nat) : State :=
  s.log r { code := code, region := r, loc0 := loc0, loc1 := loc1, detail := detail }

end State

/-! ### Check bits -/

/-- What a check-bit decoder finds (R131): the data pattern left is not zero only for three or more errors. -/
inductive Ecc where
  | clean
  | corrected (left : Nat)
  | bad
  deriving DecidableEq, Repr

/-- The check of one unit of `w` bits, `d` of them data, whose error pattern is `p` (R131, R148). -/
def eccOf (w p : Nat) : Ecc :=
  match popcount w p with
  | 0 => .clean
  | 1 => .corrected 0
  | 2 => .bad
  | _ => match Config.manyErrors w p with | none => .bad | some q => .corrected q

/-- The bytes of `old` with `bs` in place from byte `o`. -/
def spliced (old : List Byte) (o : Nat) (bs : List Byte) : List Byte := old.take o ++ bs ++ old.drop (o + bs.length)

/-- The parts of a write of `bs` at byte address `a` that fall in one 64-bit word each: address and bytes; `m` bounds
their number. -/
def wordParts : Nat → Nat → List Byte → List (Nat × List Byte)
  | 0, _, _ => []
  | m + 1, a, bs => if bs.isEmpty then [] else (a, bs.take (8 - a % 8)) :: wordParts m (a + (8 - a % 8)) (bs.drop (8 - a % 8))

/-- The error pattern that a write of less than the whole of a unit of `w` bits leaves in it: one that the check cannot correct
stays (DESIGN CHOICE, log 84). -/
def narrowFlip (w p : Nat) : Nat := match eccOf w p with | .bad => p | _ => 0

end Sys2Proof.Machine
end

