-- ==== Sys2Proof/Machine/Image.lean ====
section
/-!
DEFINITION. The placement image as a byte sequence: header and section table (R178, R179), the section that applies to
a key in a placement, and the sections of chapter 07.
-/
namespace Sys2Proof.Machine

/-- One entry of the section table (R179). -/
structure Section where
  idx : Nat
  type : Nat
  place : Nat
  flags : Nat
  region : Nat
  cluster : Nat
  off : Nat
  len : Nat
  deriving DecidableEq, Repr

/-- MODE of an image (R178): single-origin? -/
def imgOrigin (img : List Byte) : Bool := byteAt img 7 == 1
/-- MODPOS of an image (R178). -/
def imgModpos (img : List Byte) : Nat := fieldAt img 10 2
/-- NPLACE of an image (R178). -/
def imgNplace (img : List Byte) : Nat := byteAt img 12
/-- NSECT of an image (R178). -/
def imgNsect (img : List Byte) : Nat := fieldAt img 14 2
/-- TABOFF of an image (R178). -/
def imgTaboff (img : List Byte) : Nat := fieldAt img 16 8
/-- DIGEST of an image (R178). -/
def imgDigest (img : List Byte) : List Byte := bytesAt img 64 64

/-- Entry `i` of the section table (R179). -/
def imgSection (img : List Byte) (i : Nat) : Section :=
  let o := imgTaboff img + 24 * i
  ⟨i, fieldAt img o 2, byteAt img (o + 2), byteAt img (o + 3), byteAt img (o + 4), byteAt img (o + 5),
   fieldAt img (o + 8) 8, fieldAt img (o + 16) 4⟩

/-- The section table (R179). -/
def imgSections (img : List Byte) : List Section := (List.range (imgNsect img)).map (imgSection img)

/-- The section of a key that applies to placement `p` (R179): its own, or that of every placement. -/
def findSection (img : List Byte) (type region cluster p : Nat) : Option Section :=
  let ks := (imgSections img).filter fun x => x.type == type && x.region == region && x.cluster == cluster
  match ks.find? fun x => x.place == p with
  | some x => some x
  | none => ks.find? fun x => x.place == 0xFF

/-- The bytes of a section. -/
def sectionBytes (img : List Byte) (x : Section) : List Byte := bytesAt img x.off x.len

/-- The bytes of the section that applies, empty when there is none. -/
def sectionOf (img : List Byte) (type region cluster p : Nat) : List Byte :=
  ((findSection img type region cluster p).map (sectionBytes img)).getD []

/-- A remap declaration (R185): its region, covered cluster, spare, and patches (cluster, word address, word). -/
structure Remap where
  region : Nat
  covered : Nat
  spare : Nat
  patches : List (Nat × Nat × ProgWord)
  deriving DecidableEq, Repr

/-- Remap declarations from byte `o` of a PLACEMENT section; `n` of them (R182, R185). -/
def parseRemaps (b : List Byte) : Nat → Nat → List Remap
  | 0, _ => []
  | n + 1, o =>
    let np := fieldAt b (o + 4) 4
    ⟨byteAt b o, byteAt b (o + 1), byteAt b (o + 2), (List.range np).map fun i =>
      let q := o + 8 + 36 * i
      (byteAt b q, fieldAt b (q + 2) 2, BitVec.ofNat 256 (fieldAt b (q + 4) 32))⟩ :: parseRemaps b n (o + 8 + 36 * np)

/-- The PLACEMENT section of placement `p` (R182). -/
def placementBytes (img : List Byte) (p : Nat) : List Byte := sectionOf img 2 0xFF 0xFF p

/-- FENCE of placement `p` (R182). -/
def placeFence (img : List Byte) (p : Nat) : Nat := fieldAt (placementBytes img p) 0 12

/-- The remap declarations of placement `p` (R182). -/
def placeRemaps (img : List Byte) (p : Nat) : List Remap :=
  let b := placementBytes img p
  parseRemaps b (fieldAt b 12 2) 32

/-- Does the placement use the cluster (R180)? -/
def imgUsed (img : List Byte) (p r c : Nat) : Bool := (findSection img 0x10 r c p).isSome

/-- The segment table (R187): SEGNO, KIND and LENGTH of each segment. -/
def imgSegments (img : List Byte) (p : Nat) : List (Nat × Nat × Nat) :=
  let b := sectionOf img 3 0xFF 0xFF p
  (List.range (b.length / 16)).map fun i =>
    (fieldAt b (16 * i) 2 % 32768, byteAt b (16 * i + 2), fieldAt b (16 * i + 4) 4)

/-- The index of segment `no` in the segment table. -/
def segIndex (img : List Byte) (p no : Nat) : Option Nat := (imgSegments img p).findIdx? fun e => e.1 == no

/-- DECL of a region in the segment of index `i` (R193). -/
def imgDecl (img : List Byte) (p r i : Nat) : Nat := fieldAt (sectionOf img 0x21 r 0xFF p) (4 * i) 4

/-- Declared depth of inbound queue `q` of region `r` (R188). -/
def imgQueueDepth (img : List Byte) (p r q : Nat) : Nat := byteAt (sectionOf img 0x20 r 0xFF p) q

/-- The codebook tables of a CLUSTERCFG section (R181): first tile, tile count and CBLEN. -/
def cfgCbt (b : List Byte) : List (Nat × Nat × Nat) :=
  (List.range (byteAt b 1)).map fun i => (fieldAt b (8 + 8 * i) 2, fieldAt b (10 + 8 * i) 2, fieldAt b (12 + 8 * i) 2)

/-- The entry word address of the segment of index `i` in a CLUSTERCFG section (R181). -/
def cfgEntry (b : List Byte) (i : Nat) : Nat := fieldAt b (8 + 8 * byteAt b 1 + 2 * i) 2

/-- A run of the weight map (R285): first logical tile, count, model, first model tile. -/
structure WeightRun where
  ltile : Nat
  count : Nat
  model : Nat
  mtile : Nat
  deriving DecidableEq, Repr

/-- The runs of a WEIGHTMAP section (R285). -/
def weightRuns (b : List Byte) : List WeightRun :=
  (List.range (fieldAt b 0 4)).map fun i =>
    let o := 8 + 8 * i
    let m := fieldAt b (o + 4) 4
    ⟨fieldAt b o 2, fieldAt b (o + 2) 2, bits m 31 28, bits m 27 0⟩

/-- The SERVING section in force for placement `p` (R260). -/
def servingBytes (img : List Byte) (p : Nat) : List Byte := sectionOf img 0x31 0xFF 0xFF p

/-- CANDPASS (R260). -/
def imgCandpass (img : List Byte) (p : Nat) : Nat := byteAt (servingBytes img p) 1
/-- NDRAFT (R260). -/
def imgNdraft (img : List Byte) (p : Nat) : Nat := byteAt (servingBytes img p) 3
/-- MAXCTX (R260). -/
def imgMaxctx (img : List Byte) (p : Nat) : Nat := fieldAt (servingBytes img p) 8 4
/-- ROWMAX (R260). -/
def imgRowmax (img : List Byte) (p : Nat) : Nat := fieldAt (servingBytes img p) 14 2
/-- The 16 bytes of draft record `d`, 1 to NDRAFT (R260, R274). -/
def imgDraft (img : List Byte) (p d : Nat) : List Byte :=
  bytesAt (servingBytes img p) (64 + 80 * byteAt (servingBytes img p) 0 + 16 * (d - 1)) 16
/-- The region that samples for model `m` (R260, R274). -/
def imgSampler (img : List Byte) (p m : Nat) : Nat :=
  if m = 0 then byteAt (servingBytes img p) 2 else byteAt (imgDraft img p m) 2

/-- A feed declaration (R266). -/
structure FeedDecl where
  region : Nat
  cluster : Nat
  recs : Nat
  model : Nat
  vlo : Nat
  vn : Nat
  deriving DecidableEq, Repr

/-- The feed declarations (R260, R266). -/
def imgFeeds (img : List Byte) (p : Nat) : List FeedDecl :=
  let b := servingBytes img p
  let o := 64 + 80 * byteAt b 0 + 16 * byteAt b 3
  (List.range (fieldAt b 12 2)).map fun i =>
    let q := o + 16 * i
    ⟨byteAt b q, byteAt b (q + 1), byteAt b (q + 2), byteAt b (q + 3), fieldAt b (q + 4) 4, fieldAt b (q + 8) 4⟩

/-- The clusters, region × 28 + cluster, that placement `p` uses. -/
def imgUsedList (img : List Byte) (p : Nat) : List Nat :=
  (List.range 2688).filter fun k => imgUsed img p (k / 28) (k % 28)

/-- Does a run of placement `p` map model `m` (R274, R286)? -/
def imgMaps (img : List Byte) (p m : Nat) : Bool :=
  (imgUsedList img p).any fun k => (weightRuns (sectionOf img 0x14 (k / 28) (k % 28) p)).any fun w => w.model == m

/-- The runs of a PROGRAM section (R180): base word address and words; `n` bounds the number of runs. -/
def progRuns : Nat → List Byte → List (Nat × List ProgWord)
  | 0, _ => []
  | n + 1, b =>
    if b.length < 4 then []
    else
      let k := fieldAt b 2 2
      (fieldAt b 0 2, (List.range k).map fun i => BitVec.ofNat 256 (fieldAt b (4 + 32 * i) 32)) :: progRuns n (b.drop (4 + 32 * k))

/-- The array side that faces the segment of port `p` (R13, R314). -/
def portSide (p : Nat) : Nat := if p < 8 then 3 else if p < 16 then 0 else if p < 24 then 1 else 2

/-- A binding of the DOMAIN section (R316). -/
structure Binding where
  port : Nat
  outq : Nat
  inq : Nat
  mdepth : Nat
  deriving DecidableEq, Repr

/-- The DOMAIN section of a placement (R316). -/
def domainBytes (img : List Byte) (p : Nat) : List Byte := sectionOf img 0x32 0xFF 0xFF p

/-- Its bindings (R316). -/
def bindings (b : List Byte) : List Binding :=
  (List.range (byteAt b 3)).map fun i =>
    let o := 16 + 8 * i
    ⟨byteAt b o, fieldAt b (o + 2) 2, fieldAt b (o + 4) 2, fieldAt b (o + 6) 2⟩

/-- MODPOS of the module that edge `side` faces, if any (R314). -/
def facing (topo dx dy pos side : Nat) : Option Nat :=
  let mx := pos % dx
  let my := pos / dx
  let wrap := topo = 2 ∨ topo = 4
  match side with
  | 1 => if mx + 1 < dx then some (pos + 1) else if wrap then some (my * dx) else none
  | 3 => if 0 < mx then some (pos - 1) else if wrap then some (my * dx + dx - 1) else none
  | 0 => if my + 1 < dy then some (pos + dx) else if wrap then some mx else none
  | _ => if 0 < my then some (pos - dx) else if wrap then some ((dy - 1) * dx + mx) else none

namespace State

/-- DEPTH of a module-boundary queue (R311). -/
def mbqDepth (s : State) (p : Nat) : Nat := 4096 - 64 * (popcount 32 (s.rd (Rg.MBQRET_LO p)) + popcount 32 (s.rd (Rg.MBQRET_HI p)))

/-- The selected placement (R196). -/
def place (s : State) : Nat := s.fld Rg.IMG_STAT_PLACE

/-- Is the image in force single-origin (R23)? -/
def origin (s : State) : Bool := imgOrigin s.image

/-- Which cluster's sections run in cluster `c` of region `r`: those of the cluster it covers when it is the spare of
an applied remap (R185, R186). -/
def sectionCluster (s : State) (r c : Nat) : Nat :=
  if s.flag (Rg.REMAPSTAT_V0 r) && s.fld (Rg.REMAPSTAT_SPR0 r) == c then s.fld (Rg.REMAPSTAT_COV0 r)
  else if s.flag (Rg.REMAPSTAT_V1 r) && s.fld (Rg.REMAPSTAT_SPR1 r) == c then s.fld (Rg.REMAPSTAT_COV1 r)
  else c

/-- A cluster-keyed section of the image in force, as it runs in cluster `c`. -/
def clusterSection (s : State) (type r c : Nat) : List Byte := sectionOf s.image type r (s.sectionCluster r c) s.place

/-- The widening descriptor of point `x` of a cluster (R189). -/
def widenPoint (s : State) (r c x : Nat) : WidenDesc := WidenDesc.ofNat (fieldAt (s.clusterSection 0x15 r c) (4 * x) 2)

/-- Clusters of region `r` that the placement in force uses. -/
def usedIn (s : State) (r : Nat) : Bool := (List.range 28).any fun c => imgUsed s.image s.place r c

end State
end Sys2Proof.Machine
end

