-- ==== Sys2Proof/Machine/Engines.lean ====
section
/-!
DEFINITION. The press and pour engines as functions of what they read: weight records of the streamed tiles (R40, R94),
activation slots (R36, R94), exact block results (R63), blend accumulation by narrow runs (R64, R65), the wide steps of
R79 and the codebook groups of R38, R39 and R59. A tile is its 16,384 bytes; a codebook store is its bytes.
-/
namespace Sys2Proof.Machine

/-- Bytes of one weight record (R35, R38, R40): a block, a CB group, or 32 BF16 words. -/
def wRecBytes (wfmt : Nat) : Nat :=
  match wfmt with | 0 => 17 | 1 => 33 | 2 => 33 | 3 => 33 | 4 => 64 | 5 => 26 | _ => 18

/-- Weight records in one tile (R40); 8,192 BF16 words are 256 records of 32. -/
def wRecPerTile (wfmt : Nat) : Nat :=
  match wfmt with | 0 => 963 | 1 => 496 | 2 => 496 | 3 => 496 | 4 => 256 | 5 => 630 | _ => 910

/-- Is the weight format a codebook format? -/
def isCb (wfmt : Nat) : Bool := wfmt == 5 || wfmt == 6

/-- The microscaling format of a weight format code (R93). -/
def wFmt (wfmt : Nat) : MxFmt :=
  match wfmt with | 0 => .fp4 | 1 => .e4m3 | 2 => .e5m2 | _ => .int8

/-- Record `n` of a stream of tiles (R94). -/
def weightRecord (tiles : List (List Byte)) (wfmt n : Nat) : List Byte :=
  bytesAt (tiles.getD (n / wRecPerTile wfmt) []) ((n % wRecPerTile wfmt) * wRecBytes wfmt) (wRecBytes wfmt)

/-- One operand of a block result: its 32 values, and its scale byte when it is an MXFP4 block. -/
structure Operand32 where
  vals : List FVal
  fp4 : Option Nat
  deriving DecidableEq, Repr

/-- The operand of a compact block. -/
def blockOperand (f : MxFmt) (b : Block) : Operand32 := ⟨b.values f, if f = .fp4 then some b.scale else none⟩

/-- 32 BF16 values as an operand. -/
def bf16Operand (bs : List Byte) : Operand32 := ⟨(List.range 32).map fun i => fbf (fieldAt bs (2 * i) 2), none⟩

/-- Bytes of one codebook (R39). -/
def cbBytes (wfmt : Nat) : Nat := if wfmt = 5 then 16 else 8

/-- The 32 weights of half `h` of a CB group (R38, R39, R59). -/
def cbOperand (store bs : List Byte) (wfmt h : Nat) : Operand32 :=
  let cbidx := fieldAt bs 0 2
  let codes := fieldAt bs 2 24
  let w := if wfmt = 5 then 3 else 2
  ⟨(List.range 32).map fun i =>
    fbf (fieldAt store (cbBytes wfmt * cbidx + 2 * ((codes >>> (w * (32 * h + i))) % 2 ^ w)) 2), none⟩

/-- The weight operand of unit `u` at K-step `k` (R94). -/
def weightOperand (d : OpDesc) (tiles : List (List Byte)) (store : List Byte) (u k : Nat) : Operand32 :=
  if isCb d.wfmt then
    cbOperand store (weightRecord tiles d.wfmt ((k / 2) * d.units + u)) d.wfmt (k % 2)
  else
    let r := weightRecord tiles d.wfmt (k * d.units + u)
    if d.wfmt = 4 then bf16Operand r else blockOperand (wFmt d.wfmt) (ofCompact (wFmt d.wfmt) r)

/-- Activation slot of row `j` at K-step `k` in the selected buffer half (R94). -/
def actSlot (d : OpDesc) (buf : List Byte) (k j : Nat) : List Byte :=
  let n := if d.afmt = 0 then 34 else 64
  bytesAt buf (n * (k * d.rows + j)) n

/-- The activation operand; none for a reserved TAG (R36). -/
def actOperand (d : OpDesc) (buf : List Byte) (k j : Nat) : Option Operand32 :=
  let s := actSlot d buf k j
  if d.afmt = 0 then (ofTagged s).map fun q => blockOperand q.1 q.2 else some (bf16Operand s)

/-- The exact block result (R63); an exact zero is +0. -/
def blockResult (w a : Operand32) : FVal :=
  let v := (List.zipWith mulV w.vals a.vals).foldl addV .zero
  if v.isZero then .zero else v

/-- One K-step of one output and row: its exact result, and its combined exponent when it is a finite MXFP4 pair. -/
structure KStep where
  v : FVal
  e : Option Int
  deriving DecidableEq, Repr

/-- The K-step that two operands form (R63, R64). -/
def kStep (w a : Operand32) : KStep :=
  let v := blockResult w a
  ⟨v, match w.fp4, a.fp4 with
      | some sw, some sa => if v.isFin then some ((sw : Int) - 127 + ((sa : Int) - 127)) else none
      | _, _ => none⟩

/-- Promotion of a run's exact value into a binary32 accumulator (R65). -/
def promote (acc : Word) (x : FVal) : Word := r47 (addV (f32 acc) x)

/-- An open narrow run: reference exponent, blocks held and exact sum (R64). -/
structure Run where
  eref : Int
  n : Nat
  sum : FVal
  deriving DecidableEq, Repr

/-- Does a K-step join an open run (R64)? -/
def joins (r : Run) (k : KStep) : Bool :=
  match k.e with
  | some e => decide (r.eref ≤ e) && decide (e ≤ r.eref + 7) && decide (r.n < 16)
  | none => false

/-- The exact value of a run, an exact zero being +0 (R65). -/
def Run.value (r : Run) : FVal := if r.sum.isZero then .zero else r.sum

/-- The accumulator after the open run, if any, is closed (R65). -/
def closeRun (s : Word × Option Run) : Word :=
  match s.2 with | none => s.1 | some r => promote s.1 r.value

/-- One K-step of blend accumulation (R64, R65). -/
def blendStep (s : Word × Option Run) (k : KStep) : Word × Option Run :=
  match s.2, joins (s.2.getD ⟨0, 16, .zero⟩) k with
  | some r, true => (s.1, some { r with n := r.n + 1, sum := addV r.sum k.v })
  | _, _ =>
    match k.e with
    | some e => (closeRun s, some ⟨e, 1, k.v⟩)
    | none => (promote (closeRun s) k.v, none)

/-- Blend accumulation of one output and row in compiled K-step order (R65, R66). -/
def blendSum (init : Word) (ks : List KStep) : Word := closeRun (ks.foldl blendStep (init, none))

/-- The K-steps of unit `u` and row `j` (R94); a reserved TAG contributes a NaN here, and the operation faults. -/
def opSteps (d : OpDesc) (tiles : List (List Byte)) (store buf : List Byte) (u j : Nat) : List KStep :=
  (List.range d.ksteps).map fun k =>
    match actOperand d buf k j with
    | some a => kStep (weightOperand d tiles store u k) a
    | none => ⟨.nan, none⟩

/-- Bytes of one activation slot (R94). -/
def slotBytes (d : OpDesc) : Nat := if d.afmt = 0 then 34 else 64

/-- The first reserved TAG among the slots of a K-step (R36), if any. -/
def badTag (d : OpDesc) (slots : List Byte) : Option Nat :=
  if d.afmt = 0 then ((List.range d.rows).map fun j => byteAt slots (34 * j)).find? fun t => (ofTag t).isNone else none

/-- The first codebook index of K-step `k`'s groups that the table does not hold (R39, R60), if any. The groups of a tile of
the stream that is `pending` are no operand: its first byte faults as it leaves (R128). -/
def badIdx (d : OpDesc) (tiles : List (List Byte)) (pending : Nat → Bool) (k : Nat) : Option Nat :=
  if isCb d.wfmt ∧ k % 2 = 0 then
    (((List.range d.units).filter fun u => !pending ((k / 2 * d.units + u) / wRecPerTile d.wfmt)).map fun u =>
      fieldAt (weightRecord tiles d.wfmt (k / 2 * d.units + u)) 0 2).find? fun i => decide (d.cblen ≤ i)
  else none

/-- Is a K-step with these slots wide: is the activation block of any row MXFP8 (R79)? -/
def wideStep (d : OpDesc) (slots : List Byte) : Bool :=
  d.afmt == 0 && (List.range d.rows).any fun j => byteAt slots (34 * j) == 8 || byteAt slots (34 * j) == 9

/-- The slack of the group of K-step `k` (R78). -/
def groupSlack (d : OpDesc) (k : Nat) : Nat :=
  let g := k / 32
  if (g + 1) * 32 ≤ d.ksteps then d.rsv else d.rsv * (d.ksteps % 32) / 32

/-- The schedule offset at which the group of K-step `k` begins (R79): every earlier group's allotment. -/
def groupStart (d : OpDesc) (k : Nat) : Nat := (k / 32) * (32 + d.rsv)

/-- The schedule cycle in which K-step `k` begins, that of an operation issued in cycle `n` whose K-step before it began in
cycle `t` and took `w` passes (R57, R79, R96). The manual names no cycle for a pour operation's K-steps: they are spread
evenly over its duration (DESIGN CHOICE, log 19). -/
def stepAt (d : OpDesc) (n k t w : Nat) : Nat :=
  if d.kind = 2 then n + 1 + k * d.dur / d.ksteps
  else if d.afmt = 1 then n + 1 + 4 * wFactor d.wfmt * k
  else if k % 32 = 0 then n + 1 + groupStart d k * wFactor d.wfmt
  else t + w * wFactor d.wfmt

/-- Blend results of an operation, by output and row: `init u j` is what the accumulator starts from (R93, R65). -/
def blendResults (d : OpDesc) (tiles : List (List Byte)) (store buf : List Byte) (init : Nat → Nat → Word) :
    List (Nat × Nat × Word) :=
  (List.range d.units).flatMap fun u => (List.range d.rows).map fun j =>
    (u, j, blendSum (init u j) (opSteps d tiles store buf u j))

/-- Single-origin terms of an operation: accumulator index and block result (R67, R95). -/
def originTerms (d : OpDesc) (accb : Nat) (tiles : List (List Byte)) (store buf : List Byte) : List (Nat × FVal) :=
  (List.range d.units).flatMap fun u => (List.range d.rows).flatMap fun j =>
    (opSteps d tiles store buf u j).map fun k => ((accb + u * d.rows + j) % 256, k.v)

end Sys2Proof.Machine
end

