-- ==== Sys2Proof/Machine/Mem.lean ====
section
/-!
DEFINITION. A cluster's memories: the scratchpad through its banks (R129 to R132, R143), buffer handles (R135, R136),
program memory (R84, R145), the weight tier through its repair map with its tags and pending marks (R121 to R128), and
control memory (R134).
-/
namespace Sys2Proof.Machine
namespace State

/-- Effects are added to those that a cluster has waiting (R87). -/
def addPend (s : State) (r c : Nat) (ps : List Pend) : State := s.modCluster r c fun k => { k with pend := k.pend ++ ps }

/-- An access in schedule cycle `n` that reads scratchpad word `key` (R131, R132): the data, or none when the error is
uncorrectable. What the check finds takes effect when the word leaves the bank, six cycles later. -/
def spRead (s : State) (r c key h bundle slot n : Nat) : Option DWord × State :=
  match Store.find (s.cluster r c).sp key with
  | none => (some 0, s)
  | some w =>
    let bad := (none, s.addPend r c [⟨n + 6, bundle, slot, .spBad key h⟩])
    if !w.twin then bad else
    match eccOf 72 w.flip.toNat with
    | .clean => (some w.data, s)
    | .corrected q =>
      (some (w.data ^^^ BitVec.ofNat 64 q), s.addPend r c [⟨n + 6, bundle, slot, .spFixed key (Config.syndrome 72 w.flip.toNat)⟩])
    | .bad => bad

/-- Accesses of schedule cycle `n` that read several scratchpad words: every one is made, and none is the answer when one of
them is uncorrectable. -/
def spReads (s : State) (r c h bundle slot n : Nat) : List Nat → Option (List DWord) × State
  | [] => (some [], s)
  | k :: ks =>
    match s.spRead r c k h bundle slot n with
    | (w, s) =>
      match s.spReads r c h bundle slot n ks with
      | (ws, s) => (w.bind fun w => ws.map (w :: ·), s)

/-- The word a write stores: the flip mask is applied to the first write into its bank, and disarms (R143). -/
def spCell (s : State) (r c key : Nat) (w : DWord) : Cell × State :=
  if s.flag (Rg.SPFLIP_CTL_ARM r c) && s.fld (Rg.SPFLIP_CTL_BANK r c) == key / 8192 then
    (⟨w, BitVec.ofNat 72 (s.rd (Rg.SPFLIP_D0 r c) + s.rd (Rg.SPFLIP_D1 r c) * 2 ^ 32
        + s.fld (Rg.SPFLIP_CTL_CHK r c) * 2 ^ 64), true⟩,
     s.setFld (Rg.SPFLIP_CTL_ARM r c) 0)
  else (Cell.ofWord w, s)

/-- A scratchpad word takes contents `x`. -/
def spPut (s : State) (r c key : Nat) (x : Cell) : State :=
  s.modCluster r c fun k => { k with sp := Store.put k.sp key x }

/-- The handle `h` of a cluster (R135). -/
def handle (s : State) (r c h : Nat) : Handle := Handle.ofRegs (s.rd (Rg.HANDLE_LO r c h)) (s.rd (Rg.HANDLE_HI r c h))

/-- The bank-row address of word `w` of handle `h` (R136); word 0 of bank 0 where the bank count falls short, which
R138 refuses at load. -/
def handleWord (s : State) (r c h w : Nat) : Nat :=
  ((s.handle r c h).word (s.fld (Rg.SPBANKMASK_RETIRED r c)) w).getD 0

/-- The error pattern of part `i` of a program word: 72 bits (R145). -/
def progFlip (x : PCell) (i : Nat) : Nat := bits x.flip.toNat (72 * i + 71) (72 * i)

/-- The first of the four 64-bit parts of a program word that is uncorrectable, if any (R145). -/
def progBad (x : PCell) : Option Nat := (List.range 4).find? fun i => eccOf 72 (progFlip x i) == .bad

/-- The parts of a program word that the check corrects (R145). -/
def progFixed (x : PCell) : List Nat := (List.range 4).filter fun i => eccOf 72 (progFlip x i) != .clean

/-- The data of a program word that the check accepts: what three or more errors leave in a part stays (R131, R145). -/
def progData (x : PCell) : ProgWord :=
  (List.range 4).foldl (fun w i =>
    match eccOf 72 (progFlip x i) with
    | .corrected q => w ^^^ BitVec.ofNat 256 (q % 2 ^ 64 * 2 ^ (64 * i))
    | _ => w) x.w

/-- A fetch of program word `a` (R145): the word, or none when it is uncorrectable and the region has halted with
fault 0x0207. -/
def progFetch (s : State) (r c a slot : Nat) : Option ProgWord × State :=
  let x := Store.get PCell.zero (s.cluster r c).prog a
  match progBad x with
  | some i => (none, s.raise r { code := 0x207, cluster := c, bundle := a, slot := slot, detail := i })
  | none =>
    (some (progData x), (progFixed x).foldl (fun s i =>
      (s.log r { code := 0x302, region := r, cluster := c, loc0 := a, loc1 := i,
                 detail := Config.syndrome 72 (progFlip x i) }).count (Rg.PM_CE_COUNT r c) 1) s)

/-- Program word `a` as a fetch yields it, ahead of its issue and without what the check reports. -/
def progPeek (s : State) (r c a : Nat) : ProgWord := progData (Store.get PCell.zero (s.cluster r c).prog a)

/-- The physical byte address, macro × 2 MiB + offset, of byte `o` of logical tile `t` (R121, R122). -/
def wtAddr (s : State) (r c t o : Nat) : Nat :=
  s.fld (Rg.WTREPAIR_PHYS r c (t / 128)) * 0x200000 + (t % 128) * 0x4000 + o

/-- The 16,384 bytes of logical tile `t` (R121). -/
def tileBytes (s : State) (r c t : Nat) : List Byte :=
  Store.getMany 0 (s.cluster r c).wt (s.wtAddr r c t 0) 16384

/-- Is tile `t` pending (R128)? -/
def tilePending (s : State) (r c t : Nat) : Bool := !(Store.get false (s.cluster r c).proven t)

/-- A write of bytes into a tile, which marks it pending (R128). -/
def tileWrite (s : State) (r c t o : Nat) (bs : List Byte) : State :=
  let a := s.wtAddr r c t o
  s.modCluster r c fun k =>
    { k with wt := Store.setMany 0 k.wt a bs, proven := Store.set false k.proven t false }

/-- The loader's write of a tile's tag, which clears the pending mark (R128, R287). -/
def tileTag (s : State) (r c t : Nat) (tag : Word) : State :=
  s.modCluster r c fun k =>
    { k with tags := Store.set 0 k.tags t tag, proven := Store.set false k.proven t true }

/-- A control-channel write of a tile's tag, which marks the tile pending (R128). -/
def tagWrite (s : State) (r c t : Nat) (tag : Word) : State :=
  s.modCluster r c fun k =>
    { k with tags := Store.set 0 k.tags t tag, proven := Store.set false k.proven t false }

/-- Every tile of a cluster becomes pending and its weight tier keeps nothing (R128). -/
def tilesLost (s : State) (r c : Nat) : State := s.modCluster r c fun k => { k with wt := [], proven := [] }

/-! ### Control memory -/

/-- Word `w` (8-byte units) of control memory (R134); none when the word is uncorrectable, with entry 0x0410 for
reader `who` (R413). -/
def cmRead (s : State) (w who : Nat) : Option DWord × State :=
  match Store.find s.cmem w with
  | none => (some 0, s)
  | some x =>
    let bad := (none, s.log 96 { code := 0x410, cluster := 0xFE, loc0 := 8 * w, loc1 := who })
    if !x.twin then bad else
    match eccOf 72 x.flip.toNat with
    | .clean => (some x.data, s)
    | .corrected q => (some (x.data ^^^ BitVec.ofNat 64 q), s)
    | .bad => bad

/-- The data of a word of control memory or scratchpad that the check accepts (R131, R134): what three or more errors leave stays (R131). -/
def cmData (x : Cell) : DWord :=
  match eccOf 72 x.flip.toNat with
  | .corrected q => x.data ^^^ BitVec.ofNat 64 q
  | _ => x.data

/-- Word `w` of control memory, which a check has accepted: what an assist works with once `cmProbe` or `cmRead` has read it. -/
def cmWord (s : State) (w : Nat) : DWord := ((Store.find s.cmem w).map cmData).getD 0

/-- Reader `who` reads the words of a list in turn (R134, R413): can all be read? The first that is uncorrectable ends it. -/
def cmProbe (s : State) (who : Nat) : List Nat → Bool × State
  | [] => (true, s)
  | w :: ws =>
    match s.cmRead w who with
    | (none, s) => (false, s)
    | (some _, s) => s.cmProbe who ws

/-- The word that a write of less than the whole of it leaves, with data `d`: an error that the check cannot correct stays, so that
no read yields the bytes that the write does not name (DESIGN CHOICE, log 84). -/
def narrowCell (old : Option Cell) (d : DWord) : Cell :=
  match old with
  | none => Cell.ofWord d
  | some x => ⟨d, BitVec.ofNat 72 (if x.twin then narrowFlip 72 x.flip.toNat else x.flip.toNat), x.twin⟩

/-- A write of word `w` of control memory (R134). -/
def cmWrite (s : State) (w : Nat) (v : DWord) : State := { s with cmem := Store.put s.cmem w (Cell.ofWord v) }

/-- Byte `a` of control memory. -/
def cmByte (s : State) (a : Nat) : Byte := BitVec.ofNat 8 (bits (s.cmWord (a / 8)).toNat (8 * (a % 8) + 7) (8 * (a % 8)))

/-- `n` bytes of control memory from offset `a`. -/
def cmBytes (s : State) (a n : Nat) : List Byte := (List.range n).map fun i => s.cmByte (a + i)

/-- The `n`-byte little-endian number at control-memory offset `a`. -/
def cmNum (s : State) (a n : Nat) : Nat := leNat (s.cmBytes a n)

/-- A write of bytes inside one word of control memory, at offset `w.1`: the rest of the word keeps its value, zero if the word
was invalid, and an error beyond correction. -/
def cmPut (s : State) (w : Nat × List Byte) : State :=
  let k := w.1 / 8
  let d := BitVec.ofNat 64 (leNat (spliced (leBytes 8 (s.cmWord k).toNat) (w.1 % 8) w.2))
  { s with cmem := Store.put s.cmem k (if w.2.length = 8 then Cell.ofWord d else narrowCell (Store.find s.cmem k) d) }

/-- A write of bytes of control memory from offset `a`. -/
def cmSetBytes (s : State) (a : Nat) (bs : List Byte) : State := (wordParts bs.length a bs).foldl cmPut s

/-- A write of an `n`-byte little-endian number at control-memory offset `a`. -/
def cmSetNum (s : State) (a n v : Nat) : State := s.cmSetBytes a (leBytes n v)

/-- The valid bits of words `w` to `w + n - 1` are cleared (R470). -/
def cmClear (s : State) (w n : Nat) : State := { s with cmem := Store.eraseRange s.cmem w n }

end State
end Sys2Proof.Machine
end

