-- ==== Sys2Proof/Machine/Links.lean ====
section
/-!
DEFINITION. Scheduled links and region-boundary queues: which link end or queue a side of a cluster is (R14, R109,
R159, R161), pushes, pops and their visibility (R160), fences (R167) and the checks of beats and entries (R148, R162).
Sides are coded 0 N, 1 E, 2 S, 3 W.
-/
namespace Sys2Proof.Machine

/-- Column x of region r, 0 to 11. -/
def regX (r : Nat) : Nat := r % 12
/-- Row y of region r, 0 to 7. -/
def regY (r : Nat) : Nat := r / 12

/-- The side opposite. -/
def oppSide (s : Nat) : Nat := (s + 2) % 4

/-- The cluster of the same region on side `s` of cluster `c`, if any. -/
def innerNeighbour (c s : Nat) : Option Nat :=
  let row := c / 7
  let col := c % 7
  match s with
  | 0 => if row < 3 then some (c + 7) else none
  | 1 => if col < 6 then some (c + 1) else none
  | 2 => if 0 < row then some (c - 7) else none
  | _ => if 0 < col then some (c - 1) else none

/-- The region on side `s` of region `r`, if any (R11). -/
def regionNeighbour (r s : Nat) : Option Nat :=
  match s with
  | 0 => if regY r < 7 then some (r + 12) else none
  | 1 => if regX r < 11 then some (r + 1) else none
  | 2 => if 0 < regY r then some (r - 12) else none
  | _ => if 0 < regX r then some (r - 1) else none

/-- The crossing of a side at which cluster `c` stands (R159): its row on E and W, its column on N and S. -/
def crossingOf (c s : Nat) : Nat := if s = 1 ∨ s = 3 then c / 7 else c % 7

/-- The index of the inbound queue of side `s`, crossing `k` (R161). -/
def inIndex (s k : Nat) : Nat :=
  match s with | 3 => k | 1 => 4 + k | 2 => 8 + k | _ => 15 + k

/-- Side and crossing of inbound queue `q` (R161). -/
def inSide (q : Nat) : Nat × Nat :=
  if q < 4 then (3, q) else if q < 8 then (1, q - 4) else if q < 15 then (2, q - 8) else (0, q - 15)

/-- Key of inbound queue `q` of region `r`. -/
def inKey (r q : Nat) : Nat := 22 * r + q

/-- Key of the queue that the edge ring reads at side `s`, crossing `k` of region `r` (R159). -/
def edgeKey (r s k : Nat) : Nat := 2112 + 22 * r + inIndex s k

/-- Key of the queue that cluster `c` of region `r` reads at side `s`. -/
def popKey (r c s : Nat) : Nat := inKey r (inIndex s (crossingOf c s))

/-- Key of the queue that cluster `c` of region `r` writes at side `s`. -/
def pushKey (r c s : Nat) : Nat :=
  match regionNeighbour r s with
  | some r' => inKey r' (inIndex (oppSide s) (crossingOf c s))
  | none => edgeKey r s (crossingOf c s)

/-- The QH value of kind 2 of a queue named by region, side and crossing; `i` when the edge ring writes it (R201). -/
def qhQueue (i : Bool) (r s k : Nat) : Nat := 0x4000 + (if i then 4096 else 0) + r * 32 + s * 8 + k

/-- The QH value of the queue with key `key`: it has the name of its writer (R159, R201). -/
def qhOfKey (key : Nat) : Nat :=
  if key < 2112 then
    let r := key / 22
    let p := inSide (key % 22)
    match regionNeighbour r p.1 with
    | some r' => qhQueue false r' (oppSide p.1) p.2
    | none => qhQueue true r p.1 p.2
  else
    let r := (key - 2112) / 22
    let p := inSide ((key - 2112) % 22)
    qhQueue false r p.1 p.2

/-- The key of the queue that QH value bits [12:0] of kind 2 name (R201). -/
def keyOfQh (v : Nat) : Nat :=
  let r := bits v 11 5
  if bit v 12 then inKey r (inIndex (bits v 4 3) (bits v 2 0)) else edgeKey r (bits v 4 3) (bits v 2 0)

namespace State

/-- The fenced port whose binding joins the queue with key `key` to its module-boundary queues (R309, R312). -/
def fencedPort (s : State) (key : Nat) : Option Nat :=
  (List.range 32).find? fun p =>
    s.flag (Rg.VYB_BIND_EN p) && s.flag (Rg.MBQSTAT_FENCED p)
    && (keyOfQh (s.fld (Rg.VYB_BIND_OUTQ p)) == key || keyOfQh (s.fld (Rg.VYB_BIND_INQ p)) == key)

/-- Is an operation on the queue with key `key` one on a fenced queue (R167, R309)? -/
def opFenced (s : State) (key : Nat) : Bool := (s.queue key).fenced || (s.fencedPort key).isSome

/-- The QH that names the queue of an operation: the port when its module-boundary queues are fenced (R201, R309). -/
def opQh (s : State) (key : Nat) : Nat :=
  if (s.queue key).fenced then qhOfKey key else match s.fencedPort key with | some p => 0xE000 + p | none => qhOfKey key

/-- The retired entries of the queue with key `key` (R161); the edge ring's own ends retire none. -/
def retiredMask (s : State) (key : Nat) : Nat :=
  if key < 2112 then s.rd (Rg.QRET_LO (key / 22) (key % 22)) + 2 ^ 32 * s.rd (Rg.QRET_HI (key / 22) (key % 22)) else 0

/-- DEPTH of a queue (R161). -/
def depth (s : State) (key : Nat) : Nat := 64 - popcount 64 (s.retiredMask key)

/-- Slots in use as the writer sees them (R160). -/
def inUse (s : State) (key : Nat) : Nat :=
  (s.queue key).vis.length + (s.queue key).hid.length + (s.queue key).freed

/-- Is the queue ready for a push (R160)? -/
def pushReady (s : State) (key : Nat) : Bool := !(s.queue key).fenced && decide (s.inUse key < s.depth key)

/-- Is the queue ready for a pop (R160)? -/
def popReady (s : State) (key : Nat) : Bool := !(s.queue key).fenced && !(s.queue key).vis.isEmpty

/-- The first storage entry at or after `i`, in rotation, that is not retired. -/
def usableSlot (mask : Nat) : Nat → Nat → Nat
  | 0, i => i % 64
  | n + 1, i => if bit mask (i % 64) then usableSlot mask n (i + 1) else i % 64

/-- A push (R160): the entry is not yet visible; the edge ring's ends see it at once. -/
def push (s : State) (key : Nat) (b : LBeat) : State :=
  let q := s.queue key
  let slot := usableSlot (s.retiredMask key) 64 q.next
  let e : QEntry := ⟨b, slot⟩
  let q := { q with next := (slot + 1) % 64 }
  s.setQueue key (if key < 2112 then { q with hid := q.hid ++ [e] } else { q with vis := q.vis ++ [e] })

/-- A pop of the oldest visible entry (R160): its slot is not yet visible to the writer. -/
def pop (s : State) (key : Nat) : Option QEntry × State :=
  let q := s.queue key
  match q.vis with
  | [] => (none, s)
  | e :: es => (some e, s.setQueue key { q with vis := es, freed := if key < 2112 then q.freed + 1 else q.freed })

/-- A fenced queue discards its entries (R167). -/
def fenceQueue (s : State) (key : Nat) : State := s.setQueue key { Queue.empty with fenced := true }

/-- The keys of every queue that region `r` reads or writes (R167). -/
def queuesOf (r : Nat) : List Nat :=
  (List.range 22).flatMap fun q =>
    let p := inSide q
    [inKey r q, match regionNeighbour r p.1 with
      | some r' => inKey r' (inIndex (oppSide p.1) p.2)
      | none => edgeKey r p.1 p.2]

/-- Every queue of every crossing of region `r` is fenced (R167). -/
def fenceRegion (s : State) (r : Nat) : State := (queuesOf r).foldl (fun s k => s.fenceQueue k) s

end State

/-! ### Checks of beats -/

/-- The error pattern of 128-bit sub-word `i` of a beat: 137 bits (R148). -/
def subFlip (b : LBeat) (i : Nat) : Nat := bits b.flip.toNat (137 * i + 136) (137 * i)

/-- Sub-words that are uncorrectable, as a mask (R148). -/
def badSubs (b : LBeat) : Nat :=
  ((List.range 8).filter fun i => eccOf 137 (subFlip b i) == .bad).foldl (fun a i => a + 2 ^ i) 0

/-- Sub-words that were corrected, as a mask. -/
def fixedSubs (b : LBeat) : Nat :=
  ((List.range 8).filter fun i => match eccOf 137 (subFlip b i) with | .corrected _ => true | _ => false).foldl
    (fun a i => a + 2 ^ i) 0

/-- The data a checked beat yields: what three or more errors leave in a sub-word stays (R131). -/
def checkedData (b : LBeat) : Beat :=
  (List.range 8).foldl (fun d i =>
    match eccOf 137 (subFlip b i) with
    | .corrected q => d ^^^ BitVec.ofNat 1024 (q % 2 ^ 128 * 2 ^ (128 * i))
    | _ => d) b.data

namespace State

/-- The check of a beat that stands at link side `side` before it enters a stream (R148); none when the region has halted. -/
def linkCheck (s : State) (r c side bundle : Nat) (b : LBeat) : Option LBeat × State :=
  if b.flip = 0 then (some b, s)
  else if badSubs b ≠ 0 then
    (none, s.raise r { code := 0x208, cluster := c, bundle := bundle, slot := 5, qh := 0x6000 + side, detail := badSubs b })
  else
    (some (LBeat.ofBeat (checkedData b)),
     (s.log r { code := 0x303, region := r, cluster := c, loc0 := side, loc1 := (s.region r).cycle % 2 ^ 32,
                detail := fixedSubs b }).count (Rg.LINK_CE_COUNT r c) 1)

/-- The check of a popped entry (R162); none when the region has halted. -/
def entryCheck (s : State) (r c key bundle : Nat) (e : QEntry) : Option LBeat × State :=
  if e.beat.flip = 0 then (some e.beat, s)
  else if badSubs e.beat ≠ 0 then
    (none, s.raise r { code := 0x209, cluster := c, bundle := bundle, slot := 5, qh := qhOfKey key, detail := e.slot })
  else
    (some (LBeat.ofBeat (checkedData e.beat)),
     (s.log r { code := 0x304, region := r, cluster := c, loc0 := qhOfKey key, loc1 := e.slot,
                detail := Config.syndrome 1096 e.beat.flip.toNat }).count (Rg.Q_CE_COUNT r c) 1)

end State
end Sys2Proof.Machine
end

