-- ==== Sys2Proof/Machine/Special.lean ====
section
/-!
DEFINITION. The special functions of the vector unit: the tables of R117, the coefficients of R118, the steps of R119
and the special cases of R120, and the pair merge of R101.
-/
namespace Sys2Proof.Machine

/-- The binary32 nearest to a real strictly above `n` × 2^-p and below (`n` + 1) × 2^-p, or equal to `n` × 2^-p when
that is a binary32: a rounding with a sticky bit (R117). -/
def stickyRound (n p : Nat) : FVal := rv (.fin false (2 * n + 1) (-((p : Int) + 1)))

/-- T[j] = 2^(j/256) (R117): the greatest n with n^256 ≤ 2^(j + 256·32). -/
def tabT (j : Nat) : FVal :=
  stickyRound (greatest (fun n => decide (n ^ 256 ≤ 2 ^ (j + 256 * 32))) 34 0) 32

/-- G[j] = 1/(1 + j/256) (R117). -/
def tabG (j : Nat) : FVal := stickyRound (2 ^ 48 / (256 + j)) 40

/-- Q[j] = 1/(1 + (2j + 1)/512) (R117). -/
def tabQ (j : Nat) : FVal := stickyRound (2 ^ 49 / (512 + 2 * j + 1)) 40

/-- Binary digits of log2 of `x` × 2^-160, for 1 ≤ `x` × 2^-160 < 2, by repeated squaring. -/
def log2Digits : Nat → Nat → Nat → Nat
  | 0, _, acc => acc
  | n + 1, x, acc =>
    let y := (x * x) >>> 160
    if 2 ^ 161 ≤ y then log2Digits n (y >>> 1) (2 * acc + 1) else log2Digits n y (2 * acc)

/-- L[j] = log2(1 + j/256) (R117); L[0] = 0. -/
def tabL (j : Nat) : FVal :=
  if j = 0 then .zero else stickyRound (log2Digits 56 ((256 + j) * 2 ^ 152) 0) 56

/-- S[j] = μ_j^(-1/2) (R117): with μ = a / 2^t, the greatest n with n²·a ≤ 2^(80 + t). -/
def tabS (j : Nat) : FVal :=
  let a := 256 + 2 * (j % 128) + 1
  let t := if j < 128 then 8 else 7
  stickyRound (greatest (fun n => decide (n * n * a ≤ 2 ^ (80 + t))) 42 0) 40

/-- A binary32 constant. -/
def fk (x : Nat) : FVal := decodeF b32 x

/-- FMA of R113 on values, rounded once. -/
def fma (a b c : FVal) : FVal := rv (fmaV a b c)
/-- Rounded product, R47(a × b). -/
def rmul (a b : FVal) : FVal := rv (mulV a b)
/-- Rounded sum, R47(a + b). -/
def radd (a b : FVal) : FVal := rv (addV a b)
/-- mul2 of R119. -/
def mul2 (y : FVal) (n : Int) : FVal := rv (scaleV n y)

/-- poly(z) of R119 with the coefficients of R118. -/
def poly (c1 c2 c3 : Nat) (z : FVal) : FVal := rmul (fma (fma (fk c3) z (fk c2)) z (fk c1)) z

/-- EXP2 of a finite value in range (R119): `x` is i × 2^-k exactly. -/
def exp2Core (i : Int) (k : Nat) : FVal :=
  let n := i / (2 ^ k : Int)
  let f := (i % (2 ^ k : Int)).toNat
  let j := (f * 256) >>> k
  let z := rv (.fin false (f * 256 - j * 2 ^ k) (-((k : Int) + 8)))
  let y := fma (tabT j) (poly 0x3F317218 0x3E75FDF0 0x3D635847 z) (tabT j)
  mul2 y n

/-- EXP2 (R119, R120). -/
def sfExp2 (x : FVal) : FVal :=
  match x with
  | .nan => .nan
  | .inf true => .zero
  | .inf false => .inf false
  | .fin s m e =>
    if m = 0 then .one
    else if ltV x (.fin true 150 0) then .zero
    else if !ltV x (.fin false 128 0) then .inf false
    else
      let k := (-e).toNat
      exp2Core (alignTo s m e (-(k : Int))) k

/-- `m` × 2^e, `m` ≠ 0, as 2^e' × m' / 2^23 with m' of 24 bits; the operands of R119 are binary32, so this is exact. -/
def normalise (m : Nat) (e : Int) : Int × Nat :=
  let l := Nat.log2 m
  (e + l, if l ≤ 23 then m <<< (23 - l) else m >>> (l - 23))

/-- LOG2 (R119, R120). -/
def sfLog2 (x : FVal) : FVal :=
  match x with
  | .nan => .nan
  | .inf true => .nan
  | .inf false => .inf false
  | .fin s m e =>
    if m = 0 then .inf true
    else if s then .nan
    else
      let p := normalise m e
      if p.1 = 0 ∧ p.2 = 2 ^ 23 then .zero
      else
        let j := (p.2 - 2 ^ 23) >>> 15
        let a : FVal := .fin false (p.2 - 2 ^ 23 - j * 2 ^ 15) (-23)
        let z := rmul a (tabG j)
        let ev := ofSigned false p.1 0
        radd ev (radd (tabL j) (poly 0x3FB8AA3B 0xBF38AA3B 0x3EF6384F z))

/-- RCP (R119, R120). -/
def sfRcp (x : FVal) : FVal :=
  match x with
  | .nan => .nan
  | .inf s => .fin s 0 0
  | .fin s m e =>
    if m = 0 then .inf s
    else
      let p := normalise m e
      let y :=
        if p.2 = 2 ^ 23 then FVal.one
        else
          let j := (p.2 - 2 ^ 23) >>> 15
          let d := fma (.fin false p.2 (-23)) (tabQ j) (fk 0xBF800000)
          fma (tabQ j) (poly 0xBF800000 0x3F800000 0xBF800000 d) (tabQ j)
      let r := mul2 y (-p.1)
      if s then r.negate else r

/-- RSQRT (R119, R120). -/
def sfRsqrt (x : FVal) : FVal :=
  match x with
  | .nan => .nan
  | .inf true => .nan
  | .inf false => .zero
  | .fin s m e =>
    if m = 0 then .inf s
    else if s then .nan
    else
      let p := normalise m e
      let odd := p.1 % 2 = 1
      let ep := if odd then p.1 - 1 else p.1
      let mp : FVal := if odd then .fin false p.2 (-22) else .fin false p.2 (-23)
      let j := (if odd then 128 else 0) + (p.2 - 2 ^ 23) / 2 ^ 16
      if !odd ∧ p.2 = 2 ^ 23 then mul2 .one (-(ep / 2))
      else
        let u := rmul (tabS j) (tabS j)
        let d := fma mp u (fk 0xBF800000)
        let y := fma (tabS j) (poly 0xBF000000 0x3EC00000 0xBEA00000 d) (tabS j)
        mul2 y (-(ep / 2))

/-- R47(x × RCP(R47(1.0 + EXP2(t)))), the last step of SILU and GELU (R119). -/
def sigmoidTail (x t : FVal) : FVal := rmul x (sfRcp (radd .one (sfExp2 t)))

/-- The cases SILU and GELU share (R120); none where the algorithm applies. -/
def gateCase (x : FVal) : Option FVal :=
  match x with
  | .nan => some .nan
  | .inf true => some (.fin true 0 0)
  | .inf false => some (.inf false)
  | .fin _ m _ => if m = 0 then some x else none

/-- SILU (R119, R120). -/
def sfSilu (x : FVal) : FVal := (gateCase x).getD (sigmoidTail x (rmul x (fk 0xBFB8AA3B)))

/-- GELU (R119, R120). -/
def sfGelu (x : FVal) : FVal :=
  (gateCase x).getD
    (let a := rmul x x
     let b := fma a (fk 0x3D372713) .one
     let w := rmul (rmul x b) (fk 0xC0135761)
     sigmoidTail x w)

/-- t of R101 and R77: EXP2(R47(R47(m1 − m) × log2 e)). -/
def lseTerm (m1 m : FVal) : FVal := sfExp2 (rmul (radd m1 m.negate) (fk 0x3FB8AA3B))

/-- The pair merge of log-sum-exp pairs (R101). -/
def pairMerge (p q : FVal × FVal) : FVal × FVal :=
  if p.1.isNan || p.2.isNan || q.1.isNan || q.2.isNan || p.1 == .inf false || q.1 == .inf false then (.nan, .nan)
  else
    let m := maxV p.1 q.1
    if m == .inf true then (.inf true, .zero)
    else (m, fma q.2 (lseTerm q.1 m) (rmul p.2 (lseTerm p.1 m)))

end Sys2Proof.Machine
end

