-- ==== Sys2Proof/Machine/Vector.lean ====
section
/-!
DEFINITION. The vector unit as functions of register contents: the opcodes of R99 with their operand cases (R113 to
R116, R119), the trees of R73, the pair merge of R101, candidate lists of R102 and the block conversions of R103.
-/
namespace Sys2Proof.Machine

/-- A register: its 256 lanes in ascending order (R71). -/
abbrev Lanes := List Word

/-- A binary32 operation on three lanes, rounded once (R72). -/
def lane32 (f : FVal → FVal → FVal → FVal) (a b c : Word) : Word := r47 (f (f32 a) (f32 b) (f32 c))

/-- One element of a BF16 pair, rounded once to BF16 (R72). -/
def elem16 (f : FVal → FVal → FVal → FVal) (a b c : Nat) : Nat := roundF bf16 (f (fbf a) (fbf b) (fbf c))

/-- A BF16 pair operation (R72, R98). -/
def lane16 (f : FVal → FVal → FVal → FVal) (a b c : Word) : Word :=
  BitVec.ofNat 32 (elem16 f (a.toNat % 65536) (b.toNat % 65536) (c.toNat % 65536)
    + 65536 * elem16 f (a.toNat / 65536) (b.toNat / 65536) (c.toNat / 65536))

/-- The arithmetic of opcodes 0x01 to 0x06 on exact values (R99, R113, R114). -/
def arith (op : Nat) (a b c : FVal) : FVal :=
  match op with
  | 0x01 => fmaV a b c
  | 0x02 => fmaV a b (.fin true 0 0)
  | 0x03 => fmaV a .one b
  | 0x04 => fmaV b (.fin true 1 0) a
  | 0x05 => maxV a b
  | _ => minV a b

/-- All ones if true (R99). -/
def maskOf (b : Bool) : Word := if b then 0xFFFFFFFF else 0

/-- The comparisons, the selection and the integer operations of one lane (R99, R114, R116). -/
def laneInt (op : Nat) (a b c : Word) : Word :=
  match op with
  | 0x08 => maskOf (eqV (f32 a) (f32 b))
  | 0x09 => maskOf (ltV (f32 a) (f32 b))
  | 0x0A => maskOf (ltV (f32 a) (f32 b) || eqV (f32 a) (f32 b))
  | 0x0B => if c = 0 then b else a
  | 0x10 => a + b
  | 0x11 => a - b
  | 0x12 => a &&& b
  | 0x13 => a ||| b
  | 0x14 => a ^^^ b
  | 0x15 => a <<< (b.toNat % 32)
  | 0x16 => a >>> (b.toNat % 32)
  | _ => a.sshiftRight (b.toNat % 32)

/-- The conversions and special functions of one lane (R99, R115, R119, R120). -/
def laneFun (op : Nat) (a : Word) : Word :=
  match op with
  | 0x20 => r47 (fbf (a.toNat % 65536))
  | 0x21 => BitVec.ofNat 32 (roundF bf16 (f32 a))
  | 0x30 => r47 (sfExp2 (f32 a))
  | 0x31 => r47 (sfLog2 (f32 a))
  | 0x32 => r47 (sfRcp (f32 a))
  | 0x33 => r47 (sfRsqrt (f32 a))
  | 0x34 => r47 (sfSilu (f32 a))
  | _ => r47 (sfGelu (f32 a))

/-- Lane by lane over three registers. -/
def map3 (f : Word → Word → Word → Word) (a b c : Lanes) : Lanes :=
  List.zipWith (fun g z => g z) (List.zipWith f a b) c

/-- Neighbours combined, lane 2i with lane 2i + 1 (R73). -/
def pairUp {α : Type} (f : α → α → α) : List α → List α
  | x :: y :: r => f x y :: pairUp f r
  | r => r

/-- `m` levels of the fixed tree (R73). -/
def treeReduce {α : Type} (f : α → α → α) : Nat → List α → List α
  | 0, xs => xs
  | m + 1, xs => treeReduce f m (pairUp f xs)

/-- The span of lanes [l0, l0 + 2^m) of a register (R98). -/
def spanOf (l0 m : Nat) (r : Lanes) : Lanes := (r.drop l0).take (2 ^ m)

/-- One addition of the tree of R73, rounded under R65. -/
def addWord (a b : Word) : Word := r47 (addV (f32 a) (f32 b))
/-- MAX of two words (R114). -/
def maxWord (a b : Word) : Word := r47 (maxV (f32 a) (f32 b))
/-- MIN of two words (R114). -/
def minWord (a b : Word) : Word := r47 (minV (f32 a) (f32 b))

/-- The pair merge of R101 on words. -/
def mergeWords (p q : Word × Word) : Word × Word :=
  let r := pairMerge (f32 p.1, f32 p.2) (f32 q.1, f32 q.2)
  (r47 r.1, r47 r.2)

/-- Does entry (value, ID) `p` come before `q` in a candidate list (R77, R102)? -/
def candBefore (p q : Word × Word) : Bool :=
  beforeV (f32 p.1) (f32 q.1) || (sameV (f32 p.1) (f32 q.1) && p.2.toNat < q.2.toNat)

/-- Insertion into an ordered candidate list, after every entry that is not behind it. -/
def candInsert (x : Word × Word) : List (Word × Word) → List (Word × Word)
  | [] => [x]
  | y :: ys => if candBefore x y then x :: y :: ys else y :: candInsert x ys

/-- Entries ordered by descending value, ties by ascending ID, equal entries in the order given (R102, R152). -/
def candSort (xs : List (Word × Word)) : List (Word × Word) := xs.foldl (fun acc x => candInsert x acc) []

/-- The byte image of a register (R98). -/
def lanesBytes (r : Lanes) : List Byte := r.flatMap fun w => leBytes 4 w.toNat

/-- The first `n` words of a byte image. -/
def bytesLanes (n : Nat) (bs : List Byte) : Lanes := (List.range n).map fun i => BitVec.ofNat 32 (fieldAt bs (4 * i) 4)

/-- The 32 values of block `g` of a register (R103). -/
def blockLanes (r : Lanes) (g : Nat) : List FVal := ((r.drop (32 * g)).take 32).map f32

/-- The record that a block conversion writes for one block (R103). -/
def convRecord (op : Nat) (wd : WidenDesc) (vs : List FVal) : List Byte :=
  match op with
  | 0x22 => let q := narrowTested wd vs; tagged q.1 q.2
  | 0x23 => compact .fp4 (mxConvert .fp4 vs)
  | 0x24 => compact .e4m3 (mxConvert .e4m3 vs)
  | 0x25 => compact .e5m2 (mxConvert .e5m2 vs)
  | _ => compact .int8 (mxConvert .int8 vs)

/-- The register image of a block conversion (R103). -/
def convLanes (op : Nat) (wd : WidenDesc) (r : Lanes) : Lanes :=
  bytesLanes 256 ((List.range 8).flatMap fun g => convRecord op wd (blockLanes r g))

/-- Blocks of a NARROWT that left wide (R54). -/
def widenedBlocks (wd : WidenDesc) (r : Lanes) : Nat :=
  ((List.range 8).filter fun g => (narrowTested wd (blockLanes r g)).1 != .fp4).length

/-- The record form of WIDEN (R103): bytes of one record and its format, none for a tagged slot. -/
def widenForm (x : Nat) : Nat × Option MxFmt :=
  match x with
  | 1 => (17, some .fp4)
  | 2 => (33, some .e4m3)
  | 3 => (33, some .e5m2)
  | 4 => (33, some .int8)
  | _ => (34, none)

/-- The format and block of record `g` of a WIDEN; none for a reserved TAG (R36, R103). -/
def widenBlock (x : Nat) (bs : List Byte) (g : Nat) : Option (MxFmt × Block) :=
  let f := widenForm x
  let rec_ := bytesAt bs (f.1 * g) f.1
  match f.2 with
  | some k => some (k, ofCompact k rec_)
  | none => ofTagged rec_

/-- The lanes a WIDEN decodes (R103); none when a slot has a reserved TAG. -/
def widenLanes (x : Nat) (r : Lanes) : Option Lanes :=
  ((List.range 8).mapM (widenBlock x (lanesBytes r))).map fun bs => bs.flatMap fun b => (b.2.values b.1).map r47

/-- The reserved TAG a WIDEN meets first (R36). -/
def widenBadTag (x : Nat) (r : Lanes) : Nat :=
  ((List.range 8).find? fun g => (widenBlock x (lanesBytes r) g).isNone).elim 0 fun g =>
    byteAt (lanesBytes r) (34 * g)

/-- The exact products of one lane (XMAC, R99); both of a pair, element 0 first. -/
def xmacTerms (p : Nat) (a b : Word) : List FVal :=
  if p = 1 then
    [mulV (fbf (a.toNat % 65536)) (fbf (b.toNat % 65536)), mulV (fbf (a.toNat / 65536)) (fbf (b.toNat / 65536))]
  else [mulV (f32 a) (f32 b)]

/-- The exact terms of one lane (XACC, R99). -/
def xaccTerm (a : Word) : List FVal := [f32 a]

/-- The one rounding of an accumulator (R43) into a lane: binary32, or BF16 in the low half (R99). -/
def xcvtLane (p : Nat) (x : Acc) : Word :=
  if p = 1 then BitVec.ofNat 32 (roundF bf16 x.val) else r47 x.val

/-- A binary32 word as an operation produces it: a NaN is the canonical one (R31, R37). -/
def canonWord (w : Word) : Word := if (f32 w).isNan then 0x7FC00000 else w

/-- Writes of lanes that a vector opcode outside the accumulator group makes: register offset (0 for D, 1 for D + 1),
first lane and values (R99). The special forms NOP and the X group write none here. -/
def vecWrites (v : VecSlot) (wd : WidenDesc) (a b c : Lanes) : List (Nat × Nat × Lanes) :=
  let op := v.op
  if 0x01 ≤ op ∧ op ≤ 0x06 then
    [(0, 0, map3 (if v.p = 1 then lane16 (arith op) else lane32 (arith op)) a b c)]
  else if (0x08 ≤ op ∧ op ≤ 0x0B) ∨ (0x10 ≤ op ∧ op ≤ 0x17) then [(0, 0, map3 (laneInt op) a b c)]
  else if op = 0x19 then [(0, 0, (List.range 256).map (BitVec.ofNat 32))]
  else if op = 0x1A then [(0, 0, List.replicate 256 (a.getD v.x 0))]
  else if op = 0x20 ∨ op = 0x21 ∨ (0x30 ≤ op ∧ op ≤ 0x35) then [(0, 0, a.map (laneFun op))]
  else if 0x22 ≤ op ∧ op ≤ 0x26 then [(0, 0, convLanes op wd a)]
  else if op = 0x27 then ((widenLanes v.x a).map fun l => (0, 0, l)).toList
  else if op = 0x40 then [(0, v.l0, (treeReduce addWord v.m (spanOf v.l0 v.m a)).map canonWord)]
  else if op = 0x41 then [(0, v.l0, (treeReduce maxWord v.m (spanOf v.l0 v.m a)).map canonWord)]
  else if op = 0x42 then [(0, v.l0, (treeReduce minWord v.m (spanOf v.l0 v.m a)).map canonWord)]
  else if op = 0x43 then
    let r := treeReduce mergeWords v.m (List.zip (spanOf v.l0 v.m a) (spanOf v.l0 v.m b))
    [(0, v.l0, r.map fun e => canonWord e.1), (1, v.l0, r.map fun e => canonWord e.2)]
  else if op = 0x44 then
    let r := (candSort (List.zip (spanOf v.l0 v.m a) (spanOf v.l0 v.m b))).take (v.x + 1)
    [(0, v.l0, r.map fun e => canonWord e.1), (1, v.l0, r.map Prod.snd)]
  else []

/-- Terms that XACC and XMAC add: accumulator index and term, in lane order (R99). -/
def vecTerms (v : VecSlot) (a b : Lanes) : List (Nat × FVal) :=
  let term (i : Nat) : List FVal :=
    if v.op = 0x50 then xaccTerm (a.getD (v.l0 + i) 0) else xmacTerms v.p (a.getD (v.l0 + i) 0) (b.getD (v.l0 + i) 0)
  if v.op = 0x50 ∨ v.op = 0x51 then
    (List.range (2 ^ v.m)).flatMap fun i => (term i).map fun t => ((v.x + i) % 256, t)
  else []

end Sys2Proof.Machine
end

