-- ==== Sys2Proof/Machine/Route.lean ====
section
/-!
DEFINITION. Route streams: the reduction of two beats (R151, R152), tagged block frames (R154 to R156), XS frames
(R157), and what a stream does in one schedule cycle (R108, R109, R149): it reads its local source, takes its beats and
sends them on.
-/
namespace Sys2Proof.Machine

/-! ### Beats -/

/-- 32-bit value `i` of a beat (R151). -/
def beatWord (b : Beat) (i : Nat) : Word := BitVec.ofNat 32 (b.toNat >>> (32 * i))
/-- A beat of 32 values. -/
def beatOfWords (ws : List Word) : Beat := BitVec.ofNat 1024 (packElems 32 (ws.map BitVec.toNat))
/-- The 128 bytes of a beat (R148). -/
def beatBytes (b : Beat) : List Byte := leBytes 128 b.toNat
/-- A beat of up to 128 bytes. -/
def beatOfBytes (bs : List Byte) : Beat := BitVec.ofNat 1024 (leNat (bs.take 128))
/-- A byte sequence cut into beats, the last padded with zeros; `n` is at least the number of beats. -/
def cutBeats : Nat → List Byte → List Beat
  | 0, _ => []
  | n + 1, bs => if bs.isEmpty then [] else beatOfBytes bs :: cutBeats n (bs.drop 128)
/-- The bytes of checked beats. -/
def beatsBytes (bs : List LBeat) : List Byte := bs.flatMap fun b => beatBytes b.data
/-- A beat from sixteen 64-bit words. -/
def beatOfDWords (ws : List DWord) : Beat := BitVec.ofNat 1024 (packElems 64 (ws.map BitVec.toNat))
/-- The sixteen 64-bit words of a beat. -/
def beatDWords (b : Beat) : List DWord := (List.range 16).map fun i => BitVec.ofNat 64 (b.toNat >>> (64 * i))

/-- A value-by-value reduction of two beats (R152, modes 1 and 4). -/
def beatMap2 (f : FVal → FVal → FVal) (a b : Beat) : Beat :=
  beatOfWords ((List.range 32).map fun i => r47 (f (f32 (beatWord a i)) (f32 (beatWord b i))))

/-- BF16-in sum (R151, R152): output beat `k` takes half `k` mod 2 of the BF16 beat. -/
def beatBf16In (k : Nat) (a b : Beat) : Beat :=
  beatOfWords ((List.range 32).map fun i =>
    r47 (fmaV (f32 (beatWord a i)) .one (fbf ((b.toNat >>> (16 * (32 * (k % 2) + i))) % 65536))))

/-- Log-sum-exp merge of 16 pairs (R151, R152). -/
def beatLse (a b : Beat) : Beat :=
  let ps := (List.range 16).map fun i =>
    mergeWords (beatWord a i, beatWord a (16 + i)) (beatWord b i, beatWord b (16 + i))
  beatOfWords (ps.map Prod.fst ++ ps.map Prod.snd)

/-- The reduction of modes 1, 2, 4 and 5 on beat `k` (R152). -/
def reduceBeat (rmode k : Nat) (a b : Beat) : Beat :=
  match rmode with
  | 1 => beatMap2 (fun x y => fmaV x .one y) a b
  | 2 => beatBf16In k a b
  | 4 => beatMap2 maxV a b
  | 5 => beatLse a b
  | _ => a

/-- The candidate entries of a list of beats (R151). -/
def candsOf (bs : List LBeat) : List (Word × Word) :=
  bs.flatMap fun b => (List.range 16).map fun i => (beatWord b.data i, beatWord b.data (16 + i))

/-- Beats of a candidate list (R151). -/
def candBeats (n : Nat) (xs : List (Word × Word)) : List Beat :=
  (List.range n).map fun k =>
    let e := (xs.drop (16 * k)).take 16
    beatOfWords ((e.map fun x => canonWord x.1) ++ e.map Prod.snd)

/-- Top-k merge (R152, mode 6): an entry of `a` comes before an equal entry of `b`. -/
def topkMerge (n : Nat) (a b : List LBeat) : List Beat :=
  candBeats n ((candSort (candsOf a ++ candsOf b)).take (16 * n))

/-- The sum of two AFX frames (R152, mode 3): the accumulators, or the detail and value of the fault met. -/
inductive XsSum where
  | ok (xs : List Acc)
  | format (base : Nat) (second : Bool)
  | range (i : Nat)
  deriving DecidableEq, Repr

/-- Exact sums of accumulators from value `i` on. -/
def xsFold (i : Nat) : List Acc → List Acc → List Acc → XsSum
  | x :: xs, y :: ys, acc => match x.fold y with | some z => xsFold (i + 1) xs ys (z :: acc) | none => .range i
  | _, _, acc => .ok acc.reverse

/-- XS sum of two frames' bytes (R152, R157). -/
def xsSum (a b : List Byte) : XsSum :=
  match ofAfx a, ofAfx b with
  | none, _ => .format (fieldAt a 16 8) false
  | _, none => .format (fieldAt b 16 8) true
  | some x, some y => xsFold 0 x y []

/-- Beats of the AFX image of 32 accumulators (R157). -/
def afxBeats (xs : List Acc) : List Beat := cutBeats 29 (afxImage xs)

/-- Excess beats of an XS frame from its first bytes: its escape mask lies at byte 18 (R44, R157). -/
def xsExcess (first : List Byte) : Nat := ceilDiv (1048 + 80 * popcount 32 (fieldAt first 18 4)) 128 - 9

/-! ### Tagged block frames -/

/-- The frame of `nb` tagged slots (R154), WTAG that of its first wide block (DESIGN CHOICE, log 123); the reserved TAG met, if any. -/
def frameOf (nb : Nat) (slots : List Byte) : Except Nat (List Beat) :=
  let s := (List.range nb).map fun i => bytesAt slots (34 * i) 34
  match s.find? fun b => (ofTag (byteAt b 0)).isNone with
  | some b => .error (byteAt b 0)
  | none =>
    let wide := s.filter fun b => byteAt b 0 != 4
    let mask := packElems 1 (s.map fun b => if byteAt b 0 = 4 then 0 else 1)
    let body := s.flatMap fun b => if byteAt b 0 = 4 then bytesAt b 1 17 else bytesAt b 1 33
    .ok (cutBeats 9 (leBytes 4 mask ++ [BitVec.ofNat 8 ((wide.head?.map fun b => byteAt b 0).getD 0),
      BitVec.ofNat 8 nb, 0, 0] ++ body))

/-- Beats of a frame of `nb` blocks whose first bytes are given (R154). -/
def frameLen (nb : Nat) (first : List Byte) : Nat := frameBeats nb (popcount nb (fieldAt first 0 4))

/-- Is a frame header acceptable for a frame of `nb` blocks (R154)? -/
def frameOk (nb : Nat) (f : List Byte) : Bool :=
  let mask := fieldAt f 0 4
  let tag := byteAt f 4
  byteAt f 5 == nb && fieldAt f 6 2 == 0 && mask < 2 ^ nb &&
    (if mask = 0 then tag == 0 else tag == 8 || tag == 9)

/-- The tagged slots of a frame's blocks (R36, R154). -/
def frameSlots (f : List Byte) : Nat → Nat → Nat → List Byte
  | 0, _, _ => []
  | n + 1, i, o =>
    if bit (fieldAt f 0 4) i then
      BitVec.ofNat 8 (byteAt f 4) :: bytesAt f o 33 ++ frameSlots f n (i + 1) (o + 33)
    else 4 :: padTo 33 (bytesAt f o 17) ++ frameSlots f n (i + 1) (o + 17)

/-! ### Stream geometry -/

/-- Does the stream name the local scratchpad as a source? -/
def RouteDesc.localSrc (d : RouteDesc) : Bool := d.srca == 4 || d.srcb == 4
/-- Has the stream a local source or sink? -/
def RouteDesc.localEnd (d : RouteDesc) : Bool := d.localSrc || d.sink == 4
/-- The source offset o (R109, R156, R157). -/
def RouteDesc.offset (d : RouteDesc) : Nat := if d.localSrc then (if d.frame = 1 then 12 else 6) else 0

/-- Periods of the frames of a framed stream (R156): with a local end anywhere on its path when its beats say so. -/
def Stream.periods (st : Stream) : List Nat :=
  let n := ceilDiv st.nblk 32
  let per (loc : Bool) := (List.range n).map fun f => framePeriod loc st.rsv (frameBlocks st.nblk f)
  if st.d.localEnd then per true
  else if (per false).foldl (· + ·) 0 = st.d.beats then per false else per true

/-! ### Streams that carry XS (R157) -/

/-- Where side `side` of a cluster leads, inside its region or across the boundary (R147, R159): region and cluster. -/
def across (r c side : Nat) : Option (Nat × Nat) :=
  match innerNeighbour c side with
  | some c' => some (r, c')
  | none => (regionNeighbour r side).map fun r' =>
    (r', match side with | 0 => c % 7 | 1 => c / 7 * 7 | 2 => 21 + c % 7 | _ => c / 7 * 7 + 6)

/-- The route descriptors that the bundles among `words` name: words of the descriptor range of the CLUSTERCFG section `cfg`
are no bundles (R181). -/
def routesIn (cfg : List Byte) (words : List (Nat × ProgWord)) (word : Nat → ProgWord) : List RouteDesc :=
  words.filterMap fun e =>
    let link := wbits e.2 255 224
    if bits link 31 28 = 1 ∧ ¬(fieldAt cfg 2 2 ≤ e.1 ∧ e.1 ≤ fieldAt cfg 4 2) then some (RouteDesc.ofWord (word (bits link 26 13)))
    else none

/-- Could a stream of descriptor `x` be a hop of the same XS path as one of descriptor `d` (R150, R157)? -/
def sameXs (d x : RouteDesc) : Bool := x.beats == d.beats && x.frame == 0 && (x.rmode == 0 || x.rmode == 3)

/-- The streams that take what a stream sends on: region, cluster and descriptor. -/
def hopsDown (routes : Nat → Nat → List RouteDesc) (h : Nat × Nat × RouteDesc) : List (Nat × Nat × RouteDesc) :=
  if 4 ≤ h.2.2.sink then []
  else
    match across h.1 h.2.1 h.2.2.sink with
    | none => []
    | some q =>
      let side := oppSide h.2.2.sink
      ((routes q.1 q.2).filter fun x => sameXs h.2.2 x && (x.srca == side || x.srcb == side)).map fun x => (q.1, q.2, x)

/-- The streams that send what a stream takes as SRCA: region, cluster and descriptor. -/
def hopsUp (routes : Nat → Nat → List RouteDesc) (h : Nat × Nat × RouteDesc) : List (Nat × Nat × RouteDesc) :=
  if 4 ≤ h.2.2.srca then []
  else
    match across h.1 h.2.1 h.2.2.srca with
    | none => []
    | some q =>
      ((routes q.1 q.2).filter fun x => sameXs h.2.2 x && x.sink == oppSide h.2.2.srca).map fun x => (q.1, q.2, x)

/-- What decides which streams carry XS (R157): the route descriptors of each cluster, the handles and offsets of its transfers
of port 8 (R105), and whether the image is a single-origin one. -/
structure XsMap where
  routes : Nat → Nat → List RouteDesc
  groups : Nat → Nat → List (Nat × Nat)
  origin : Bool

/-- The handles and offsets that the transfers of port 8 among the bundles `words` name (R105). -/
def groupsIn (cfg : List Byte) (words : List (Nat × ProgWord)) (word : Nat → ProgWord) : List (Nat × Nat) :=
  words.filterMap fun e =>
    let mem := wbits e.2 223 192
    let d := XferDesc.ofWord (word (bits mem 26 13))
    if bits mem 31 28 = 1 ∧ ¬(fieldAt cfg 2 2 ≤ e.1 ∧ e.1 ≤ fieldAt cfg 4 2) ∧ d.kind ≤ 1 ∧ d.port = 8 then some (d.h, d.off)
    else none

/-- Is the local end of a stream where transfers of port 8 keep groups, each in its 3,712 bytes (R105, R157)? -/
def XsMap.keeps (m : XsMap) (h : Nat × Nat × RouteDesc) : Bool :=
  (m.groups h.1 h.2.1).any fun g => g.1 == h.2.2.lh && decide (h.2.2.loff ≤ g.2) && (g.2 - h.2.2.loff) % 3712 == 0

/-- Does the path of a stream that goes down through `h` carry XS there: into an XS sum, or a local sink that keeps groups? -/
def XsMap.down (m : XsMap) (h : Nat × Nat × RouteDesc) : Bool := h.2.2.rmode == 3 || (h.2.2.sink == 4 && m.keeps h)

/-- Does the path of a stream that comes through `h` carry XS from there: out of an XS sum, or a local source of groups? -/
def XsMap.up (m : XsMap) (h : Nat × Nat × RouteDesc) : Bool := h.2.2.rmode == 3 || (h.2.2.srca == 4 && m.keeps h)

/-- Does a stream send to, or take from, another module (R159, R312)? -/
def toEdge (h : Nat × Nat × RouteDesc) : Bool := decide (h.2.2.sink < 4) && (across h.1 h.2.1 h.2.2.sink).isNone
/-- As `toEdge`, of the side that it takes from. -/
def fromEdge (h : Nat × Nat × RouteDesc) : Bool := decide (h.2.2.srca < 4) && (across h.1 h.2.1 h.2.2.srca).isNone

/-- Does following hops from `hs` meet one for which `hit` holds? `n` bounds the hops. -/
def meets (next : Nat × Nat × RouteDesc → List (Nat × Nat × RouteDesc)) (hit : Nat × Nat × RouteDesc → Bool) :
    Nat → List (Nat × Nat × RouteDesc) → Bool
  | 0, _ => false
  | n + 1, hs => !hs.isEmpty && (hs.any hit || meets next hit n (hs.flatMap next).eraseDups)

/-- Does a stream of descriptor `d` at a cluster carry XS (R157): is it an XS sum, or a pass stream on the path to or from one,
or to or from a place of groups, or in a single-origin image from one module through this to another (DEDUCED, log 96)? -/
def carriesXs (m : XsMap) (r c : Nat) (d : RouteDesc) : Bool :=
  let h := (r, c, d)
  d.rmode == 3
  || (d.rmode == 0 && d.frame == 0 && d.beats % 9 == 0
      && (meets (hopsDown m.routes) m.down 2688 [h] || meets (hopsUp m.routes) m.up 2688 [h]
          || (m.origin && meets (hopsDown m.routes) toEdge 2688 [h] && meets (hopsUp m.routes) fromEdge 2688 [h])))

/-! ### What a stream takes next -/

/-- Frame, index within it and period of stream beat `k`, walking periods from frame `f`. -/
def frameAt (f : Nat) : List Nat → Nat → Nat × Nat × Nat
  | [], k => (f, k, 0)
  | p :: ps, k => if k < p then (f, k, p) else frameAt (f + 1) ps (k - p)

/-- Stream beat index of frame `f`'s start (R156). -/
def frameStart (ps : List Nat) (f : Nat) : Nat := (ps.take f).foldl (· + ·) 0

/-- The stream beat that is taken in schedule cycle `n`, if any (R109, R149). -/
def Stream.takes (st : Stream) (n : Nat) : Option Nat :=
  let t := st.issue + st.d.offset
  if t ≤ n ∧ n < t + st.d.beats then some (n - t) else none

/-- The schedule cycle in which a stream delivers its beat `k` (R109, R156, R157). -/
def Stream.delivers (st : Stream) (k : Nat) : Nat :=
  st.issue + 2 + st.d.offset + k + (if st.d.frame = 1 then 0 else routeLatency st.d.rmode) + (if st.d.rmode = 3 then 9 else 0)

/-- The last schedule cycle of a stream: its last delivery, or the last write of a framed local sink (R109, R156). -/
def Stream.ends (st : Stream) : Nat :=
  if st.d.frame = 1 ∧ st.d.sink = 4 then
    st.issue + st.d.offset + st.d.beats + 2 + frameLocal (frameBlocks st.nblk (ceilDiv st.nblk 32 - 1))
  else st.delivers (st.d.beats - 1)

/-- Does beat `k` take a beat from SRCB (R151)? -/
def Stream.takesB (st : Stream) (k : Nat) : Bool := st.d.srcb != 0xFF && (st.d.rmode != 2 || k % 2 == 0)

/-- The byte offset in its handle of beat `k` at a local end (R108, R157). -/
def Stream.localOff (st : Stream) (k : Nat) : Nat :=
  if st.xs then st.d.loff + 3712 * (k / 9) + 128 * (k % 9) else st.d.loff + 128 * k

/-- What a flow takes: the beat of stream index `k`, or excess beat `j`, from 1 on, of the frame whose period ended with
index `k` (R157, R158). -/
structure Take where
  k : Nat
  j : Nat
  deriving DecidableEq, Repr

/-- The take of a flow in schedule cycle `t`, if any, of a stream of `beats` beats whose first is taken in cycle `first`
(R149, R158). -/
def Flow.take (f : Flow) (first beats t : Nat) : Option Take :=
  if t + f.adv < first then none
  else if 0 < f.x then some ⟨f.k - 1, f.y + 1⟩
  else if f.k < beats then some ⟨f.k, 0⟩
  else none

/-- The flow after a take; `exc` is the number of excess beats of a frame whose period this beat ends. -/
def Flow.next (f : Flow) (exc : Nat) : Flow :=
  if 0 < f.x then { f with x := f.x - 1, y := f.y + 1 } else { f with k := f.k + 1, x := exc, y := 0 }

/-- The flow of a source (R157): only an XS sum takes its sources apart. -/
def Stream.flow (st : Stream) (second : Bool) : Flow := if second && st.d.rmode == 3 then st.fb else st.fa

/-- The take that a source of the stream makes in cycle `t`, if any (R149, R151, R158). -/
def Stream.take (st : Stream) (second : Bool) (t : Nat) : Option Take :=
  match (st.flow second).take (st.issue + st.d.offset) st.d.beats t with
  | none => none
  | some q => if second && !(q.j == 0 && st.takesB q.k || st.d.rmode == 3) then none else some q

/-- Does the frame whose period holds index `k`, first beat `b`, fill a beat at that take (R156)? -/
def Stream.fills (st : Stream) (q : Take) (b : Option LBeat) : Bool :=
  if st.d.frame = 1 ∧ q.j = 0 then
    let p := frameAt 0 st.periods q.k
    p.2.1 == 0 || (match b with | some b => decide (p.2.1 < frameLen (frameBlocks st.nblk p.1) (beatBytes b.data)) | none => false)
  else true

/-- Does stream index `k` begin a frame (R156, R157)? -/
def Stream.begins (st : Stream) (k : Nat) : Bool :=
  if st.d.frame = 1 then (frameAt 0 st.periods k).2.1 == 0 else st.xs && k % 9 == 0

/-- Does stream index `k` end a frame's period (R156, R157)? -/
def Stream.closes (st : Stream) (k : Nat) : Bool :=
  if st.d.frame = 1 then (let p := frameAt 0 st.periods k; p.2.1 + 1 == p.2.2) else st.xs && k % 9 == 8

/-- Excess beats of the frame, first beat `b`, whose period ends with index `k` (R157, R158). -/
def Stream.excess (st : Stream) (k : Nat) (b : Option LBeat) : Nat :=
  match b with
  | none => 0
  | some b =>
    if st.d.frame = 1 then
      let p := frameAt 0 st.periods k
      frameLen (frameBlocks st.nblk p.1) (beatBytes b.data) - p.2.2
    else xsExcess (beatBytes b.data)

namespace State

/-- RSV and NBLK of the enabled frame-table entry of a route descriptor (R155). -/
def frameEntry (s : State) (r c raddr : Nat) : Nat × Nat :=
  match (List.range 32).find? fun i => s.flag (Rg.FRTAB_LO_EN r c i) && s.fld (Rg.FRTAB_LO_DADDR r c i) == raddr with
  | some i => (s.fld (Rg.FRTAB_LO_RSV r c i), s.fld (Rg.FRTAB_HI_NBLK r c i))
  | none => (0, 0)

/-- The route descriptors of a cluster's program. -/
def routeDescs (s : State) (r c : Nat) : List RouteDesc :=
  routesIn (s.clusterSection 0x13 r c) ((s.cluster r c).prog.map fun e => (e.1, progData e.2)) (s.progPeek r c)

/-- What decides which streams of the loaded programs carry XS (R157). -/
def xsMap (s : State) : XsMap :=
  ⟨s.routeDescs, fun r c => groupsIn (s.clusterSection 0x13 r c) ((s.cluster r c).prog.map fun e => (e.1, progData e.2)) (s.progPeek r c),
   s.origin⟩

/-- The stream that a ROUTE of the descriptor `w` at `raddr` starts in cycle `n` (R107, R108). -/
def newStream (s : State) (r c raddr : Nat) (w : ProgWord) (form : Bool) (n bundle : Nat) : Stream :=
  let fe := s.frameEntry r c raddr
  let d := RouteDesc.ofWord w
  Stream.start d raddr form n bundle fe.1 fe.2 (carriesXs s.xsMap r c d)

/-- Handle words, as bank rows, of `n` words from byte offset `off`. -/
def handleKeys (s : State) (r c h off n : Nat) : List Nat :=
  (List.range n).map fun i => s.handleWord r c h (off / 8 + i)

/-- A region asks for a stall (R80, R158). -/
def askStall (s : State) (r : Nat) (q : StallReq) : State :=
  if q.len = 0 then s else s.modRegion r fun g => { g with stallReqs := g.stallReqs ++ [q] }

/-- The beat that a local source has at byte offset `off`, read in cycle `n`: none when a word of it is uncorrectable (R131). -/
def localBeat (s : State) (r c : Nat) (st : Stream) (off n : Nat) : List LBeat × State :=
  match s.spReads r c st.d.lh st.bundle 5 n (s.handleKeys r c st.d.lh off 16) with
  | (none, s) => ([], s)
  | (some ws, s) => ([LBeat.ofBeat (beatOfDWords ws)], s)

/-- Reads of a framed local source in schedule cycle `n` (R156): the frame is formed with the last read of its group. -/
def frameRead (s : State) (r c : Nat) (st : Stream) (n : Nat) : Stream × State :=
  let k := n - st.issue
  let ps := st.periods
  let p := frameAt 0 ps k
  let nb := frameBlocks st.nblk p.1
  let l := frameLocal nb
  if k < st.d.beats ∧ p.2.1 < l then
    let cnt := Nat.min 24 (ceilDiv (34 * nb) 8 - 24 * p.2.1)
    match s.spReads r c st.d.lh st.bundle 5 n (s.handleKeys r c st.d.lh (st.d.loff + 1088 * p.1 + 192 * p.2.1) cnt) with
    | (none, s) => (st, s)
    | (some ws, s) =>
      let part := st.part ++ ofWords ws
      if p.2.1 + 1 < l then ({ st with part := part }, s)
      else
        match frameOf nb part with
        | .error t => ({ st with part := [] }, s.addPend r c [⟨n + 6, st.bundle, 5, .format 1 t (0x2000 + st.d.lh)⟩])
        | .ok bs =>
          let bs := bs.map LBeat.ofBeat
          let s0 := frameStart ps p.1
          let head := (List.range (Nat.min bs.length p.2.2)).map fun i =>
            (s0 + i, if i + 1 = p.2.2 then bs.drop i else (bs.drop i).take 1)
          ({ st with part := [], held := st.held ++ head }, s)
  else (st, s)

/-- Reads of a local source in schedule cycle `n` (R109, R156, R157). -/
def streamRead (s : State) (r c : Nat) (st : Stream) (n : Nat) : Stream × State :=
  let k := n - st.issue
  if !st.d.localSrc || n < st.issue then (st, s)
  else if st.d.frame = 1 then s.frameRead r c st n
  else
    let second := st.d.srcb == 4
    if k < st.d.beats ∧ (!second || st.takesB k) then
      let x := s.localBeat r c st (st.localOff (if second && st.d.rmode == 2 then k / 2 else k)) n
      ({ st with held := st.held ++ [(k, x.1)] }, x.2)
    else (st, s)

/-- A beat that the stream takes from link side `src` in cycle `t`, checked before any stream takes it (R148, R149): none when
the region has halted. A link that carries nothing yields a free value, or no beat in a framed stream. -/
def linkBeat (s : State) (r c : Nat) (st : Stream) (src t : Nat) : Option (List LBeat) × State :=
  match (s.cluster r c).inb.find? fun b => b.side == src && b.at_ == t with
  | some b =>
    match s.linkCheck r c src st.bundle b.beat with
    | (x, s) =>
      (x.map fun b => [b], s.modCluster r c fun k =>
        { k with inb := k.inb.filterMap fun e => if e.side = src ∧ e.at_ = t then x.map fun b => { e with beat := b } else some e })
  | none =>
    if st.d.frame = 1 then (some [], s)
    else let v := s.fresh 1024; (some [LBeat.ofBeat (BitVec.ofNat 1024 v.1)], v.2)

/-- An excess beat that an XS stream reads from its local source as it moves, in a stall ACLK after cycle `t` (R157, R191). -/
def excessRead (s : State) (r c : Nat) (st : Stream) (q : Take) (t : Nat) : List LBeat × State :=
  (s.count (Rg.STALL_AU r) 16).localBeat r c st (st.localOff q.k + 128 * q.j) t

/-- The beat of a take from source `src` in cycle `t` (R149, R158): none when the region has halted. -/
def takeFrom (s : State) (r c : Nat) (st : Stream) (src t : Nat) (q : Take) : Option (List LBeat) × State :=
  if src = 4 then
    if q.j ≠ 0 ∧ st.d.frame = 0 then let x := s.excessRead r c st q t; (some x.1, x.2)
    else (some (((((st.held.find? fun e => e.1 == q.k).map Prod.snd).getD []).drop q.j).take 1), s)
  else if st.fills q st.takenA.head? then s.linkBeat r c st src t
  else (some [], s)

/-- Beats held of the local source once index `k` is past. -/
def heldAfter (st : Stream) (k : Nat) : List (Nat × List LBeat) := st.held.filter fun e => decide (k ≤ e.1)

/-- Words of an excess beat reach the local sink: their bank accesses are made at once, beside the schedule's (R157, R191). -/
def excessWrite (s : State) (r c : Nat) (st : Stream) (q : Take) (t : Nat) (b : LBeat) : State :=
  let keys := s.handleKeys r c st.d.lh (st.localOff q.k + 128 * q.j) 16
  (List.zip keys (beatDWords b.data)).foldl (fun s e =>
    let x := s.spCell r c e.1 e.2
    x.2.addPend r c [⟨t + 4, st.bundle, 5, .spVisible e.1 x.1⟩]) (s.count (Rg.STALL_AU r) 16)

/-- A beat leaves the stream for its sink (R109): to a link it is delivered in cycle `due`; the bank accesses of a local
sink fall in the cycle that the schedule gives its index. -/
def sendOn (s : State) (r c : Nat) (st : Stream) (q : Take) (t due : Nat) : List LBeat → State
  | [] => s
  | b :: _ =>
    if st.d.sink ≠ 4 then s.addPend r c [⟨due, st.bundle, 5, .deliver st.d.sink b q.k st.form st.issue⟩]
    else if q.j ≠ 0 then s.excessWrite r c st q t b
    else
      s.addPend r c (List.zipWith (fun a w => ⟨st.delivers q.k, st.bundle, 5, .spAccess a w⟩)
        (s.handleKeys r c st.d.lh (st.localOff q.k) 16) (beatDWords b.data))

/-- The QH value of the source a format fault names (R204). -/
def srcQh (st : Stream) (second : Bool) : Nat :=
  let src := if second then st.d.srcb else st.d.srca
  if src = 4 then 0x2000 + st.d.lh else 0x6000 + src

/-- Does source `src` of cluster `c` enter the region or the wafer's links there: the local scratchpad, or a queue (R158)? -/
def entersAt (c src : Nat) : Bool := decide (4 ≤ src) || (innerNeighbour c src).isNone

/-- A frame's period has ended with excess beats to come (R158): where the frame enters the region's links, the region stalls
for them on the next schedule cycle. -/
def excessAsk (s : State) (r c : Nat) (st : Stream) (second : Bool) (t exc : Nat) : State :=
  if entersAt c (if second then st.d.srcb else st.d.srca) then
    s.askStall r ⟨t + 1, exc, 0, some (c, st.issue, if second then 1 else 0)⟩
  else s

/-- An excess beat of a frame that the cluster sends on a link, from its scratchpad or as the output of an XS sum, is counted
(R82, R158; log 96). -/
def excessCount (s : State) (r c : Nat) (st : Stream) (q : Take) : State :=
  if q.j ≠ 0 ∧ (st.d.srca = 4 ∨ st.d.rmode = 3) ∧ st.d.sink ≠ 4 then s.count (Rg.XBEAT_COUNT r c) 1 else s

/-- A framed local sink writes the group whose frame is whole (R156): `q` is its last beat. It alone looks at the header, and AUX of the
fault is WMASK (DESIGN CHOICE, log 123). -/
def frameSink (s : State) (r c : Nat) (st : Stream) (q : Take) (got : List LBeat) : State :=
  let p := frameAt 0 st.periods q.k
  let f := beatsBytes got
  let nb := frameBlocks st.nblk p.1
  if frameOk nb f then
    let ws := toWords 136 (frameSlots f nb 0 8)
    let keys := s.handleKeys r c st.d.lh (st.d.loff + 1088 * p.1) ws.length
    s.addPend r c ((List.zip keys ws).zipIdx.map fun e =>
      ⟨st.issue + st.d.offset + q.k + 4 + e.2 / 24, st.bundle, 5, .spAccess e.1.1 e.1.2⟩)
  else
    s.raise r { code := 0x20B, cluster := c, bundle := st.bundle, slot := 5, qh := srcQh st false, detail := 4,
                aux := fieldAt f 0 4 }

/-- A pass stream that carries frames after it has taken a beat in cycle `t` (R156 to R158). -/
def frameStep (s : State) (r c : Nat) (st : Stream) (t : Nat) (q : Take) (a : List LBeat) : Stream × State :=
  let got := (if q.j = 0 ∧ st.begins q.k then [] else st.takenA) ++ a
  let exc := if q.j = 0 ∧ st.closes q.k then st.excess q.k got.head? else 0
  let st' := { st with fa := st.fa.next exc, takenA := got, held := heldAfter st q.k }
  let s := (s.excessCount r c st q).excessAsk r c st false t exc
  if st.d.frame = 1 ∧ st.d.sink = 4 then
    (st', if st.closes q.k ∧ st'.fa.x = 0 then s.frameSink r c st q got else s)
  else (st', s.sendOn r c st q t (t + 2 + routeLatency 0) a)

/-- An XS sum takes a beat of one of its sources in cycle `t`, if one is due (R157): a whole group is held until its
partner's. -/
def xsTake (s : State) (r c : Nat) (st : Stream) (second : Bool) (t : Nat) : Stream × State :=
  match st.take second t with
  | none => (st, s)
  | some q =>
    match s.takeFrom r c st (if second then st.d.srcb else st.d.srca) t q with
    | (none, s) => (st, s)
    | (some a, s) =>
      let got := (if q.j = 0 ∧ st.begins q.k then [] else if second then st.takenB else st.takenA) ++ a
      let exc := if q.j = 0 ∧ st.closes q.k then st.excess q.k got.head? else 0
      let f := (st.flow second).next exc
      let s := s.excessAsk r c st second t exc
      let done := if st.closes q.k ∧ f.x = 0 then [got] else []
      (if second then { st with fb := f, takenB := got, doneB := st.doneB ++ done,
                                held := if st.d.srcb = 4 then heldAfter st q.k else st.held }
       else { st with fa := f, takenA := got, doneA := st.doneA ++ done,
                      held := if st.d.srca = 4 then heldAfter st q.k else st.held }, s)

/-- An XS sum that holds a whole group of each source (R157): the canonical sum leaves from the cycle that the schedule gives
it, and its excess beats in the stall after the group's period (R158). -/
def xsSend (s : State) (r c : Nat) (st : Stream) : Stream × State :=
  match st.doneA, st.doneB with
  | a :: as, b :: bs =>
    match xsSum (beatsBytes a) (beatsBytes b) with
    | .format v second =>
      (st, s.raise r { code := 0x20B, cluster := c, bundle := st.bundle, slot := 5, qh := srcQh st second, detail := 3,
                       aux := v % 2 ^ 32 })
    | .range i => (st, s.raise r { code := 0x20A, cluster := c, bundle := st.bundle, slot := 5, detail := i })
    | .ok xs =>
      let out := (afxBeats xs).map LBeat.ofBeat
      let k0 := 9 * st.sums
      let s := (out.take 9).zipIdx.foldl (fun s e =>
        s.sendOn r c st ⟨k0 + e.2, 0⟩ 0 (st.delivers (k0 + e.2)) [e.1]) s
      ({ st with doneA := as, doneB := bs, sums := st.sums + 1, outs := st.outs ++ (out.drop 9).zipIdx.map fun e => (k0 + 8, e.2 + 1, e.1) },
       s.askStall r ⟨st.issue + st.d.offset + k0 + 18, out.length - 9, 0, some (c, st.issue, 2)⟩)
  | _, _ => (st, s)

/-- An XS sum sends an excess beat of its output in a stall ACLK after cycle `t` (R158). -/
def xsExcessOut (s : State) (r c : Nat) (st : Stream) (t : Nat) : Stream × State :=
  match st.outs with
  | [] => (st, s)
  | e :: es =>
    ({ st with outs := es },
     (s.excessCount r c st ⟨e.1, e.2.1⟩).sendOn r c st ⟨e.1, e.2.1⟩ t (t + 2 + routeLatency 3) [e.2.2])

/-- A top-k stream after it has taken beat `k` in cycle `t` (R152): the merged list leaves once both lists are held. -/
def topkStep (s : State) (r c : Nat) (st : Stream) (t k : Nat) (a b : List LBeat) : Stream × State :=
  let ga := st.takenA ++ a
  let gb := st.takenB ++ b
  let st' := { st with fa := st.fa.next 0, takenA := ga, takenB := gb, held := heldAfter st (k + 1) }
  if k + 1 ≠ st.d.beats then (st', s)
  else
    (st', (topkMerge st.d.beats ga gb).zipIdx.foldl
      (fun s e => s.sendOn r c st ⟨e.2, 0⟩ t (st.delivers e.2) [LBeat.ofBeat e.1]) s)

/-- What a stream other than an XS sum does with the beats it took in cycle `t` (R152). -/
def streamMake (s : State) (r c : Nat) (st : Stream) (t : Nat) (q : Take) (a b : List LBeat) : Stream × State :=
  let due := t + 2 + routeLatency st.d.rmode
  let st' := { st with fa := st.fa.next 0, held := heldAfter st (q.k + 1) }
  if st.d.frame = 1 ∨ st.xs then s.frameStep r c st t q a
  else
    match st.d.rmode with
    | 0 => (st', s.sendOn r c st q t due a)
    | 6 => s.topkStep r c st t q.k a b
    | 2 =>
      let b2 := if q.k % 2 = 0 then b else st.takenB
      ({ st' with takenB := b2 },
       s.sendOn r c st q t due (List.zipWith (fun x y => LBeat.ofBeat (reduceBeat 2 q.k x.data y.data)) a b2))
    | m =>
      (st', s.sendOn r c st q t due (List.zipWith (fun x y => LBeat.ofBeat (reduceBeat m q.k x.data y.data)) a b))

/-- A move of a stream in cycle `t` (R109, R149, R158): `ma` and `mb` say which of an XS sum's sources move, and `mo` that an
excess beat of its output does; other streams move as `ma` says. -/
def streamMove (s : State) (r c : Nat) (st : Stream) (t : Nat) (ma mb mo : Bool) : Stream × State :=
  if st.d.rmode = 3 then
    let x := if ma then s.xsTake r c st false t else (st, s)
    let x := if mb then x.2.xsTake r c x.1 true t else x
    let x := x.2.xsSend r c x.1
    if mo then x.2.xsExcessOut r c x.1 t else x
  else if !ma then (st, s)
  else
    match st.take false t with
    | none => (st, s)
    | some q =>
      match s.takeFrom r c st st.d.srca t q with
      | (none, s) => (st, s)
      | (some a, s) =>
        match (if (st.take true t).isSome then s.takeFrom r c st st.d.srcb t q else (some [], s)) with
        | (none, s) => (st, s)
        | (some b, s) => s.streamMake r c st t q a b

/-- Has the stream taken every beat and sent every excess beat? -/
def streamOver (st : Stream) : Bool :=
  decide (st.d.beats ≤ st.fa.k) && st.fa.x == 0
  && (st.d.rmode != 3 || (decide (st.d.beats ≤ st.fb.k) && st.fb.x == 0 && st.outs.isEmpty))

end State
end Sys2Proof.Machine
end

