-- ==== Sys2Proof/Machine/Xfer.lean ====
section
/-!
DEFINITION. The MEM path: the rows of a transfer (R106, R130, R139 to R141), the ports of R105 and what one schedule
cycle moves; the landing of effects (R87); and which queue operations are due in a cycle (R110).
-/
namespace Sys2Proof.Machine

/-- First byte of activation buffer `p` (ports 0 to 3, R105). -/
def bufBase (p : Nat) : Nat := [0, 0x10000, 0x20000, 0x28000].getD p 0

/-- Bank rows of a range of `n` words from word `w0` under interleave `il` (R139); none for an empty range. -/
def rowCount (il w0 n : Nat) : Nat := if n = 0 then 0 else (w0 + n - 1) / il - w0 / il + 1

/-- The words of bank row `k` of a range (R106). -/
def rowWords (il w0 n k : Nat) : List Nat :=
  (List.range n).filterMap fun i => if (w0 + i) / il = w0 / il + k then some (w0 + i) else none

/-- Scratchpad words per row and the number of rows of a MEM operation: of the range it names, or of the whole span
for a release (R139, R141). -/
def MemOp.range (m : MemOp) (h : Handle) : Nat × Nat := if m.rel then (0, h.lenw) else (m.d.off / 8, m.d.len / 8)

/-- The rows a MEM operation moves (R106, R139). -/
def MemOp.rows (m : MemOp) (h : Handle) : Nat :=
  let p := m.range h
  rowCount h.il p.1 p.2

/-- Is the operation one that reads the scratchpad: a transfer of kind 0, 3 or 4 (R106, R140, R223)? -/
def MemOp.reads (m : MemOp) : Bool := !m.rel && (m.d.kind == 0 || m.d.kind == 3 || m.d.kind == 4)

/-- The cycle, from its issue, in which a MEM operation accesses its first row: a DMA command accesses its argument word
before (log 21). -/
def MemOp.lead (m : MemOp) : Nat := if !m.rel ∧ m.d.kind = 4 then 2 else 1

/-- Does the operation push words into a queue as they leave the scratchpad: the SMPQ or a DMA command (R106, R223)? -/
def MemOp.pushes (m : MemOp) : Bool := !m.rel && (m.d.kind == 4 || (m.d.kind == 0 && m.d.port == 9))

/-- The last cycle of a MEM operation on its path (R106, R141): that of its last row, or of the last push that follows
(DEDUCED, log 122). -/
def MemOp.last (m : MemOp) (h : Handle) : Nat := m.issue + m.lead - 1 + m.rows h + (if m.pushes then 6 else 0)

namespace State

/-- The lanes of register `reg` of context `ctx` (R71). -/
def vreg (s : State) (r c ctx reg : Nat) : Lanes := Store.getMany 0 (s.cluster r c).vregs ((ctx * 32 + reg) * 256) 256

/-- Accumulator `i` of the file (R67). -/
def acc (s : State) (r c i : Nat) : Acc := Store.get Acc.reset (s.cluster r c).accs (i % 256)

/-- The bytes that a port holds (R105), with CVT. -/
def portSize (port cvt : Nat) : Nat :=
  match port with
  | 0 | 1 => 0x10000
  | 2 | 3 => 0x8000
  | 4 => if cvt = 1 then 2048 else 4096
  | 5 => if cvt = 1 then 4096 else 8192
  | 6 => 1024
  | 7 => 22528
  | 8 => 3608
  | _ => 0

/-- The image of accumulators `a0` on, `n` of them, as 88-byte records (R70). -/
def afrImage (s : State) (r c acc0 a0 n : Nat) : List Byte :=
  (List.range n).flatMap fun a => accRecord (s.acc r c (acc0 + a0 + a))

/-- The AFX image of accumulators ACC0 to ACC0 + 31, zero beyond the group's length (R105). -/
def afxOf (s : State) (r c acc0 : Nat) : List Byte := padTo 3608 (afxImage ((List.range 32).map fun a => s.acc r c (acc0 + a)))

/-- Bytes `o` to `o + n - 1` of the image that a port presents to a read (R105), as far as the port has them. -/
def portSlice (s : State) (r c : Nat) (d : XferDesc) (o n : Nat) : List Byte :=
  let k := s.cluster r c
  let n := Nat.min n (portSize d.port d.cvt - o)
  let blend (m : List (Nat × Word)) : List Byte :=
    if d.cvt = 1 then
      (((Store.getMany 0 m (o / 2) (n / 2 + 1)).flatMap fun w => leBytes 2 (roundF bf16 (f32 w))).drop (o % 2)).take n
    else (((Store.getMany 0 m (o / 4) (n / 4 + 2)).flatMap fun w => leBytes 4 w.toNat).drop (o % 4)).take n
  match d.port with
  | 4 => blend k.pacc
  | 5 => blend k.qacc
  | 6 => bytesAt (lanesBytes (s.vreg r c (d.vsel / 64) (d.vsel % 32))) o n
  | 7 => bytesAt (s.afrImage r c d.acc0 (o / 88) (n / 88 + 2)) (o % 88) n
  | _ => bytesAt (s.afxOf r c d.acc0) o n

/-- The words that a row reads from bytes `o` to `o + 8 × n - 1` of its port; a byte beyond the port is a free value
(log 95). -/
def portRow (s : State) (r c : Nat) (d : XferDesc) (o n : Nat) : List DWord × State :=
  let bs := s.portSlice r c d o (8 * n)
  if bs.length = 8 * n then (toWords n bs, s)
  else
    let v := s.fresh (8 * (8 * n - bs.length))
    (toWords n (bs ++ leBytes (8 * n - bs.length) v.1), v.2)

/-- An image with bytes `bs` in it from byte `o` on. -/
def overlay (img : List Byte) (o : Nat) (bs : List Byte) : List Byte :=
  img.zipIdx.map fun e => if o ≤ e.2 then bs.getD (e.2 - o) e.1 else e.1

/-- The name of a port in `Cluster.from_`: a buffer half, or a vector register. -/
def portName (port sel : Nat) : Nat := if port ≤ 3 then port else 4 + (sel / 64) * 32 + sel % 32

/-- Bytes arrive at a port from byte `o` on (R105): those beyond the port are lost (log 95). -/
def portLand (s : State) (r c port sel o h : Nat) (bs : List Byte) : State :=
  let bs := bs.take (portSize port 0 - o)
  if port ≤ 3 then
    s.modCluster r c fun k =>
      { k with abuf := Store.setMany 0 k.abuf (bufBase port + o) bs, from_ := Store.put k.from_ (portName port sel) h }
  else if port = 6 then
    let key := ((sel / 64) * 32 + sel % 32) * 256
    let img := overlay (lanesBytes (s.vreg r c (sel / 64) (sel % 32))) o bs
    s.modCluster r c fun k =>
      { k with vregs := Store.setMany 0 k.vregs key (bytesLanes 256 img), from_ := Store.put k.from_ (portName port sel) h }
  else
    let a0 := o / 88
    let n := ceilDiv (o % 88 + bs.length) 88
    let img := overlay (s.afrImage r c sel a0 n) (o % 88) bs
    s.modCluster r c fun k =>
      { k with accs := (List.range n).foldl (fun m a =>
          Store.set Acc.reset m ((sel + a0 + a) % 256) (ofAccRecord (bytesAt img (88 * a) 88))) k.accs }

/-- The effect of words arriving at a port from byte `o` on (R105), in cycle `due`. -/
def portWrite (m : MemOp) (due o : Nat) (ws : List DWord) : Pend :=
  ⟨due, m.bundle, 4, .port m.d.port (if m.d.port = 7 then m.d.acc0 else m.d.vsel) o m.d.h (ofWords ws)⟩

/-- The effects of the whole data of a transfer to port 8 (R70, R105), in cycle `due`: the accumulators, or the format fault of
a refused group (R45). -/
def afxLoad (s : State) (r c : Nat) (m : MemOp) (due : Nat) (bs : List Byte) : List Pend :=
  let img := if m.d.off2 = 0 then bs else overlay (s.afxOf r c m.d.acc0) m.d.off2 bs
  match ofAfx img with
  | none => [⟨due, m.bundle, 4, .format 3 (fieldAt img 16 8 % 2 ^ 32) (0x2000 + m.d.h)⟩]
  | some xs => xs.zipIdx.map fun e => ⟨due, m.bundle, 4, .accSet ((m.d.acc0 + e.2) % 256) e.1⟩

/-- Words of the completion queue popped for a row: the data, or the fault word met first. -/
def dmaPop : Nat → List DmaWord → Except (Nat × Nat × Nat × Nat) (List DWord × List DmaWord)
  | 0, q => .ok ([], q)
  | n + 1, .data w :: q => match dmaPop n q with | .ok r => .ok (w :: r.1, r.2) | .error e => .error e
  | _ + 1, .bad a b c d :: _ => .error (a, b, c, d)
  | _ + 1, [] => .ok ([], [])

/-- Words of cluster `c`'s SMPR queue (R266). -/
def smprWords (s : State) (r c : Nat) : List DWord :=
  (s.region r).smpr.filterMap fun e => if e.1 = c then some e.2 else none

/-- The first `n` words of cluster `c`'s SMPR queue are taken. -/
def smprDrop (c : Nat) : Nat → List (Nat × DWord) → List (Nat × DWord)
  | _, [] => []
  | 0, q => q
  | n + 1, e :: q => if e.1 = c then smprDrop c n q else e :: smprDrop c (n + 1) q

/-- The words of row `k` of an operation, as word numbers of its handle, and the index of the first among those it moves. -/
def memWords (s : State) (r c : Nat) (m : MemOp) (k : Nat) : List Nat × Nat :=
  let h := s.handle r c m.d.h
  let p := m.range h
  let ws := rowWords h.il p.1 p.2 k
  (ws, ws.headD p.1 - p.1)

/-- Row `k` of an operation that reads the scratchpad: kinds 0, 3 and 4 (R106, R140, R223). -/
def memReadRow (s : State) (r c : Nat) (m : MemOp) (n k : Nat) : MemOp × State :=
  let ws := s.memWords r c m k
  match s.spReads r c m.d.h m.bundle 4 n (ws.1.map (s.handleWord r c m.d.h)) with
  | (none, s) => (m, s)
  | (some data, s) =>
    if m.d.kind = 3 then
      let keys := (List.range data.length).map fun i => s.handleWord r c m.d.h2 (m.d.off2 / 8 + ws.2 + i)
      (m, s.addPend r c (List.zipWith (fun a w => ⟨n + 6, m.bundle, 4, .spAccess a w⟩) keys data))
    else if m.d.kind = 4 ∨ m.d.port = 9 then ({ m with buf := m.buf ++ ofWords data }, s)
    else if m.d.port = 8 then
      let m := { m with buf := m.buf ++ ofWords data }
      if k + 1 < m.rows (s.handle r c m.d.h) then (m, s) else (m, s.addPend r c (s.afxLoad r c m (n + 6) m.buf))
    else (m, s.addPend r c [portWrite m (n + 6) (m.d.off2 + 8 * ws.2) data])

/-- Row `k` of an operation that writes the scratchpad: kinds 1, 2 and 5, and the release (R106, R139, R141, R224). -/
def memWriteRow (s : State) (r c : Nat) (m : MemOp) (n k : Nat) : MemOp × State :=
  let ws := s.memWords r c m k
  let keys := ws.1.map (s.handleWord r c m.d.h)
  let put (s : State) (data : List DWord) : State :=
    s.addPend r c (List.zipWith (fun a w => ⟨n, m.bundle, 4, .spAccess a w⟩) keys data)
  if m.rel then (m, s.addPend r c (keys.map fun a => ⟨n + 1, m.bundle, 4, .spClear a⟩))
  else if m.d.kind = 2 then (m, put s (keys.map fun _ => m.d.const))
  else if m.d.kind = 5 then
    match dmaPop keys.length (s.cluster r c).dmaDone with
    | .error (code, det, aux, b) =>
      (m, s.raise r { code := code, cluster := c, bundle := b, slot := 4, qh := 0xA001, detail := det, aux := aux })
    | .ok (data, q) => (m, put (s.modCluster r c fun x => ({ x with dmaDone := q } : Cluster).dmaFill) data)
  else if m.d.port = 10 then
    let data := (s.smprWords r c).take keys.length
    (m, put (s.modRegion r fun g => { g with smpr := smprDrop c keys.length g.smpr }) data)
  else
    let v := s.portRow r c m.d (m.d.off2 + 8 * ws.2) keys.length
    (m, put v.2 v.1)

/-- The argument word of a DMA command is accessed in the cycle after its issue (R223): it comes first among the bytes held. -/
def argRead (s : State) (r c : Nat) (m : MemOp) (n : Nat) : MemOp × State :=
  match s.spReads r c m.d.h2 m.bundle 4 n [s.handleWord r c m.d.h2 (m.d.off2 / 8)] with
  | (none, s) => (m, s)
  | (some a, s) => ({ m with buf := ofWords a }, s)

/-- The push of an operation that is due in cycle `n`: the index of its first word among those pushed, and its words. A word
reaches the queue six cycles after its access (R106, R130); the argument word of a DMA command has index 0. -/
def pushAt (s : State) (r c : Nat) (m : MemOp) (n : Nat) : Option (Nat × Nat) :=
  if !m.pushes then none
  else if m.d.kind = 4 ∧ n = m.issue + 7 then some (0, 1)
  else
    let t := m.issue + m.lead + 6
    if t ≤ n ∧ n - t < m.rows (s.handle r c m.d.h) then
      let ws := s.memWords r c m (n - t)
      some (ws.2 + (if m.d.kind = 4 then 1 else 0), ws.1.length)
    else none

/-- Words of the write-data buffer in use: those of waiting commands, and those of a command still being pushed (R223). -/
def writeBuf (s : State) (r c n : Nat) : Nat :=
  let k := s.cluster r c
  (k.dmaCmd.map fun d => d.data.length).foldl (· + ·) 0
    + (k.mem.map fun m => if m.d.kind = 4 ∧ !m.rel ∧ m.issue + 8 ≤ n then
        match s.pushAt r c m n with | some p => p.1 - 1 | none => 0 else 0).foldl (· + ·) 0

/-- Has the queue room for the push of an operation in cycle `n` (R110, R223, R266)? -/
def pushFits (s : State) (r c : Nat) (m : MemOp) (n : Nat) (p : Nat × Nat) : Bool :=
  if m.d.kind = 4 then
    if p.1 = 0 then decide ((s.cluster r c).dmaCmd.length < 64) else decide (s.writeBuf r c n + p.2 ≤ 4096)
  else decide ((s.region r).smpq.length + p.2 ≤ 66 * Config.samplerDepth)

/-- The pushes of an operation in cycle `n`: words into the SMPQ as they come; a DMA command whole, with its last word (R223). -/
def pushWords (s : State) (r c : Nat) (m : MemOp) (n : Nat) : MemOp × State :=
  match s.pushAt r c m n with
  | none => (m, s)
  | some p =>
    if m.d.kind = 4 then
      if n < m.last (s.handle r c m.d.h) then (m, s)
      else
        let ws := toWords (m.buf.length / 8 + 1) m.buf
        (m, s.modCluster r c fun k => { k with dmaCmd := k.dmaCmd ++ [⟨ws.headD 0, m.d.const, ws.drop 1, m.bundle⟩] })
    else
      ({ m with buf := m.buf.drop (8 * p.2) }, s.modRegion r fun g => { g with smpq := g.smpq ++ toWords p.2 m.buf })

/-- The row of the scratchpad that an operation accesses in cycle `n`, if any (R130). -/
def memRowAt (s : State) (r c : Nat) (m : MemOp) (n : Nat) : Option Nat :=
  let t := m.issue + m.lead
  if t ≤ n ∧ n - t < m.rows (s.handle r c m.d.h) then some (n - t) else none

/-- One operation of the MEM path in schedule cycle `n` (R106, R130): it stays until its last cycle. -/
def memStep (s : State) (r c n : Nat) (m : MemOp) : Option MemOp × State :=
  let x := if !m.rel ∧ m.d.kind = 4 ∧ n = m.issue + 1 then s.argRead r c m n else (m, s)
  let x := match x.2.memRowAt r c m n with
    | none => x
    | some k => if m.reads then x.2.memReadRow r c x.1 n k else x.2.memWriteRow r c x.1 n k
  let x := x.2.pushWords r c x.1 n
  (if m.last (x.2.handle r c m.d.h) ≤ n then none else some x.1, x.2)

/-- The MEM path in schedule cycle `n` (R106). -/
def memCycle (s : State) (r c n : Nat) : State :=
  let out := (s.cluster r c).mem.foldl (fun (a : List MemOp × State) m =>
    let x := a.2.memStep r c n m
    (a.1 ++ x.1.toList, x.2)) ([], s)
  if (s.cluster r c).mem.isEmpty then s else out.2.modCluster r c fun k => { k with mem := out.1 }

/-! ### Landing -/

/-- A tile's comparison in schedule cycle `cyc` of segment `seg` (R125, R144): a mismatch halts the region with fault 0x0204. -/
def tileCompare (s : State) (r c t seg cyc bundle slot : Nat) : State :=
  let crc := crc32c (s.tileBytes r c t)
  let armed := s.flag (Rg.WTCRC_TEST_ARM r c) && s.fld (Rg.WTCRC_TEST_TILE r c) == t
  let crc := if armed then crc ^^^ 1 else crc
  let s := if armed then s.setFld (Rg.WTCRC_TEST_ARM r c) 0 else s
  let tag := (Store.get 0 (s.cluster r c).tags t).toNat
  if crc = tag then s
  else (s.count (Rg.WT_CHK_COUNT r c) 1).raiseAt r seg (cyc % 2 ^ 32)
    { code := 0x204, cluster := c, bundle := bundle, slot := slot, qh := 0x8000 + t, detail := crc, aux := tag }

/-- Removal of writes to word `a` that a valid-bit clear overtakes (R132). -/
def notWriteOf (a : Nat) (p : Pend) : Bool :=
  match p.eff with | .spVisible b _ => b != a | _ => true

/-- One effect lands in cycle `n` (R87). -/
def landEff (s : State) (r c n : Nat) (p : Pend) : State :=
  let upd (f : Cluster → Cluster) : State := s.modCluster r c f
  let range (i : Nat) : State := s.raise r { code := 0x20A, cluster := c, bundle := p.bundle, slot := p.slot, detail := i }
  match p.eff with
  | .vreg key vals => upd fun k =>
    { k with vregs := Store.setMany 0 k.vregs key vals, from_ := Store.erase k.from_ (4 + key / 256) }
  | .accAdd i v =>
    match (s.acc r c i).add v with
    | none => range i
    | some x => upd fun k => { k with accs := Store.set Acc.reset k.accs i x }
  | .accFold i x =>
    match (s.acc r c i).fold x with
    | none => range i
    | some x => upd fun k => { k with accs := Store.set Acc.reset k.accs i x }
  | .accSet i x => upd fun k => { k with accs := Store.set Acc.reset k.accs i x }
  | .pacc i w => upd fun k => { k with pacc := Store.set 0 k.pacc i w }
  | .qacc i w => upd fun k => { k with qacc := Store.set 0 k.qacc i w }
  | .port port sel o h bs => s.portLand r c port sel o h bs
  | .spBad key h => s.raise r { code := 0x206, cluster := c, bundle := p.bundle, slot := p.slot, qh := 0x2000 + h, detail := key }
  | .spFixed key syn =>
    (s.log r { code := 0x301, region := r, cluster := c, loc0 := key / 8192, loc1 := key % 8192, detail := syn }).count
      (Rg.SP_CE_COUNT r c) 1
  | .format det aux qh =>
    s.raise r { code := 0x20B, cluster := c, bundle := p.bundle, slot := p.slot, qh := qh, detail := det, aux := aux }
  | .spAccess a w =>
    let x := s.spCell r c a w
    x.2.addPend r c [⟨n + 4, p.bundle, p.slot, .spVisible a x.1⟩]
  | .spVisible a x => s.spPut r c a x
  | .spClear a => upd fun k => { k with sp := Store.erase k.sp a, pend := k.pend.filter (notWriteOf a) }
  | .tileFirst t seg =>
    if s.tilePending r c t then
      s.raiseAt r seg (p.due % 2 ^ 32) { code := 0x205, cluster := c, bundle := p.bundle, slot := p.slot, qh := 0x8000 + t }
    else s
  | .tileCmp t seg => s.tileCompare r c t seg p.due p.bundle p.slot
  | .cbStore bs len => upd fun k => { k with cb := Store.setMany 0 k.cb 0 bs, cbLen := len }
  | .deliver side b _ _ iss =>
    match innerNeighbour c side with
    | some c' => s.modCluster r c' fun k => { k with inb := k.inb ++ [⟨oppSide side, n + 1, b, iss⟩] }
    | none => s.push (pushKey r c side) b

/-- Effects of cluster `c` that `sel` selects and that are due by cycle `n` land, in the order they were made. -/
def landSel (s : State) (r c n : Nat) (sel : Pend → Bool) : State :=
  let ps := (s.cluster r c).pend
  let hit (p : Pend) : Bool := decide (p.due ≤ n) && sel p
  (ps.filter hit).foldl (fun s p => s.landEff r c n p)
    (s.modCluster r c fun k => { k with pend := k.pend.filter fun p => !hit p })

/-- Is the effect the bank access of a write? Accesses are made in the cycle itself, after every landing. -/
def isAccess (p : Pend) : Bool := match p.eff with | .spAccess _ _ => true | _ => false
/-- Is the effect a delivery to a link? -/
def isDeliver (p : Pend) : Bool := match p.eff with | .deliver _ _ _ _ _ => true | _ => false

/-- Every effect of cluster `c` due by cycle `n` lands, but for accesses and deliveries. -/
def land (s : State) (r c n : Nat) : State := s.landSel r c n fun p => !isAccess p && !isDeliver p

/-! ### Queue operations due -/

/-- A queue operation due in a schedule cycle (R110, R111): cluster, slot and bundle, whether its form is asserted,
whether the queue is ready or fenced, its QH name, the beat index, and the inbound queue it waits on. -/
structure QDue where
  c : Nat
  slot : Nat
  bundle : Nat
  asserted : Bool
  ready : Bool
  fenced : Bool
  qh : Nat
  idx : Nat
  inq : Option Nat
  deriving DecidableEq, Repr

/-- The pop that a source of stream `st` of cluster `c` makes in cycle `n`, if any (R110). -/
def popDue (s : State) (r c : Nat) (st : Stream) (n : Nat) (second : Bool) : List QDue :=
  let src := if second then st.d.srcb else st.d.srca
  match st.take second n with
  | none => []
  | some q =>
    if src < 4 ∧ (innerNeighbour c src).isNone ∧ st.fills q st.takenA.head? = true then
      let key := popKey r c src
      [⟨c, 5, st.bundle, st.form, s.popReady key, s.opFenced key, s.opQh key, q.k, some (inIndex src (crossingOf c src))⟩]
    else []

/-- The push of an effect that delivers a beat to a queue (R109, R110). -/
def pushDue (s : State) (r c : Nat) (p : Pend) : List QDue :=
  match p.eff with
  | .deliver side _ idx form _ =>
    if (innerNeighbour c side).isNone then
      let key := pushKey r c side
      [⟨c, 5, p.bundle, form, s.pushReady key, s.opFenced key, s.opQh key, idx, none⟩]
    else []
  | _ => []

/-- The stream that the bundle at cluster `c`'s address would start in this cycle (R107), seen ahead of its issue, with its
frame-table entry (R155). -/
def upcoming (s : State) (r c n : Nat) : Option Stream :=
  let k := s.cluster r c
  let link := wbits (s.progPeek r c k.pc) 255 224
  if k.idle = 0 ∧ bits link 31 28 = 1 ∧ (k.streams.all fun st => st.issue != n) = true then
    let a := bits link 26 13
    let fe := s.frameEntry r c a
    some (Stream.start (RouteDesc.ofWord (s.progPeek r c a)) a (bit link 27) n k.pc fe.1 fe.2 false)
  else none

/-- Words of a push that the queue still has room for, 0 when the command queue has none (R110, R223, R266). -/
def pushRoom (s : State) (r c : Nat) (m : MemOp) (n : Nat) (p : Nat × Nat) : Nat :=
  if m.d.kind = 4 then (if p.1 = 0 then 0 else 4096 - s.writeBuf r c n) else 66 * Config.samplerDepth - (s.region r).smpq.length

/-- Queue operations of cluster `c` due in cycle `n`, LINK before MEM (R112): a row of the MEM path that is not ready names
its first word that is not (R106, R111). -/
def dueOf (s : State) (r c n : Nat) : List QDue :=
  let k := s.cluster r c
  let sts := k.streams ++ (s.upcoming r c n).toList
  let pops := sts.flatMap fun st => s.popDue r c st n false ++ s.popDue r c st n true
  let pushes := (k.pend.filter fun p => decide (p.due ≤ n)).flatMap (s.pushDue r c)
  let mem : List QDue := k.mem.flatMap fun m =>
    let mk (ready : Bool) (qh idx : Nat) : QDue := ⟨c, 4, m.bundle, m.form, ready, false, qh, idx, none⟩
    match s.pushAt r c m n with
    | some p => [mk (s.pushFits r c m n p) (if m.d.kind = 4 then 0xA000 else 0xC000) (p.1 + s.pushRoom r c m n p)]
    | none =>
      match s.memRowAt r c m n with
      | none => []
      | some row =>
        let ws := s.memWords r c m row
        let w := ws.1.length
        if m.rel then []
        else if m.d.kind = 5 then
          [mk (decide (w ≤ k.dmaDone.length) || (k.dmaDone.any fun x => match x with | .bad _ _ _ _ => true | _ => false))
            0xA001 (ws.2 + k.dmaDone.length)]
        else if m.d.kind = 1 ∧ m.d.port = 10 then [mk (decide (w ≤ (s.smprWords r c).length)) 0xC001 (ws.2 + (s.smprWords r c).length)]
        else []
  pops ++ pushes ++ mem

/-- Queue operations of region `r` due in cycle `n`, in ascending cluster order. -/
def dueOps (s : State) (r n : Nat) : List QDue := (s.enabledClusters r).flatMap fun c => s.dueOf r c n

end State
end Sys2Proof.Machine
end

