-- ==== Sys2Proof/Machine/Issue.lean ====
section
/-!
DEFINITION. The issue of each slot's operation in a schedule cycle: the vector unit (R98 to R103), the engines (R92 to
R97, R60, R124, R128), codebook loads, the MEM path (R104 to R106) and route streams (R107, R108), and the encodings
that R90 refuses.
-/
namespace Sys2Proof.Machine

/-- Vector opcodes of R99 other than NOP. -/
def vecOpcodes : List Nat :=
  [0x01, 0x02, 0x03, 0x04, 0x05, 0x06, 0x08, 0x09, 0x0A, 0x0B, 0x10, 0x11, 0x12, 0x13, 0x14, 0x15, 0x16, 0x17, 0x19,
   0x1A, 0x20, 0x21, 0x22, 0x23, 0x24, 0x25, 0x26, 0x27, 0x30, 0x31, 0x32, 0x33, 0x34, 0x35, 0x40, 0x41, 0x42, 0x43,
   0x44, 0x50, 0x51, 0x52, 0x53, 0x54]

/-- Does the opcode use a span (R98, R99)? -/
def vecSpan (op : Nat) : Bool := 0x40 ≤ op

/-- Register fields and other fields of a VEC slot are as R98, R99, R102 and R103 allow. -/
def VecSlot.ok (v : VecSlot) : Bool :=
  vecOpcodes.contains v.op
  && (if vecSpan v.op then
        v.m ≤ 8 && (v.op != 0x52 || v.m ≤ 7)
        && v.l0 % 2 ^ v.m == 0 && v.l0 + 2 ^ v.m ≤ 256
      else v.m == 0 && v.l0 == 0)
  && (v.p == 0 || (v.p == 1 && (v.op ≤ 0x06 || v.op == 0x51 || v.op == 0x53)))
  && ((v.op != 0x43 && v.op != 0x44) || v.d ≤ 30)
  && (v.op != 0x44 || v.x + 1 ≤ 2 ^ v.m)
  && (v.op != 0x27 || v.x ≤ 4)

/-- Descriptor fields are as R93 and R97 allow, for an engine of kind `kind` in a mode. -/
def OpDesc.ok (d : OpDesc) (kind : Nat) (origin : Bool) : Bool :=
  d.kind == kind && d.wfmt ≤ 6 && d.afmt ≤ 1 && 1 ≤ d.rows
  && (if kind = 1 then d.rows ≤ (if origin then 8 else 32) && d.units == 32 && d.pbytes == 0
      else d.rows ≤ 8 && 1 ≤ d.units && d.units ≤ 256 && 1 ≤ d.pbytes && d.pbytes ≤ 2560
        && (!origin || d.units * d.rows ≤ 256))
  && 1 ≤ d.ksteps && d.ksteps ≤ 4096 && (!isCb d.wfmt || d.ksteps % 2 == 0)
  && d.rsv ≤ 32 && d.init ≤ 2 && (!origin || d.init == 0)
  && (kind != 1 || d.wfmt == 0 || d.afmt == 1 || d.rsv == 32)

/-- Transfer descriptor fields are as R105 allows; a handle field is checked also where its kind does not use it (DEDUCED, log 121). -/
def XferDesc.ok (d : XferDesc) (form : Bool) : Bool :=
  d.kind ≤ 5 && d.h < 64 && d.h2 < 64 && d.off % 8 == 0 && (d.off2 % 8 == 0 || (d.kind != 3 && d.kind != 4)) && d.len % 8 == 0
  && (d.kind != 0 || d.port ≤ 3 || (6 ≤ d.port && d.port ≤ 9))
  && (d.kind != 1 || (4 ≤ d.port && d.port ≤ 8) || d.port == 10)
  && d.cvt ≤ 1
  && (d.kind > 1 || d.port != 8 || (d.acc0 % 32 == 0 && d.len == 3608))
  && (!form || d.kind == 4 || d.kind == 5 || (d.kind == 0 && d.port == 9) || (d.kind == 1 && d.port == 10))

/-- Route descriptor fields are as R108 and R151 allow; LH is checked also without a local end (DEDUCED, log 121). -/
def RouteDesc.ok (d : RouteDesc) : Bool :=
  d.sink ≤ 4 && d.srca ≤ 4 && (d.srcb ≤ 4 || d.srcb == 0xFF) && !(d.srca == 4 && d.srcb == 4) && d.rmode ≤ 6
  && 1 ≤ d.beats && d.frame ≤ 1 && (d.frame == 0 || d.rmode == 0) && (d.rmode == 0 || d.srcb != 0xFF)
  && d.loff % 128 == 0 && d.lh < 64

namespace State

/-! ### The vector unit -/

/-- The QH that names where an operand came from (R204): the handle from which port or register `name` was last written, where
one was; otherwise a free value of kind 1 or 3 (log 98). -/
def originQh (s : State) (r c : Nat) (name : Option Nat) : Nat × State :=
  match name.bind fun p => Store.find (s.cluster r c).from_ p with
  | some h => (0x2000 + h, s)
  | none =>
    let v := s.fresh 7
    (if 64 ≤ v.1 then 0x6000 + v.1 % 4 else 0x2000 + v.1, v.2)

/-- The effects of a vector operation issued in cycle `n` for context `n` mod 4 (R71, R85, R99). -/
def vecEffects (s : State) (r c : Nat) (v : VecSlot) (n : Nat) : List (Nat × Eff) :=
  let ctx := n % 4
  let a := s.vreg r c ctx v.a
  let b := s.vreg r c ctx v.b
  let cc := s.vreg r c ctx v.c
  let lat := vecLatency v.op v.m
  let writes := (vecWrites v (s.widenPoint r c v.x) a b cc).map fun w =>
    (lat, Eff.vreg ((ctx * 32 + v.d + w.1) * 256 + w.2.1) w.2.2)
  let terms := (vecTerms v a b).map fun t => (lat, Eff.accAdd t.1 t.2)
  let file : List (Nat × Eff) :=
    if v.op = 0x52 then
      (List.range (2 ^ v.m)).map fun i => (lat, .accFold ((v.x + i) % 256) (s.acc r c (v.x + 2 ^ v.m + i)))
    else if v.op = 0x53 then
      [(lat, .vreg ((ctx * 32 + v.d) * 256 + v.l0) ((List.range (2 ^ v.m)).map fun i => xcvtLane v.p (s.acc r c (v.x + i))))]
    else if v.op = 0x54 then (List.range (2 ^ v.m)).map fun i => (lat, .accSet ((v.x + i) % 256) Acc.reset)
    else []
  writes ++ terms ++ file

/-- Occupation of the special-function unit by a vector operation issued in cycle `n` (R100): from, and up to. -/
def sfuSpan (v : VecSlot) (n : Nat) : Option (Nat × Nat) :=
  if 0x30 ≤ v.op ∧ v.op ≤ 0x33 then some (n, n + 4)
  else if v.op = 0x34 ∨ v.op = 0x35 then some (n, n + 8)
  else if v.op = 0x43 ∧ 0 < v.m then some (n + 4, n + 4 + 8 * v.m)
  else none

/-- A vector operation issues in cycle `n` (R98, R99): its effects land when its latency has elapsed. -/
def vecIssue (s : State) (r c : Nat) (v : VecSlot) (n bundle : Nat) : State :=
  let ctx := n % 4
  if v.op = 0x27 ∧ (widenLanes v.x (s.vreg r c ctx v.a)).isNone then
    let q := s.originQh r c (some (4 + ctx * 32 + v.a))
    q.2.raise r { code := 0x20B, cluster := c, bundle := bundle, slot := 3, qh := q.1, detail := 1,
                  aux := widenBadTag v.x (s.vreg r c ctx v.a) }
  else
    let wd := s.widenPoint r c v.x
    let s' := s.addPend r c ((s.vecEffects r c v n).map fun e => ⟨n + e.1, bundle, 3, e.2⟩)
    let s' := match sfuSpan v n with
      | none => s'
      | some p => s'.modCluster r c fun k => { k with sfu := (k.sfu.filter fun q => decide (n < q.2)) ++ [p] }
    if v.op = 0x22 then
      (s'.count (Rg.WP_TESTED r c v.x) 8).count (Rg.WP_WIDENED r c v.x) (widenedBlocks wd (s.vreg r c ctx v.a))
    else s'

/-! ### The engines -/

/-- The blend accumulator `i` of the press (`press`) or pour engine as the previous operation leaves it (R93). -/
def blendAcc (k : Cluster) (press : Bool) (i : Nat) : Word :=
  let pend := k.pend.filterMap fun p =>
    match p.eff, press with
    | .pacc j w, true => if j = i then some w else none
    | .qacc j w, false => if j = i then some w else none
    | _, _ => none
  pend.getLast?.getD (Store.get 0 (if press then k.pacc else k.qacc) i)

/-- Index of a blend accumulator in its port (R105). -/
def blendIdx (press : Bool) (u j : Nat) : Nat := if press then 32 * j + u else 256 * j + u

/-- The effects of tiles `t` to `t + nt - 1` streaming through the port in segment `seg` (R124, R125, R128): `leave b` is the
cycle in which byte `b` of the stream leaves the port. -/
def tileEvents (leave : Nat → Nat) (t nt bundle slot seg : Nat) : List Pend :=
  (List.range nt).flatMap fun j =>
    [⟨leave (16384 * j), bundle, slot, .tileFirst (t + j) seg⟩,
     ⟨leave (16384 * (j + 1) - 1) + 3, bundle, slot, .tileCmp (t + j) seg⟩]

/-- The cycle in which byte `b` of an operation's stream leaves the port: at PBYTES per cycle for the pour engine,
spread over the operation's D cycles for the press engine (R62, R96, R124). -/
def portCycle (d : OpDesc) (n b : Nat) : Nat :=
  if d.kind = 2 then n + 1 + b / d.pbytes else n + 1 + b * d.dur / (d.ntiles * 16384)

/-- The port of the buffer half that an engine reads (R94, R105). -/
def engPort (kind : Nat) (half : Bool) : Nat := (if kind = 1 then 0 else 2) + (if half then 1 else 0)

/-- The activation slots of K-step `k` as the engine samples them (R94); a byte beyond the buffer half is a free value (log 97). -/
def sampleSlots (s : State) (r c : Nat) (x : EngRun) : List Byte × State :=
  let n := slotBytes x.d * x.d.rows
  let p := engPort x.kind x.e.half
  let have_ := Nat.min n (portSize p 0 - n * x.step)
  let bs := Store.getMany 0 (s.cluster r c).abuf (bufBase p + n * x.step) have_
  if have_ = n then (bs, s)
  else
    let v := s.fresh (8 * (n - have_))
    (bs ++ leBytes (n - have_) v.1, v.2)

/-- The codebook store's bytes (R60). -/
def codebooks (s : State) (r c : Nat) : List Byte := Store.getMany 0 (s.cluster r c).cb 0 0x10000

/-- The tiles that an operation streams (R94, R121). -/
def engineTiles (s : State) (r c tile nt : Nat) : List (List Byte) := (List.range nt).map fun j => s.tileBytes r c (tile + j)

/-- A format fault of an engine operation (R36, R39, R92, R204). -/
def engineFault (s : State) (r c kind bundle qh detail aux : Nat) : State :=
  s.raise r { code := 0x20B, cluster := c, bundle := bundle, slot := kind, qh := qh, detail := detail, aux := aux }

/-- What the blend accumulators of an operation start from, by unit and row (R93, R94): zero, the bias words of its handle,
or what the previous operation left. -/
def engineInit (s : State) (r c : Nat) (x : EngRun) : Nat → Nat → Word :=
  match x.d.init with
  | 0 => fun _ _ => 0
  | 1 => fun u _ => BitVec.ofNat 32 (fieldAt (ofWords x.bias) (4 * u) 4)
  | _ => fun u j => blendAcc (s.cluster r c) (x.kind == 1) (blendIdx (x.kind == 1) u j)

/-- The results of an operation as effects (R65, R67, R95): exact terms into the accumulator file in a single-origin image
(`origin`), the final blend accumulators in a blend image. -/
def engineResults (origin : Bool) (kind accb : Nat) (d : OpDesc) (tiles : List (List Byte)) (store buf : List Byte)
    (init : Nat → Nat → Word) : List Eff :=
  if origin then (originTerms d accb tiles store buf).map fun t => .accAdd t.1 t.2
  else (blendResults d tiles store buf init).map fun t =>
    if kind = 1 then .pacc (blendIdx true t.1 t.2.1) t.2.2 else .qacc (blendIdx false t.1 t.2.1) t.2.2

/-- An engine operation issues (R92 to R97): its tiles stream from the next cycle on, and the engine is occupied for its
duration. A codebook operation whose table the store does not hold is refused with the format fault of R60. -/
def engineIssue (s : State) (r c : Nat) (e : EngSlot) (kind n bundle : Nat) : State :=
  match s.progFetch r c e.daddr kind with
  | (none, s) => s
  | (some w, s) =>
    let d := OpDesc.ofWord w
    if isCb d.wfmt && d.cblen != (s.cluster r c).cbLen then s.engineFault r c kind bundle 0 5 (s.cluster r c).cbLen
    else
      (s.addPend r c (tileEvents (portCycle d n) e.tile d.ntiles bundle kind (s.segNo r))).modCluster r c fun k =>
        { k with runs := k.runs ++ [⟨kind, e, d, n, bundle, [], [], 0, n + 1, groupSlack d 0⟩],
                 pressEnd := if kind = 1 then n + d.dur else k.pressEnd, pourEnd := if kind = 1 then k.pourEnd else n + d.dur }

/-- Scratchpad words of an operation's bias row `k`, as word numbers of its handle, and how many rows there are (R93, R139). -/
def biasRow (h : Handle) (d : OpDesc) (k : Nat) : List Nat := rowWords h.il 0 ((d.units + 1) / 2) k

/-- Bias words that a running operation reads in schedule cycle `n` (R93): a row in each of its cycles, and what is left in
its last (log 21). -/
def biasWords (h : Handle) (x : EngRun) (n : Nat) : List Nat :=
  if x.d.init ≠ 1 ∨ n ≤ x.issue ∨ x.issue + x.d.dur < n then []
  else
    let k := n - x.issue - 1
    if n = x.issue + x.d.dur then (List.range ((x.d.units + 1) / 2)).drop (k * h.il) else biasRow h x.d k

/-- The end of an operation's K-steps (R65, R67, R95, R96): its results land three cycles after its last. -/
def engineFinish (s : State) (r c : Nat) (x : EngRun) : State :=
  s.addPend r c ((engineResults s.origin x.kind x.e.accb x.d (s.engineTiles r c x.e.tile x.d.ntiles) (s.codebooks r c) x.buf
    (s.engineInit r c x)).map fun e => ⟨x.issue + x.d.dur + 3, x.bundle, x.kind, e⟩)

/-- One K-step of a running operation begins in schedule cycle `n` (R36, R39, R79, R94): its slots are sampled and checked, and
an excess wide step stalls the region on the next cycle. None when the region has halted. -/
def engineStep (s : State) (r c n : Nat) (x : EngRun) : Option EngRun × State :=
  match s.sampleSlots r c x with
  | (bs, s) =>
    match badTag x.d bs with
    | some t =>
      let q := s.originQh r c (some (engPort x.kind x.e.half))
      (none, q.2.engineFault r c x.kind x.bundle q.1 1 t)
    | none =>
      match badIdx x.d (s.engineTiles r c x.e.tile x.d.ntiles) (fun j => s.tilePending r c (x.e.tile + j)) x.step with
      | some i =>
        let q := s.originQh r c none
        (none, q.2.engineFault r c x.kind x.bundle q.1 2 i)
      | none =>
        let wide := x.kind == 1 && wideStep x.d bs
        let slack := if x.step % 32 = 0 then groupSlack x.d x.step else x.slack
        let slow := wide && decide (0 < slack)
        let s := if wide && slack == 0 then
            (s.askStall r ⟨n + 1, 1, 16, none⟩).count (Rg.XSTEP_COUNT r c) 1 else s
        (some { x with buf := x.buf ++ bs, step := x.step + 1, slack := if slow then slack - 1 else slack,
                       at_ := stepAt x.d x.issue (x.step + 1) x.at_ (if slow then 2 else 1) }, s)

/-- The K-steps of a running operation that begin in schedule cycle `n`; the first argument bounds their number. -/
def engineSteps (s : State) (r c n : Nat) : Nat → EngRun → Option EngRun × State
  | 0, x => (some x, s)
  | f + 1, x =>
    if x.d.ksteps ≤ x.step ∨ x.at_ ≠ n then (some x, s)
    else
      match s.engineStep r c n x with
      | (none, s) => (none, s)
      | (some x, s) => s.engineSteps r c n f x

/-- A running operation in schedule cycle `n`: the bias words it reads, its K-steps, and after its last cycle its results. -/
def engineRun (s : State) (r c n : Nat) (x : EngRun) : Option EngRun × State :=
  let b := match biasWords (s.handle r c x.d.biash) x n with
    | [] => (some [], s)
    | ws => s.spReads r c x.d.biash x.bundle x.kind n (ws.map (s.handleWord r c x.d.biash))
  match b with
  | (none, s) => (none, s)
  | (some ws, s) =>
    match s.engineSteps r c n x.d.ksteps { x with bias := x.bias ++ ws } with
    | (none, s) => (none, s)
    | (some x, s) => if x.issue + x.d.dur ≤ n then (none, s.engineFinish r c x) else (some x, s)

/-- The engines of cluster `c` in schedule cycle `n` (R96). -/
def enginesCycle (s : State) (r c n : Nat) : State :=
  if (s.cluster r c).runs.isEmpty then s
  else
    let out := (s.cluster r c).runs.foldl (fun (a : List EngRun × State) x =>
      if n ≤ x.issue then (a.1 ++ [x], a.2)
      else
        let y := a.2.engineRun r c n x
        (a.1 ++ y.1.toList, y.2)) ([], s)
    out.2.modCluster r c fun k => { k with runs := out.1 }

/-- A CBLOAD of `nt` tiles issues (R60, R92): the store and its length change when the load completes. -/
def cbIssue (s : State) (r c tile nt n bundle : Nat) : State :=
  let cbt := cfgCbt (s.clusterSection 0x13 r c)
  let len := ((cbt.find? fun e => e.1 == tile && e.2.1 == nt).map fun e => e.2.2).getD 0
  let bs := (List.range nt).flatMap fun j => s.tileBytes r c (tile + j)
  let s := s.addPend r c (tileEvents (fun b => n + 1 + b / 2560) tile nt bundle 2 (s.segNo r)
    ++ [⟨n + cbloadD nt, bundle, 2, .cbStore bs len⟩])
  s.modCluster r c fun k => { k with pourEnd := Nat.max k.pourEnd (n + cbloadD nt) }

/-! ### MEM and LINK -/

/-- A transfer issues (R104, R106). -/
def xferIssue (s : State) (r c taddr : Nat) (form : Bool) (n bundle : Nat) : State :=
  match s.progFetch r c taddr 4 with
  | (none, s) => s
  | (some w, s) =>
    s.modCluster r c fun k =>
      { k with mem := k.mem ++ [{ d := XferDesc.ofWord w, rel := false, form := form, issue := n, bundle := bundle, buf := [] }] }

/-- A release of handle `h` issues (R104, R141). -/
def relIssue (s : State) (r c h n bundle : Nat) : State :=
  s.modCluster r c fun k =>
    { k with mem := k.mem ++ [{ d := ⟨2, 0, h, 0, 0, 0, 0, 0, 0, 0, 0⟩, rel := true, form := false, issue := n, bundle := bundle,
                                buf := [] }] }

/-- A ROUTE issues: the stream described at `raddr` starts (R107, R108), unless an excess-beat stall has already brought it
beats (R158, log 96). -/
def routeIssue (s : State) (r c raddr : Nat) (form : Bool) (n bundle : Nat) : State :=
  match s.progFetch r c raddr 5 with
  | (none, s) => s
  | (some w, s) =>
    if (s.cluster r c).streams.any fun st => st.issue == n then s
    else s.modCluster r c fun k => { k with streams := k.streams ++ [s.newStream r c raddr w form n bundle] }

/-! ### What may issue -/

/-- May an engine operation issue: its descriptor is of its kind and its engine is free (R90)? -/
def engineOk (s : State) (r c : Nat) (e : EngSlot) (kind n : Nat) : Bool :=
  (OpDesc.ofWord (s.progPeek r c e.daddr)).ok kind s.origin
  && decide (e.tile + (OpDesc.ofWord (s.progPeek r c e.daddr)).ntiles ≤ 4608)
  && decide ((if kind = 1 then (s.cluster r c).pressEnd else (s.cluster r c).pourEnd) ≤ n)

/-- May a CBLOAD issue (R92, R124)? -/
def cbOk (s : State) (r c tile nt n : Nat) : Bool :=
  decide (tile + nt ≤ 4608) && decide ((s.cluster r c).pourEnd ≤ n)

/-- May a vector operation issue (R90, R100)? -/
def vecOk (s : State) (r c : Nat) (v : VecSlot) (n : Nat) : Bool :=
  v.ok && (match sfuSpan v n with
    | none => true
    | some p => (s.cluster r c).sfu.all fun q => decide (q.2 ≤ p.1) || decide (p.2 ≤ q.1))

/-- Is the MEM path free for an operation that issues in cycle `n` (R106)? -/
def memFree (s : State) (r c n : Nat) : Bool :=
  (s.cluster r c).mem.all fun m => decide (m.last (s.handle r c m.d.h) ≤ n)

/-- May a transfer of a kind and port in `sel` issue in cycle `n` (R90, R106)? -/
def xferOk (s : State) (r c taddr n : Nat) (form : Bool) (sel : XferDesc → Bool) : Bool :=
  (XferDesc.ofWord (s.progPeek r c taddr)).ok form && sel (XferDesc.ofWord (s.progPeek r c taddr)) && s.memFree r c n

/-- May a ROUTE of a mode in `sel` issue in cycle `n`: its descriptor is allowed, its sink carries no beat of a running
stream from its first delivery on (R90, R108; log 119), and a framed stream has a frame-table entry (R155)? -/
def routeOk (s : State) (r c raddr n : Nat) (sel : RouteDesc → Bool) : Bool :=
  let w := s.progPeek r c raddr
  let st := s.newStream r c raddr w false n 0
  st.d.ok && sel st.d && ((s.cluster r c).streams.all fun x => x.d.sink != st.d.sink || x.issue == n || decide (x.ends < st.delivers 0))
  && (st.d.frame == 0 || st.nblk != 0)

end State
end Sys2Proof.Machine
end

