-- ==== Sys2Proof/Machine/Excess.lean ====
section
/-!
DEFINITION. The order of a cluster's bundles (R85, R91), what its streams move in one step of the schedule (R109, R110), and
excess-beat stalls (R158): the flows that move in a stall ACLK, the hops that their beats reach before the schedule starts
them, and the queue operations that they wait for.
-/
namespace Sys2Proof.Machine

/-- The address that follows bundle `pc`, unwinding the loop stack (R85, R91). -/
def nextPc (pc : Nat) : List LoopFrame → Nat × List LoopFrame
  | [] => ((pc + 1) % 16384, [])
  | f :: fs =>
    if (pc + 1) % 16384 = (f.start + f.len) % 16384 then
      if 0 < f.left then (f.start, { f with left := f.left - 1 } :: fs) else nextPc pc fs
    else ((pc + 1) % 16384, f :: fs)

/-- A cluster goes on to its next bundle. -/
def Cluster.advance (k : Cluster) : Cluster :=
  let p := nextPc k.pc k.loops
  { k with pc := p.1, loops := p.2 }

/-- IDLE (R91): the bundle occupies `n` more schedule cycles. -/
def Cluster.ctlIdle (k : Cluster) (n : Nat) : Cluster := if n = 0 then k.advance else { k with idle := n }

/-- LOOP (R91): the `len` bundles that follow execute `cnt` times. -/
def Cluster.ctlLoop (k : Cluster) (len cnt : Nat) : Cluster :=
  { k with pc := (k.pc + 1) % 16384, loops := ⟨(k.pc + 1) % 16384, len, cnt - 1⟩ :: k.loops }

/-- A cluster after the schedule cycle of the bundle whose CTL slot is `w` (R85, R91); at SEGEND it stays. -/
def Cluster.ctl (k : Cluster) (w : Nat) : Cluster :=
  if 0 < k.idle then (if k.idle = 1 then { k with idle := 0 }.advance else { k with idle := k.idle - 1 })
  else
    match bits w 31 26 with
    | 1 => k.ctlIdle (bits w 15 0)
    | 2 => k.ctlLoop (bits w 25 16 + 1) (bits w 15 0 + 1)
    | 3 => k
    | _ => k.advance

namespace State

/-- A cluster as it will stand `m` schedule cycles on. -/
def ahead (s : State) (r c : Nat) : Nat → Cluster → Cluster
  | 0, k => k
  | m + 1, k => s.ahead r c m (k.ctl (wbits (s.progPeek r c k.pc) 31 0))

/-! ### Moves -/

/-- A queue entry is popped, checked and handed to a link end in cycle `t` (R109, R160, R162). -/
def popBeat (s : State) (r c side bundle t : Nat) : State :=
  match s.pop (popKey r c side) with
  | (none, s) => s
  | (some e, s) =>
    match s.entryCheck r c (popKey r c side) bundle e with
    | (none, s) => s
    | (some b, s) => s.modCluster r c fun k => { k with inb := k.inb ++ [⟨side, t, b, 0⟩] }

/-- Which flows move: of a cluster's stream, its SRCA (0), its SRCB (1), or the output of an XS sum (2). -/
abbrev Moves := Nat → Stream → Nat → Bool

/-- Does a source of the stream move? Only an XS sum's sources move apart (R157). -/
def Moves.src (mv : Moves) (c : Nat) (st : Stream) (second : Bool) : Bool :=
  mv c st (if second && st.d.rmode == 3 then 1 else 0)

/-- The pops that cluster `c` makes in cycle `t` when the flows `mv` move. -/
def popsAt (s : State) (r c t : Nat) (mv : Moves) : List (Nat × Stream × QDue) :=
  (s.cluster r c).streams.flatMap fun st =>
    [false, true].flatMap fun b =>
      if mv.src c st b then (s.popDue r c st t b).map fun q => (if b then st.d.srcb else st.d.srca, st, q) else []

/-- The pops of cluster `c` in cycle `t` (R110, R160): one entry for each side at the region's edge that a stream takes from. -/
def popSides (s : State) (r c t : Nat) (mv : Moves) : State :=
  [0, 1, 2, 3].foldl (fun s side =>
    match (s.popsAt r c t mv).find? fun e => e.1 == side with
    | none => s
    | some e => s.popBeat r c side e.2.1.bundle t) s

/-- The streams of cluster `c` in cycle `t`. -/
def streamsMove (s : State) (r c t : Nat) (mv : Moves) : State :=
  let out := (s.cluster r c).streams.foldl (fun (a : List Stream × State) st =>
    let x := a.2.streamMove r c st t (mv.src c st false) (mv.src c st true) (mv c st 2)
    (if streamOver x.1 then a.1 else a.1 ++ [x.1], x.2)) ([], s)
  out.2.modCluster r c fun k => { k with streams := out.1 }

/-- In an executed cycle every source moves; an excess beat of a sum waits for its stall. -/
def everySource : Moves := fun _ _ w => w != 2

/-- The reads of local sources in cycle `n`, and then the streams (R109). -/
def streamsCycle (s : State) (r c n : Nat) : State :=
  let rd := (s.cluster r c).streams.foldl (fun (a : List Stream × State) st =>
    let x := a.2.streamRead r c st n
    (a.1 ++ [x.1], x.2)) ([], s)
  (rd.2.modCluster r c fun k => { k with streams := rd.1 }).streamsMove r c n everySource

/-! ### The path of an excess beat -/

/-- A stream that takes beat 0 of link side `side` of cluster `c` in cycle `arr`, later than `n`, is known ahead of its issue:
its ROUTE stands at the address that the schedule reaches then. -/
def foreseen (s : State) (r c n arr side : Nat) : Option Stream :=
  [0, 6].findSome? fun o =>
    if arr < n + o then none
    else
      let t := arr - o
      let k := s.ahead r c (t - n) (s.cluster r c)
      let link := wbits (s.progPeek r c k.pc) 255 224
      if k.idle = 0 ∧ bits link 31 28 = 1 then
        let a := bits link 26 13
        let st := s.newStream r c a (s.progPeek r c a) (bit link 27) t k.pc
        if st.d.offset = o ∧ (st.d.srca = side ∨ st.d.srcb = side) then some st else none
      else none

/-- Does a stream take its first beat from link side `side` in cycle `arr`? -/
def joinsAt (st : Stream) (side arr : Nat) : Bool :=
  st.issue + st.d.offset == arr && (st.d.srca == side || st.d.srcb == side)

/-- The stream that takes what a moving stream sends stands ready, ahead of its issue where the schedule has not reached that. -/
def readyHop (s : State) (r c n arr side : Nat) : State :=
  if (s.cluster r c).streams.any fun st => joinsAt st side arr then s
  else
    match s.foreseen r c n arr side with
    | none => s
    | some st => s.modCluster r c fun k => { k with streams := k.streams ++ [st] }

/-- A flow on a path: cluster, issue of the stream, and 0 SRCA, 1 SRCB, 2 output. -/
abbrev FlowAt := Nat × Nat × Nat

/-- Where the beats of a flow go on (R158): the flows of the neighbour that they reach, which stand ready. -/
def flowNext (s : State) (r n : Nat) (f : FlowAt) : List FlowAt × State :=
  match (s.cluster r f.1).streams.find? fun st => st.issue == f.2.1 with
  | none => ([], s)
  | some st =>
    match innerNeighbour f.1 st.d.sink with
    | none => ([], s)
    | some c =>
      if 4 ≤ st.d.sink ∨ f.2.2 ≠ 2 then ([], s)
      else
        let arr := st.delivers 0 + 1
        let side := oppSide st.d.sink
        let s := s.readyHop r c n arr side
        (((s.cluster r c).streams.filter fun x => joinsAt x side arr).flatMap fun x =>
          (if x.d.srca = side then [(c, x.issue, 0)] else []) ++ (if x.d.srcb = side then [(c, x.issue, 1)] else [])
          ++ (if x.d.rmode = 3 then [] else [(c, x.issue, 2)]), s)

/-- The flows that the beats of `fs` pass through in the region, `fs` included (R158); `m` bounds the hops. -/
def flowPath (s : State) (r n : Nat) : Nat → List FlowAt → List FlowAt × State
  | 0, fs => (fs, s)
  | m + 1, fs =>
    if fs.isEmpty then ([], s)
    else
      let x := fs.foldl (fun (a : List FlowAt × State) f =>
        let y := a.2.flowNext r n f
        (a.1 ++ y.1, y.2)) ([], s)
      let y := x.2.flowPath r n m x.1.eraseDups
      ((fs ++ y.1).eraseDups, y.2)

/-- The flows with which a stall begins its path: a pass stream's output moves with its source. -/
def seedFlows (s : State) (r : Nat) (f : FlowAt) : List FlowAt :=
  if (s.cluster r f.1).streams.any fun st => st.issue == f.2.1 && st.d.rmode != 3 then [f, (f.1, f.2.1, 2)] else [f]

/-- The flows that move in stall ACLK `k` of cycle `n` (R158, R163). -/
def stallPath (s : State) (r n k : Nat) : List FlowAt × State :=
  s.flowPath r n 28 ((((s.region r).stallReqs.filter fun q => q.cycle == n && decide (k < q.len)).filterMap StallReq.seed).flatMap
    (s.seedFlows r)).eraseDups

/-- The moves of the flows on a path. -/
def pathMoves (fs : List FlowAt) : Moves := fun c st w => fs.contains (c, st.issue, w)

/-- Flows on the path have made one more move. -/
def flowsStep (s : State) (r c : Nat) (fs : List FlowAt) : State :=
  s.modCluster r c fun k => { k with streams := k.streams.map fun st =>
    let up (b : Bool) (f : Flow) : Flow := if b then { f with adv := f.adv + 1 } else f
    { st with fa := up (fs.contains (c, st.issue, 0)) st.fa, fb := up (fs.contains (c, st.issue, 1)) st.fb } }

/-- Is an effect a delivery of a stream whose output moves, already on its way after cycle `t`? -/
def onWay (fs : List FlowAt) (c t : Nat) (p : Pend) : Bool :=
  match p.eff with
  | .deliver _ _ _ _ iss => decide (p.due ≤ t + 6) && fs.contains (c, iss, 2)
  | _ => false

/-- A beat of a moving stream that stands at a link of cluster `c` after cycle `t` comes one step nearer. -/
def inStep (fs : List FlowAt) (c t : Nat) (b : InBeat) : InBeat :=
  match innerNeighbour c b.side with
  | some c' => if b.at_ = t + 1 ∧ fs.contains (c', b.iss, 2) = true then { b with at_ := t } else b
  | none => b

/-- Beats of the path that are under way come one step nearer: deliveries that wait, and beats that stand at links (R158). -/
def beatsStep (s : State) (r t : Nat) (fs : List FlowAt) (c : Nat) : State :=
  s.modCluster r c fun k =>
    { k with pend := k.pend.map (fun p => if onWay fs c t p then { p with due := p.due - 1 } else p), inb := k.inb.map (inStep fs c t) }

/-- The queue operations of a stall ACLK in which the flows `fs` move, after cycle `t` (R110, R158). -/
def stallDue (s : State) (r t : Nat) (fs : List FlowAt) : List QDue :=
  (s.enabledClusters r).flatMap fun c =>
    let v := s.flowsStep r c fs
    ((v.popsAt r c t (pathMoves fs)).map (fun e => e.2.2))
    ++ ((s.cluster r c).pend.filter fun p => onWay fs c t p && decide (p.due ≤ t + 1)).flatMap (s.pushDue r c)

/-- A stall ACLK after cycle `t` in which the flows `fs` move one beat each (R158). -/
def stallMove (s : State) (r t : Nat) (fs : List FlowAt) : State :=
  if fs.isEmpty then s
  else
    let cs := s.enabledClusters r
    let s := cs.foldl (fun s c => s.flowsStep r c fs) s
    let s := cs.foldl (fun s c => s.beatsStep r t fs c) s
    let s := cs.foldl (fun s c => s.landSel r c t isDeliver) s
    let s := cs.foldl (fun s c => (s.popSides r c t (pathMoves fs)).streamsMove r c t (pathMoves fs)) s
    cs.foldl (fun s c => s.modCluster r c fun k => { k with inb := k.inb.filter fun b => decide (t < b.at_) }) s

end State
end Sys2Proof.Machine
end

