-- ==== Sys2Proof/Machine/Hold.lean ====
section
/-!
DEFINITION. The capo barrier in a region (R294, R295, R299): SWP_HOLD's derived bits, and the end of a swap or a stop once
every region of the placement has reached it.
-/
namespace Sys2Proof.Machine
namespace State

/-- SWP_HOLD.IDLE (R294, R295): the region waits at SEGEND with ARM set and its segment queue empty. -/
def swpIdle (s : State) (r : Nat) : Bool :=
  let g := s.region r
  s.flag (Rg.SWP_HOLD_ARM r) && g.seg.isNone && g.segq.isEmpty

/-- SWP_HOLD.DONE (R294, R295): in a swap, the region is IDLE and none of its tiles is still to be tagged. -/
def swpDone (s : State) (r : Nat) : Bool :=
  s.loader.job == .swap && s.swpIdle r && s.fld (Rg.SWP_HOLD_REMAIN r) == 0

/-- A transfer session of the receiver ends with an abort message (R290); its key is erased (R291). -/
def rxAbort (s : State) : State :=
  if s.rxSession.step = 0 then s
  else ({ s with rxSession := Session.idle } : State).emit (.handshake 0 [] s.rxSession.path)

/-- The regions that the placement in force uses. -/
def usedRegions (s : State) : List Nat := (List.range 96).filter s.usedIn

/-- Every cluster is disabled (R197, R299). -/
def disableClusters (s : State) : State :=
  (List.range 2688).foldl (fun s k =>
    if s.flag (Rg.CL_STAT_EN (k / 28) (k % 28)) then s.setFld (Rg.CL_STAT_EN (k / 28) (k % 28)) 0 else s) s

/-- The loader stops with a cause and an index (R288); a load's clusters are all disabled and no image is loaded. -/
def loadFail (s : State) (cause idx : Nat) : State :=
  let s := s.rxAbort
  let s' := match s.loader.job with
    | .load => s.disableClusters.setImgState 0
    | _ => s
  let s' := (s'.wr Rg.WLD_STAT (5 * 2 ^ 28 + cause % 256)).wr Rg.WLD_FAIL idx
  { s' with loader := { s'.loader with job := .none, models := [], sources := [], remaps := []
                                       broken := s.loader.broken || s.loader.job == .swap } }

/-- ARM is cleared in the regions of the placement (R294). -/
def disarm (s : State) : State :=
  s.usedRegions.foldl (fun s r => s.setFld (Rg.SWP_HOLD_ARM r) 0) s

/-- A region's WLD_RDONE bit is set once it is DONE (R294). -/
def markDone (s : State) : State :=
  s.usedRegions.foldl (fun s r =>
    if s.swpDone r then s.wr (Rg.WLD_RDONE (r / 32)) (s.rd (Rg.WLD_RDONE (r / 32)) ||| 2 ^ (r % 32)) else s) s

/-- The cluster that a remap applied at load puts in place of cluster `c` (R185, R186). -/
def targetCluster (s : State) (r c : Nat) : Nat :=
  if s.flag (Rg.REMAPSTAT_V0 r) && s.fld (Rg.REMAPSTAT_COV0 r) == c then s.fld (Rg.REMAPSTAT_SPR0 r)
  else if s.flag (Rg.REMAPSTAT_V1 r) && s.fld (Rg.REMAPSTAT_COV1 r) == c then s.fld (Rg.REMAPSTAT_SPR1 r)
  else c

/-- The clusters that hold a placement's tiles (R185, R284), each as itself and as the cluster whose sections it has. -/
def holders (s : State) (img : List Byte) (p : Nat) : List (Nat × Nat) :=
  (imgUsedList img p).map fun k => (28 * (k / 28) + s.targetCluster (k / 28) (k % 28), k)

/-- The barrier's last step (R294 step 7, R299): in a swap, once every region is DONE, the companion replaces the image in
force; in a stop, once every region is IDLE, every cluster is disabled and no image is loaded. -/
def holdFinish (s : State) : State :=
  match s.loader.job with
  | .swap =>
    let s := s.markDone
    if s.usedRegions.all s.swpDone && s.loader.models.all fun m => m.todo.isEmpty then
      let s := s.disarm
      ({ s with image := s.loader.img,
                loader := { s.loader with
                            job := .none
                            prev := some (s.loader.img, s.place, s.holders s.loader.img s.place)
                            swapped := []
                            inForce := s.loader.models.foldl (fun l m => Store.put l m.m m.digest) s.loader.inForce } } :
        State).setFld Rg.WLD_STAT_STATE 0
    else s
  | .stop =>
    if s.usedRegions.all s.swpIdle then
      let s := s.disarm.disableClusters
      let s := (s.setImgState 0).setFld Rg.WLD_STAT_STATE 0
      { s with loader := { s.loader with job := .none } }
    else s
  | _ => s

end State
end Sys2Proof.Machine
end

