-- ==== Sys2Proof/Machine/Cycle.lean ====
section
/-!
DEFINITION. A region's schedule (R85, R163): the CTL slot and the loop stack (R91), the activity of a cycle (R191 to
R194), stalls and their attribution (R164), and the execution of one schedule cycle.
-/
namespace Sys2Proof.Machine

namespace State

/-- MARK (R91, R465): an entry of the region's trace buffer. -/
def ctlMark (s : State) (r c v : Nat) : State :=
  let g := s.region r
  let i := s.fld (Rg.TRACE_IDX_IDX r)
  let s := s.wr (Rg.TRACE r (4 * i)) g.cycle
  let s := s.wr (Rg.TRACE r (4 * i + 1)) (v % 65536 * 65536 + c)
  let s := s.wr (Rg.TRACE r (4 * i + 2)) ((g.seg.map SegRun.no).getD 0x7FFF)
  s.setFld (Rg.TRACE_IDX_IDX r) ((i + 1) % 256)

/-- SEGEND (R91): the region's segment ends, and a barrier that waited for it may end too (R294, R299). -/
def ctlSegend (s : State) (r : Nat) : State := (s.modRegion r fun g => { g with seg := none }).holdFinish

/-- May a region issue: not halted (R166), and its ACLK not stopped by a trip (R366)? -/
def live (s : State) (r : Nat) : Bool := !(s.region r).halted && !s.tripped r

/-- Is the region able to execute: in a segment, powered, and live (R163, R166)? -/
def running (s : State) (r : Nat) : Bool :=
  s.live r && (s.region r).seg.isSome && s.reachable r

/-! ### Encodings -/

/-- Are the slots of the bundle that cluster `c` would issue in cycle `n` all allowed (R90)? -/
def bundleOk (s : State) (r c n : Nat) : Bool :=
  let k := s.cluster r c
  let w := s.progPeek r c k.pc
  let ctl := wbits w 31 26
  let pr := EngSlot.ofNat (wbits w 79 32)
  let po := EngSlot.ofNat (wbits w 127 80)
  let v := VecSlot.ofWord w
  let mem := wbits w 223 192
  let link := wbits w 255 224
  0 < k.idle ||
  (decide (ctl ≤ 4)
   && (pr.op == 0 || (pr.op == 1 && s.engineOk r c pr 1 n))
   && (po.op == 0 || (po.op == 1 && s.engineOk r c po 2 n) || (po.op == 2 && s.cbOk r c po.tile (po.low % 4 + 1) n))
   && (v.op == 0 || s.vecOk r c v n)
   && (bits mem 31 28 == 0
       || (bits mem 31 28 == 1 && s.xferOk r c (bits mem 26 13) n (bit mem 27) fun _ => true)
       || (bits mem 31 28 == 2 && s.memFree r c n))
   && (bits link 31 28 == 0 || (bits link 31 28 == 1 && s.routeOk r c (bits link 26 13) n fun _ => true)))

/-! ### Activity -/

/-- Bank accesses of the MEM path's operation `m` in cycle `n` that are its own row's (R130, R223). -/
def memAccesses (s : State) (r c n : Nat) (m : MemOp) : Nat :=
  (match s.memRowAt r c m n with | some row => (s.memWords r c m row).1.length | none => 0)
    + (if !m.rel ∧ m.d.kind = 4 ∧ n = m.issue + 1 then 1 else 0)

/-- Words that a stream reads from its local source in cycle `n` (R109, R156, R157). -/
def streamAccesses (st : Stream) (n : Nat) : Nat :=
  let i := n - st.issue
  if !st.d.localSrc || n < st.issue || st.d.beats ≤ i then 0
  else if st.d.frame = 1 then
    let p := frameAt 0 st.periods i
    Nat.min 24 (ceilDiv (34 * frameBlocks st.nblk p.1) 8 - 24 * p.2.1)
  else if st.d.srcb = 4 ∧ !st.takesB i then 0 else 16

/-- Bank accesses of cluster `c` in cycle `n` (R130, R191). -/
def bankAccesses (s : State) (r c n : Nat) : Nat :=
  let k := s.cluster r c
  let sum (l : List Nat) : Nat := l.foldl (· + ·) 0
  sum (k.mem.map (s.memAccesses r c n)) + (k.pend.filter fun p => isAccess p && decide (p.due ≤ n)).length
    + sum (k.runs.map fun x => (biasWords (s.handle r c x.d.biash) x n).length)
    + sum ((k.streams ++ (s.upcoming r c n).toList).map fun st => streamAccesses st n)

/-- AU of cluster `c` in schedule cycle `n` (R191). -/
def clusterAu (s : State) (r c n : Nat) : Nat :=
  let k := s.cluster r c
  let vec := k.idle == 0 && (VecSlot.ofWord (s.progPeek r c k.pc)).op != 0
  (if 0 < n ∧ n ≤ k.pressEnd then 16 else 0) + (if 0 < n ∧ n ≤ k.pourEnd then 6 else 0)
    + (if vec || k.sfu.any (fun p => decide (p.1 ≤ n ∧ n < p.2)) then 3 else 0) + s.bankAccesses r c n

/-- AU of region `r` in schedule cycle `n` (R191, R192). -/
def regionAu (s : State) (r n : Nat) : Nat := ((s.enabledClusters r).map fun c => s.clusterAu r c n).foldl (· + ·) 0

/-- The activity check of a cycle (R192 to R194): the window count and its peak, or fault 0x020C. -/
def auCheck (s : State) (r n : Nat) : State :=
  let win := (if n % 1024 = 0 then 0 else s.fld (Rg.AU_WIN_COUNT r)) + s.regionAu r n
  let decl := match (s.region r).seg with
    | some g => imgDecl s.image s.place r g.idx
    | none => 0
  if decl < win then s.raise r { code := 0x20C, detail := n / 1024, aux := win }
  else
    let s := s.setFld (Rg.AU_WIN_COUNT r) win
    if s.fld (Rg.AU_PEAK_PEAK r) < win then s.setFld (Rg.AU_PEAK_PEAK r) win else s

/-! ### Execution -/

/-- A step over a list of clusters: every cluster takes its part even if another has faulted in this ACLK (R112). -/
def allClusters (f : State → Nat → State) (cs : List Nat) (s : State) : State := cs.foldl f s

/-- The slots of the bundle of cluster `c` issue in cycle `n`, LINK down to PRESS (R89, R112). -/
def issueSlots (s : State) (r c n : Nat) : State :=
  let k := s.cluster r c
  if 0 < k.idle then s
  else
    match s.progFetch r c k.pc 0xFF with
    | (none, s) => s
    | (some w, s) =>
      let link := wbits w 255 224
      let mem := wbits w 223 192
      let po := EngSlot.ofNat (wbits w 127 80)
      let pr := EngSlot.ofNat (wbits w 79 32)
      let v := VecSlot.ofWord w
      let s := if bits link 31 28 = 1 then s.routeIssue r c (bits link 26 13) (bit link 27) n k.pc else s
      let s := if bits mem 31 28 = 1 then s.xferIssue r c (bits mem 26 13) (bit mem 27) n k.pc
        else if bits mem 31 28 = 2 then s.relIssue r c (bits mem 26 21) n k.pc else s
      let s := if v.op = 0 then s else s.vecIssue r c v n k.pc
      let s := if po.op = 1 then s.engineIssue r c po 2 n k.pc
        else if po.op = 2 then s.cbIssue r c po.tile (po.low % 4 + 1) n k.pc else s
      if pr.op = 1 then s.engineIssue r c pr 1 n k.pc else s

/-- The CTL slot of cluster `c`, and its next bundle (R85, R91). -/
def ctlStep (s : State) (r c : Nat) : State :=
  let k := s.cluster r c
  let w := wbits (s.progPeek r c k.pc) 31 0
  if k.idle = 0 ∧ bits w 31 26 = 3 then s.ctlSegend r
  else
    let s := if k.idle = 0 ∧ bits w 31 26 = 4 then s.ctlMark r c (bits w 15 0) else s
    s.setCluster r c (k.ctl w)

/-- What a cluster moves in cycle `n` after its issue: pops, streams, the engines, the MEM path and bank accesses. -/
def moveCluster (s : State) (r c n : Nat) : State :=
  let s := s.popSides r c n everySource
  let s := s.streamsCycle r c n
  let s := s.enginesCycle r c n
  let s := s.memCycle r c n
  s.landSel r c n isAccess

/-- The inbound queues that blocked operations wait on show WAIT, the others do not (R161). -/
def setWaits (s : State) (r : Nat) (qs : List Nat) : State :=
  (List.range 22).foldl (fun s q =>
    let v := if qs.contains q then 1 else 0
    if s.fld (Rg.QSTAT_WAIT r q) = v then s else s.setFld (Rg.QSTAT_WAIT r q) v) s

/-- The start of schedule cycle `n` of region `r`: due effects land (R87) and activity is checked (R194). -/
def opening (s : State) (r n : Nat) : State := (allClusters (fun s c => s.land r c n) (s.enabledClusters r) s).auCheck r n

/-- An asserted operation on a queue that is not ready faults (R111). -/
def assertFault (s : State) (r : Nat) (q : QDue) : State :=
  s.raise r { code := 0x201, cluster := q.c, bundle := q.bundle, slot := q.slot, qh := q.qh, detail := q.idx }

/-- The asserted operations on queues that are not ready; one on a fenced queue faults as such (R111, R167). -/
def unready (qs : List QDue) : List QDue := qs.filter fun q => q.asserted && !q.ready && !q.fenced

/-- Operations on fenced queues fault (R167). -/
def fenceFaults (s : State) (r : Nat) (qs : List QDue) : State :=
  (qs.filter QDue.fenced).foldl (fun s q =>
    s.raise r { code := 0x203, cluster := q.c, bundle := q.bundle, slot := q.slot, qh := q.qh }) s

/-- Operations that hold the region: of the blocking form, and not ready (R110). -/
def blockers (due : List QDue) : List QDue := due.filter fun q => !q.asserted && !q.ready

/-- An ACLK for pending cycle `n` whose due queue operations are `due` begins, and its faults are gathered (R112): those that
arise as the cycle opens, operations on fenced queues, asserted operations on queues that are not ready where the ACLK is
the one that executes the cycle (R111), and a HALT that waits (R173). -/
def faultsAt (s : State) (r n : Nat) (due : List QDue) (last : Bool) : State :=
  let s := ((s.openBatch r).opening r n).fenceFaults r due
  let s := if last then (unready due).foldl (fun s q => s.assertFault r q) s else s
  match (s.region r).haltReq with
  | some src => (s.modRegion r fun g => { g with haltReq := none }).raise r { code := 0x20D, detail := src }
  | none => s

/-- Schedule cycle `n` of region `r`, which has opened without a fault (`faultsAt`), executes (R85, R163): deliveries and
bundles move, and the counter advances. Every fault of the ACLK is recorded (R112). -/
def executeCycle (s : State) (r n : Nat) : State :=
  let cs := s.enabledClusters r
  let s := s.setWaits r []
  let s := s.modRegion r fun g => { g with stall := 0, wstall := 0, stallReqs := g.stallReqs.filter fun e => decide (n < e.cycle) }
  let s := allClusters (fun s c => s.landSel r c n isDeliver) cs s
  let s := allClusters (fun s c => s.issueSlots r c n) cs s
  let s := allClusters (fun s c => s.moveCluster r c n) cs s
  let s := allClusters (fun s c =>
    s.modCluster r c fun k => { k with inb := k.inb.filter fun b => decide (n < b.at_) }) cs s
  let s := s.flush r
  if (s.region r).halted then s
  else
    let s := allClusters (fun s c => s.ctlStep r c) cs s
    s.modRegion r fun g => { g with cycle := n + 1 }

/-- The length of the widening and excess-beat stalls that fall on cycle `n` (R80, R163). -/
def stallLen (g : Region) (n : Nat) : Nat :=
  (g.stallReqs.filter fun e => e.cycle == n).foldl (fun m e => Nat.max m e.len) 0

/-- AU of the extra passes in stall ACLK `k` of cycle `n` (R191). -/
def stallAu (g : Region) (n k : Nat) : Nat :=
  (g.stallReqs.filter fun e => e.cycle == n && decide (k < e.len)).foldl (fun m e => m + e.au) 0

/-- Stall ACLK `k` of cycle `n` moves the extra passes and beats that it is for (R80, R158) unless a queue that an
asserted move needs is not ready, which is a fault (R111), and is counted (R164). -/
def stallStep (s : State) (r n k : Nat) (fs : List FlowAt) (due : List QDue) : State :=
  let s := s.modRegion r fun g => { g with stall := g.stall + 1, wstall := g.wstall + 1 }
  let s := (s.count (Rg.WSTALL_COUNT r) 1).count (Rg.STALL_AU r) (stallAu (s.region r) n k)
  let s := (unready due).foldl (fun s q => s.assertFault r q) (s.openBatch r)
  (if (s.region r).halted then s else s.stallMove r (n - 1) fs).flush r

/-- An ACLK of region `r` that is a stall ACLK of cycle `n` for a widening or excess-beat stall (R163, R164): while a queue
that a beat of the stall needs is not ready, the stall waits. -/
def wideStall (s : State) (r n : Nat) : State :=
  match s.stallPath r n (s.region r).wstall with
  | (fs, s) =>
    let due := s.stallDue r (n - 1) fs
    if (due.any QDue.fenced) then ((s.openBatch r).fenceFaults r due).flush r
    else if (blockers due).isEmpty then s.stallStep r n (s.region r).wstall fs due
    else
      ((s.modRegion r fun g => { g with stall := g.stall + 1 }).count (Rg.WSTALL_COUNT r) 1).setWaits r
        ((blockers due).filterMap QDue.inq)

/-- An ACLK of region `r` that is a stall ACLK of its pending cycle because a queue is not ready (R110, R164). -/
def queueStall (s : State) (r : Nat) (due : List QDue) : State :=
  ((s.modRegion r fun g => { g with stall := g.stall + 1 }).count (Rg.QSTALL_COUNT r) 1).setWaits r
    ((blockers due).filterMap QDue.inq)

/-- One ACLK of region `r` for its pending schedule cycle (R112, R163, R164, R167): a fault takes effect before anything
issues or moves, and before a stall begins or goes on; otherwise the ACLK is a stall ACLK of the cycle, or executes it. -/
def aclk (s : State) (r : Nat) : State :=
  let g := s.region r
  let n := g.cycle
  let due := s.dueOps r n
  let stalls := decide (g.wstall < stallLen g n)
  let o := s.faultsAt r n due (!stalls && (blockers due).isEmpty)
  if (o.region r).halted then (o.flush r).setWaits r []
  else if stalls then s.wideStall r n
  else if (blockers due).isEmpty then o.executeCycle r n
  else s.queueStall r due

/-- Would the ACLK execute the pending cycle? -/
def executes (s : State) (r : Nat) : Bool :=
  let g := s.region r
  let due := s.dueOps r g.cycle
  decide (stallLen g g.cycle ≤ g.wstall) && (blockers due).isEmpty && !((s.faultsAt r g.cycle due true).region r).halted

/-- The operations that hold the pending cycle: those of an excess-beat stall in progress, otherwise the cycle's own. -/
def heldUp (s : State) (r : Nat) : List QDue :=
  let g := s.region r
  if g.wstall < stallLen g g.cycle then
    let x := s.stallPath r g.cycle g.wstall
    blockers (x.2.stallDue r (g.cycle - 1) x.1)
  else blockers (s.dueOps r g.cycle)

/-- A queue-stall timeout (R165): the pending cycle's stall ACLK have reached the limit and a blocking operation is
still not ready. -/
def queueTimeout (s : State) (r : Nat) : State :=
  let g := s.region r
  let lim := s.fld (Rg.QCTL_LIMEXP r)
  match s.heldUp r with
  | [] => s
  | q :: _ =>
    if lim = 0 ∨ g.stall < 2 ^ lim then s
    else s.raise r { code := 0x202, cluster := q.c, bundle := q.bundle, slot := q.slot, qh := q.qh, detail := g.stall,
                     aux := q.slot }

/-- May the region pop its segment queue: an image is READY or RUNNING, the region is not in a segment, halted,
tripped or held, and no swap holds it (R176, R295, R326)? -/
def mayBegin (s : State) (r : Nat) : Bool :=
  let g := s.region r
  let st := s.fld Rg.IMG_STAT_STATE
  (st == 3 || st == 4) && g.seg.isNone && s.live r && !s.gopHolds r && s.reachable r
  && !(s.flag (Rg.SWP_HOLD_ARM r) && !s.swpDone r) && !(s.enabledClusters r).isEmpty

/-- A cluster at the entry of a segment (R85). -/
def enterCluster (s : State) (r c idx : Nat) : State :=
  s.modCluster r c fun k =>
    { k with pc := cfgEntry (s.clusterSection 0x13 r c) idx % 16384, idle := 0, loops := [], mem := [], runs := [], streams := [],
             inb := [], pressEnd := 0, pourEnd := 0, sfu := [] }

/-- The segment queue is popped and the segment begins (R85, R176): every effect of the last segment has landed. -/
def beginSegment (s : State) (r : Nat) : State :=
  match (s.region r).segq with
  | [] => s
  | no :: rest =>
    match segIndex s.image s.place no with
    | none => s
    | some idx =>
      let cs := s.enabledClusters r
      let last := (s.region r).cycle + 2 ^ 33
      let s := allClusters (fun s c => s.landSel r c last fun p => !isDeliver p) cs s
      let s := allClusters (fun s c => s.landSel r c (last + 4) fun p => !isDeliver p) cs s
      let s := allClusters (fun s c => s.enterCluster r c idx) cs s
      let s := s.modRegion r fun g =>
        { g with seg := some ⟨no, idx⟩, cycle := 0, segq := rest, stall := 0, wstall := 0, stallReqs := [] }
      let s := s.wr (Rg.SEGSEQ r) (s.rd (Rg.SEGSEQ r) + 1)
      if s.fld Rg.IMG_STAT_STATE = 3 then s.setImgState 4 else s

end State
end Sys2Proof.Machine
end

