-- ==== Sys2Proof/Machine/Mesh.lean ====
section
/-!
DEFINITION. The paths of sideband packets across the array (R172, R174) and the packets that are lost on them (R170).
-/
namespace Sys2Proof.Machine

/-- The router of a node, as mesh X and Y; a region controller and a stack controller quarter sit at the router of cluster 10
(R14, R172). -/
def nodeXY (node : Nat) : Nat × Nat :=
  if bits node 15 14 = 0 then (bits node 13 7, bits node 6 2)
  else (7 * (bits node 6 0 % 12) + 3, 4 * (bits node 6 0 / 12) + 1)

/-- The regions between mesh columns `x1` and `x2` of mesh row `y`. -/
def rowRun (y x1 x2 : Nat) : List Nat :=
  ((List.range 12).filter fun i => Nat.min (x1 / 7) (x2 / 7) ≤ i ∧ i ≤ Nat.max (x1 / 7) (x2 / 7)).map fun i => 12 * (y / 4) + i

/-- The regions between mesh rows `y1` and `y2` of mesh column `x`. -/
def colRun (x y1 y2 : Nat) : List Nat :=
  ((List.range 8).filter fun i => Nat.min (y1 / 4) (y2 / 4) ≤ i ∧ i ≤ Nat.max (y1 / 4) (y2 / 4)).map fun i => 12 * i + x / 7

/-- The regions that a packet crosses between port `p` and the control complex in the W segment (R323). The spec gives no port a
place along its segment: mesh row 31 of N and mesh row 0 of S as far as the port's column, and the port's row of E, which
`Config.portPlace` leaves open (DESIGN CHOICE, log 120). -/
def portWay (p : Nat) : List Nat :=
  match p / 8 with
  | 0 => []
  | 1 => rowRun 31 0 (Config.portPlace p % 84)
  | 2 => rowRun (Config.portPlace p % 32) 0 83
  | _ => rowRun 0 0 (Config.portPlace p % 84)

namespace State

/-- The regions from the node at `p` to the hub of segment `seg` (0 W, 1 N, 2 E, 3 S), along row or column. -/
def hubRun (p : Nat × Nat) (seg : Nat) : List Nat :=
  match seg with
  | 0 => rowRun p.2 0 p.1
  | 1 => colRun p.1 p.2 31
  | 2 => rowRun p.2 p.1 83
  | _ => colRun p.1 0 p.2

/-- The regions that a packet from node `src` to node `dest` passes, both ends among them (R174): from a hub along the
destination's row or column; from a region controller to the W or E hub by the row of its SBROUTE; from any other node to a hub
along its own row or column; and otherwise X before Y, or Y before X with ORD. -/
def sidePath (s : State) (ord : Bool) (src dest : Nat) : List Nat :=
  match bits src 15 14, bits dest 15 14 with
  | 2, 2 => []
  | 2, _ => hubRun (nodeXY dest) (bits src 13 12)
  | 1, 2 =>
    let r := bits src 6 0
    let p := nodeXY src
    let row := s.fld (Rg.SBROUTE_ROW r)
    if bits dest 13 12 % 2 = 0 then colRun p.1 p.2 row ++ hubRun (p.1, row) (2 * s.fld (Rg.SBROUTE_HUB r))
    else hubRun p (bits dest 13 12)
  | _, 2 => hubRun (nodeXY src) (bits dest 13 12)
  | _, _ =>
    let p := nodeXY src
    let q := nodeXY dest
    if ord then colRun p.1 p.2 q.2 ++ rowRun q.2 p.1 q.1 else rowRun p.2 p.1 q.1 ++ colRun q.1 p.2 q.2

/-- Does a packet reach its destination: no region on its path is fenced or without power (R167, R174)? -/
def pathOpen (s : State) (ord : Bool) (src dest : Nat) : Bool :=
  (s.sidePath ord src dest).all fun r => s.powered r && !s.yFenced r

/-- Does a packet cross between port `p` and the control complex (R174, R323)? -/
def portReach (s : State) (p : Nat) : Bool := (Machine.portWay p).all fun r => s.powered r && !s.yFenced r

/-- Where a packet was discarded, as the entry's source (R399): region or 96, REGION, CLUSTER. -/
def discardSource (place : Nat) : Nat × Nat × Nat :=
  match bits place 15 14 with
  | 0 =>
    let x := bits place 13 7
    let y := bits place 6 2
    (12 * (y / 4) + x / 7, 12 * (y / 4) + x / 7, 7 * (y % 4) + x % 7)
  | 2 => (96, 0xFF, 0xFE)
  | _ => (bits place 6 0, bits place 6 0, 0xFF)

/-- A packet of TYPE `type` with an uncorrectable flit is discarded at router `node`, with an entry (R170). -/
def flitLost (s : State) (node type : Nat) : State :=
  let w := discardSource node
  s.log w.1 { code := 0x402, region := w.2.1, cluster := w.2.2, loc0 := node, loc1 := type }

/-- A packet of TYPE `type` on its way from `src` to `dest`: it is lost at router `node` by an uncorrectable flit (R170), is discarded at
a fence (R174), or arrives and has the effect `f`. -/
def carried (s : State) (ord : Bool) (src dest type : Nat) (node : Option (BitVec 16)) (f : State → State) : State :=
  match node with
  | some n => if s.power.on then s.flitLost n.toNat type else s
  | none => if s.pathOpen ord src dest then f s else s

end State
end Sys2Proof.Machine
end

