-- ==== Sys2Proof/Machine/Vybin.lean ====
section
/-!
DEFINITION. The Vybin ports (R300 to R315): link flits, credits and replay, training and negotiation, module-boundary
queues, the peer check and link loss. The flits that a port can send are sent at once; an idle flit is sent when it tells
something new.
-/
namespace Sys2Proof.Machine

/-- CBCLK in a microsecond (R431, R463: CBCLK is 1.5 GHz). -/
def usCb : Nat := 1500

/-- The lanes of a port in the order in which groups of them are tried, as masks (R307). -/
def laneGroups (v : Nat) : List Nat := [0xFF, 0x0F, 0xF0] ++ (if 2 ≤ v then [0x03, 0x0C, 0x30, 0xC0] else [])

/-- The port that a port faces in the cabling of R314. -/
def facingPort (p : Nat) : Nat := if p < 8 then 23 - p else if p < 16 then 39 - p else if p < 24 then 23 - p else 39 - p

/-- The 140 bytes of a flit (R301). -/
def flitBytes (type seq ack dcred ccred : Nat) (nak : Bool) (pay : List Byte) : List Byte :=
  let b := leBytes 1 type ++ leBytes 2 seq ++ leBytes 2 (ack + if nak then 0x8000 else 0) ++ leBytes 2 (dcred % 8192)
    ++ leBytes 1 (ccred % 256) ++ padTo 128 pay
  b ++ leBytes 4 (crc32c b)

/-- Is the flit whole, with a correct CRC (R301, R302)? -/
def flitOk (f : List Byte) : Bool := f.length == 140 && fieldAt f 136 4 == crc32c (f.take 136)

/-- The flits of a sideband packet (R171): header and payload. -/
def Packet.words (p : Packet) : List DWord :=
  BitVec.ofNat 64 (p.type * 2 ^ 60 + p.pay.length * 2 ^ 56 + p.dest * 2 ^ 40 + p.src * 2 ^ 24 + p.tag * 2 ^ 16 +
    p.ord.toNat * 2 ^ 15 + p.arg) :: p.pay

/-- The edge ring's hub of a port's segment (R172). -/
def portHub (p : Nat) : Nat := 0x8000 + (p / 8) * 4096

namespace State

/-- Port `p` outside its registers. -/
def port (s : State) (p : Nat) : Port := Store.get Port.reset s.ports p
/-- Port `p` becomes `x`. -/
def setPort (s : State) (p : Nat) (x : Port) : State := { s with ports := Store.set Port.reset s.ports p x }
/-- Port `p` changes by `f`. -/
def modPort (s : State) (p : Nat) (f : Port → Port) : State := s.setPort p (f (s.port p))
/-- Is the port UP (R310)? -/
def portUp (s : State) (p : Nat) : Bool := s.fld (Rg.VYB_STAT_STATE p) == 2
/-- The lowest-numbered port UP on the edge that faces array side `side` (R323). -/
def edgePort (s : State) (side : Nat) : Option Nat := (List.range 32).find? fun p => portSide p == side && s.portUp p
/-- The port on which HB_ROUTE leads to the bridge of the group (R321, R323), if one is UP. -/
def routePort (s : State) : Option Nat :=
  let dx := s.fld Rg.HB_ROUTE_DX
  let dy := s.fld Rg.HB_ROUTE_DY
  if !s.flag Rg.HB_ROUTE_EN ∨ (dx = 0 ∧ dy = 0) then none
  else s.edgePort (if dx = 0 then (if dy < 16 then 0 else 2) else if dx < 16 then 1 else 3)

/-- Does the module reach the host (R487): its active bridge has a link, or HB_ROUTE leads to the bridge of its group? -/
def hostReach (s : State) : Bool :=
  if s.flag Rg.HB_CFG_ACTIVE then s.fld Rg.HB_CFG_RATE != 0 else s.routePort.isSome

/-- Connector `g` of the Vybin cables. -/
def cable (s : State) (g : Nat) : Cable := Store.get Cable.none s.power.cables g
/-- Connector `g` becomes `x`. -/
def setCable (s : State) (g : Nat) (x : Cable) : State :=
  { s with power := { s.power with cables := Store.set Cable.none s.power.cables g x } }

/-- Can a signal reach port `p`? Not where the VCAB of its connector is latched off, nor, over an active cable, while VCAB is
off (R482); near-end loopback needs no cable (R310). -/
def portLit (s : State) (p : Nat) : Bool :=
  let c := s.cable (p / 8)
  s.flag (Rg.VYB_CTL_LOOP p) || (!c.latched && (!c.active || c.on))

/-- Is an image in force (R196)? -/
def imgInForce (s : State) : Bool := 3 ≤ s.fld Rg.IMG_STAT_STATE && s.fld Rg.IMG_STAT_STATE ≤ 4
/-- The DOMAIN section in force (R316). -/
def domain (s : State) : List Byte := domainBytes s.image s.place

/-- The capability word of port `p` (R306). -/
def capWord (s : State) (p : Nat) : List Byte :=
  let vmax := s.fld Rg.VYB_DOMVER_VERMAX
  let fec := (if 2 ≤ vmax then 3 else 1) &&& s.fld (Rg.VYB_CTL_FECALLOW p)
  leBytes 1 vmax ++ leBytes 1 1 ++ leBytes 1 fec ++ leBytes 1 (s.port p).lanes ++ leBytes 1 s.fuse.archrev ++ leBytes 1 p
    ++ leBytes 2 (s.mbqDepth p) ++ padTo 16 s.fuse.serial
    ++ (if s.imgInForce then bytesAt (padTo 16 s.domain) 8 8 else leBytes 8 0)
    ++ leBytes 2 (if s.imgInForce then imgModpos s.image else 0xFFFF) ++ leBytes 30 0

/-- A flit goes out with the port's acknowledgement and credits, and with the NAK that waits for a flit (R302, R303); near-end
loopback brings it back to the port (R310). -/
def sendFlit (s : State) (p type seq : Nat) (pay : List Byte) : State :=
  let x := s.port p
  let f := flitBytes type seq ((x.rxNext + 4095) % 4096) x.freedD x.freedC x.nakDue pay
  let s := s.modPort p fun x => { x with told := (x.freedD, x.freedC, x.rxNext), nakDue := false }
  if s.flag (Rg.VYB_CTL_LOOP p) then s.modPort p fun x => { x with loop := x.loop ++ [f] } else s.emit (.flit p f)

/-- An idle flit. -/
def sendIdle (s : State) (p : Nat) : State := s.sendFlit p 0 0 []

/-- The capability word is sent in a training flit (R306). -/
def sendCap (s : State) (p : Nat) : State := s.sendFlit p 3 0 (s.capWord p)

/-- A numbered flit is sent and kept for replay (R302). -/
def sendNumbered (s : State) (p type : Nat) (pay : List Byte) : State :=
  let x := s.port p
  (s.sendFlit p type x.txNext pay).modPort p fun x =>
    { x with txNext := (x.txNext + 1) % 4096, replay := x.replay ++ [⟨x.txNext, type, pay, 0⟩] }

/-! ### Training -/

/-- A training begins (R305): its first phase is DETECT. -/
def train (s : State) (p : Nat) (fast : Bool) : State :=
  let s := s.setPort p { Port.reset with
    phase := .detect, since := s.time.cb, began := s.time.cb, fast := fast, outq := (s.port p).outq, inq := (s.port p).inq
    next := (s.port p).next }
  (s.setFld (Rg.VYB_STAT_STATE p) 1).setFld (Rg.VYB_STAT_TRIES p) (Nat.min 255 (s.fld (Rg.VYB_STAT_TRIES p) + 1))

/-- The port becomes FAILED (R305, R307). -/
def portFail (s : State) (p : Nat) : State :=
  (s.modPort p fun x => { x with phase := .none }).setFld (Rg.VYB_STAT_STATE p) 3

/-- The port enters a phase; a pass from EQUALISE is counted and no fast one, and after three the port becomes FAILED (R305). -/
def enterPhase (s : State) (p : Nat) (ph : Phase) : State :=
  if ph = .equalise ∧ 3 ≤ (s.port p).passes then s.portFail p
  else
    s.modPort p fun x =>
      { x with phase := ph, since := s.time.cb, copies := 0, peer := if ph = .exchange then [] else x.peer
               passes := if ph = .equalise then x.passes + 1 else x.passes
               fast := x.fast && ph != .equalise }

/-- What two capability words agree on (R307): version, the mask of the lanes used and FEC mode; none when the port
becomes FAILED. `own` and `peer` are the words, `dom` is the lower VYB_DOMVER of the two ends, `loop` near-end loopback. -/
def negotiate (own peer : List Byte) (dom lanemin : Nat) (loop : Bool) : Option (Nat × Nat × Nat) :=
  let v := Nat.min (Nat.min (byteAt own 0) (byteAt peer 0)) dom
  let good := byteAt own 3 &&& byteAt peer 3
  let fec := byteAt own 2 &&& byteAt peer 2
  match (laneGroups v).find? fun m => good &&& m == m with
  | none => none
  | some m =>
    if v < byteAt own 1 ∨ v < byteAt peer 1 ∨ popcount 8 m < 2 ^ (lanemin + 1) ∨ byteAt own 4 ≠ byteAt peer 4 then none
    else if 2 ≤ v ∧ bit fec 1 then some (v, m, 2)
    else if bit fec 0 then some (v, m, 1)
    else if loop then some (v, m, 0)
    else none

/-- What port `p` and its peer, whose VYB_DOMVER is `dom`, agree on (R307). -/
def agreed (s : State) (p dom : Nat) : Option (Nat × Nat × Nat) :=
  negotiate (s.capWord p) (s.port p).peer (Nat.min (s.fld Rg.VYB_DOMVER_VER) dom) (s.fld (Rg.VYB_CTL_LANEMIN p))
    (s.flag (Rg.VYB_CTL_LOOP p))

/-! ### Fences, the peer check and the boundary queues -/

/-- Both module-boundary queues of the port are emptied: the inbound entries are freed, which the peer is told (R301, R303). -/
def emptyPort (s : State) (p : Nat) : State :=
  s.modPort p fun x => { x with outq := [], inq := [], freedD := x.freedD + x.inq.length }

/-- Both module-boundary queues of the port become fenced and lose their entries (R309). -/
def fencePort (s : State) (p : Nat) : State :=
  (s.emptyPort p).setFld (Rg.MBQSTAT_FENCED p) 1

/-- What the peer's capability word says is taken into the port's registers (R310). -/
def takePeer (s : State) (p : Nat) : State :=
  let w := (s.port p).peer
  ((s.setFld (Rg.VYB_STAT_PEERPORT p) (byteAt w 5)).setFld (Rg.VYB_PEER_PEERPOS p) (fieldAt w 32 2)).setFld
    (Rg.VYB_PEER_PEERARCH p) (byteAt w 4)

/-- The peer check (R315) of a bound port that is UP, once an image is READY; a peer with no image in force has not yet
loaded, and the check waits. -/
def peerCheck (s : State) (p : Nat) : State :=
  let w := (s.port p).peer
  let b := s.domain
  if !s.imgInForce || !s.flag (Rg.VYB_BIND_EN p) || !s.portUp p || fieldAt w 32 2 == 0xFFFF then s
  else if bytesAt w 24 8 = bytesAt b 8 8 ∧
      some (fieldAt w 32 2) = facing (byteAt b 0) (byteAt b 1) (byteAt b 2) (imgModpos s.image) (portSide p) ∧
      byteAt w 5 = facingPort p then
    s.setFld (Rg.VYB_PEER_MATCH p) 1
  else
    ((s.setFld (Rg.VYB_PEER_MISMATCH p) 1).fencePort p).logEdge 0x406 p (fieldAt w 32 2) (byteAt w 5)

/-- Are the port's module-boundary queues in use: bound, checked and not fenced (R312, R315)? -/
def mbqOpen (s : State) (p : Nat) : Bool :=
  s.flag (Rg.VYB_BIND_EN p) && s.flag (Rg.VYB_PEER_MATCH p) && !s.flag (Rg.MBQSTAT_FENCED p)

/-- Entry group `g` of the inbound queue is retired (R310). -/
def mbqRetired (s : State) (p g : Nat) : Bool :=
  if g < 32 then bit (s.rd (Rg.MBQRET_LO p)) g else bit (s.rd (Rg.MBQRET_HI p)) (g - 32)

/-- The first inbound storage entry at or after `i`, in rotation, whose group is not retired; `n` bounds the groups. -/
def mbqSlot (s : State) (p : Nat) : Nat → Nat → Nat
  | 0, i => i % 4096
  | n + 1, i => if s.mbqRetired p (i % 4096 / 64) then s.mbqSlot p n ((i / 64 + 1) * 64) else i % 4096

/-- Beats move from the bound crossing's queue into the outbound queue while it has room (R312), each checked as the edge ring pops
it (R162): an error that cannot be corrected fences the port, as R313 has it for the inbound queue. -/
def ringOut (s : State) (p : Nat) : Nat → State
  | 0 => s
  | n + 1 =>
    let key := keyOfQh (s.fld (Rg.VYB_BIND_OUTQ p))
    if 4096 ≤ (s.port p).outq.length then s
    else
      match s.pop key with
      | (some e, s) =>
        if badSubs e.beat ≠ 0 then (s.fencePort p).logEdge 0x405 p e.slot 0
        else
          let s := if e.beat.flip = 0 then s else s.logEdge 0x304 (qhOfKey key) e.slot (Config.syndrome 1096 e.beat.flip.toNat)
          (s.modPort p fun x => { x with outq := x.outq ++ [LBeat.ofBeat (checkedData e.beat)] }).ringOut p n
      | (none, s) => s

/-- Beats move from the inbound queue into the bound crossing's queue while it has room, each checked (R312, R313). -/
def ringIn (s : State) (p : Nat) : Nat → State
  | 0 => s
  | n + 1 =>
    let key := keyOfQh (s.fld (Rg.VYB_BIND_INQ p))
    match (s.port p).inq with
    | [] => s
    | (slot, b) :: rest =>
      if !s.pushReady key then s
      else
        let s := s.modPort p fun x => { x with inq := rest, freedD := x.freedD + 1 }
        if badSubs b ≠ 0 then (s.fencePort p).logEdge 0x405 p slot 0
        else
          let s := if b.flip = 0 then s else s.logEdge 0x306 p slot (Config.syndrome 1096 b.flip.toNat)
          (s.push key (LBeat.ofBeat (checkedData b))).ringIn p n

/-! ### Sending -/

/-- One flit that the port can send now (R303): a control flit against a control credit, before data but at most one flit in
four while data waits; a data flit against a data credit. -/
def pumpOne (s : State) (p : Nat) : Option State :=
  let x := s.port p
  let room := decide (x.replay.length < 1024)
  let data := room && !x.outq.isEmpty && s.mbqOpen p
    && decide ((x.sentD + 8192 - x.peerD) % 8192 < fieldAt x.peer 6 2)
  let ctl := room && !x.ctl.isEmpty && decide ((x.sentC + 256 - x.peerC) % 256 < 64)
  if ctl && (!data || decide (3 ≤ x.run)) then
    some ((s.sendNumbered p 2 (ofWords (x.ctl.take 16))).modPort p fun x =>
      { x with ctl := x.ctl.drop 16, run := if x.outq.isEmpty then 3 else 0, sentC := (x.sentC + 1) % 256 })
  else if data then
    match x.outq with
    | b :: rest =>
      some ((s.sendNumbered p 1 (leBytes 128 b.data.toNat)).modPort p fun x =>
        { x with outq := rest, run := x.run + 1, sentD := (x.sentD + 1) % 8192 })
    | [] => none
  else none

/-- Flits are sent while any can be. -/
def pump (s : State) (p : Nat) : Nat → State
  | 0 => s
  | n + 1 =>
    match s.pumpOne p with
    | some s => s.pump p n
    | none => s

/-- An idle flit goes out when the port's credits or acknowledgement have changed since the last flit, or a NAK is due, and no other
flit told it (R302, R303). -/
def tell (s : State) (p : Nat) : State :=
  let x := s.port p
  if x.told = (x.freedD, x.freedC, x.rxNext) ∧ x.nakDue = false then s else s.sendIdle p

/-- Everything that can move at port `p` moves: edge ring and link (R303, R312). -/
def portRun (s : State) (p : Nat) : State :=
  if s.portUp p then
    let s := if s.mbqOpen p then (s.ringIn p 4096).ringOut p 4096 else s
    let s := s.pump p 2048
    (if s.mbqOpen p then (s.ringOut p 4096).pump p 2048 else s).tell p
  else s

/-- Everything that can move at any port moves. -/
def portsRun (s : State) : State :=
  (List.range 32).foldl (fun s p => if s.flag (Rg.VYB_BIND_EN p) then s.portRun p else s) s

/-- Words of a packet that crosses a link are queued at a port (R304), once it has crossed the array to the port's hub (R323). -/
def portSend (s : State) (p : Nat) (k : Packet) : State :=
  if s.portReach p then (s.modPort p fun x => { x with ctl := x.ctl ++ k.words }).portRun p else s

/-! ### Link loss -/

/-- Port `p` is lost to the transfer in which the module receives: when no other port of the path to its source is UP, the path
is lost and the loader stops with cause 10 (R286, R288). -/
def pathLost (s : State) (p : Nat) : State :=
  let x := s.rxSession
  let ports := (List.range x.path.2).map fun i => x.path.1 + i
  if x.step ≠ 0 && ports.contains p && ports.all fun q => q == p || !s.portUp q then
    ({ s with rxSession := Session.idle } : State).loadFail 10 (if x.step = 5 then x.next else x.model)
  else s

/-- An UP port leaves its link: its queues are fenced if an image runs (R309), and a transfer may lose its path (R288). -/
def portLeave (s : State) (p : Nat) : State :=
  if s.portUp p then
    let s := s.pathLost p
    let s := if s.fld Rg.IMG_STAT_STATE = 4 then s.fencePort p else s
    let s := ((s.setFld (Rg.VYB_STAT_VER p) 0).setFld (Rg.VYB_STAT_LANES p) 0).setFld (Rg.VYB_STAT_FEC p) 0
    s.setFld (Rg.VYB_PEER_MATCH p) 0
  else s

/-- An UP port loses its link (R309): the loss is counted, and the port trains again. -/
def portDown (s : State) (p : Nat) : State :=
  if s.portUp p then
    ((s.count (Rg.VYB_LOSS p) 1).portLeave p).train p (decide (2 ≤ s.fld (Rg.VYB_STAT_VER p)))
  else s

/-- The port is not to run: DOWN without training. -/
def portOff (s : State) (p : Nat) : State :=
  ((s.portLeave p).modPort p fun x => { x with phase := .none }).setFld (Rg.VYB_STAT_STATE p) 0

/-- The port becomes UP (R305): credits and sequence numbers start from zero. -/
def portEnter (s : State) (p : Nat) (v mask fec : Nat) : State :=
  let s := s.modPort p fun x =>
    { x with phase := .none, rxNext := 0, txNext := 0, replay := [], run := 3, ctl := [], rxWords := [], freedD := 0, freedC := 0
             peerD := 0, peerC := 0, sentD := 0, sentC := 0, nak := false, nakDue := false, told := (0, 0, 0) }
  let s := (((s.setFld (Rg.VYB_STAT_STATE p) 2).setFld (Rg.VYB_STAT_VER p) v).setFld (Rg.VYB_STAT_LANES p) (popcount 8 mask)).setFld
    (Rg.VYB_STAT_FEC p) fec
  ((s.takePeer p).peerCheck p).portRun p

/-- Has a fast retrain used up its 5 ms (R305)? -/
def fastOver (s : State) (p : Nat) : Bool := decide ((s.port p).began + 5000 * usCb < s.time.cb)

/-- The port's training phase completes (R305, R307). In LOCK `lanes` are those that locked; in CHECK those without an
uncorrectable codeword. `dom` is the peer's VYB_DOMVER. A port that no signal can reach stays in DETECT (R482). -/
def phaseDone (s : State) (p lanes dom : Nat) : State :=
  let x := s.port p
  match x.phase with
  | .none => s
  | .detect => if s.portLit p then s.enterPhase p (if x.fast && !s.fastOver p then .lock else .equalise) else s
  | .equalise => s.enterPhase p .lock
  | .lock =>
    (List.range 16).foldl (fun s _ => s.sendCap p) ((s.modPort p fun x => { x with lanes := lanes }).enterPhase p .exchange)
  | .exchange =>
    if x.copies < 16 then s
    else
      match s.agreed p dom with
      | some d => (s.modPort p fun x => { x with deal := d }).enterPhase p .check
      | none => s.portFail p
  | .check =>
    let m := x.deal.2.1
    if lanes &&& m = m then s.portEnter p x.deal.1 m x.deal.2.2 else s.enterPhase p .equalise

/-- The limit of a phase, in µs (R305). -/
def phaseLimit (ph : Phase) : Nat :=
  match ph with | .equalise => 60000 | .lock => 20000 | .exchange => 1000 | .check => 2000 | _ => 0

/-- The port's phase, or its fast retrain, has exceeded its limit: another pass from EQUALISE (R305). -/
def phaseLate (s : State) (p : Nat) : State :=
  let x := s.port p
  if phaseLimit x.phase ≠ 0 ∧ (x.since + phaseLimit x.phase * usCb < s.time.cb ∨ (x.fast ∧ s.fastOver p)) then s.enterPhase p .equalise
  else s

/-- DETECT is tried again every 10 ms (R305). -/
def detectAgain (s : State) (p : Nat) (signal : Bool) : State :=
  let x := s.port p
  if x.phase ≠ .detect ∨ s.time.cb < x.since + 10000 * usCb then s
  else if signal && s.portLit p then s.phaseDone p 0 0
  else s.modPort p fun x => { x with since := s.time.cb }

/-- A write of VYB_CTL (R305, R310): a change of EN or RETRAIN acts. -/
def vybCtl (s : State) (p v : Nat) : State :=
  let was := s.flag (Rg.VYB_CTL_EN p)
  let s := s.wr (Rg.VYB_CTL p) (v &&& 0xBE000000)
  if !bit v 31 then (if was then s.portOff p else s)
  else if !was then s.train p false
  else if bit v 30 then (s.portLeave p).train p false
  else s

/-! ### Receiving -/

/-- The peer acknowledges up to `ack`, and what it says of its credits is taken (R302, R303). -/
def takeAck (s : State) (p : Nat) (f : List Byte) : State :=
  let ack := bits (fieldAt f 3 2) 11 0
  s.modPort p fun x =>
    { x with replay := match x.replay.findIdx? fun e => e.seq == ack with | some i => x.replay.drop (i + 1) | none => x.replay
             peerD := bits (fieldAt f 5 2) 12 0, peerC := byteAt f 7 }

/-- A NAK: every flit after the one acknowledged is resent; one that was resent 16 times takes the link down (R302). -/
def resendAll (s : State) (p : Nat) : State :=
  let x := s.port p
  if x.replay.any fun e => decide (16 ≤ e.resent) then s.portDown p
  else
    let s := s.count (Rg.VYB_RESEND p) x.replay.length
    let s := x.replay.foldl (fun s e => s.sendFlit p e.type e.seq e.pay) s
    s.modPort p fun x => { x with replay := x.replay.map fun e => { e with resent := e.resent + 1 } }

/-- Acknowledgements, credits and a NAK of a flit whose CRC is correct. -/
def takeCredits (s : State) (p : Nat) (f : List Byte) : State :=
  let s := s.takeAck p f
  if bit (fieldAt f 3 2) 15 then s.resendAll p else s

/-- A NAK asks for the flit expected (R302): the next flit of the port carries it. -/
def askAgain (s : State) (p : Nat) : State := s.modPort p fun x => { x with nak := true, nakDue := true }

/-- A flit whose CRC fails is counted and discarded, and a NAK sent (R302, R310). -/
def badFlit (s : State) (p : Nat) : State := (s.count (Rg.VYB_CRC p) 1).askAgain p

/-- A numbered flit out of sequence is discarded; the NAK for the flit expected is sent once (R302). -/
def outOfOrder (s : State) (p : Nat) : State := if (s.port p).nak then s else s.askAgain p

/-- The flit in sequence is accepted. -/
def accept (s : State) (p : Nat) : State := s.modPort p fun x => { x with rxNext := (x.rxNext + 1) % 4096, nak := false }

/-- A beat enters the inbound queue unless the queue is full (R311); a fenced one discards it, which frees its entry (R303, R309).
`flip` is the error of the storage entry that takes it (R313). -/
def inbound (s : State) (p : Nat) (pay : List Byte) (flip : BitVec 1096) : State :=
  if s.flag (Rg.MBQSTAT_FENCED p) then s.modPort p fun x => { x with freedD := x.freedD + 1 }
  else if s.mbqDepth p ≤ (s.port p).inq.length then s
  else
    let slot := s.mbqSlot p 64 (s.port p).next
    s.modPort p fun x =>
      { x with inq := x.inq ++ [(slot, ⟨BitVec.ofNat 1024 (leNat pay), flip⟩)], next := (slot + 1) % 4096 }

/-- The packets whole in a list of words, with the words of one that is not; a word of TYPE 0 ends the packets (R304). -/
def takePackets : Nat → List DWord → List (List DWord) × List DWord
  | 0, ws => ([], ws)
  | _ + 1, [] => ([], [])
  | n + 1, w :: ws =>
    let k := 1 + bits w.toNat 59 56
    if bits w.toNat 63 60 = 0 then ([], [])
    else if ws.length + 1 < k then ([], w :: ws)
    else
      let r := takePackets n ((w :: ws).drop k)
      ((w :: ws).take k :: r.1, r.2)

/-- A packet that came over a link (R304): RELAY and MARK go on across the array to the control complex from the port's hub (R323),
unless a fence stops them (R174) or an uncorrectable flit loses one at router `node` (R170); others are discarded with an entry. -/
def linkPacket (s : State) (p : Nat) (node : Option (BitVec 16)) (ws : List DWord) : State :=
  match ws with
  | [] => s
  | h :: pay =>
    let h := h.toNat
    let t := bits h 63 60
    if t = 0xB ∨ t = 9 then
      match node with
      | some n => s.flitLost n.toNat t
      | none => if s.portReach p then s.emit (.packet ⟨t, 0x8000, portHub p, bits h 23 16, bits h 14 0, pay, bit h 15⟩) else s
    else s.logEdge 0x403 p t 2

/-- The words of a control flit (R304). -/
def ctlWords (s : State) (p : Nat) (pay : List Byte) (node : Option (BitVec 16)) : State :=
  let r := takePackets 64 ((s.port p).rxWords ++ toWords 16 (padTo 128 pay))
  let s := s.modPort p fun x => { x with rxWords := r.2, freedC := x.freedC + 1 }
  r.1.foldl (fun s ws => s.linkPacket p node ws) s

/-- A numbered flit of TYPE `type` arrives at an UP port; `f` takes its payload (R302). -/
def numbered (s : State) (p type : Nat) (flit : List Byte) (f : State → State) : State :=
  if !s.portUp p then s
  else if !flitOk flit then (s.badFlit p).portRun p
  else if bits (byteAt flit 0) 3 0 ≠ type then s
  else
    let s := s.takeCredits p flit
    if !s.portUp p then s
    else if bits (fieldAt flit 1 2) 11 0 = (s.port p).rxNext then
      (f (s.accept p)).portRun p
    else (s.outOfOrder p).portRun p

/-- An idle flit: its acknowledgement and credits are taken (R302). -/
def idleTake (s : State) (p : Nat) (flit : List Byte) : State :=
  if !s.portUp p then s
  else if !flitOk flit then (s.badFlit p).portRun p
  else if bits (byteAt flit 0) 3 0 ≠ 0 then s
  else (s.takeCredits p flit).portRun p

/-- A training flit (R305, R306): at an UP port its acknowledgement and credits are taken too; in EXCHANGE it is counted, and
the own capability word repeated. -/
def training (s : State) (p : Nat) (flit : List Byte) : State :=
  let w := bytesAt flit 8 64
  if !flitOk flit then (if s.portUp p then (s.badFlit p).portRun p else s.count (Rg.VYB_CRC p) 1)
  else if bits (byteAt flit 0) 3 0 ≠ 3 then s
  else if s.portUp p then
    let s := s.takeCredits p flit
    if s.portUp p then (((s.modPort p fun x => { x with peer := w }).takePeer p).peerCheck p).portRun p else s
  else if (s.port p).phase = .exchange then
    (s.modPort p fun x => if x.peer = w then { x with copies := x.copies + 1 } else { x with peer := w, copies := 1 }).sendCap p
  else s

/-- Corrected and uncorrectable FEC codewords are counted (R310). -/
def fecSeen (s : State) (p : Nat) (fec : Nat × Nat) : State :=
  if !s.power.on then s
  else
    let s := if fec.1 = 0 then s else s.count (Rg.VYB_FEC_CE p) fec.1
    if fec.2 = 0 then s else s.count (Rg.VYB_FEC_UE p) fec.2

/-- A flit from the peer, with the codewords that carried it; near-end loopback cuts the peer off (R310). -/
def fromPeer (s : State) (p : Nat) (fec : Nat × Nat) (f : State → State) : State :=
  if s.flag (Rg.VYB_CTL_LOOP p) then s else f (s.fecSeen p fec)

/-- A flit that near-end loopback brings back to its port (R301, R310). -/
def receiveFlit (s : State) (p : Nat) (flit : List Byte) : State :=
  match bits (byteAt flit 0) 3 0 with
  | 1 => s.numbered p 1 flit fun s => s.inbound p (bytesAt flit 8 128) 0
  | 2 => s.numbered p 2 flit fun s => s.ctlWords p (bytesAt flit 8 128) none
  | 3 => s.training p flit
  | _ => s.idleTake p flit

/-- The flits that near-end loopback holds arrive at their ports. -/
def loopsStep (s : State) : State :=
  (List.range 32).foldl (fun s p =>
    let fs := (s.port p).loop
    if fs.isEmpty then s else fs.foldl (fun s f => s.receiveFlit p f) (s.modPort p fun x => { x with loop := [] })) s

/-- The capability words are sent again once the image is READY, and the peer checks are made (R306, R315). -/
def announceReady (s : State) : State :=
  (List.range 32).foldl (fun s p => if s.portUp p then ((s.sendCap p).peerCheck p).portRun p else s) s

/-- The bindings of the image's DOMAIN section are written to VYB_BIND, and the fences of the module-boundary queues clear
(R309, R316). -/
def bindPorts (s : State) (img : List Byte) (pl : Nat) : State :=
  let bs := bindings (domainBytes img pl)
  (List.range 32).foldl (fun s p =>
    let v := match bs.find? fun b => b.port == p with
      | some b => 2 ^ 31 + b.outq % 8192 * 65536 + b.inq % 8192
      | none => 0
    let s := if s.rd (Rg.VYB_BIND p) = v then s else s.wr (Rg.VYB_BIND p) v
    if s.flag (Rg.MBQSTAT_FENCED p) || s.flag (Rg.VYB_PEER_MATCH p) || s.flag (Rg.VYB_PEER_MISMATCH p) then
      ((s.setFld (Rg.MBQSTAT_FENCED p) 0).setFld (Rg.VYB_PEER_MATCH p) 0).setFld (Rg.VYB_PEER_MISMATCH p) 0
    else s) s

end State
end Sys2Proof.Machine
end

