-- ==== Sys2Proof/Machine/Ctl.lean ====
section
/-!
DEFINITION. The rows of the CTL slot and of a region's schedule: IDLE, LOOP, SEGEND, MARK (R91), the segment pop (R176),
the execution of a schedule cycle (R163) and the queue timeout (R165). A slot row stands for the issue of that slot by
its cluster in the region's current schedule cycle (log 5).
-/
namespace Sys2Proof.Machine

/-- The outcome of a step. -/
abbrev Out := Host.Outcome State Fault Refusal

/-- May cluster `p` issue: enabled, in a region that is not halted or tripped (R91, R166, R366)? -/
def State.canIssue (s : State) (p : Site) : Bool := s.enabled p.r p.c && s.live p.r

/-- A slot row: effects that are due land; then, if the cluster may issue, the operation issues in the region's current
schedule cycle from the cluster's current bundle; an encoding that R90 refuses is a fault. -/
def slotRow (p : Site) (ok : State → Nat → Bool) (f : State → Nat → Nat → State) (s : State) : Out :=
  if s.canIssue p then
    let n := (s.region p.r).cycle
    if ok s n then .next (f (s.land p.r p.c n) n (s.cluster p.r p.c).pc) else .fault .reservedEncoding
  else .next s

/-- A CTL row: the slot acts if the cluster may issue. -/
def ctlRow (p : Site) (f : State → State) (s : State) : Out := .next (if s.canIssue p then f s else s)

/-- IDLE (R91). -/
def execIdle (p : Site) (n : BitVec 16) (s : State) : Out :=
  ctlRow p (fun s => s.modCluster p.r p.c fun k => k.ctlIdle n.toNat) s

/-- LOOP (R91). -/
def execLoop (p : Site) (len : BitVec 10) (cnt : BitVec 16) (s : State) : Out :=
  ctlRow p (fun s => s.modCluster p.r p.c fun k => k.ctlLoop (len.toNat + 1) (cnt.toNat + 1)) s

/-- SEGEND (R91). -/
def execSegend (p : Site) (s : State) : Out := ctlRow p (fun s => s.ctlSegend p.r) s

/-- MARK (R91, R465). -/
def execMark (p : Site) (v : BitVec 16) (s : State) : Out :=
  ctlRow p (fun s => (s.ctlMark p.r p.c v.toNat).modCluster p.r p.c Cluster.advance) s

/-- The segment queue is popped (R176). -/
def execSegmentBegin (r : Fin 96) (s : State) : Out := .next (if s.mayBegin r then s.beginSegment r else s)

/-- Errors that links inside region `r` bring into the beats present at its clusters (R148): cluster, side and error pattern. -/
def State.linkErrors (s : State) (r : Nat) (errs : List (Fin 28 × Fin 4 × BitVec 1096)) : State :=
  errs.foldl (fun s e => s.modCluster r e.1 fun k =>
    { k with inb := k.inb.map fun b =>
        if b.side = e.2.1.val ∧ b.at_ = (s.region r).cycle then { b with beat := { b.beat with flip := b.beat.flip ^^^ e.2.2 } } else b }) s

/-- One ACLK of a running region for its pending schedule cycle (R163), its links bringing the errors `errs`. -/
def execScheduleCycleExecutes (r : Fin 96) (s : State) (errs : List (Fin 28 × Fin 4 × BitVec 1096) := []) : Out :=
  if s.running r then
    let s := s.linkErrors r errs
    if s.executes r && !(s.enabledClusters r).all fun c => s.bundleOk r c (s.region r).cycle then
      .fault .reservedEncoding
    else .next (s.aclk r).portsRun
  else .next s

/-- The queue-stall timeout (R165). -/
def execQueueTimeout (r : Fin 96) (s : State) : Out := .next (if s.running r then s.queueTimeout r else s)

end Sys2Proof.Machine
end

