-- ==== Sys2Proof/Machine/Link.lean ====
section
/-!
DEFINITION. The rows of the Vybin links (R301 to R309) and of their cables (R482).
-/
namespace Sys2Proof.Machine
namespace State

/-- VCAB follows CPRES, CTYPE, VSD and its latch (R482); `vsd` says that VSD is in regulation. -/
def vcabStep (s : State) (g : Nat) (vsd : Bool) : State :=
  let c := s.cable g
  let on := c.mated && c.active && vsd && !c.latched
  if on = c.on then s else (s.setCable g { c with on := on }).emit (.vcab g on)

/-- Every VCAB follows VSD (R482). -/
def vcabAll (s : State) : State := (List.range 4).foldl (fun s g => s.vcabStep g s.power.rails.vsd) s

/-- The ports of a segment find no signal (R309, R482): those UP go DOWN, and a training starts over in DETECT. -/
def segmentDark (s : State) (g : Nat) : State :=
  (List.range 8).foldl (fun s b =>
    let p := 8 * g + b
    if s.portUp p then s.portDown p
    else if (s.port p).phase = .none then s
    else s.modPort p fun x => { x with phase := .detect, since := s.time.cb }) s

end State

/-- A data flit (R302, R311). -/
def execLinkDataFlit (p : Fin 32) (flit : List Byte) (s : State) (flip : BitVec 1096 := 0) (fec : Nat × Nat := (0, 0)) : Out :=
  .next (s.fromPeer p fec fun s => s.numbered p 1 flit fun s => s.inbound p (bytesAt flit 8 128) flip)

/-- A control flit (R302, R304). -/
def execLinkControlFlit (p : Fin 32) (flit : List Byte) (s : State) (fec : Nat × Nat := (0, 0))
    (lost : Option (BitVec 16) := none) : Out :=
  .next (s.fromPeer p fec fun s => s.numbered p 2 flit fun s => s.ctlWords p (bytesAt flit 8 128) lost)

/-- An idle flit (R302). -/
def execIdleFlit (p : Fin 32) (flit : List Byte) (s : State) (fec : Nat × Nat := (0, 0)) : Out :=
  .next (s.fromPeer p fec fun s => s.idleTake p flit)

/-- A training flit (R306). -/
def execTrainingFlit (p : Fin 32) (flit : List Byte) (s : State) (fec : Nat × Nat := (0, 0)) : Out :=
  .next (s.fromPeer p fec fun s => s.training p flit)

/-- DETECT is tried again (R305). -/
def execDetectRetry (p : Fin 32) (signal : Bool) (s : State) : Out := .next (s.detectAgain p signal)

/-- The port's training phase completes (R305). -/
def execTrainingPhaseComplete (p : Fin 32) (lanes : Byte) (s : State) (peerDom : BitVec 4 := 1) : Out :=
  .next (s.phaseDone p lanes.toNat peerDom.toNat)

/-- The port's training phase exceeds its limit (R305). -/
def execTrainingPhaseLimit (p : Fin 32) (s : State) : Out := .next (s.phaseLate p)

/-- FEC lock is lost on a lane in use (R309). -/
def execLinkLoss (p : Fin 32) (s : State) : Out := .next (s.portDown p)

/-- The peer stopped sending (R309). -/
def execPeerSilent (p : Fin 32) (s : State) : Out := .next (s.portDown p)

/-- A cable is mated (R482). -/
def execCableMated (g : Fin 4) (active : Bool) (s : State) : Out :=
  .next ((s.setCable g { s.cable g with mated := true, active := active }).vcabStep g s.power.rails.vsd)

/-- A cable is removed (R482). -/
def execCableRemoved (g : Fin 4) (s : State) : Out :=
  .next (((s.setCable g { s.cable g with mated := false, active := false }).vcabStep g s.power.rails.vsd).segmentDark g)

/-- VCAB above 3.5 A for 1 ms is latched off until the next power-up (R482). -/
def execVcabOvercurrent (g : Fin 4) (s : State) : Out :=
  .next (if (s.cable g).on then
    ((s.setCable g { s.cable g with latched := true }).vcabStep g s.power.rails.vsd).segmentDark g else s)

end Sys2Proof.Machine
end

