-- ==== Sys2Proof/Machine/Sha.lean ====
section
/-!
DEFINITION. SHA-512 (R178, R280, R382, R393, R450, R466): the published function, FIPS 180-4, over 64-bit words as numbers
(PRESUMED, log 11: the spec names the function and does not repeat its definition).
-/
namespace Sys2Proof.Machine

/-- The round constants: the first 64 bits of the fractional parts of the cube roots of the first 80 primes. -/
def shaK : List Nat :=
  [0x428A2F98D728AE22, 0x7137449123EF65CD, 0xB5C0FBCFEC4D3B2F, 0xE9B5DBA58189DBBC, 0x3956C25BF348B538,
   0x59F111F1B605D019, 0x923F82A4AF194F9B, 0xAB1C5ED5DA6D8118, 0xD807AA98A3030242, 0x12835B0145706FBE,
   0x243185BE4EE4B28C, 0x550C7DC3D5FFB4E2, 0x72BE5D74F27B896F, 0x80DEB1FE3B1696B1, 0x9BDC06A725C71235,
   0xC19BF174CF692694, 0xE49B69C19EF14AD2, 0xEFBE4786384F25E3, 0x0FC19DC68B8CD5B5, 0x240CA1CC77AC9C65,
   0x2DE92C6F592B0275, 0x4A7484AA6EA6E483, 0x5CB0A9DCBD41FBD4, 0x76F988DA831153B5, 0x983E5152EE66DFAB,
   0xA831C66D2DB43210, 0xB00327C898FB213F, 0xBF597FC7BEEF0EE4, 0xC6E00BF33DA88FC2, 0xD5A79147930AA725,
   0x06CA6351E003826F, 0x142929670A0E6E70, 0x27B70A8546D22FFC, 0x2E1B21385C26C926, 0x4D2C6DFC5AC42AED,
   0x53380D139D95B3DF, 0x650A73548BAF63DE, 0x766A0ABB3C77B2A8, 0x81C2C92E47EDAEE6, 0x92722C851482353B] ++
  [0xA2BFE8A14CF10364, 0xA81A664BBC423001, 0xC24B8B70D0F89791, 0xC76C51A30654BE30, 0xD192E819D6EF5218,
   0xD69906245565A910, 0xF40E35855771202A, 0x106AA07032BBD1B8, 0x19A4C116B8D2D0C8, 0x1E376C085141AB53,
   0x2748774CDF8EEB99, 0x34B0BCB5E19B48A8, 0x391C0CB3C5C95A63, 0x4ED8AA4AE3418ACB, 0x5B9CCA4F7763E373,
   0x682E6FF3D6B2B8A3, 0x748F82EE5DEFB2FC, 0x78A5636F43172F60, 0x84C87814A1F0AB72, 0x8CC702081A6439EC,
   0x90BEFFFA23631E28, 0xA4506CEBDE82BDE9, 0xBEF9A3F7B2C67915, 0xC67178F2E372532B, 0xCA273ECEEA26619C,
   0xD186B8C721C0C207, 0xEADA7DD6CDE0EB1E, 0xF57D4F7FEE6ED178, 0x06F067AA72176FBA, 0x0A637DC5A2C898A6,
   0x113F9804BEF90DAE, 0x1B710B35131C471B, 0x28DB77F523047D84, 0x32CAAB7B40C72493, 0x3C9EBE0A15C9BEBC,
   0x431D67C49C100D4C, 0x4CC5D4BECB3E42B6, 0x597F299CFC657E2A, 0x5FCB6FAB3AD6FAEC, 0x6C44198C4A475817]

/-- The initial hash value: the same of the square roots of the first 8 primes. -/
def shaH : List Nat :=
  [0x6A09E667F3BCC908, 0xBB67AE8584CAA73B, 0x3C6EF372FE94F82B, 0xA54FF53A5F1D36F1, 0x510E527FADE682D1,
   0x9B05688C2B3E6C1F, 0x1F83D9ABFB41BD6B, 0x5BE0CD19137E2179]

/-- A sum of 64-bit words. -/
def add64 (x y : Nat) : Nat := (x + y) % 0x10000000000000000

/-- A 64-bit word rotated right. -/
def rotr64 (x n : Nat) : Nat := x >>> n ||| (x <<< (64 - n)) % 0x10000000000000000

/-- The eight working variables, a to h. -/
structure ShaVars where
  a : Nat
  b : Nat
  c : Nat
  d : Nat
  e : Nat
  f : Nat
  g : Nat
  h : Nat

/-- One round with constant `k` and schedule word `w`. -/
def shaRound (x : ShaVars) (k w : Nat) : ShaVars :=
  let t := add64 (add64 (add64 x.h (rotr64 x.e 14 ^^^ rotr64 x.e 18 ^^^ rotr64 x.e 41)) (add64 k w))
    ((x.e &&& x.f) ^^^ ((0xFFFFFFFFFFFFFFFF ^^^ x.e) &&& x.g))
  let u := add64 (rotr64 x.a 28 ^^^ rotr64 x.a 34 ^^^ rotr64 x.a 39) ((x.a &&& x.b) ^^^ (x.a &&& x.c) ^^^ (x.b &&& x.c))
  ⟨add64 t u, x.a, x.b, x.c, add64 x.d t, x.e, x.f, x.g⟩

/-- The schedule word 16 after the first of the 16 words `w`. -/
def shaNext (w : List Nat) : Nat :=
  let p := w.getD 14 0
  let q := w.getD 1 0
  add64 (add64 (rotr64 p 19 ^^^ rotr64 p 61 ^^^ p >>> 6) (w.getD 9 0)) (add64 (rotr64 q 1 ^^^ rotr64 q 8 ^^^ q >>> 7) (w.getD 0 0))

/-- The rounds with the constants that are left; `w` is the next 16 words of the schedule. -/
def shaRounds : List Nat → List Nat → ShaVars → ShaVars
  | [], _, x => x
  | k :: ks, w, x => shaRounds ks (w.drop 1 ++ [shaNext w]) (shaRound x k (w.getD 0 0))

/-- The hash value after a block of 16 words. -/
def shaBlock (h w : List Nat) : List Nat :=
  let x := shaRounds shaK w ⟨h.getD 0 0, h.getD 1 0, h.getD 2 0, h.getD 3 0, h.getD 4 0, h.getD 5 0, h.getD 6 0, h.getD 7 0⟩
  [add64 (h.getD 0 0) x.a, add64 (h.getD 1 0) x.b, add64 (h.getD 2 0) x.c, add64 (h.getD 3 0) x.d,
   add64 (h.getD 4 0) x.e, add64 (h.getD 5 0) x.f, add64 (h.getD 6 0) x.g, add64 (h.getD 7 0) x.h]

/-- The number whose bytes, most significant first, are `bs`. -/
def beNat (bs : List Byte) : Nat := bs.foldl (fun n b => 256 * n + b.toNat) 0

/-- The `n` bytes of `x`, most significant first. -/
def beBytes (n x : Nat) : List Byte := (leBytes n x).reverse

/-- The hash value after `n` blocks of 128 bytes. -/
def shaBlocks : Nat → List Nat → List Byte → List Nat
  | 0, h, _ => h
  | n + 1, h, bs => shaBlocks n (shaBlock h ((List.range 16).map fun i => beNat (bytesAt bs (8 * i) 8))) (bs.drop 128)

/-- The message padded to whole blocks. -/
def shaPad (bs : List Byte) : List Byte :=
  bs ++ [0x80] ++ List.replicate ((239 - bs.length % 128) % 128) 0 ++ beBytes 16 (8 * bs.length)

/-- SHA-512. -/
def sha512 (bs : List Byte) : List Byte :=
  (shaBlocks ((shaPad bs).length / 128) shaH (shaPad bs)).flatMap (beBytes 8)

end Sys2Proof.Machine
end

