-- ==== Sys2Proof/Machine/Attest.lean ====
section
/-!
DEFINITION. The fuse registers (R466), the digests of R450 and the attestation quote.
-/
namespace Sys2Proof.Machine

/-- VARIANT as a number (R443). -/
def Variant.code : Variant → Nat
  | .s => 0
  | .m => 1
  | .e => 2

namespace State

/-- FUSE_ID (R466). -/
def fuseId (s : State) : Nat := s.fuse.silrev % 65536 * 65536 + s.fuse.archrev % 256 * 256 + Variant.code s.fuse.variant

/-- The fuse register at offset `o` of the fuse block, 0 to 0x13C (R466). -/
def fuseReg (s : State) (o : Nat) : Nat :=
  if o < 0x10 then fieldAt s.fuse.serial o 4
  else if o = 0x10 then s.fuseId
  else if o = 0x14 then s.fuse.pcap % 65536 * 65536 + s.fuse.fmax % 65536
  else if o = 0x18 then s.fuse.svnmin % 2 ^ 32
  else if o = 0x1C then s.fuse.revoked % 16 * 16 + s.fuse.prog % 16
  else if o = 0x20 then s.fuse.mac % 2 ^ 32
  else if o = 0x24 then bits s.fuse.mac 47 32
  else if 0x40 ≤ o then (s.fuse.owner.getD ((o - 0x40) / 4) 0).toNat
  else 0

/-- The offsets of the 74 implemented fuse registers, in address order (R466). -/
def fuseOffsets : List Nat := (List.range 10).map (4 * ·) ++ (List.range 64).map fun i => 0x40 + 4 * i

/-- FUSEDIG (R450, R466). -/
def fuseDig (s : State) : List Byte := sha512 (fuseOffsets.flatMap fun o => leBytes 4 (s.fuseReg o))

/-- YMAPDIG: the digest of the 99 yield-map registers in address order (R379, R450). -/
def ymapDig (s : State) : List Byte :=
  sha512 (((List.range 3).map fun i => s.rd (Rg.YMAP_FENCE i)) ++ ((List.range 96).map fun r => s.rd (Rg.YMAP_CL r))
    |>.flatMap (leBytes 4))

/-- The standing reports in stage order (R378). -/
def standing (s : State) : List (List Byte) := (List.range 8).filterMap fun k => Store.find s.bring.reports k

/-- RPTDIG (R450). -/
def rptDig (s : State) : List Byte := sha512 s.standing.flatten

/-- `n` bytes at offset `o` of the standing P6 report, or zeros (R379, R450). -/
def p6Bytes (s : State) (o n : Nat) : List Byte :=
  match Store.find s.bring.reports 6 with
  | some b => padTo n (bytesAt b o n)
  | none => leBytes n 0

/-- The placement image digest while READY or RUNNING, else zero (R443). -/
def piDig (s : State) : List Byte :=
  if s.fld Rg.IMG_STAT_STATE = 3 ∨ s.fld Rg.IMG_STAT_STATE = 4 then padTo 64 (imgDigest s.image) else leBytes 64 0

/-- The firmware digest, or zeros (R443). -/
def fwDig (s : State) : List Byte := padTo 64 s.bring.fwdig

/-- Bytes 0 to 575 of a quote over a nonce (R450). -/
def quoteBody (s : State) (nonce : List Byte) : List Byte :=
  [0x4C, 0x57, 0x41, 0x51] ++ leBytes 2 1 ++ leBytes 1 s.fuse.archrev ++ leBytes 1 (Variant.code s.fuse.variant)
  ++ leBytes 2 s.fuse.silrev ++ leBytes 1 s.bring.keyslot ++ leBytes 1 0 ++ leBytes 4 s.bring.svn ++ padTo 16 s.fuse.serial
  ++ padTo 32 (nonce.take 32) ++ leBytes 8 s.ns ++ s.fwDig ++ s.piDig ++ s.fuseDig ++ s.p6Bytes 64 64 ++ s.p6Bytes 128 64
  ++ s.ymapDig ++ s.rptDig ++ leBytes 4 (s.rd Rg.IMG_STAT) ++ leBytes 4 (s.rd Rg.BU_STAT) ++ leBytes 4 s.mg.jseq ++ leBytes 44 0

/-- A quote over a nonce, signed by the identity key (R450), and the state that has drawn its salt. -/
def quote (s : State) (nonce : List Byte) : List Byte × State :=
  let b := s.quoteBody nonce
  (b ++ Config.pssSign b s.free, { s with free := s.free + 1 })

/-- The signature of a handshake message (R450). -/
def signMsg (s : State) (msg : List Byte) : List Byte × State :=
  (Config.pssSign ([0x4C, 0x57, 0x48, 0x53] ++ msg) s.free, { s with free := s.free + 1 })

end State

/-- Does a quote verify under a chain, over a nonce, for this architecture revision (R290)? -/
def quoteOk (q chain nonce : List Byte) (archrev : Nat) : Bool :=
  q.length == 1088 && bytesAt q 0 4 == [0x4C, 0x57, 0x41, 0x51] && fieldAt q 4 2 == 1 && bytesAt q 32 32 == nonce
  && byteAt q 6 == archrev && Config.pssVerify chain (q.take 576) (q.drop 576)

end Sys2Proof.Machine
end

