-- ==== Sys2Proof/Machine/Sched.lean ====
section
/-!
DEFINITION. The static schedule that the load checks read (R85, R87, R88, R198): a placement with at most one remap applied
(R185, R186), the bundles that each segment of a used cluster issues and when, and the resources, words and links that
their operations use in each schedule cycle.
-/
namespace Sys2Proof.Machine

/-- A placement, alone or with one remap declaration applied on top of it (R186). -/
structure View where
  img : List Byte
  p : Nat
  remap : Option Remap
  deriving DecidableEq, Repr

namespace View

/-- The cluster whose sections run in cluster `c` (R185). -/
def src (v : View) (r c : Nat) : Nat :=
  match v.remap with
  | some d => if d.region = r ∧ d.spare = c then d.covered else c
  | none => c

/-- Is a cluster used (R180, R185)? -/
def used (v : View) (r c : Nat) : Bool :=
  match v.remap with
  | some d => if d.region = r ∧ d.covered = c then false else imgUsed v.img v.p r (v.src r c)
  | none => imgUsed v.img v.p r c

/-- The used clusters, ascending. -/
def clusters (v : View) : List (Nat × Nat) :=
  ((List.range 2688).filter fun k => v.used (k / 28) (k % 28)).map fun k => (k / 28, k % 28)

/-- A cluster-keyed section as it runs in cluster `c`. -/
def sect (v : View) (type r c : Nat) : List Byte := sectionOf v.img type r (v.src r c) v.p

/-- The section-table index of a section (R198); zero if there is none. -/
def idx (v : View) (type r c : Nat) : Nat := ((findSection v.img type r c v.p).map Section.idx).getD 0

/-- The section-table index of a cluster-keyed section as it runs in cluster `c`. -/
def idxAt (v : View) (type r c : Nat) : Nat := v.idx type r (v.src r c)

/-- The program words that a cluster declares, by word address, with the patches of the applied remap (R180, R185). -/
def prog (v : View) (r c : Nat) : List (Nat × ProgWord) :=
  let b := v.sect 0x10 r c
  let m := (progRuns b.length b).foldl (fun m e =>
    e.2.zipIdx.foldl (fun m x => Store.put m (e.1 + x.2) x.1) m) ([] : List (Nat × ProgWord))
  match v.remap with
  | some d => if d.region = r then d.patches.foldl (fun m e => if e.1 = c then Store.put m e.2.1 e.2.2 else m) m else m
  | none => m

/-- Handle `h` of a cluster (R135). -/
def handle (v : View) (r c h : Nat) : Handle :=
  let b := v.sect 0x11 r c
  Handle.ofRegs (fieldAt b (8 * h) 4) (fieldAt b (8 * h + 4) 4)

/-- The enabled entry of the frame table for a route descriptor (R155): RSV and NBLK. -/
def frame (v : View) (r c raddr : Nat) : Option (Nat × Nat) :=
  let b := v.sect 0x12 r c
  ((List.range 32).find? fun i => bit (fieldAt b (8 * i) 4) 31 && bits (fieldAt b (8 * i) 4) 19 6 == raddr).map fun i =>
    (bits (fieldAt b (8 * i) 4) 5 0, bits (fieldAt b (8 * i + 4) 4) 19 0)

/-- The route descriptors of a cluster's program. -/
def routeDescs (v : View) (r c : Nat) : List RouteDesc :=
  let m := v.prog r c
  routesIn (v.sect 0x13 r c) m fun a => Store.get 0 m a

/-- What decides which streams of the view's programs carry XS (R157). -/
def xsMap (v : View) : XsMap :=
  ⟨v.routeDescs, fun r c => let m := v.prog r c; groupsIn (v.sect 0x13 r c) m fun a => Store.get 0 m a, imgOrigin v.img⟩

/-- The segment table: index, SEGNO and LENGTH (R187). -/
def segs (v : View) : List (Nat × Nat × Nat) := ((imgSegments v.img v.p).zipIdx).map fun e => (e.2, e.1.1, e.1.2.2)

end View

/-- The issue of a bundle: its schedule cycle, word address and bundle. -/
structure Iss where
  n : Nat
  a : Nat
  w : ProgWord
  deriving DecidableEq, Repr

/-- How the schedule of a segment ends: in SEGEND, in a LOOP that R90 refuses, or not within the declared length. -/
inductive SchedEnd where
  | segend (n : Nat)
  | loop (a : Nat)
  | never
  deriving DecidableEq, Repr

/-- The bundles that issue from address `pc` in schedule cycle `n` on (R85, R91), and how the segment ends. -/
def unroll (prog : List (Nat × ProgWord)) : Nat → Nat → List LoopFrame → Nat → List Iss × SchedEnd
  | 0, _, _, _ => ([], .never)
  | fuel + 1, pc, loops, n =>
    let w := Store.get (0 : ProgWord) prog pc
    let next := nextPc pc loops
    match wbits w 31 26 with
    | 3 => ([⟨n, pc, w⟩], if loops.isEmpty then .segend n else .loop pc)
    | 2 =>
      if 4 ≤ loops.length then ([⟨n, pc, w⟩], .loop pc)
      else
        let r := unroll prog fuel ((pc + 1) % 16384)
          (⟨(pc + 1) % 16384, wbits w 25 16 + 1, wbits w 15 0⟩ :: loops) (n + 1)
        (⟨n, pc, w⟩ :: r.1, r.2)
    | 1 =>
      let r := unroll prog fuel next.1 next.2 (n + wbits w 15 0 + 1)
      (⟨n, pc, w⟩ :: r.1, r.2)
    | _ =>
      let r := unroll prog fuel next.1 next.2 (n + 1)
      (⟨n, pc, w⟩ :: r.1, r.2)

/-- A used cluster in a segment: its place, program and mode, the segment's number and index, and its schedule. -/
structure CRun where
  v : View
  r : Nat
  c : Nat
  prog : List (Nat × ProgWord)
  seg : Nat
  len : Nat
  iss : List Iss
  fin : SchedEnd
  deriving DecidableEq, Repr

/-- The runs of a used cluster, one for each segment. A schedule is followed for as many bundles as the longest LENGTH has
cycles (R187). -/
def clusterRuns (v : View) (r c : Nat) : List CRun :=
  let prog := v.prog r c
  let cfg := v.sect 0x13 r c
  v.segs.map fun e =>
    let u := unroll prog (2 ^ 32 + 1) (cfgEntry cfg e.1 % 16384) [] 0
    ⟨v, r, c, prog, e.2.1, e.2.2, u.1, u.2⟩

namespace CRun

/-- A program word of the cluster. -/
def word (x : CRun) (a : Nat) : ProgWord := Store.get 0 x.prog a

/-- MODE of the image (R178). -/
def origin (x : CRun) : Bool := imgOrigin x.v.img

/-- Handle `h`. -/
def handle (x : CRun) (h : Nat) : Handle := x.v.handle x.r x.c h

/-- The engine operations of a kind: issue, slot and descriptor. -/
def ops (x : CRun) (kind : Nat) : List (Iss × EngSlot × OpDesc) :=
  x.iss.filterMap fun i =>
    let e := EngSlot.ofNat (if kind = 1 then wbits i.w 79 32 else wbits i.w 127 80)
    if e.op = 1 then some (i, e, OpDesc.ofWord (x.word e.daddr)) else none

/-- The codebook loads: issue, first tile and tile count. -/
def cbs (x : CRun) : List (Iss × Nat × Nat) :=
  x.iss.filterMap fun i =>
    let e := EngSlot.ofNat (wbits i.w 127 80)
    if e.op = 2 then some (i, e.tile, e.low % 4 + 1) else none

/-- The vector operations. -/
def vecs (x : CRun) : List (Iss × VecSlot) :=
  x.iss.filterMap fun i => let v := VecSlot.ofWord i.w; if v.op = 0 then none else some (i, v)

/-- The operations of the MEM path: transfers and releases (R104). -/
def mems (x : CRun) : List (Iss × MemOp) :=
  x.iss.filterMap fun i =>
    let m := wbits i.w 223 192
    if bits m 31 28 = 1 then
      some (i, { d := XferDesc.ofWord (x.word (bits m 26 13)), rel := false, form := bit m 27, issue := i.n, bundle := i.a,
                 buf := [] })
    else if bits m 31 28 = 2 then
      some (i, { d := ⟨2, 0, bits m 26 21, 0, 0, 0, 0, 0, 0, 0, 0⟩, rel := true, form := bit m 27, issue := i.n, bundle := i.a,
                 buf := [] })
    else none

/-- The route streams (R107, R108). -/
def routes (x : CRun) : List (Iss × Stream) :=
  x.iss.filterMap fun i =>
    let m := wbits i.w 255 224
    if bits m 31 28 = 1 then
      let a := bits m 26 13
      let f := (x.v.frame x.r x.c a).getD (0, 0)
      let d := RouteDesc.ofWord (x.word a)
      some (i, Stream.start d a (bit m 27) i.n i.a f.1 f.2 (carriesXs x.v.xsMap x.r x.c d))
    else none

end CRun

/-! ### When things happen -/

/-- When an operation of the MEM path completes (R106, R139 to R142). -/
def MemOp.completes (m : MemOp) (h : Handle) : Nat :=
  if m.rel then m.issue + m.rows h
  else
    match m.d.kind with
    | 0 => m.issue + 6 + m.rows h
    | 3 => m.issue + 10 + m.rows h
    | 4 => m.issue + 7 + m.rows h
    | _ => m.issue + 4 + m.rows h

/-- The logical banks of words `w0` to `w0 + n - 1` of a handle (R136). -/
def Handle.banks (h : Handle) (w0 n : Nat) : List Nat := (List.range n).map fun i => h.lbank + (w0 + i) % h.il

/-- The bank accesses of a MEM operation: schedule cycle and logical bank (R130, R140). -/
def MemOp.accesses (m : MemOp) (h h2 : Handle) : List (Nat × Nat) :=
  let p := m.range h
  (if m.d.kind = 4 ∧ ¬m.rel then (h2.banks (m.d.off2 / 8) 1).map fun b => (m.issue + 1, b) else [])
  ++ (List.range (m.rows h)).flatMap fun k =>
      let ws := rowWords h.il p.1 p.2 k
      ws.map (fun w => (m.issue + m.lead + k, h.lbank + w % h.il))
      ++ (if m.d.kind = 3 ∧ ¬m.rel then ws.map fun w => (m.issue + 7 + k, h2.lbank + (m.d.off2 / 8 + (w - p.1)) % h2.il) else [])

/-- The bank accesses of a stream's local ends (R109, R156). -/
def Stream.accesses (st : Stream) (h : Handle) : List (Nat × Nat) :=
  if st.d.frame = 1 then
    let ps := st.periods
    (List.range ps.length).flatMap fun f =>
      let s0 := frameStart ps f
      let nb := frameBlocks st.nblk f
      let total := ceilDiv (34 * nb) 8
      let rows (t : Nat) := (List.range (frameLocal nb)).flatMap fun i =>
        (h.banks ((st.d.loff + 1088 * f) / 8 + 24 * i) (Nat.min 24 (total - 24 * i))).map fun b => (t + i, b)
      (if st.d.srca = 4 then rows (st.issue + s0) else [])
      ++ (if st.d.sink = 4 then rows (st.issue + st.d.offset + s0 + ps.getD f 0 + 3) else [])
  else
    (List.range st.d.beats).flatMap fun k =>
      let at' (t j : Nat) := (h.banks (st.localOff j / 8) 16).map fun b => (t, b)
      (if st.d.srca = 4 then at' (st.issue + k) k
       else if st.d.srcb = 4 ∧ st.takesB k then at' (st.issue + k) (if st.d.rmode = 2 then k / 2 else k) else [])
      ++ (if st.d.sink = 4 then at' (st.delivers k) k else [])

/-- Lanes that a vector operation writes: register offset from D, first lane, count (R99, R102, R103). -/
def vecLanes (v : VecSlot) : List (Nat × Nat × Nat) :=
  if v.op = 0x40 ∨ v.op = 0x41 ∨ v.op = 0x42 then [(0, v.l0, 1)]
  else if v.op = 0x43 then [(0, v.l0, 1), (1, v.l0, 1)]
  else if v.op = 0x44 then [(0, v.l0, v.x + 1), (1, v.l0, v.x + 1)]
  else if v.op = 0x53 then [(0, v.l0, 2 ^ v.m)]
  else if 0x50 ≤ v.op then []
  else [(0, 0, 256)]

/-- Accumulators that a vector operation writes: its terms, or the accumulators it sets (R99). -/
def vecAccs (v : VecSlot) : List Nat :=
  if v.op = 0x50 ∨ v.op = 0x51 ∨ v.op = 0x52 ∨ v.op = 0x54 then (List.range (2 ^ v.m)).map fun i => (v.x + i) % 256 else []

/-- Accumulators that an engine operation adds to in a single-origin image (R95). -/
def opAccs (e : EngSlot) (d : OpDesc) : List Nat := ((List.range (d.units * d.rows)).map fun i => (e.accb + i) % 256).eraseDups

/-- Words of its port that row `k` of a transfer of kind 0 writes (R105): lanes by register, or accumulators from 2^20. -/
def xferLands (m : MemOp) (h : Handle) (k : Nat) : List Nat :=
  let p := m.range h
  let ws := rowWords h.il p.1 p.2 k
  let lo := m.d.off2 + 8 * (ws.headD p.1 - p.1)
  let hi := lo + 8 * ws.length - 1
  if m.d.port = 6 then
    (List.range (Nat.min 256 (hi / 4 + 1) - lo / 4)).map fun i => ((m.d.vsel / 64) * 32 + m.d.vsel % 32) * 256 + lo / 4 + i
  else if m.d.port = 7 then (List.range (hi / 88 + 1 - lo / 88)).map fun i => 2 ^ 20 + (m.d.acc0 + lo / 88 + i) % 256
  else if m.d.port = 8 ∧ k + 1 = m.rows h then (List.range 32).map fun i => 2 ^ 20 + (m.d.acc0 + i) % 256
  else []

/-- Vector lanes and accumulators that land from a run, each word once for an operation and cycle: schedule cycle, word (lanes
by register, then accumulators from 2^20), and the bundle (R87). An engine operation's accumulators land when they hold
their final values (R96). -/
def CRun.landings (x : CRun) : List (Nat × Nat × Nat) :=
  (x.vecs.flatMap fun e =>
    let v := e.2
    let t := e.1.n + vecLatency v.op v.m
    ((vecLanes v).flatMap fun l =>
      (List.range l.2.2).map fun i => (t, ((e.1.n % 4) * 32 + v.d + l.1) * 256 + l.2.1 + i, e.1.a))
    ++ (vecAccs v).map fun i => (t, 2 ^ 20 + i, e.1.a))
  ++ (x.mems.flatMap fun e =>
    let m := e.2
    let h := x.handle m.d.h
    if m.rel ∨ m.d.kind ≠ 0 then []
    else (List.range (m.rows h)).flatMap fun k => (xferLands m h k).map fun w => (m.issue + 7 + k, w, e.1.a))
  ++ if x.origin then
      [1, 2].flatMap fun k => (x.ops k).flatMap fun e =>
        (opAccs e.2.1 e.2.2).map fun i => (e.1.n + e.2.2.dur + 3, 2 ^ 20 + i, e.1.a)
    else []

/-- Bias words that an engine operation reads: schedule cycle and logical bank (R93). -/
def biasAccesses (h : Handle) (n : Nat) (d : OpDesc) : List (Nat × Nat) :=
  if d.init = 1 then
    (List.range ((d.units + 1) / 2)).map fun w => (n + 1 + Nat.min (w / h.il) (d.dur - 1), h.lbank + w % h.il)
  else []

/-- The bank accesses of a run (R130): schedule cycle, logical bank, bundle. -/
def CRun.accesses (x : CRun) : List (Nat × Nat × Nat) :=
  (x.mems.flatMap fun e => (e.2.accesses (x.handle e.2.d.h) (x.handle e.2.d.h2)).map fun p => (p.1, p.2, e.1.a))
  ++ (x.routes.flatMap fun e => (e.2.accesses (x.handle e.2.d.lh)).map fun p => (p.1, p.2, e.1.a))
  ++ [1, 2].flatMap fun k => (x.ops k).flatMap fun e =>
    (biasAccesses (x.handle e.2.2.biash) e.1.n e.2.2).map fun p => (p.1, p.2, e.1.a)

/-- Weight-tier port bytes that an operation is allotted in each ACLK (R57, R62, R93): a pour operation's PBYTES, and for a
press operation the records of one pass over the pass's ACLK. -/
def portShare (d : OpDesc) : Nat :=
  if d.kind = 2 then d.pbytes
  else ceilDiv (32 * wRecBytes d.wfmt) (wFactor d.wfmt * (if d.afmt = 1 then 4 else 1) * (if isCb d.wfmt then 2 else 1))

/-- Allotments of a run: first and last schedule cycle, bytes, bundle (R62, R92). -/
def CRun.allotments (x : CRun) : List (Nat × Nat × Nat × Nat) :=
  ([1, 2].flatMap fun k => (x.ops k).map fun e => (e.1.n + 1, e.1.n + e.2.2.dur, portShare e.2.2, e.1.a))
  ++ x.cbs.map fun e => (e.1.n + 1, e.1.n + cbloadD e.2.2, 2560, e.1.a)

/-- Terms that the engines give the accumulator file in each ACLK of an operation (R67, R68). -/
def termShare (d : OpDesc) : Nat :=
  if d.kind = 1 then ceilDiv (32 * d.rows) (wFactor d.wfmt * (if d.afmt = 1 then 4 else 1))
  else ceilDiv (d.units * d.ksteps * d.rows) d.dur

/-- Terms of the accumulator file: first and last schedule cycle, terms, bundle (R67). -/
def CRun.terms (x : CRun) : List (Nat × Nat × Nat × Nat) :=
  ([1, 2].flatMap fun k => (x.ops k).map fun e => (e.1.n + 1, e.1.n + e.2.2.dur, termShare e.2.2, e.1.a))
  ++ x.vecs.filterMap fun e =>
    if e.2.op = 0x50 ∨ e.2.op = 0x51 ∨ e.2.op = 0x52 then
      let t := e.1.n + vecLatency e.2.op e.2.m
      some (t, t, 2 ^ e.2.m, e.1.a)
    else none

/-- The accumulators to which operations of a run give terms: first and last schedule cycle, accumulators, bundle (R67). An
engine operation takes its accumulators' term slots for all of its cycles (DEDUCED, log 99). -/
def CRun.accTerms (x : CRun) : List (Nat × Nat × List Nat × Nat) :=
  ([1, 2].flatMap fun k => (x.ops k).map fun e => (e.1.n + 1, e.1.n + e.2.2.dur, opAccs e.2.1 e.2.2, e.1.a))
  ++ x.vecs.filterMap fun e =>
    if e.2.op = 0x50 ∨ e.2.op = 0x51 ∨ e.2.op = 0x52 then
      let t := e.1.n + vecLatency e.2.op e.2.m
      some (t, t, vecAccs e.2, e.1.a)
    else none

/-- Bundles of operations that give a term to an accumulator for which an earlier-listed one holds the slot. -/
def termClashes : List (Nat × Nat × List Nat × Nat) → List Nat
  | [] => []
  | e :: es =>
    ((es.filter fun f => decide (f.1 ≤ e.2.1 ∧ e.1 ≤ f.2.1) && f.2.2.1.any e.2.2.1.contains).map fun f => f.2.2.2) ++ termClashes es

/-- Bundles of intervals that begin before an earlier-listed one has ended: an interval is from, up to (exclusive), bundle. -/
def overlaps : List (Nat × Nat × Nat) → List Nat
  | [] => []
  | e :: es =>
    ((es.filter fun f => decide (f.1 < e.2.1 ∧ e.1 < f.2.1)).map fun f => f.2.2) ++ overlaps es

/-- Bundles that find more than `cap` in use in the first cycle of their share. -/
def overloads (cap : Nat) (l : List (Nat × Nat × Nat × Nat)) : List Nat :=
  l.filterMap fun e =>
    let sum := (l.filter fun f => decide (f.1 ≤ e.1 ∧ e.1 ≤ f.2.1)).foldl (fun n f => n + f.2.2.1) 0
    if cap < sum then some e.2.2.2 else none

/-- Bundles whose entry, as cycle and word, is listed before. -/
def repeats : List (Nat × Nat × Nat) → List Nat
  | [] => []
  | e :: es => ((es.filter fun f => f.1 == e.1 && f.2.1 == e.2.1).map fun f => f.2.2) ++ repeats es

/-- Occupations of engines, the special-function unit and the MEM path (R90, R100, R106), one list for each resource: from,
up to, bundle. -/
def CRun.busy (x : CRun) : List (List (Nat × Nat × Nat)) :=
  [(x.ops 1).map fun e => (e.1.n + 1, e.1.n + e.2.2.dur + 1, e.1.a),
   ((x.ops 2).map fun e => (e.1.n + 1, e.1.n + e.2.2.dur + 1, e.1.a))
     ++ x.cbs.map fun e => (e.1.n + 1, e.1.n + cbloadD e.2.2 + 1, e.1.a),
   x.vecs.filterMap fun e => (State.sfuSpan e.2 e.1.n).map fun p => (p.1, p.2, e.1.a),
   x.mems.map fun e => (e.1.n + 1, e.2.last (x.handle e.2.d.h) + 1, e.1.a)]

/-- Bundles of streams, listed in the order of their issue, whose first beat arrives at a sink before the last of an
earlier-listed stream. -/
def sinkClashes : List (Stream × Nat) → List Nat
  | [] => []
  | e :: es => ((es.filter fun f => e.1.d.sink == f.1.d.sink && decide (f.1.delivers 0 ≤ e.1.ends)).map Prod.snd) ++ sinkClashes es

/-- Router outputs that are issued to while occupied (R90, R108): a stream holds its sink from its issue, and a stream issued
later may have it from the cycle after its last delivery (DEDUCED, log 119). -/
def CRun.sinks (x : CRun) : List Nat := sinkClashes (x.routes.map fun e => (e.2, e.1.a))

/-- When every operation of a run completes, with its bundle (R88). -/
def CRun.completions (x : CRun) : List (Nat × Nat) :=
  ([1, 2].flatMap fun k => (x.ops k).map fun e => (e.1.n + e.2.2.dur + 3, e.1.a))
  ++ (x.cbs.map fun e => (e.1.n + cbloadD e.2.2, e.1.a))
  ++ (x.vecs.map fun e => (e.1.n + vecLatency e.2.op e.2.m, e.1.a))
  ++ (x.mems.map fun e => (e.2.completes (x.handle e.2.d.h), e.1.a))
  ++ x.routes.map fun e => (e.2.ends, e.1.a)

end Sys2Proof.Machine
end

