-- ==== Sys2Proof/Machine/Checks.lean ====
section
/-!
DEFINITION. The load checks (R196, R198): the header, the section table and the selection of a placement (R178 to R183),
and codes 0x0105 to 0x0117 over a placement and each of its remap declarations applied alone (R186).
-/
namespace Sys2Proof.Machine

/-- What a refusal record names (R198): the code, the failing item's region, cluster, segment and word, and the section
that contains it. -/
structure LoadRefusal where
  code : Nat
  region : Nat := 0xFF
  cluster : Nat := 0xFF
  segment : Nat := 0x7FFF
  word : Nat := 0xFFFF
  sect : Nat := 0
  deriving DecidableEq, Repr

/-- Is item `x` checked before item `y` of the same code and declaration (R198)? -/
def LoadRefusal.before (x y : LoadRefusal) : Bool :=
  decide ((x.region * 256 + x.cluster) * 65536 + x.word < (y.region * 256 + y.cluster) * 65536 + y.word)

/-- The item that is checked first (R198). -/
def firstItem : List LoadRefusal → Option LoadRefusal
  | [] => none
  | x :: xs => some (xs.foldl (fun a y => if y.before a then y else a) x)

/-- One item, if a condition holds. -/
def when' (b : Bool) (x : LoadRefusal) : List LoadRefusal := if b then [x] else []

/-! ### Header and sections -/

/-- The section types of R180. -/
def sectionTypes : List Nat := [1, 2, 3, 0x10, 0x11, 0x12, 0x13, 0x14, 0x15, 0x20, 0x21, 0x30, 0x31, 0x32]

/-- The image with its DIGEST field set to zero (R178). -/
def undigested (img : List Byte) : List Byte := img.take 64 ++ List.replicate 64 0 ++ img.drop 128

/-- Is a section-table entry well formed (R179)? -/
def entryOk (img : List Byte) (x : Section) : Bool :=
  let t := imgTaboff img
  let n := 24 * imgNsect img
  (x.place < 16 || x.place == 0xFF) && (x.region < 96 || x.region == 0xFF) && (x.cluster < 28 || x.cluster == 0xFF)
  && decide (128 ≤ x.off ∧ x.off + x.len ≤ img.length) && (decide (x.off + x.len ≤ t ∨ t + n ≤ x.off) || x.len == 0)

/-- Do two section-table entries agree in key and PLACE, or overlap (R179)? -/
def clash (x y : Section) : Bool :=
  (x.type == y.type && x.region == y.region && x.cluster == y.cluster && x.place == y.place)
  || decide (x.off < y.off + y.len ∧ y.off < x.off + x.len)

/-- A section-table entry that clashes with an earlier one. -/
def clashes : List Section → List Section
  | [] => []
  | x :: xs => xs.filter (clash x) ++ clashes xs

/-- Is the header well formed (R178)? -/
def headerOk (img : List Byte) : Bool :=
  bytesAt img 0 4 == [0x4C, 0x57, 0x50, 0x49] && fieldAt img 4 2 == 1 && byteAt img 7 ≤ 1
  && 1 ≤ fieldAt img 8 2 && fieldAt img 8 2 ≤ 256 && 1 ≤ imgNplace img && imgNplace img ≤ 16 && byteAt img 13 == 0
  && 1 ≤ imgNsect img && fieldAt img 24 8 == img.length && decide (128 ≤ imgTaboff img)
  && decide (imgTaboff img + 24 * imgNsect img ≤ img.length) && imgDigest img == sha512 (undigested img)

/-- Sections that are missing (R180, R182): the placement sections, the segment table, and the five types that a used
cluster always has. -/
def missing (img : List Byte) : List LoadRefusal :=
  (List.range (imgNplace img)).flatMap fun p =>
    when' (findSection img 2 0xFF 0xFF p).isNone { code := 0x103 }
    ++ when' (findSection img 3 0xFF 0xFF p).isNone { code := 0x103 }
    ++ (imgUsedList img p).flatMap fun k =>
      [0x11, 0x12, 0x13, 0x14].flatMap fun t =>
        when' (findSection img t (k / 28) (k % 28) p).isNone { code := 0x103, region := k / 28, cluster := k % 28 }

/-! ### The selected placement -/

namespace State

/-- Is region `r` in Y: fenced in the yield map (R183), or latched or in its retry (R346)? -/
def inY (s : State) (r : Nat) : Bool :=
  s.yFenced r || s.fld (Rg.RPWR_STAT_STATE r) == 4 || s.fld (Rg.RPWR_STAT_STATE r) == 5

/-- Is the cluster usable in the yield map (R388), its region not in Y? -/
def usable (s : State) (r c : Nat) : Bool := !s.inY r && bit (s.fld (Rg.YMAP_CL_USABLE r)) c

/-- The used clusters of placement `p` that the yield map makes unusable. -/
def unusableIn (s : State) (img : List Byte) (p : Nat) : List Nat :=
  (imgUsedList img p).filter fun k => !s.usable (k / 28) (k % 28)

/-- The declaration whose spare stands in for an unusable cluster (R183, R185): its spare is usable, not `taken`, and covers no
other unusable cluster. -/
def coverOf (s : State) (taken : Nat → Bool) (img : List Byte) (p r c : Nat) : Option Remap :=
  (placeRemaps img p).find? fun d =>
    d.region == r && d.covered == c && s.usable r d.spare && !taken d.spare
    && (placeRemaps img p).all fun e =>
      !(e.region == r && e.spare == d.spare && e.covered != c && (s.unusableIn img p).contains (28 * r + e.covered))

/-- Does placement `p` accept the yield map (R183)? A region takes at most two remaps (R185). -/
def accepts (s : State) (img : List Byte) (p : Nat) : Bool :=
  ((List.range 96).all fun r => !s.inY r || bit (placeFence img p) r)
  && ((s.unusableIn img p).all fun k => bit (placeFence img p) (k / 28) || (s.coverOf (fun _ => false) img p (k / 28) (k % 28)).isSome)
  && ((List.range 96).all fun r =>
    bit (placeFence img p) r || decide (((s.unusableIn img p).filter fun k => k / 28 == r).length ≤ 2))

/-- The selected placement (R183): `want` is an index, or 15 for automatic selection. -/
def selectPlace (s : State) (img : List Byte) (want : Nat) : Option Nat :=
  if want = 15 then (List.range (imgNplace img)).find? (s.accepts img)
  else if want < imgNplace img ∧ s.accepts img want then some want else none

/-- Is a queue that placement `p` declares read or written by a region that it fences (R182)? -/
def declaresFenced (img : List Byte) (p r : Nat) : Bool :=
  (List.range 22).any fun q =>
    imgQueueDepth img p r q != 0
    && (bit (placeFence img p) r
        || match regionNeighbour r (inSide q).1 with | some r' => bit (placeFence img p) r' | none => false)

/-- Step 2 of R197: before bring-up is done code 0x0104 (R395); else codes 0x0101 to 0x0104, then the selected placement. -/
def headCheck (s : State) (img : List Byte) (want : Nat) : Except LoadRefusal Nat :=
  let xs := imgSections img
  if !s.flag Rg.BU_STAT_DONE then .error { code := 0x104 }
  else if !headerOk img then .error { code := 0x101 }
  else
    match (xs.filter fun x => !entryOk img x) ++ clashes xs with
    | x :: _ => .error { code := 0x101, sect := x.idx }
    | [] =>
      if byteAt img 6 ≠ s.fuse.archrev then .error { code := 0x102 }
      else
        match (xs.filter fun x => x.flags % 2 == 1 && !sectionTypes.contains x.type).map (fun x =>
            ({ code := 0x103, region := x.region, cluster := x.cluster, sect := x.idx } : LoadRefusal)) ++ missing img with
        | x :: xs => .error (((firstItem (x :: xs))).getD x)
        | [] =>
          match s.selectPlace img want with
          | none => .error { code := 0x104 }
          | some p =>
            match (List.range 96).find? fun r =>
                (bit (placeFence img p) r && (List.range 28).any fun c => imgUsed img p r c) || declaresFenced img p r with
            | some r => .error { code := 0x104, region := r, sect := ((findSection img 2 0xFF 0xFF p).map Section.idx).getD 0 }
            | none => .ok p

end State

/-! ### Words -/

/-- An item of a used cluster: its program word. -/
def atWord (v : View) (r c code seg a : Nat) : LoadRefusal :=
  { code := code, region := r, cluster := c, segment := seg, word := a, sect := v.idxAt 0x10 r c }

/-- An item of another section of a used cluster. -/
def atSect (v : View) (r c code type : Nat) : LoadRefusal :=
  { code := code, region := r, cluster := c, sect := v.idxAt type r c }

/-- The first and last descriptor word of a cluster (R181). -/
def descRange (v : View) (r c : Nat) : Nat × Nat :=
  let b := v.sect 0x13 r c
  (fieldAt b 2 2, fieldAt b 4 2)

/-- Does a word address lie in the descriptor range (R181)? -/
def isDesc (v : View) (r c a : Nat) : Bool :=
  let d := descRange v r c
  !(d.1 == 0xFFFF && d.2 == 0xFFFF) && decide (d.1 ≤ a ∧ a ≤ d.2)

/-- Does a segment run through word address `a`: is there an entry at or before it, and no SEGEND between (R85, R91)? -/
def issues (v : View) (r c : Nat) (prog : List (Nat × ProgWord)) (a : Nat) : Bool :=
  let cfg := v.sect 0x13 r c
  v.segs.any fun e =>
    let n := cfgEntry cfg e.1
    decide (n ≤ a) && prog.all fun f => decide (f.1 < n ∨ a ≤ f.1) || wbits f.2 31 26 != 3

/-- The bundles of a cluster: its declared words outside the descriptor range, and those inside it that a segment issues. -/
def bundlesOf (v : View) (r c : Nat) : List (Nat × ProgWord) :=
  let prog := v.prog r c
  prog.filter fun e => !isDesc v r c e.1 || issues v r c prog e.1

/-- Are the CTL slot's opcode and reserved fields allowed (R91)? -/
def ctlEnc (x : Nat) : Bool :=
  match bits x 31 26 with
  | 0 => x == 0
  | 1 => bits x 25 16 == 0
  | 2 => true
  | 3 => bits x 25 0 == 0
  | 4 => bits x 25 16 == 0
  | _ => false

/-- Are an engine slot's opcode and reserved fields allowed (R92)? -/
def engEnc (kind : Nat) (origin : Bool) (x : Nat) : Bool :=
  let e := EngSlot.ofNat x
  match e.op with
  | 0 => x == 0
  | 1 => e.low == 0 && (origin || e.accb == 0)
  | 2 => kind == 2 && e.daddr == 0 && e.low < 4 && (origin || e.accb == 0)
  | _ => false

/-- Which of the register fields D, A, B and C an opcode names (R98, R99). -/
def vecRegs (op : Nat) : Bool × Bool × Bool × Bool :=
  if op = 0x01 ∨ op = 0x0B then (true, true, true, true)
  else if op = 0x19 then (true, false, false, false)
  else if op = 0x1A ∨ (0x20 ≤ op ∧ op ≤ 0x35) ∨ (0x40 ≤ op ∧ op ≤ 0x42) then (true, true, false, false)
  else if op = 0x50 then (false, true, false, false)
  else if op = 0x51 then (false, true, true, false)
  else if op = 0x53 then (true, false, false, false)
  else if op = 0x52 ∨ op = 0x54 ∨ op = 0 then (false, false, false, false)
  else (true, true, true, false)

/-- Does an opcode use X (R98, R99)? -/
def vecX (op : Nat) : Bool := op == 0x1A || op == 0x22 || op == 0x27 || op == 0x44 || decide (0x50 ≤ op)

/-- Are the VEC slot's opcode and reserved fields allowed (R98, R99)? -/
def vecEnc (w : ProgWord) : Bool :=
  let v := VecSlot.ofWord w
  let g := vecRegs v.op
  if v.op = 0 then wbits w 191 128 == 0
  else
    vecOpcodes.contains v.op && wbits w 141 128 == 0 && v.p ≤ 1 && (v.p == 0 || (v.op != 0x52 && v.op != 0x54))
    && (g.1 || v.d == 0) && (g.2.1 || v.a == 0) && (g.2.2.1 || v.b == 0) && (g.2.2.2 || v.c == 0) && (vecX v.op || v.x == 0)

/-- Are the MEM and LINK slots' opcodes and reserved fields allowed (R104, R107)? -/
def memEnc (x : Nat) : Bool :=
  match bits x 31 28 with
  | 0 => x == 0
  | 1 => bits x 12 0 == 0
  | 2 => bits x 20 0 == 0
  | _ => false
/-- The LINK slot (R107). -/
def linkEnc (x : Nat) : Bool :=
  match bits x 31 28 with
  | 0 => x == 0
  | 1 => bits x 12 0 == 0
  | _ => false

/-- The descriptor addresses of a bundle's slots: 1 press, 2 pour, 4 MEM, 5 LINK (R92, R104, R107). -/
def refsOf (w : ProgWord) : List (Nat × Nat) :=
  let pr := EngSlot.ofNat (wbits w 79 32)
  let po := EngSlot.ofNat (wbits w 127 80)
  let mem := wbits w 223 192
  let link := wbits w 255 224
  (if pr.op = 1 then [(1, pr.daddr)] else []) ++ (if po.op = 1 then [(2, po.daddr)] else [])
  ++ (if bits mem 31 28 = 1 then [(4, bits mem 26 13)] else []) ++ (if bits link 31 28 = 1 then [(5, bits link 26 13)] else [])

/-- Every descriptor that a cluster's bundles name: bundle, slot, address. -/
def allRefs (v : View) (r c : Nat) : List (Nat × Nat × Nat) :=
  (bundlesOf v r c).flatMap fun e => (refsOf e.2).map fun x => (e.1, x.1, x.2)

/-- Are a descriptor's reserved values and bytes as R93, R105, R108 and R151 allow? -/
def descEnc (slot : Nat) (w : ProgWord) : Bool :=
  if slot = 1 ∨ slot = 2 then
    let d := OpDesc.ofWord w
    (d.kind == 1 || d.kind == 2) && d.wfmt ≤ 6 && d.afmt ≤ 1 && d.init ≤ 2 && wbytes w 11 1 == 0 && wbytes w 20 12 == 0
  else if slot = 4 then
    let d := XferDesc.ofWord w
    d.kind ≤ 5 && d.cvt ≤ 1 && wbytes w 27 5 == 0 && (decide (1 < d.kind) || d.port ≤ 10) && bits d.vsel 5 5 == 0
    && (d.kind != 4 || (bits d.const.toNat 63 60 ≤ 1 && bits d.const.toNat 46 44 == 0 && bits d.const.toNat 11 0 == 0))
  else
    let d := RouteDesc.ofWord w
    d.sink ≤ 4 && d.srca ≤ 4 && (d.srcb ≤ 4 || d.srcb == 0xFF) && !(d.srca == 4 && d.srcb == 4) && d.rmode ≤ 6
    && d.frame ≤ 1 && (d.frame == 0 || d.rmode == 0) && (d.rmode == 0 || d.srcb != 0xFF) && wbytes w 12 20 == 0

/-- 0x0105: encodings (R90). -/
def ckEncoding (v : View) (r c : Nat) : List LoadRefusal :=
  let prog := v.prog r c
  let origin := imgOrigin v.img
  ((bundlesOf v r c).flatMap fun e =>
    when' (!(ctlEnc (wbits e.2 31 0) && engEnc 1 origin (wbits e.2 79 32) && engEnc 2 origin (wbits e.2 127 80) && vecEnc e.2
      && memEnc (wbits e.2 223 192) && linkEnc (wbits e.2 255 224))) (atWord v r c 0x105 0x7FFF e.1))
  ++ (allRefs v r c).flatMap fun x =>
    when' (isDesc v r c x.2.2 && !descEnc x.2.1 (Store.get 0 prog x.2.2)) (atWord v r c 0x105 0x7FFF x.2.2)

/-- 0x0106: descriptors (R90, R181). -/
def ckDescriptor (v : View) (r c : Nat) : List LoadRefusal :=
  let prog := v.prog r c
  let d := descRange v r c
  when' (decide (d.2 < d.1)) (atSect v r c 0x106 0x13)
  ++ (allRefs v r c).flatMap fun x =>
    when' (!isDesc v r c x.2.2 || (decide (x.2.1 ≤ 2) && (OpDesc.ofWord (Store.get 0 prog x.2.2)).kind != x.2.1))
      (atWord v r c 0x106 0x7FFF x.1)

/-! ### Fields -/

/-- Is a VEC slot's use of P, spans and indices as R99, R102 and R103 allow? -/
def vecField (v : VecSlot) : Bool := v.op == 0 || v.ok

/-- Are an operation descriptor's fields as R93 and R97 allow, with NTILES as the other fields give it? -/
def opField (d : OpDesc) (origin : Bool) : Bool :=
  (if d.kind = 1 then 1 ≤ d.rows && d.rows ≤ (if origin then 8 else 32) && d.units == 32 && d.pbytes == 0
    else 1 ≤ d.rows && d.rows ≤ 8 && 1 ≤ d.units && d.units ≤ 256 && 1 ≤ d.pbytes && d.pbytes ≤ 2560)
  && 1 ≤ d.ksteps && d.ksteps ≤ 4096 && (!isCb d.wfmt || d.ksteps % 2 == 0) && d.rsv ≤ 32
  && (d.kind != 1 || d.wfmt == 0 || d.afmt == 1 || d.rsv == 32)
  && d.ntiles == ceilDiv (d.units * (if isCb d.wfmt then d.ksteps / 2 else d.ksteps)) (wRecPerTile d.wfmt)

/-- Are a transfer's fields as R105 and R140 allow? -/
def xferField (d : XferDesc) (form : Bool) (h h2 : Handle) (mask : Nat) : Bool :=
  d.ok form
  && (d.kind != 3
      || (h.il == h2.il && d.off / 8 % h.il == d.off2 / 8 % h2.il
          && (h.banks (d.off / 8) (d.len / 8)).all fun b =>
            !((h2.banks (d.off2 / 8) (d.len / 8)).map (physBank mask)).contains (physBank mask b)))

/-- Are a DMA command's fields as R223 allows, against the KVLAYOUT section `kv`: layer and blocks within its layout, and the
length of its data? -/
def dmaField (kv : List Byte) (d : XferDesc) : Bool :=
  let k := d.const.toNat
  let o := 8 + 32 * bits k 59 56
  let blks := bits k 21 12 + 1
  decide (bits k 59 56 < byteAt kv 0 ∧ bits k 55 48 < fieldAt kv (o + 2) 2 ∧ bits k 31 22 + blks ≤ fieldAt kv (o + 8) 2)
  && d.len == (if bits k 63 60 = 1 then 8 * ceilDiv ((bits k 43 32 + 1) * blks * 33) 8 else 0)

/-- 0x010B: fields of a cluster (R93, R97, R99, R103, R105, R108, R140, R223). -/
def ckField (s : State) (v : View) (r c : Nat) : List LoadRefusal :=
  let prog := v.prog r c
  let at' (a : Nat) := atWord v r c 0x10B 0x7FFF a
  ((bundlesOf v r c).flatMap fun e =>
    when' (!vecField (VecSlot.ofWord e.2)) (at' e.1)
    ++ when' (bits (wbits e.2 223 192) 31 28 == 2 && (bit (wbits e.2 223 192) 27)) (at' e.1)
    ++ (refsOf e.2).flatMap fun x =>
      let w := Store.get 0 prog x.2
      if x.1 ≤ 2 then when' (!opField (OpDesc.ofWord w) (imgOrigin v.img)) (at' x.2)
      else if x.1 = 4 then
        let d := XferDesc.ofWord w
        when' (!xferField d (bit (wbits e.2 223 192) 27) (v.handle r c d.h) (v.handle r c d.h2)
            (s.fld (Rg.SPBANKMASK_RETIRED r c))
          || (d.kind == 4 && !dmaField (sectionOf v.img 0x30 0xFF 0xFF v.p) d)) (at' x.2)
      else when' (!(RouteDesc.ofWord w).ok) (at' x.2))

/-- INIT = 2 without a previous operation of equal ROWS and UNITS in the segment (R93). -/
def initItems (x : CRun) (kind : Nat) : List LoadRefusal :=
  ((x.ops kind).zip (none :: (x.ops kind).map some)).flatMap fun e =>
    let d := e.1.2.2
    when' (d.init == 2 && (match e.2 with
      | none => true
      | some q => q.2.2.rows != d.rows || q.2.2.units != d.units)) (atWord x.v x.r x.c 0x10B x.seg e.1.1.a)

/-- Does a KVLAYOUT record keep the rules of R217? -/
def layoutRecOk (b : List Byte) : Bool :=
  let kind := byteAt b 0
  let nl := fieldAt b 2 2
  let dl := fieldAt b 4 2
  let dr := fieldAt b 6 2
  let eblk := fieldAt b 8 2
  let split := byteAt b 12
  let ns := fieldAt b 14 2
  byteAt b 1 ≤ 1 && 1 ≤ nl && nl ≤ 256 && dr % 32 == 0
  && (if kind = 1 then 32 ≤ dl && dl ≤ 1024 && dr ≤ 128 && dl % 32 == 0 && eblk == (dl + dr) / 32
      else kind == 2 && 1 ≤ dl && dl ≤ 256 && 32 ≤ dr && dr ≤ 512 && eblk == 2 * dl * dr / 32)
  && eblk ≤ 1024 && fieldAt b 10 2 == ceilDiv (64 * 33 * eblk * nl) 65536
  && (split == 0 || (split == 1 && kind == 2) || (split == 2 && kind == 1))
  && 1 ≤ ns && ns ≤ 256 && (split != 0 || ns == 1) && decide (fieldAt b 16 2 < ns)

/-- Does the KVLAYOUT section keep the rules of R217? -/
def kvlayoutOk (b : List Byte) : Bool :=
  1 ≤ byteAt b 0 && byteAt b 0 ≤ 16 && (List.range (byteAt b 0)).all fun i => layoutRecOk (bytesAt b (8 + 32 * i) 32)

/-- Does variant record `b` keep the rules of R261, for the segments `segs` (SEGNO, KIND, LENGTH) and ROWMAX? -/
def variantOk (segs : List (Nat × Nat × Nat)) (rowmax : Nat) (b : List Byte) : Bool :=
  let n := byteAt b 0
  let pat := (List.range n).map fun i => fieldAt b (16 + 2 * i) 2
  1 ≤ n && n ≤ 32 && byteAt b 1 ≤ 1 && ([2, 4, 6, 8].all fun o => decide (fieldAt b o 2 ≤ rowmax))
  && (pat.any fun no => segs.any fun e => e.1 == no && e.2.1 == 1) && (pat.all fun no => segs.any fun e => e.1 == no)
  && zeroAt b (16 + 2 * n) (64 - 2 * n)

/-- Does the SERVING section keep the rules of R260, R261, R266 and R274? -/
def servingOk (b kv : List Byte) (segs : List (Nat × Nat × Nat)) : Bool :=
  let nvar := byteAt b 0
  let nd := byteAt b 3
  let nf := fieldAt b 12 2
  let od := 64 + 80 * nvar
  decide (od + 16 * nd + 16 * nf ≤ b.length)
  && 1 ≤ nvar && nvar ≤ 16 && 1 ≤ byteAt b 1 && byteAt b 1 ≤ 16 && byteAt b 2 < 96 && nd ≤ 4
  && 2 ≤ fieldAt b 4 4 && fieldAt b 4 4 ≤ 262144
  && ((List.range (byteAt kv 0)).all fun i =>
    decide (fieldAt b 8 4 ≤ 64 * (212976 / Nat.max 1 (fieldAt kv (8 + 32 * i + 10) 2))))
  && 1 ≤ fieldAt b 14 2 && fieldAt b 14 2 ≤ 4096
  && ((List.range nvar).all fun i => variantOk segs (fieldAt b 14 2) (bytesAt b (64 + 80 * i) 80))
  && ((List.range nd).all fun i =>
    let q := od + 16 * i
    1 ≤ byteAt b q && byteAt b q ≤ 8 && decide (byteAt b (q + 1) ≤ byteAt b q) && byteAt b (q + 2) < 96)
  && (List.range nf).all fun i =>
    let q := od + 16 * nd + 16 * i
    byteAt b q < 96 && byteAt b (q + 1) < 28 && byteAt b (q + 2) < 16 && decide (byteAt b (q + 3) ≤ nd)
    && fieldAt b (q + 4) 4 % 64 == 0 && fieldAt b (q + 8) 4 % 64 == 0 && fieldAt b (q + 8) 4 ≤ 4096

/-- 0x010B: the sections of chapters 08 and 09 (R217, R260). -/
def ckSections (v : View) : List LoadRefusal :=
  let kv := sectionOf v.img 0x30 0xFF 0xFF v.p
  let sv := sectionOf v.img 0x31 0xFF 0xFF v.p
  when' ((findSection v.img 0x30 0xFF 0xFF v.p).isSome && !kvlayoutOk kv) { code := 0x10B, sect := v.idx 0x30 0xFF 0xFF }
  ++ when' ((findSection v.img 0x31 0xFF 0xFF v.p).isSome && !servingOk sv kv (imgSegments v.img v.p)) { code := 0x10B, sect := v.idx 0x31 0xFF 0xFF }

/-! ### The schedule -/

/-- An item at a bundle of a run. -/
def atRun (x : CRun) (code a : Nat) : LoadRefusal := atWord x.v x.r x.c code x.seg a

/-- 0x0107: loops (R90, R91). -/
def ckLoop (x : CRun) : List LoadRefusal := match x.fin with | .loop a => [atRun x 0x107 a] | _ => []

/-- 0x0108: occupancy (R67, R68, R90, R100). -/
def ckOccupancy (x : CRun) : List LoadRefusal :=
  ((x.busy.flatMap overlaps) ++ x.sinks
    ++ (if x.origin then
          overloads 256 x.terms
          ++ termClashes x.accTerms
          ++ (x.ops 2).filterMap fun e => if 256 < e.2.2.units * e.2.2.rows then some e.1.a else none
        else [])).map (atRun x 0x108)

/-- 0x0109: collisions (R87, R90). -/
def ckCollision (x : CRun) : List LoadRefusal := (repeats x.landings).map (atRun x 0x109)

/-- Words that DMA commands of a run produce, and that its completions pop (R223, R224). -/
def dmaBalance (x : CRun) : Nat × Nat :=
  let kinds := x.mems.filter fun e => !e.2.rel
  let made := kinds.filterMap fun e =>
    if e.2.d.kind = 4 then
      let k := e.2.d.const.toNat
      let toks := bits k 43 32 + 1
      let blks := bits k 21 12 + 1
      if bits k 63 60 = 0 then some (ceilDiv (toks * blks * (if bit k 47 then 34 else 33)) 8) else some 1
    else none
  let popped := kinds.filterMap fun e => if e.2.d.kind = 5 then some (e.2.d.len / 8) else none
  (made.foldl (· + ·) 0, popped.foldl (· + ·) 0)

/-- 0x010A: segments (R88, R91, R181, R187, R224). -/
def ckSegment (x : CRun) : List LoadRefusal :=
  match x.fin with
  | .segend n =>
    when' (n != x.len) { atRun x 0x10A ((x.iss.getLast?.map Iss.a).getD 0xFFFF) with sect := x.v.idx 3 0xFF 0xFF }
    ++ (x.completions.filter fun e => decide (n < e.1)).map (fun e => atRun x 0x10A e.2)
    ++ when' ((dmaBalance x).1 != (dmaBalance x).2) (atRun x 0x10A 0xFFFF)
  | _ => [{ atRun x 0x10A 0xFFFF with sect := x.v.idx 3 0xFF 0xFF }]

/-- 0x010A: the segment table and the entry table (R181, R187). -/
def ckEntries (v : View) (r c : Nat) : List LoadRefusal :=
  let n := v.segs.length
  let b := v.sect 0x13 r c
  when' (fieldAt b 6 2 != n || decide (b.length < 8 + 8 * byteAt b 1 + 2 * n)
    || (List.range n).any fun i => decide (16384 ≤ cfgEntry b i)) (atSect v r c 0x10A 0x13)

/-- Are SEGNOs strictly ascending? -/
def ascendingNos : List (Nat × Nat × Nat) → Bool
  | [] => true
  | [_] => true
  | x :: y :: l => decide (x.2.1 < y.2.1) && ascendingNos (y :: l)

/-- 0x010A: the segment table (R187). -/
def ckSegTable (v : View) : List LoadRefusal :=
  let b := sectionOf v.img 3 0xFF 0xFF v.p
  when' (!(ascendingNos v.segs && v.segs.length ≤ 32768 && b.length % 16 == 0
      && v.segs.all fun e => decide (1 ≤ e.2.2)))
    { code := 0x10A, sect := v.idx 3 0xFF 0xFF }

/-- 0x010C: the weight-tier port (R62). -/
def ckPort (x : CRun) : List LoadRefusal := (overloads 2560 x.allotments).map (atRun x 0x10C)

/-- 0x010D: scratchpad banks (R130). -/
def ckBank (x : CRun) : List LoadRefusal := (repeats x.accesses).map (atRun x 0x10D)

/-! ### Handles -/

/-- Handle uses of a cluster: bundle, handle, first byte, bytes, and what the use asks: written, DMA, router (R137). -/
def handleUses (v : View) (r c : Nat) : List (Nat × Nat × Nat × Nat × Bool × Bool × Bool) :=
  let prog := v.prog r c
  (bundlesOf v r c).flatMap fun e =>
    let mem := wbits e.2 223 192
    (if bits mem 31 28 = 2 then
      let h := bits mem 26 21
      [(e.1, h, 0, 8 * (v.handle r c h).lenw, true, false, false)] else [])
    ++ (refsOf e.2).flatMap fun x =>
      let w := Store.get 0 prog x.2
      if x.1 ≤ 2 then
        let d := OpDesc.ofWord w
        if d.init = 1 then [(e.1, d.biash, 0, 4 * d.units, false, false, false)] else []
      else if x.1 = 4 then
        let d := XferDesc.ofWord w
        match d.kind with
        | 0 => [(e.1, d.h, d.off, d.len, false, false, false)]
        | 1 => [(e.1, d.h, d.off, d.len, true, false, false)]
        | 2 => [(e.1, d.h, d.off, d.len, true, false, false)]
        | 3 => [(e.1, d.h, d.off, d.len, false, false, false), (e.1, d.h2, d.off2, d.len, true, false, false)]
        | 4 => [(e.1, d.h2, d.off2, 8, false, true, false)] ++ (if d.len = 0 then [] else [(e.1, d.h, d.off, d.len, false, true, false)])
        | _ => [(e.1, d.h, d.off, d.len, true, true, false)]
      else
        let d := RouteDesc.ofWord w
        if d.localEnd then
          let n := if d.frame = 1 then
              let nb := ((v.frame r c x.2).getD (0, 0)).2
              1088 * (nb / 32) + 8 * ceilDiv (34 * (nb % 32)) 8
            else if carriesXs v.xsMap r c d then 3712 * ceilDiv d.beats 9
            else if d.srcb = 4 ∧ d.rmode = 2 then 128 * ((d.beats + 1) / 2) else 128 * d.beats
          [(e.1, d.lh, d.loff, n, d.sink == 4, false, true)]
        else []

/-- 0x010E: handles (R137, R138). -/
def ckHandle (s : State) (v : View) (r c : Nat) : List LoadRefusal :=
  let nl := byteAt (v.sect 0x13 r c) 0
  when' (decide (nl < 1 ∨ 24 < nl ∨ 24 - popcount 24 (s.fld (Rg.SPBANKMASK_RETIRED r c)) < nl)) (atSect v r c 0x10E 0x13)
  ++ ((List.range 64).flatMap fun i =>
    let h := v.handle r c i
    when' (h.en && (decide (nl < h.lbank + h.il) || decide (8192 < h.row + ceilDiv h.lenw h.il))) (atSect v r c 0x10E 0x11))
  ++ (handleUses v r c).flatMap fun u =>
    let h := v.handle r c u.2.1
    let il := bits (fieldAt (v.sect 0x11 r c) (8 * u.2.1) 4) 28 26
    when' (!(decide (u.2.1 < 64) && h.en && il ≤ 5 && decide (u.2.2.1 + u.2.2.2.1 ≤ 8 * h.lenw) && decide (h.lbank + h.il ≤ nl)
        && decide (h.row + ceilDiv h.lenw h.il ≤ 8192) && !(u.2.2.2.2.1 && h.wp) && (!u.2.2.2.2.2.1 || h.dm)
        && (!u.2.2.2.2.2.2 || 16 ≤ h.il)))
      (atWord v r c 0x10E 0x7FFF u.1)

/-! ### Routes -/

/-- Beats that leave a cluster on link side `side`: schedule cycle at the neighbour, and the stream. -/
def sentOn (x : CRun) (side : Nat) : List (Nat × Nat × Stream) :=
  x.routes.flatMap fun e =>
    if e.2.d.sink = side then (List.range e.2.d.beats).map fun k => (e.2.delivers k + 1, e.1.a, e.2) else []

/-- Beats that a cluster takes from link side `side`: schedule cycle, and the stream with whether it is its SRCB. -/
def takenOn (x : CRun) (side : Nat) : List (Nat × Nat × Stream × Bool) :=
  x.routes.flatMap fun e =>
    let st := e.2
    let t (second : Bool) : List (Nat × Nat × Stream × Bool) := (List.range st.d.beats).filterMap fun k =>
      if !second || st.takesB k then some (st.issue + st.d.offset + k, e.1.a, st, second) else none
    (if st.d.srca = side then t false else []) ++ (if st.d.srcb = side then t true else [])

/-- Beats that a source is expected to bring to a stream (R150, R151). -/
def beatsWanted (st : Stream) (second : Bool) : Nat := if second ∧ st.d.rmode = 2 then (st.d.beats + 1) / 2 else st.d.beats

/-- 0x010F: the links inside a region, seen from the receiving run `y` at its side `side`, and the sending run `x` (R150). -/
def ckLink (x y : CRun) (side : Nat) : List LoadRefusal :=
  let sent := sentOn x (oppSide side)
  let taken := takenOn y side
  (sent.flatMap fun e => when' (!taken.any fun f => f.1 == e.1) (atRun x 0x10F e.2.1))
  ++ taken.flatMap fun f =>
    match sent.find? fun e => e.1 == f.1 with
    | none => [atRun y 0x10F f.2.1]
    | some e =>
      when' (e.2.2.d.beats != beatsWanted f.2.2.1 f.2.2.2 || e.2.2.d.frame != f.2.2.1.d.frame
        || (e.2.2.d.frame == 1 && (e.2.2.rsv != f.2.2.1.rsv || e.2.2.nblk != f.2.2.1.nblk))) (atRun y 0x10F f.2.1)

/-- What the beats of a stream in mode `m` are (R151): the binary32 sums of modes 1 and 2 are one. -/
def modeClass (m : Nat) : Nat := if m = 2 then 1 else m

/-- The stream of the region whose beats a source of `st` takes, with its cluster (R149). -/
def feeder (xs : List CRun) (c : Nat) (st : Stream) (second : Bool) : Option (Nat × Stream) :=
  let src := if second then st.d.srcb else st.d.srca
  if 4 ≤ src then none
  else
    (innerNeighbour c src).bind fun c' => (xs.find? fun x => x.c == c').bind fun x =>
      (x.routes.find? fun e => e.2.d.sink == oppSide src && e.2.delivers 0 + 1 == st.issue + st.d.offset).map fun e => (c', e.2)

/-- What a stream carries, as the nearest reduction upstream in the region makes it (R150): 0 when there is none. -/
def carried (xs : List CRun) : Nat → Nat → Stream → Nat
  | 0, _, _ => 0
  | n + 1, c, st =>
    if st.d.rmode ≠ 0 then modeClass st.d.rmode
    else match feeder xs c st false with | none => 0 | some q => carried xs n q.1 q.2

/-- A reduction whose source carries the beats of another mode (R150): the BF16 source of mode 2 is no reduction's output. -/
def ckModes (xs : List CRun) (y : CRun) : List LoadRefusal :=
  y.routes.flatMap fun e =>
    let st := e.2
    [false, true].flatMap fun (b : Bool) =>
      let want := if b ∧ st.d.rmode = 2 then 7 else modeClass st.d.rmode
      match feeder xs y.c st b with
      | none => []
      | some q =>
        let t := carried xs 28 q.1 q.2
        when' (st.d.rmode != 0 && t != 0 && t != want) (atRun y 0x10F e.1.a)

/-- A region-boundary crossing of a run whose queue is declared 0 (R188). -/
def ckCrossings (v : View) (x : CRun) : List LoadRefusal :=
  x.routes.flatMap fun e =>
    let edge (side : Nat) : Bool := decide (side < 4) && (innerNeighbour x.c side).isNone
    let inq (side : Nat) : Bool := edge side && imgQueueDepth v.img v.p x.r (inIndex side (crossingOf x.c side)) == 0
    let outq : Bool :=
      edge e.2.d.sink && match regionNeighbour x.r e.2.d.sink with
        | some r' => imgQueueDepth v.img v.p r' (inIndex (oppSide e.2.d.sink) (crossingOf x.c e.2.d.sink)) == 0
        | none => false
    when' (inq e.2.d.srca || inq e.2.d.srcb || outq) (atRun x 0x10F e.1.a)

/-- A framed stream's entry and BEATS, its local handle, and the BEATS of an XS stream (R155 to R157). The code for a handle with IL
other than 24 is a DESIGN CHOICE (log 123). -/
def ckFrames (x : CRun) : List LoadRefusal :=
  x.routes.flatMap fun e =>
    let st := e.2
    when' ((st.d.frame == 1 && ((x.v.frame x.r x.c st.addr).isNone || st.nblk == 0 || decide (32 < st.rsv)
          || st.periods.foldl (· + ·) 0 != st.d.beats || (st.d.localEnd && (x.handle st.d.lh).il != 24)))
        || (st.xs && st.d.beats % 9 != 0) || (st.d.rmode == 6 && decide (4 < st.d.beats)))
      (atRun x 0x10F e.1.a)

/-- 0x010F: routes of the runs `xs` of one region in one segment. -/
def ckRoutes (v : View) (xs : List CRun) : List LoadRefusal :=
  xs.flatMap fun y =>
    ckFrames y ++ ckCrossings v y ++ ckModes xs y
    ++ ((List.range 4).flatMap fun side =>
      match innerNeighbour y.c side with
      | none => []
      | some c =>
        match xs.find? fun x => x.c == c with
        | some x => ckLink x y side
        | none => (takenOn y side).map fun f => atRun y 0x10F f.2.1)
    ++ (List.range 4).flatMap fun side =>
      match innerNeighbour y.c side with
      | none => []
      | some c => if xs.any fun x => x.c == c then [] else (sentOn y side).map fun e => atRun y 0x10F e.2.1

/-! ### Mode, queues, widening, tiles, codebooks -/

/-- 0x0110: operations that the MODE does not permit (R74, R93, R153): the rounding sums in a single-origin image, the
accumulator file's operations in a blend image. -/
def ckMode (v : View) (r c : Nat) : List LoadRefusal :=
  let prog := v.prog r c
  let origin := imgOrigin v.img
  (bundlesOf v r c).flatMap fun e =>
    let op := (VecSlot.ofWord e.2).op
    when' (if origin then op == 0x40 || op == 0x43 else decide (0x50 ≤ op)) (atWord v r c 0x110 0x7FFF e.1)
    ++ (refsOf e.2).flatMap fun x =>
      let w := Store.get 0 prog x.2
      let m := (RouteDesc.ofWord w).rmode
      let d := XferDesc.ofWord w
      when' (if x.1 ≤ 2 then origin && (OpDesc.ofWord w).init != 0
          else if x.1 = 5 then origin && (m == 1 || m == 2 || m == 5)
          else !origin && decide (d.kind ≤ 1) && (d.port == 7 || d.port == 8)) (atWord v r c 0x110 0x7FFF x.2)

/-- 0x0111: declared depths (R188). -/
def ckQueue (s : State) (v : View) (r : Nat) : List LoadRefusal :=
  when' ((List.range 22).any fun q =>
      imgQueueDepth v.img v.p r q != 0 && imgQueueDepth v.img v.p r q != s.depth (inKey r q))
    { code := 0x111, region := r, sect := v.idx 0x20 r 0xFF }

/-- 0x0112: widening points (R51, R189). -/
def ckWiden (v : View) (r c : Nat) : List LoadRefusal :=
  let b := v.sect 0x15 r c
  when' (!(b.length % 4 == 0 && b.length ≤ 1024 && (List.range (b.length / 4)).all fun x =>
      bits (fieldAt b (4 * x) 2) 5 0 ≤ 32 && !bit (fieldAt b (4 * x) 2) 15 && byteAt b (4 * x + 2) ≤ 32))
    (atSect v r c 0x112 0x15)
  ++ (bundlesOf v r c).flatMap fun e =>
    let q := VecSlot.ofWord e.2
    when' (q.op == 0x22 && decide (b.length / 4 ≤ q.x)) (atWord v r c 0x112 0x7FFF e.1)

/-- The RSV of the widening point whose NARROWT last wrote register `reg` of context `ctx` before cycle `n`, if NARROWT it was. -/
def laneRsv (x : CRun) (n ctx reg : Nat) : Option Nat :=
  match (x.vecs.filter fun e => decide (e.1.n < n) && e.1.n % 4 == ctx && e.2.d == reg && decide (e.2.op < 0x50)).getLast? with
  | some e => if e.2.op = 0x22 then some (byteAt (x.v.sect 0x15 x.r x.c) (4 * e.2.x + 2)) else none
  | none => none

/-- Bytes of a framed stream at its local handle (R156). -/
def framedSpan (nblk : Nat) : Nat := 1088 * (nblk / 32) + 8 * ceilDiv (34 * (nblk % 32)) 8

/-- What a write through a handle leaves there (R189): a tested tensor and its reservation, the bytes of another handle, the
bytes that a stream of a cluster reads, or anything else. -/
inductive TensorFrom where
  | tested (rsv : Nat)
  | copied (h off : Nat)
  | routed (c : Nat) (st : Stream)
  | other
  deriving DecidableEq, Repr

/-- A write of a run through a handle: issue cycle, handle, first byte, bytes and what it leaves. -/
structure TensorWrite where
  n : Nat
  h : Nat
  off : Nat
  len : Nat
  src : TensorFrom
  deriving DecidableEq, Repr

/-- The stream at whose local source the beats of a pass stream begin, with its cluster, in the runs `xs` of a region's
segment. -/
def rawOrigin (xs : List CRun) : Nat → Nat → Stream → Option (Nat × Stream)
  | 0, _, _ => none
  | n + 1, c, st =>
    if st.d.rmode ≠ 0 ∨ st.d.frame ≠ 0 then none
    else if st.d.srca = 4 then some (c, st)
    else (feeder xs c st false).bind fun q => rawOrigin xs n q.1 q.2

/-- What a run writes through handles (R189): NARROWT's lanes stored by a transfer and a framed local sink leave a tested
tensor; a copy, and a local sink of raw beats, leave what they read. -/
def tensorWrites (all : List CRun) (x : CRun) : List TensorWrite :=
  (x.mems.filterMap fun e =>
    let d := e.2.d
    if e.2.rel ∨ d.kind = 0 ∨ d.kind = 4 then none
    else if d.kind = 3 then some ⟨e.1.n, d.h2, d.off2, d.len, .copied d.h d.off⟩
    else some ⟨e.1.n, d.h, d.off, d.len,
      if d.kind = 1 ∧ d.port = 6 then
        (match laneRsv x e.1.n (d.vsel / 64) (d.vsel % 32) with | some q => .tested q | none => .other)
      else .other⟩)
  ++ x.routes.filterMap fun e =>
    let d := e.2.d
    if d.sink ≠ 4 then none
    else if d.frame = 1 then some ⟨e.1.n, d.lh, d.loff, framedSpan e.2.nblk, .tested e.2.rsv⟩
    else some ⟨e.1.n, d.lh, d.loff, 128 * d.beats,
      match rawOrigin (all.filter fun y => y.r == x.r && y.seg == x.seg) 29 x.c e.2 with
      | some q => .routed q.1 q.2
      | none => .other⟩

/-- Do bytes of two handles of a run's cluster lie in one scratchpad word (R136)? -/
def bytesMeet (x : CRun) (h o len h' o' len' : Nat) : Bool :=
  if h = h' then decide (o' < o + len ∧ o < o' + len')
  else
    let ws (i o len : Nat) : List (Nat × Nat) := (List.range ((o + len + 7) / 8 - o / 8)).map fun w =>
      ((x.handle i).lbank + (o / 8 + w) % (x.handle i).il, (x.handle i).row + (o / 8 + w) / (x.handle i).il)
    (ws h o len).any (ws h' o' len').contains

/-- The latest write of a run, issued before cycle `n`, to bytes of a handle. -/
def lastWrite (all : List CRun) (h o len : Nat) (x : CRun) (n : Nat) : Option TensorWrite :=
  match (tensorWrites all x).filter fun e => decide (e.n < n) && bytesMeet x e.h e.off e.len h o len with
  | [] => none
  | w :: ws => some (ws.foldl (fun a e => if a.n ≤ e.n then e else a) w)

/-- What `f` finds in a run before cycle `n`, or in the nearest earlier segment of its cluster. -/
def seekBack {α : Type} (all : List CRun) (f : CRun → Nat → Option α) (x : CRun) (n : Nat) : Option (CRun × α) :=
  match f x n with
  | some a => some (x, a)
  | none =>
    (all.filter fun y => y.r == x.r && y.c == x.c && decide (y.seg < x.seg)).reverse.findSome? fun y =>
      (f y (2 ^ 40)).map fun a => (y, a)

/-- The reservation of the tested tensor that bytes of a handle hold in cycle `n` of a run, where they hold one (R189):
traced through copies, raw streams and earlier segments, at most as many as the first argument says. -/
def tensorRsv (all : List CRun) : Nat → CRun → Nat → Nat → Nat → Nat → Option Nat
  | 0, _, _, _, _, _ => none
  | f + 1, x, n, h, o, len =>
    match seekBack all (lastWrite all h o len) x n with
    | none => none
    | some q =>
      match q.2.src with
      | .tested rsv => some rsv
      | .copied h' o' => tensorRsv all f q.1 q.2.n h' o' len
      | .routed c st =>
        (all.find? fun z => z.r == x.r && z.c == c && z.seg == q.1.seg).bind fun z =>
          tensorRsv all f z st.issue st.d.lh st.d.loff len
      | .other => none

/-- Does a reservation differ from that of the tensor it is for? -/
def rsvDiffers (t : Option Nat) (rsv : Nat) : Bool := match t with | some q => q != rsv | none => false

/-- The latest transfer of a run into a buffer half before cycle `n` (R105). -/
def lastFill (port : Nat) (x : CRun) (n : Nat) : Option (Nat × MemOp) :=
  ((x.mems.filter fun m => decide (m.1.n < n) && !m.2.rel && m.2.d.kind == 0 && m.2.d.port == port).getLast?).map fun m =>
    (m.1.n, m.2)

/-- 0x0112: reservations of a run among all runs (R189; log 48): a framed local source against the point that produced its
tensor, and a press operation at MXFP4 weights and tagged slots (R78, R97) against the tensor that its buffer half was filled
from. -/
def ckReserve (all : List CRun) (x : CRun) : List LoadRefusal :=
  (x.routes.flatMap fun e =>
    when' (e.2.d.frame == 1 && e.2.d.srca == 4
        && rsvDiffers (tensorRsv all 64 x e.1.n e.2.d.lh e.2.d.loff (framedSpan e.2.nblk)) e.2.rsv)
      (atRun x 0x112 e.1.a))
  ++ (x.ops 1).flatMap fun e =>
    when' (e.2.2.wfmt == 0 && e.2.2.afmt == 0 && (match seekBack all (lastFill (if e.2.1.half then 1 else 0)) x e.1.n with
      | some m => rsvDiffers (tensorRsv all 64 m.1 m.2.1 m.2.2.d.h m.2.2.d.off m.2.2.d.len) e.2.2.rsv
      | none => false)) (atRun x 0x112 e.1.a)

/-- Tiles that a cluster declares, through its weight map and its CBT entries (R190). -/
def tileDeclared (v : View) (r c t : Nat) : Bool :=
  ((weightRuns (v.sect 0x14 r c)).any fun w => decide (w.ltile ≤ t ∧ t < w.ltile + w.count))
  || (cfgCbt (v.sect 0x13 r c)).any fun e => decide (e.1 ≤ t ∧ t < e.1 + e.2.1)

/-- Tile streams of a cluster's bundles: bundle, first tile, count, and whether it is a CBLOAD. -/
def tileStreams (v : View) (r c : Nat) : List (Nat × Nat × Nat × Bool) :=
  let prog := v.prog r c
  (bundlesOf v r c).flatMap fun e =>
    let pr := EngSlot.ofNat (wbits e.2 79 32)
    let po := EngSlot.ofNat (wbits e.2 127 80)
    let nt (x : EngSlot) := (OpDesc.ofWord (Store.get 0 prog x.daddr)).ntiles
    (if pr.op = 1 then [(e.1, pr.tile, nt pr, false)] else [])
    ++ (if po.op = 1 then [(e.1, po.tile, nt po, false)] else if po.op = 2 then [(e.1, po.tile, po.low % 4 + 1, true)] else [])

/-- Runs of a weight map that overlap, or reach beyond tile 4,607 (R285). -/
def weightMapOk : List WeightRun → Bool
  | [] => true
  | w :: ws =>
    w.ltile + w.count ≤ 4608 && (ws.all fun u => decide (w.ltile + w.count ≤ u.ltile ∨ u.ltile + u.count ≤ w.ltile)) && weightMapOk ws

/-- 0x0113: tiles (R124, R190, R285). -/
def ckTile (v : View) (r c : Nat) : List LoadRefusal :=
  when' (!weightMapOk (weightRuns (v.sect 0x14 r c))) (atSect v r c 0x113 0x14)
  ++ (tileStreams v r c).flatMap fun t =>
    when' (decide (4608 < t.2.1 + t.2.2.1) || !(List.range (Nat.min 4608 t.2.2.1)).all fun i => tileDeclared v r c (t.2.1 + i))
      (atWord v r c 0x113 0x7FFF t.1)

/-- 0x0114: CBT entries and CBLEN of a cluster (R60, R181). -/
def ckCodebook (v : View) (r c : Nat) : List LoadRefusal :=
  let b := v.sect 0x13 r c
  let cbt := cfgCbt b
  let prog := v.prog r c
  when' (decide (64 < byteAt b 1)) (atSect v r c 0x114 0x13)
  ++ when' (cbt.any fun e => decide (4608 < e.1 + e.2.1 ∨ 4 < e.2.1 ∨ e.2.1 = 0)) (atSect v r c 0x114 0x13)
  ++ ((bundlesOf v r c).flatMap fun e =>
    let po := EngSlot.ofNat (wbits e.2 127 80)
    when' (po.op == 2 && !cbt.any fun t => t.1 == po.tile && t.2.1 == po.low % 4 + 1) (atWord v r c 0x114 0x7FFF e.1)
    ++ (refsOf e.2).flatMap fun x =>
      let d := OpDesc.ofWord (Store.get 0 prog x.2)
      when' (decide (x.1 ≤ 2) && isCb d.wfmt
          && (!(cbt.any fun t => t.2.2 == d.cblen) || decide (0x10000 < d.cblen * cbBytes d.wfmt)))
        (atWord v r c 0x114 0x7FFF x.2))

/-- 0x0114: a codebook RUN whose CBLEN differs from that of the CBLOAD before it in the segment (R60). -/
def ckStored (x : CRun) : List LoadRefusal :=
  let cbt := cfgCbt (x.v.sect 0x13 x.r x.c)
  let lenOf (t nt : Nat) := ((cbt.find? fun e => e.1 == t && e.2.1 == nt).map fun e => e.2.2).getD 0
  ([1, 2].flatMap fun k => x.ops k).flatMap fun e =>
    let before := x.cbs.filter fun b => decide (b.1.n < e.1.n)
    when' (isCb e.2.2.wfmt && (match before.getLast? with
      | some b => lenOf b.2.1 b.2.2 != e.2.2.cblen
      | none => false)) (atRun x 0x114 e.1.a)

/-! ### Envelopes, remaps, the domain -/

/-- Regions that a view uses. -/
def View.regions (v : View) : List Nat := (List.range 96).filter fun r => (List.range 28).any (v.used r)

/-- CREDCAP of the variant (R195). -/
def credcap : Variant → Nat
  | .s => 230400000
  | .m => 172800000
  | .e => 115200000

/-- 0x0115: envelopes (R195): f_r in GHz is CEIL in 50 MHz steps over 20. -/
def ckEnvelope (s : State) (v : View) : List LoadRefusal :=
  (v.regions.flatMap fun r =>
    when' ((List.range v.segs.length).any fun i => decide (s.fld (Rg.ENVELOPE_AUENV r) < imgDecl v.img v.p r i))
      { code := 0x115, region := r, sect := v.idx 0x21 r 0xFF })
  ++ when' (decide (64000 * credcap s.fuse.variant <
      (v.regions.map fun r => s.fld (Rg.ENVELOPE_AUENV r) * s.fld (Rg.CLKTUNE_CEIL r) * s.fuse.fmax).foldl (· + ·) 0))
    { code := 0x115 }

/-- 0x0116: a remap declaration (R185). -/
def ckRemap (v : View) : List LoadRefusal :=
  match v.remap with
  | none => []
  | some d =>
    let at' (c a : Nat) : LoadRefusal :=
      { code := 0x116, region := d.region, cluster := c, word := a, sect := v.idx 2 0xFF 0xFF }
    when' (!(decide (d.region < 96 ∧ d.covered < 28 ∧ d.spare < 28) && imgUsed v.img v.p d.region d.covered
        && !imgUsed v.img v.p d.region d.spare)) (at' d.spare 0xFFFF)
    ++ d.patches.flatMap fun e =>
      when' (!((e.1 == d.spare || imgUsed v.img v.p d.region e.1) && isDesc v d.region e.1 e.2.1)) (at' e.1 e.2.1)

/-- Does TOPO keep its constraint (R314)? -/
def topoOk (topo dx dy : Nat) : Bool :=
  1 ≤ dx && dx ≤ 16 && 1 ≤ dy && dy ≤ 16
  && (match topo with
    | 0 => dx * dy == 1
    | 1 => dy == 1
    | 2 => dy == 1 && 3 ≤ dx
    | 3 => true
    | 4 => 3 ≤ dx && 3 ≤ dy
    | _ => false)

/-- Does a QH value name an edge queue of the side that port `p` faces, its bit 12 being `i` (R201, R312, R317)? -/
def qhEdge (q p : Nat) (i : Bool) : Bool :=
  let r := bits q 11 5
  let s := bits q 4 3
  bits q 15 13 == 2 && bit q 12 == i && r < 96 && s == portSide p && (regionNeighbour r s).isNone
  && decide (bits q 2 0 < if s = 1 ∨ s = 3 then 4 else 7)

/-- Is a value listed twice? -/
def twice : List Nat → Bool
  | [] => false
  | x :: xs => xs.contains x || twice xs

namespace State

/-- 0x0117: the domain (R317). An image without a DOMAIN section is that of a domain of one module. -/
def domainOk (s : State) (img : List Byte) (p : Nat) : Bool :=
  let b := domainBytes img p
  let nmod := fieldAt img 8 2
  let pos := imgModpos img
  if b.isEmpty then nmod == 1 && pos == 0
  else
    let bs := bindings b
    let topo := byteAt b 0
    let dx := byteAt b 1
    let dy := byteAt b 2
    nmod == dx * dy && topoOk topo dx dy && decide (pos < nmod) && (nmod == 1 || !zeroAt b 8 8) && byteAt b 3 ≤ 32
    && !twice (bs.map Binding.port) && !twice (bs.map Binding.outq) && !twice (bs.map Binding.inq)
    && bs.all fun x =>
      x.port < 32 && qhEdge x.outq x.port false && qhEdge x.inq x.port true
      && ((topo != 1 && topo != 3) || (facing topo dx dy pos (portSide x.port)).isSome)
      && s.fld (Rg.VYB_STAT_STATE x.port) == 2 && s.fld (Rg.VYB_STAT_VER x.port) == s.fld Rg.VYB_DOMVER_VER
      && x.mdepth == s.mbqDepth x.port

/-! ### Every check -/

/-- The items that check `code` finds in a view. `runs` are the runs of its used clusters. -/
def items (s : State) (v : View) (cs : List (Nat × Nat)) (runs : List CRun) (code : Nat) : List LoadRefusal :=
  let each (f : Nat → Nat → List LoadRefusal) := cs.flatMap fun k => f k.1 k.2
  match code with
  | 0x105 => each (ckEncoding v)
  | 0x106 => each (ckDescriptor v)
  | 0x107 => runs.flatMap ckLoop
  | 0x108 => runs.flatMap ckOccupancy
  | 0x109 => runs.flatMap ckCollision
  | 0x10A => runs.flatMap ckSegment ++ each (ckEntries v) ++ ckSegTable v
  | 0x10B => each (ckField s v) ++ runs.flatMap (fun x => initItems x 1 ++ initItems x 2) ++ ckSections v
  | 0x10C => runs.flatMap ckPort
  | 0x10D => runs.flatMap ckBank
  | 0x10E => each (ckHandle s v)
  | 0x10F => v.regions.flatMap fun r => v.segs.flatMap fun e => ckRoutes v (runs.filter fun x => x.r == r && x.seg == e.2.1)
  | 0x110 => each (ckMode v)
  | 0x111 => (List.range 96).flatMap (ckQueue s v)
  | 0x112 => each (ckWiden v) ++ runs.flatMap (ckReserve runs)
  | 0x113 => each (ckTile v)
  | 0x114 => each (ckCodebook v) ++ runs.flatMap ckStored
  | 0x115 => ckEnvelope s v
  | 0x116 => ckRemap v
  | _ => when' (!s.domainOk v.img v.p) { code := 0x117, sect := v.idx 0x32 0xFF 0xFF }

/-- What the checks run over (R186): the selected placement and each of its remap declarations, with its clusters and runs. -/
def checked (s : State) : List (View × List (Nat × Nat) × List CRun) :=
  let views := (none :: (placeRemaps s.image s.place).map some).map fun d => (⟨s.image, s.place, d⟩ : View)
  views.map fun v => (v, v.clusters, v.clusters.flatMap fun k => clusterRuns v k.1 k.2)

/-- The codes of the checks, in their order (R198). -/
def checkCodes : List Nat := (List.range 19).map (· + 0x105)

/-- The checks of codes 0x0105 to 0x0117 over the selected placement and each of its remap declarations, in order (R186,
R198): the first failure. -/
def loadCheck (s : State) : Option LoadRefusal :=
  checkCodes.findSome? fun code => s.checked.findSome? fun e => firstItem (s.items e.1 e.2.1 e.2.2 code)

/-- The clusters at which a check fails, as 28 × region_index + cluster. -/
def failedAt (s : State) : List Nat :=
  checkCodes.flatMap fun code => s.checked.flatMap fun e =>
    (s.items e.1 e.2.1 e.2.2 code).filterMap fun x => if x.region < 96 ∧ x.cluster < 28 then some (28 * x.region + x.cluster) else none

end State
end Sys2Proof.Machine
end

