-- ==== Sys2Proof/Machine/Dram.lean ====
section
/-!
DEFINITION. The DRAM stacks (R207 to R219): which channels a stack uses, reads with their check and poison, writes with
the flip mask, pages under the stack hash, page headers and KV layouts.
-/
namespace Sys2Proof.Machine

/-- The region that holds quarter `k` of stack `n` (R15, R172). -/
def quarterRegion (n k : Nat) : Nat := 12 * (2 * (n / 6) + k / 2) + 2 * (n % 6) + k % 2
/-- The stack under region `r`. -/
def stackOf (r : Nat) : Nat := 6 * (r / 12 / 2) + r % 12 / 2
/-- The quarter of its stack that region `r` holds. -/
def quarterOf (r : Nat) : Nat := 2 * (r / 12 % 2) + r % 12 % 2
/-- The node address of the stack-controller quarter in region `r` (R172). -/
def nodeOfQuarter (r : Nat) : Nat := 0xC000 + r

/-- A location of DRAM that a record names: stack, channel and stack byte address. -/
structure DramLoc where
  stack : Nat
  chan : Nat
  addr : Nat
  deriving DecidableEq, Repr

/-- Why an access to DRAM yields nothing: no such byte, a channel of a fenced region, or poison (R207, R212, R226). -/
inductive DramErr where
  | absent
  | fenced (l : DramLoc)
  | poison (l : DramLoc)
  deriving DecidableEq, Repr

/-- What a walk that fails leaves: fault code, DETAIL and AUX (R226, R229). -/
structure WalkErr where
  code : Nat
  detail : Nat
  aux : Nat
  deriving DecidableEq, Repr

namespace State

/-- A mask of bit positions. -/
def maskOf (l : List Nat) : Nat := l.foldl (fun a i => a ||| 2 ^ i) 0

/-- The channels of stack `n` whose region is not fenced in the yield map now, as a mask (R207). -/
def chanMask (s : State) (n : Nat) : Nat :=
  maskOf ((List.range 32).filter fun ch => !s.yFenced (quarterRegion n (ch / 8)))

/-- The usable channels of stack `n`, ascending: those of the last load (R207), none before the first (DESIGN CHOICE, log 124). -/
def usableChans (s : State) (n : Nat) : List Nat := (List.range 32).filter fun ch => bit (s.loader.chans.getD n 0) ch

/-- Bytes that stack `n` holds (R207). -/
def stackSize (s : State) (n : Nat) : Nat := 0xC0000000 * (s.usableChans n).length

/-- The channel of stack byte address `a`, and its channel byte (R207). -/
def chanOf (s : State) (n a : Nat) : Option (Nat × Nat) :=
  let cs := s.usableChans n
  if a < s.stackSize n then (cs[(a / 256) % cs.length]?).map fun ch => (ch, a / 256 / cs.length * 256 + a % 256) else none

/-- The key of a DRAM word: stack, channel and channel byte / 8. -/
def dramKey (n ch b : Nat) : Nat := (32 * n + ch) * 2 ^ 29 + b / 8

/-- Is the channel that of a region that is fenced or without power? -/
def chanFenced (s : State) (n ch : Nat) : Bool :=
  let r := quarterRegion n (ch / 8)
  s.yFenced r || !s.powered r

/-- Do the stack's quarters hold every transaction: is it tripped (R369)? -/
def stackHolds (s : State) (n : Nat) : Bool := s.flag (Rg.STK_THERM_TTRIP n)

/-- A command whose transactions a tripped stack holds has no effect yet (R369): `s'` is what it would leave. -/
def unlessHeld (s s' : State) : State := if s'.blocked then { s with blocked := false } else s'

/-- The word of channel `ch` at channel byte `b`: a word written since its content was last lost, or what the loss left (R210). -/
def dramCell (s : State) (n ch b : Nat) : DCell :=
  let key := dramKey n ch b
  let x := Store.get DCell.zero s.dram key
  let v := Store.get 0 s.loader.lost (quarterRegion n (ch / 8))
  if v = 0 then x else ⟨x.data ^^^ BitVec.ofNat 64 (Config.lostWord v key), x.flip⟩

/-- That word becomes `x`. What is listed is the word's difference from what the last loss left. -/
def setDramCell (s : State) (n ch b : Nat) (x : DCell) : State :=
  let key := dramKey n ch b
  let v := Store.get 0 s.loader.lost (quarterRegion n (ch / 8))
  let x := if v = 0 then x else ⟨x.data ^^^ BitVec.ofNat 64 (Config.lostWord v key), x.flip⟩
  { s with dram := Store.set DCell.zero s.dram key x }

/-- The content of the channels that region `r` drives is lost (R210, R420): no value of it is stated. -/
def dramLost (s : State) (r : Nat) : State :=
  let c := 32 * stackOf r + 8 * quarterOf r
  { s with dram := Store.eraseRange s.dram (c * 2 ^ 29) (8 * 2 ^ 29)
           loader := { s.loader with lost := Store.put s.loader.lost r (Store.get 0 s.loader.lost r + 1) } }

/-- A burst is written: the flip mask is applied to the next burst of its channel, and disarms (R213). -/
def burstFlip (s : State) (n ch b : Nat) : State :=
  let r := quarterRegion n (ch / 8)
  if s.flag (Rg.DFLIP_CTL_ARM r) && s.fld (Rg.DFLIP_CTL_CH r) == ch % 8 then
    let s := s.setFld (Rg.DFLIP_CTL_ARM r) 0
    (List.range 4).foldl (fun s j =>
      let at_ := b / 32 * 32 + 8 * j
      let x := s.dramCell n ch at_
      let p := s.rd (Rg.DFLIP_P r (2 * j)) + 2 ^ 32 * s.rd (Rg.DFLIP_P r (2 * j + 1))
        + 2 ^ 64 * bits (s.rd (Rg.DFLIP_P r 8)) (8 * j + 7) (8 * j)
      s.setDramCell n ch at_ { x with flip := x.flip ^^^ BitVec.ofNat 72 p }) s
  else s

/-- What the word `x` of channel `ch`, channel byte `b`, reads as by its check bits: a corrected word is rewritten, which writes its
burst, and logged (R212, R213). -/
def dramFound (s : State) (n ch a b : Nat) (x : DCell) : Ecc → Except DramErr DWord × State
  | .clean => (.ok x.data, s)
  | .corrected q =>
    let d := x.data ^^^ BitVec.ofNat 64 q
    let r := quarterRegion n (ch / 8)
    let s := (s.setDramCell n ch b ⟨d, 0⟩).burstFlip n ch b
    (.ok d, (s.log r { code := 0x305, region := r, loc0 := 256 * n + ch, loc1 := a / 32,
                       detail := Config.syndrome 72 x.flip.toNat }).count (Rg.SQ_CE_COUNT r) 1)
  | .bad => (.error (.poison ⟨n, ch, a⟩), s.count (Rg.SQ_UE_COUNT (quarterRegion n (ch / 8))) 1)

/-- A read of the DRAM word at stack byte address `a`, a multiple of 8 (R212). -/
def dramWord (s : State) (n a : Nat) : Except DramErr DWord × State :=
  match s.chanOf n a with
  | none => (.error .absent, s)
  | some (ch, b) =>
    if s.chanFenced n ch then (.error (.fenced ⟨n, ch, a⟩), s)
    else if s.stackHolds n then (.error .absent, { s with blocked := true })
    else
      let x := s.dramCell n ch b
      s.dramFound n ch a b x (eccOf 72 x.flip.toNat)

/-- A word read joins those before it. -/
def dramJoin (ws : List DWord) : Except DramErr DWord × State → Except DramErr (List DWord) × State
  | (.error e, s) => (.error e, s)
  | (.ok w, s) => (.ok (ws ++ [w]), s)

/-- One more of a run of DRAM words from stack byte address `a`: the first that fails ends the run. -/
def dramMore (n a : Nat) (x : Except DramErr (List DWord) × State) (i : Nat) : Except DramErr (List DWord) × State :=
  match x with
  | (.error e, s) => (.error e, s)
  | (.ok ws, s) => dramJoin ws (s.dramWord n (a + 8 * i))

/-- Reads of `m` consecutive DRAM words; the first that fails ends them. -/
def dramWords (s : State) (n a m : Nat) : Except DramErr (List DWord) × State := (List.range m).foldl (dramMore n a) (.ok [], s)

/-- A completed transaction on each 256-B chunk of a range is counted (R211, R463). -/
def countTxn (s : State) (n a len : Nat) : State :=
  (List.range (if len = 0 then 0 else (a + len - 1) / 256 - a / 256 + 1)).foldl (fun s i =>
    match s.chanOf n (a / 256 * 256 + 256 * i) with
    | some (ch, _) => s.count (Rg.SQ_TXN (quarterRegion n (ch / 8)) (ch % 8)) 1
    | none => s) s

/-- `len` bytes of stack `n` from stack byte address `a`. -/
def dramRead (s : State) (n a len : Nat) : Except DramErr (List Byte) × State :=
  match s.dramWords n (a / 8 * 8) ((a % 8 + len + 7) / 8) with
  | (.error e, s) => (.error e, s)
  | (.ok ws, s) => (.ok (((ofWords ws).drop (a % 8)).take len), s.countTxn n a len)

/-- A write of bytes `bs` inside the word at channel byte `b`, from its byte `o`. The bytes it does not name keep their value, and
with it an error beyond correction: what a write of less than a word makes of one the spec leaves open (DESIGN CHOICE, log 84). -/
def dramPut (s : State) (n ch b : Nat) (o : Nat) (bs : List Byte) : State :=
  let x := s.dramCell n ch b
  let old : DWord := match eccOf 72 x.flip.toNat with | .corrected q => x.data ^^^ BitVec.ofNat 64 q | _ => x.data
  s.setDramCell n ch b
    ⟨BitVec.ofNat 64 (leNat (spliced (leBytes 8 old.toNat) o bs)),
     BitVec.ofNat 72 (if bs.length = 8 then 0 else narrowFlip 72 x.flip.toNat)⟩

/-- A part of a write goes into its word; the burst that it completes takes an armed pattern (R213). -/
def dramWriteAt (s : State) (n ch b e : Nat) (w : Nat × List Byte) : State :=
  let next := w.1 + (8 - w.1 % 8)
  let s := s.dramPut n ch (b / 8 * 8) (w.1 % 8) w.2
  if e ≤ next ∨ next % 32 = 0 then s.burstFlip n ch b else s

/-- One part of a write that ends before stack byte address `e`: the first that fails ends the write (R212, R213). -/
def dramWriteMore (n e : Nat) (x : Except DramErr Unit × State) (w : Nat × List Byte) : Except DramErr Unit × State :=
  match x with
  | (.error err, s) => (.error err, s)
  | (.ok _, s) =>
    match s.chanOf n w.1 with
    | none => (.error .absent, s)
    | some (ch, b) =>
      if s.chanFenced n ch then (.error (.fenced ⟨n, ch, w.1⟩), s)
      else if s.stackHolds n then (.error .absent, { s with blocked := true })
      else (.ok (), s.dramWriteAt n ch b e w)

/-- A write of `bs` at stack byte address `a`, word by word. -/
def dramWriteWords (s : State) (n a : Nat) (bs : List Byte) : Except DramErr Unit × State :=
  (wordParts (bs.length / 8 + 2) a bs).foldl (dramWriteMore n (a + bs.length)) (.ok (), s)

/-- A write of bytes at stack byte address `a` (R212, R213). -/
def dramWrite (s : State) (n a : Nat) (bs : List Byte) : Except DramErr Unit × State :=
  match s.dramWriteWords n a bs with
  | (.error e, s) => (.error e, s)
  | (.ok _, s) => (.ok (), s.countTxn n a bs.length)

/-! ### Pages -/

/-- The stack that holds page `p` (R209). -/
def pageStack (s : State) (p : Nat) : Nat :=
  let h := ((p / 24) ^^^ s.salt) % 2 ^ 32
  let f := (h / 65536) ^^^ (h % 65536)
  let f := (f / 256) ^^^ (f % 256)
  (p % 24 + f) % 24

/-- Does page `p` name a frame that exists (R208)? -/
def pageExists (s : State) (p : Nat) : Bool :=
  decide (p < 0x2400000) && decide (p / 24 < 49152 * (s.usableChans (s.pageStack p)).length)

/-- The DETAIL of fault 0x0210 for a location within page `p` (R226). -/
def dramDetail (flags : Nat) (l : DramLoc) : Nat :=
  flags + 2 ^ 24 * l.stack + 2 ^ 16 * l.chan + l.addr % 65536 / 256

/-- The fault of a failed access to page `p`: an absent page is `gone`. -/
def walkErr (p : Nat) (gone : WalkErr) : DramErr → WalkErr
  | .absent => gone
  | .fenced l => ⟨0x210, dramDetail (2 ^ 30) l, p⟩
  | .poison l => ⟨0x210, dramDetail 0 l, p⟩

/-- `len` bytes at byte `o` of page `p`; `gone` is the failure for a page that does not exist. -/
def pageRead (s : State) (p o len : Nat) (gone : WalkErr) : Except WalkErr (List Byte) × State :=
  if s.pageExists p then
    match s.dramRead (s.pageStack p) (p / 24 * 65536 + o) len with
    | (.error e, s) => (.error (walkErr p gone e), s)
    | (.ok bs, s) => (.ok bs, s)
  else (.error gone, s)

/-- A write of bytes at byte `o` of page `p`. -/
def pageWrite (s : State) (p o : Nat) (bs : List Byte) (gone : WalkErr) : Except WalkErr Unit × State :=
  if s.pageExists p then
    match s.dramWrite (s.pageStack p) (p / 24 * 65536 + o) bs with
    | (.error e, s) => (.error (walkErr p gone e), s)
    | (.ok _, s) => (.ok (), s)
  else (.error gone, s)

end State

/-- A KV layout record (R217). -/
structure KvLayout where
  kind : Nat
  efmt : Nat
  nl : Nat
  dl : Nat
  dr : Nat
  eblk : Nat
  ppb : Nat
  split : Nat
  nsplit : Nat
  spos : Nat
  deriving DecidableEq, Repr

/-- The layouts of a KVLAYOUT section (R217). -/
def kvLayouts (b : List Byte) : List KvLayout :=
  (List.range (byteAt b 0)).map fun i =>
    let o := 8 + 32 * i
    ⟨byteAt b o, byteAt b (o + 1), fieldAt b (o + 2) 2, fieldAt b (o + 4) 2, fieldAt b (o + 6) 2, fieldAt b (o + 8) 2,
     fieldAt b (o + 10) 2, byteAt b (o + 12), fieldAt b (o + 14) 2, fieldAt b (o + 16) 2⟩

/-- The page-list entry and page byte of frame byte `boff` of block `b` (R219): the entry index and the byte. -/
def KvLayout.place (l : KvLayout) (b boff : Nat) : Nat × Nat :=
  (l.ppb * (if l.split = 2 then b / l.nsplit else b) + boff / 65536, boff % 65536)

/-- BOFF of layer `ly`, token `t` (R219). -/
def KvLayout.boff (l : KvLayout) (ly t : Nat) : Nat := 64 * 33 * l.eblk * ly + 33 * l.eblk * t

end Sys2Proof.Machine
end

