-- ==== Sys2Proof/Machine/Loading.lean ====
section
/-!
DEFINITION. Image loads (R196, R197, R286 to R288, R407) and the in-place swap (R293 to R299).
-/
namespace Sys2Proof.Machine

/-- The header of a model image (R280). -/
structure ModelHdr where
  form : Nat
  place : Nat
  ntile : Nat
  nseg : Nat
  digest : List Byte
  pidig : List Byte
  laydig : List Byte
  wraplen : Nat
  wrapped : List Byte
  deriving DecidableEq, Repr

/-- The header in 1,024 bytes (R280). -/
def ModelHdr.ofBytes (b : List Byte) : ModelHdr :=
  ⟨byteAt b 6, byteAt b 7, fieldAt b 8 4, fieldAt b 12 4, bytesAt b 16 64, bytesAt b 80 64, bytesAt b 144 64,
   fieldAt b 208 2, bytesAt b 216 512⟩

/-- MAGIC, FMTVER, reserved bytes and the fields that a form fixes (R280, R287). -/
def modelHdrOk (b : List Byte) : Bool :=
  let h := ModelHdr.ofBytes b
  bytesAt b 0 4 == [0x4C, 0x57, 0x4D, 0x49] && fieldAt b 4 2 == 1 && (h.form == 1 || h.form == 2)
  && zeroAt b 210 6 && zeroAt b 728 296 && b.length == 1024
  && (if h.form = 1 then
        h.place == 0 && h.nseg == ceilDiv h.ntile 64 && zeroAt b 80 128 && h.wraplen == 512
      else h.nseg == 0 && h.wraplen == 0 && zeroAt b 216 512)

/-- A mapped tile of a placement (R285): region and cluster as compiled, logical tile, model and model tile. -/
abbrev MappedTile := Nat × Nat × Nat × Nat × Nat

/-- The tiles that the weight maps of a placement map, in ascending region, cluster and logical tile (R284, R285). -/
def mappedTiles (img : List Byte) (p : Nat) : List MappedTile :=
  (imgUsedList img p).flatMap fun k =>
    let r := k / 28
    let c := k % 28
    let ws := weightRuns (sectionOf img 0x14 r c p)
    (List.range 4608).filterMap fun t =>
      (ws.find? fun w => decide (w.ltile ≤ t ∧ t < w.ltile + w.count)).map fun w => (r, c, t, w.model, w.mtile + (t - w.ltile))

/-- Model of a mapped tile. -/
def MappedTile.model (t : MappedTile) : Nat := t.2.2.2.1
/-- Model tile of a mapped tile. -/
def MappedTile.mtile (t : MappedTile) : Nat := t.2.2.2.2

/-- Numbers without repeats, in their order. -/
def dedup : List Nat → List Nat
  | [] => []
  | x :: xs => let r := dedup xs; if r.contains x then r else x :: r

/-- The numbers below `n` that occur in a list, ascending. -/
def ascending (n : Nat) (l : List Nat) : List Nat := (List.range n).filter l.contains

namespace State

/-- WEIGHTFORM (R279). -/
def weightForm (s : State) : Nat := Store.get 1 s.mg.dict 0x180001

/-- Does the loader write this tile (R184, R407)? Not one whose cluster holds its tile from the load before: the image is the
same, the cluster was used with the same sections, their weight map is the same section, and the tile is not pending. -/
def tileNeeded (s : State) (img : List Byte) (p : Nat) (t : MappedTile) : Bool :=
  match s.loader.prev with
  | none => true
  | some (old, q, used) =>
    let c := s.targetCluster t.1 t.2.1
    old != img || s.tilePending t.1 c t.2.2.1 || !used.contains (28 * t.1 + c, 28 * t.1 + t.2.1)
    || (findSection old 0x14 t.1 t.2.1 q).map Section.off != (findSection img 0x14 t.1 t.2.1 p).map Section.off

/-- The words of control memory that hold entry `m` of the source list (R286). -/
def srcWords (s : State) (m : Nat) : List Nat := [(s.fld Rg.WLD_LIST_OFF + 16 * m) / 8, (s.fld Rg.WLD_LIST_OFF + 16 * m) / 8 + 1]

/-- Entry `m` of the source list (R286): SRC, PORT, NPORT; none when it cannot be read (R413). -/
def srcEntry (s : State) (m : Nat) : Option (Nat × Nat × Nat) :=
  let o := s.fld Rg.WLD_LIST_OFF + 16 * m
  if (s.cmProbe 8 (s.srcWords m)).1 then some (s.cmNum (o + 8) 1, s.cmNum (o + 9) 1, s.cmNum (o + 10) 1) else none

/-- The assist reads the source list (R279, R286): an entry that it cannot read is reported (R413). -/
def srcRead (s : State) : State := (List.range 5).foldl (fun s m => (s.cmProbe 8 (s.srcWords m)).2) s

/-! ### Abandoning and refusing -/

/-- One refusal record is made, every cluster is disabled and CODE is set (R197, R198). -/
def refuseLoad (s : State) (x : LoadRefusal) : State :=
  let f : FaultRec := { code := x.code, region := x.region, cluster := x.cluster, segment := x.segment, bundle := x.word,
                        flags := 1 + 16 * s.fld Rg.IMG_STAT_PLACE, aux := x.sect }
  let s := s.record 96 (f.image s.ns)
  let s := s.disableClusters
  let s := s.setImg (setBits (setBits (s.rd Rg.IMG_STAT) 15 0 x.code) 31 28 0)
  (({ s with image := [], loader := { s.loader with job := .none, models := [], sources := [], remaps := [] } } : State).setFld
    Rg.WLD_STAT_STATE 0)

/-! ### Step 3: writing a placement -/

/-- A remap is recorded in REMAPSTAT (R186). -/
def applyRemap (s : State) (d : Remap) : State :=
  let r := d.region
  if !s.flag (Rg.REMAPSTAT_V0 r) then
    ((s.setFld (Rg.REMAPSTAT_V0 r) 1).setFld (Rg.REMAPSTAT_COV0 r) d.covered).setFld (Rg.REMAPSTAT_SPR0 r) d.spare
  else
    ((s.setFld (Rg.REMAPSTAT_V1 r) 1).setFld (Rg.REMAPSTAT_COV1 r) d.covered).setFld (Rg.REMAPSTAT_SPR1 r) d.spare

/-- Is the declaration recorded in REMAPSTAT? -/
def remapApplied (s : State) (d : Remap) : Bool :=
  let r := d.region
  (s.flag (Rg.REMAPSTAT_V0 r) && s.fld (Rg.REMAPSTAT_COV0 r) == d.covered && s.fld (Rg.REMAPSTAT_SPR0 r) == d.spare)
  || (s.flag (Rg.REMAPSTAT_V1 r) && s.fld (Rg.REMAPSTAT_COV1 r) == d.covered && s.fld (Rg.REMAPSTAT_SPR1 r) == d.spare)

/-- The remaps that the driver asks for in region `r`: covered cluster and spare (R416). -/
def remapAsked (s : State) (r : Nat) : List (Nat × Nat) :=
  if s.loader.asked.contains r then
    (if s.flag (Rg.REMAPSTAT_V0 r) then [(s.fld (Rg.REMAPSTAT_COV0 r), s.fld (Rg.REMAPSTAT_SPR0 r))] else [])
    ++ (if s.flag (Rg.REMAPSTAT_V1 r) then [(s.fld (Rg.REMAPSTAT_COV1 r), s.fld (Rg.REMAPSTAT_SPR1 r))] else [])
  else []

/-- A remap asked for that the placement does not declare, or that two others leave no place for (R416): its region. -/
def remapWrong (s : State) (img : List Byte) (p : Nat) : Option Nat :=
  (List.range 96).find? fun r =>
    let asked := s.remapAsked r
    let auto := (List.range 28).filter fun c => imgUsed img p r c && !s.usable r c && !bit (placeFence img p) r
    (asked.any fun e => !(placeRemaps img p).any fun d => d.region == r && d.covered == e.1 && d.spare == e.2)
    || (!asked.isEmpty && decide (2 < asked.length + (auto.filter fun c => !asked.any fun e => e.1 == c).length))

/-- Is cluster `c` the spare of a remap recorded in REMAPSTAT? -/
def spareTaken (s : State) (r c : Nat) : Bool :=
  (s.flag (Rg.REMAPSTAT_V0 r) && s.fld (Rg.REMAPSTAT_SPR0 r) == c) || (s.flag (Rg.REMAPSTAT_V1 r) && s.fld (Rg.REMAPSTAT_SPR1 r) == c)

/-- Remaps are applied (R183, R186, R416): those that the driver asks for, then of each unusable covered cluster the first
declaration whose spare is usable and free. -/
def applyRemaps (s : State) (img : List Byte) (p : Nat) : State :=
  let asked := (List.range 96).flatMap fun r => (s.remapAsked r).map fun e => (r, e.1, e.2)
  let s := (List.range 96).foldl (fun s r =>
    if s.loader.asked.contains r ∨ s.rd (Rg.REMAPSTAT r) = 0 then s else s.wr (Rg.REMAPSTAT r) 0) s
  let s := { s with loader := { s.loader with asked := [], remaps := asked } }
  (imgUsedList img p).foldl (fun s k =>
    let r := k / 28
    let c := k % 28
    if s.usable r c ∨ bit (placeFence img p) r ∨ s.targetCluster r c ≠ c then s
    else
      match s.coverOf (s.spareTaken r) img p r c with
      | some d => s.applyRemap d
      | none => s) s

/-- The remaps that a load makes for the driver are reported, once their spares are written and filled (R416). -/
def reportRemaps (s : State) : State :=
  let s' := s.loader.remaps.foldl (fun s e => s.logRegion e.1 0x411 e.2.1 e.2.2 0) s
  { s' with loader := { s'.loader with remaps := [] } }

/-- The program of a cluster as loaded (R145, R180, R185): its runs, then the patches of the applied remaps. -/
def loadedProgram (s : State) (img : List Byte) (p r c : Nat) : List (Nat × PCell) :=
  let b := sectionOf img 0x10 r c p
  let tc := s.targetCluster r c
  let runs := (progRuns b.length b).foldl (fun m e => Store.setMany PCell.zero m e.1 (e.2.map fun w => ⟨w, 0⟩)) []
  (placeRemaps img p).foldl (fun m d =>
    if d.region = r ∧ s.targetCluster r d.covered = d.spare ∧ d.covered ≠ d.spare then
      d.patches.foldl (fun m e => if e.1 = tc then Store.set PCell.zero m e.2.1 ⟨e.2.2, 0⟩ else m) m
    else m) runs

/-- Is a control address that of a handle or of a frame-table entry of a cluster (R135, R155)? -/
def tableReg (a : Nat) : Bool :=
  let o := (a - regionBase 0) % 0x200000000
  let q := o % 0x10000000
  decide (regionBase 0 ≤ a ∧ a < regionBase 96 ∧ o < 28 * 0x10000000)
  && decide ((0xF000000 ≤ q ∧ q < 0xF000200) ∨ (0xF000600 ≤ q ∧ q < 0xF000700))

/-- Every cluster's program memory, handles and frame table are rewritten with zero before those of the used clusters are
written, the valid bits of every scratchpad are cleared, every store length is 0, and no bundle is checked (R60, R133, R145,
R184, R464). -/
def wipeClusters (s : State) : State :=
  let s := { s with regs := s.regs.filter fun e => !tableReg e.1 }
  let s := (s.clusters.map Prod.fst).foldl (fun s k =>
    s.modCluster (k / 28) (k % 28) fun x => { x with prog := [], sp := [], cbLen := 0 }) s
  (List.range 2688).foldl (fun s k =>
    if s.rd (Rg.CL_STAT (k / 28) (k % 28)) = 0 then s
    else ((s.setFld (Rg.CL_STAT_SPARE (k / 28) (k % 28)) 0).setFld (Rg.CL_STAT_COVERED (k / 28) (k % 28)) 0).setFld
      (Rg.CL_STAT_CHK (k / 28) (k % 28)) 0) s

/-- A used cluster's program, handles, frame table and registers are written (R145, R197). -/
def loadCluster (s : State) (img : List Byte) (p r c : Nat) : State :=
  let tc := s.targetCluster r c
  let prog := s.loadedProgram img p r c
  let hs := sectionOf img 0x11 r c p
  let fs := sectionOf img 0x12 r c p
  let s := s.modCluster r tc fun k => { k with prog := prog }
  let s := (List.range 64).foldl (fun s h =>
    (s.wr (Rg.HANDLE_LO r tc h) (fieldAt hs (8 * h) 4 &&& 0xFFE01FFF)).wr (Rg.HANDLE_HI r tc h)
      (fieldAt hs (8 * h + 4) 4 % 2 ^ 18)) s
  let s := (List.range 32).foldl (fun s i =>
    (s.wr (Rg.FRTAB_LO r tc i) (fieldAt fs (8 * i) 4 &&& 0x800FFFFF)).wr (Rg.FRTAB_HI r tc i) (fieldAt fs (8 * i + 4) 4 % 2 ^ 20)) s
  let s := (s.setFld (Rg.CL_STAT_SPARE r tc) (if tc = c then 0 else 1)).setFld (Rg.CL_STAT_COVERED r tc) 0
  if tc = c then s else s.setFld (Rg.CL_STAT_COVERED r c) 1

/-- The salt and the channel sets take effect at a load (R207, R210): where either differs from the previous load, the content of
every stack is void. -/
def loadStacks (s : State) : State :=
  let chans := (List.range 24).map s.chanMask
  let keeps := s.loader.chans == [] || (s.loader.chans == chans && s.salt == s.rd Rg.KVSALT)
  let s := if keeps then s else (List.range 96).foldl (fun s r => s.dramLost r) s
  { s with salt := s.rd Rg.KVSALT, loader := { s.loader with chans := chans } }

/-- Fences that a load clears (R167): those of queues whose regions are powered or fenced in the yield map. -/
def clearFences (s : State) : State :=
  let keep (r : Nat) : Bool := !s.powered r && !s.yFenced r
  let held := (List.range 96).flatMap fun r => if keep r then queuesOf r else []
  { s with queues := s.queues.filterMap fun e =>
      if e.2.fenced && !held.contains e.1 then none else some e }

/-- A region's counters and its segment queue at a load (R197, R465). -/
def loadRegion (s : State) (r : Nat) : State :=
  let s := s.modRegion r fun g =>
    { g with seg := none, cycle := 0, segq := [], haltReq := none, stall := 0, wstall := 0, stallReqs := [], smpq := [],
             smpr := [], feedSeq := 0, feedPass := 0, feedRow := 0 }
  s.wr (Rg.SEGSEQ r) 0

/-- Step 3 of R197 but for the weights. -/
def writePlacement (s : State) (img : List Byte) (p : Nat) : State :=
  let s := (s.applyRemaps img p).wipeClusters
  let s := (imgUsedList img p).foldl (fun s k => s.loadCluster img p (k / 28) (k % 28)) s
  let s := (List.range 96).foldl (fun s r => s.loadRegion r) s
  (s.loadStacks.clearFences).bindPorts img p

/-- The bundle checker of the cluster that runs what `k` names, as 28 × region_index + cluster, shows `v` (R464): 2 passed, 3
failed. -/
def showCheck (s : State) (k v : Nat) : State := s.setFld (Rg.CL_STAT_CHK (k / 28) (s.targetCluster (k / 28) (k % 28))) v

/-- The checks pass (R197 step 5a): clusters are enabled and the image is READY. -/
def enableImage (s : State) : State :=
  let s := (imgUsedList s.image s.place).foldl (fun s k =>
    (s.showCheck k 2).setFld (Rg.CL_STAT_EN (k / 28) (s.targetCluster (k / 28) (k % 28))) 1) s
  let s := s.setImg (setBits (setBits (s.rd Rg.IMG_STAT) 15 0 0) 31 28 3)
  s.announceReady

/-- A check fails (R198, R464): the clusters at which any item fails show it, the others have passed. -/
def checkFailed (s : State) (x : LoadRefusal) : State :=
  let bad := s.failedAt
  ((imgUsedList s.image s.place).foldl (fun s k => s.showCheck k (if bad.contains k then 3 else 2)) s).refuseLoad x

/-- Steps 4 and 5 of R197, once the weights are written: every check is run. -/
def runChecks (s : State) : State :=
  let s := (s.reportRemaps.setImgState 2).wr Rg.WLD_STAT 0
  let s := { s with loader := { s.loader with
                                job := .none, models := [], sources := []
                                prev := some (s.image, s.place, s.holders s.image s.place), swapped := [], broken := false
                                inForce := s.loader.models.foldl (fun l (m : ModelJob) => Store.put l m.m m.digest) s.loader.inForce } }
  match s.loadCheck with
  | some x => s.checkFailed x
  | none => s.enableImage

/-! ### The weight phase -/

/-- The segments of a sealed model that hold a tile to write, ascending (R287). -/
def segsOf (tiles : List MappedTile) (m : Nat) : List Nat :=
  let ks := dedup ((tiles.filter fun t => t.model == m).map fun t => t.mtile / 64)
  ascending (ks.foldl Nat.max 0 + 1) ks

/-- The blob that WRAPPED holds (R282): key, nonce; none when decoding fails or its DIGEST or zero bytes are wrong. -/
def unwrapBlob (h : ModelHdr) : Option (List Byte × List Byte) :=
  match Config.oaepOpen h.wrapped with
  | none => none
  | some b =>
    if b.length = 128 ∧ zeroAt b 36 28 ∧ bytesAt b 64 64 = h.digest then some (bytesAt b 0 32, bytesAt b 32 4) else none

/-- The digest bytes that the placement image names for model `m` (R280): its length and the bytes. -/
def wantedId (img : List Byte) (p m : Nat) : List Byte :=
  if m = 0 then bytesAt img 32 32 else bytesAt (imgDraft img p m) 4 8

/-- A model's header is checked (R287 steps 1 and 2): its job, or a cause. `wanted` is what its identifier must be. -/
def modelStart (img : List Byte) (p form m : Nat) (tiles all : List MappedTile) (wanted : List Byte)
    (hdr : Option (List Byte)) : Except Nat ModelJob :=
  match hdr with
  | none => .error 8
  | some b =>
    let h := ModelHdr.ofBytes b
    if (h.form = 1 ∧ form % 2 = 0) ∨ (h.form = 2 ∧ form / 2 % 2 = 0) then .error 1
    else if !modelHdrOk b then .error 2
    else if h.digest.take wanted.length ≠ wanted then .error 3
    else if h.form = 1 then
      match unwrapBlob h with
      | none => .error 4
      | some (k, n) => .ok ⟨m, 1, 1, k, n, h.digest, [], segsOf tiles m, [], [], (0, 0)⟩
    else
      let recs := all.filter fun t => t.model == m
      if h.pidig ≠ imgDigest img ∨ h.place ≠ p ∨ h.ntile ≠ recs.length then .error 7
      else .ok ⟨m, 1, 2, [], [], h.digest, h.laydig, List.range recs.length, [], [], (0, 0)⟩

/-- The job of a model whose source is a neighbouring module (R288, R290): it counts as sealed; its segments follow the
request list. -/
def transferStart (form m : Nat) (path : Nat × Nat) (tiles : List MappedTile) (wanted : List Byte) : Except Nat ModelJob :=
  if form % 2 = 0 then .error 1
  else
    let ts := dedup ((tiles.filter fun t => t.model == m).map MappedTile.mtile)
    .ok ⟨m, 2, 1, [], [], wanted, [], List.range (ceilDiv ts.length 64), [], [], path⟩

/-- The source list as sampled, with the headers that the host has (R279, R286); an entry that cannot be read has no SRC that R286
names. -/
def sourceList (s : State) (headers : List (Option (List Byte))) : List Source :=
  (List.range 5).map fun m =>
    match s.srcEntry m with
    | some e => ⟨m, e.1, e.2, headers.getD m none⟩
    | none => ⟨m, 255, (0, 0), none⟩

/-- The job of a model, or the cause for which the loader fails (R286, R287); none for a model that is kept. `keep` says
whether SRC 0 is accepted. For an SRC or NPORT that R286 does not name, and a SRC 0 not accepted, the cause is a free value. -/
def sourceJob (s : State) (img : List Byte) (p : Nat) (tiles all : List MappedTile) (keep : Bool) (x : Source) :
    Except Nat (Option ModelJob) :=
  let want := wantedId img p x.m
  if x.src = 0 ∧ keep = true then .ok none
  else if x.src = 1 then (modelStart img p s.loader.form x.m tiles all want x.header).map some
  else if x.src = 2 ∧ 1 ≤ x.path.2 ∧ x.path.2 ≤ 8 then (transferStart s.loader.form x.m x.path tiles want).map some
  else .error (Config.freeValue s.free % 256)

/-- The jobs of a swap's models in ascending m, all checked before any request is held (R293): the first failure's cause and
model. -/
def modelJobs (s : State) (img : List Byte) (p : Nat) (tiles all : List MappedTile) :
    List Source → Except (Nat × Nat) (List ModelJob)
  | [] => .ok []
  | x :: xs =>
    match s.sourceJob img p tiles all true x with
    | .error c => .error (c, x.m)
    | .ok j =>
      match s.modelJobs img p tiles all xs with
      | .error e => .error e
      | .ok js => .ok (j.toList ++ js)

/-- HELLO goes out when the next model to fetch comes from a neighbouring module (R290 step 1). -/
def sendHello (s : State) : State :=
  match (s.loader.models.filter fun j => !j.todo.isEmpty).head? with
  | none => s
  | some j =>
    if j.src ≠ 2 ∨ s.rxSession.step ≠ 0 then s
    else
      let x := s.fresh 256
      let s := x.2
      let id := wantedId s.loader.img s.loader.place j.m
      let s := ({ s with rxSession := { Session.idle with step := 1, model := j.m, nr := leBytes 32 x.1, wanted := id,
                                                          path := j.path } } : State)
      s.emit (.handshake 1 [leBytes 32 x.1, Config.ownChain, id] j.path)

/-- Is there nothing to fetch for the models that the loader has come to? -/
def fetched (s : State) : Bool := s.loader.models.all fun j => j.todo.isEmpty

/-- A load comes to its next models with a source, in ascending m, until one has something to fetch (R287): the jobs, or a
failure. -/
def nextModels (s : State) : List Source → State
  | [] => { s with loader := { s.loader with sources := [] } }
  | x :: xs =>
    let all := mappedTiles s.loader.img s.loader.place
    match s.sourceJob s.loader.img s.loader.place s.loader.tiles all (!s.loader.tiles.any fun t => MappedTile.model t == x.m) x with
    | .error c => s.loadFail c x.m
    | .ok none => s.nextModels xs
    | .ok (some j) =>
      let s := ({ s with loader := { s.loader with models := s.loader.models ++ [j], sources := xs } } : State)
      if j.todo.isEmpty then s.nextModels xs else s

/-- The loader goes on (R287, R294): with the model in hand, with the next, or, when nothing is left to fetch, a load with its
checks and a swap with its last step. -/
def loadAdvance (s : State) : State :=
  let s := if s.fetched then s.nextModels s.loader.sources else s
  if s.fetched then
    match s.loader.job with
    | .load => s.runChecks
    | .none => s
    | _ => s.holdFinish
  else s.sendHello

/-- The cluster that holds a mapped tile: the spare where a remap stands in for the cluster that maps it (R284). -/
def tileCluster (s : State) (t : MappedTile) : Nat := s.targetCluster t.1 t.2.1

/-- A tile's bytes are written through the write path, which leaves it pending (R127, R287). -/
def putTile (s : State) (t : MappedTile) (bs : List Byte) : State := s.tileWrite t.1 (s.tileCluster t) t.2.2.1 0 bs

/-- A written tile is tagged (R287 step 5); in a swap REMAIN counts down, WLD_RDONE follows, and the tile is the old model's no
more (R294). -/
def tagTile (s : State) (t : MappedTile) (bs : List Byte) : State :=
  let s := s.tileTag t.1 (s.tileCluster t) t.2.2.1 (BitVec.ofNat 32 (crc32c bs))
  if s.loader.job = .swap then
    let s := { s with loader := { s.loader with swapped := s.loader.swapped ++ [(t.1, s.tileCluster t, t.2.2.1)] } }
    (s.setFld (Rg.SWP_HOLD_REMAIN t.1) (s.fld (Rg.SWP_HOLD_REMAIN t.1) - 1)).markDone
  else s

/-- A tile of an authenticated segment is written and tagged (R287 step 5). -/
def loadTile (s : State) (t : MappedTile) (bs : List Byte) : State := (s.putTile t bs).tagTile t bs

/-- The tile that record `k` of a final-layout image holds (R284). -/
def recordTile (s : State) (m k : Nat) : Option MappedTile :=
  ((mappedTiles s.loader.img s.loader.place).filter fun t => MappedTile.model t == m)[k]?

/-- The segment or record of a job that is fetched next (R287, R294): a final-layout image's records in order, a sealed image's
segments in ascending order, in a swap one whose every target region is IDLE. -/
def nextSegment (s : State) (j : ModelJob) : Option Nat :=
  let idle (p : MappedTile → Bool) : Bool := s.loader.job != .swap || (s.loader.tiles.filter p).all fun t => s.swpIdle t.1
  if j.form = 2 then
    match j.todo with
    | [] => none
    | k :: _ => if idle fun t => some t == s.recordTile j.m k then some k else none
  else j.todo.find? fun k => idle fun t => MappedTile.model t == j.m && MappedTile.mtile t / 64 == k

/-- Model `m`'s job changes by `f`. -/
def modJob (s : State) (m : Nat) (f : ModelJob → ModelJob) : State :=
  { s with loader := { s.loader with models := s.loader.models.map fun j => if j.m = m then f j else j } }

/-- One more segment or record is done (R289). -/
def countSeg (s : State) : State := s.wr Rg.WLD_PROG (s.rd Rg.WLD_PROG + 1)

/-- Segment `k` of a sealed image or of a transfer, authenticated: each tile goes to its targets (R287). `tileAt` is the
place in the segment of a mapped tile, if it is there. -/
def writeSegment (s : State) (m : Nat) (pt : List Byte) (tileAt : MappedTile → Option Nat) : State :=
  let s := (s.loader.tiles.filter fun t => MappedTile.model t == m).foldl (fun s t =>
    match tileAt t with
    | some i => s.loadTile t (bytesAt pt (16384 * i) 16384)
    | none => s) s
  s.countSeg

/-- A segment of a job has failed authentication: it is fetched again, at most three times in all (R287, R288). -/
def segmentRetry (s : State) (j : ModelJob) (k : Nat) : State :=
  let n := Store.get 0 j.tries k + 1
  if n < 3 then s.modJob j.m fun j => { j with tries := Store.put j.tries k n } else s.loadFail 5 k

/-- A fetched segment of a sealed model (R281, R287). -/
def sealedSegment (s : State) (j : ModelJob) (k : Nat) (data : List Byte) : State :=
  match Config.gcmOpen j.key (j.nonce ++ leBytes 8 k) (leBytes 8 k) (data.take 1048576) (bytesAt data 1048576 16) with
  | some pt =>
    let s := s.writeSegment j.m pt fun t => if t.mtile / 64 = k then some (t.mtile % 64) else none
    (s.modJob j.m fun j => { j with todo := j.todo.erase k }).loadAdvance
  | none => s.segmentRetry j k

/-- The fetched record of tile `t`, which record `k` of the model must name (R284, R287): its DATA is written, and tagged once
its TAG is found right. -/
def layoutTile (s : State) (j : ModelJob) (k : Nat) (data : List Byte) (t : MappedTile) : State :=
  let bs := bytesAt data 16 16384
  if byteAt data 0 ≠ t.1 ∨ byteAt data 1 ≠ t.2.1 ∨ fieldAt data 2 2 ≠ t.2.2.1 then s.loadFail 7 k
  else
    let mapped := s.loader.tiles.contains t
    let s := if mapped then s.putTile t bs else s
    if fieldAt data 4 4 ≠ crc32c bs then s.loadFail 6 k
    else
      let s := if mapped then s.tagTile t bs else s
      let s := (s.modJob j.m fun j => { j with todo := j.todo.drop 1, body := j.body ++ data }).countSeg
      if j.todo.length = 1 ∧ sha512 (j.body ++ data) ≠ j.laydig then s.loadFail 7 k else s.loadAdvance

/-- A fetched record of a final-layout model (R284, R287). -/
def layoutRecord (s : State) (j : ModelJob) (k : Nat) (data : List Byte) : State :=
  match s.recordTile j.m k with
  | none => s.loadFail 7 k
  | some t => s.layoutTile j k data t

/-- The next fetched segment or tile record of model `m` (R287): models take their turns in ascending m. -/
def loadSegment (s : State) (m : Nat) (data : Option (List Byte)) : State :=
  match (s.loader.models.filter fun j => !j.todo.isEmpty).head? with
  | none => s
  | some j =>
    if j.m ≠ m ∨ j.src ≠ 1 then s
    else
      match s.nextSegment j with
      | none => s
      | some k =>
        let s := if s.loader.job = .swap then s.setFld Rg.WLD_STAT_STATE 3 else s
        match data with
        | none => s.loadFail 8 k
        | some d => if j.form = 1 then s.sealedSegment j k d else s.layoutRecord j k d

/-- The weight phase of a load begins, once its placement is written (R197, R286): until it ends, the weight tier holds of the
placement only what the load leaves as it is (R288). -/
def loadWeights (s : State) (img : List Byte) (p : Nat) (headers : List (Option (List Byte))) : State :=
  let tiles := (mappedTiles img p).filter (s.tileNeeded img p)
  let kept := (s.holders img p).filter fun e => !tiles.any fun t => 28 * t.1 + t.2.1 == e.2
  let s := ({ s with loader := { s.loader with place := p, form := s.weightForm, tiles := tiles, sources := s.sourceList headers
                                               prev := some (img, p, kept) } } : State)
  (((s.srcRead.setFld Rg.WLD_STAT_STATE 1).wr Rg.WLD_PROG 0).wr Rg.WLD_FAIL 0).loadAdvance

/-- What a load does once its header names a placement: a wrong driver remap refuses it (R416). -/
def loadPlaced (s : State) (img : List Byte) (p : Nat) (headers : List (Option (List Byte))) : State :=
  let s := s.setImg (setBits (s.rd Rg.IMG_STAT) 27 24 p)
  match s.remapWrong img p with
  | some r => s.refuseLoad { code := 0x116, region := r }
  | none => (s.writePlacement img p).loadWeights img p headers

/-- A load begins (R197): header, sections and placement are checked, the placement is written, and the weight phase
starts. A load of another image makes none a re-load of the one before it (R407). -/
def loadImage (s : State) (img : List Byte) (want : Nat) (headers : List (Option (List Byte))) : State :=
  let same := match s.loader.prev with | some e => e.1 == img | none => false
  let s := { s.wr Rg.WLD_STAT 0 with
             image := img
             loader := { s.loader with job := .load, img := img, models := [], prev := if same then s.loader.prev else none } }
  let s := s.setImgState 1
  match s.headCheck img want with
  | .error x => s.refuseLoad x
  | .ok p => s.loadPlaced img p headers

/-! ### The swap -/

/-- The bytes of a placement image that a companion may change (R293): MODELID, DIGEST, its IDENT section and the digest
bytes of each draft record. -/
def companionFree (img : List Byte) (i : Nat) : Bool :=
  decide (32 ≤ i ∧ i < 128)
  || (imgSections img).any fun x =>
    (x.type == 1 && decide (x.off ≤ i ∧ i < x.off + x.len))
    || (x.type == 0x31 &&
        let b := sectionBytes img x
        let d := x.off + 64 + 80 * byteAt b 0
        (List.range (byteAt b 3)).any fun k => decide (d + 16 * k + 4 ≤ i ∧ i < d + 16 * k + 12))

/-- Are two images equal but for the bytes that a companion may change (R293)? -/
def companionEq (img : List Byte) : Nat → List Byte → List Byte → Bool
  | _, [], [] => true
  | i, x :: xs, y :: ys => (x == y || companionFree img i) && companionEq img (i + 1) xs ys
  | _, _, _ => false

/-- Do the companion's identifiers match the models it keeps (R293)? -/
def companionKeeps (s : State) (comp : List Byte) (jobs : List ModelJob) : Bool :=
  ((List.range 5).filter fun m => decide (m ≤ imgNdraft comp s.place) && !jobs.any fun j => j.m == m).all fun m =>
    let w := wantedId comp s.place m
    (Store.get [] s.loader.inForce m).take w.length == w || !imgMaps comp s.place m

/-- The checks of R293 pass: the barrier begins, with every REMAIN set to the region's tiles (R294). Until the swap ends, the
weight tier holds no image (R298). -/
def swapBegin (s : State) (comp : List Byte) (js : List ModelJob) : State :=
  let tiles := (mappedTiles comp s.place).filter fun t => js.any fun j => j.m == t.model
  let s := ({ s with loader := { s.loader with job := .swap, img := comp, place := s.place, models := js, tiles := tiles
                                               prev := none, swapped := [], broken := false } } : State)
  let s := (List.range 96).foldl (fun s r =>
    s.setFld (Rg.SWP_HOLD_REMAIN r) ((tiles.filter fun t => t.1 == r).length)) s
  (s.wr Rg.WLD_STAT (2 * 2 ^ 28)).sendHello

/-- The jobs of a swap's models are taken up, or the swap fails (R293). -/
def swapJobs (s : State) (comp : List Byte) : Except (Nat × Nat) (List ModelJob) → State
  | .error (c, m) => s.loadFail c m
  | .ok js => if !s.companionKeeps comp js then s.loadFail 12 0 else s.swapBegin comp js

/-- The checks of R293, made before any request is held. -/
def swapCheck (s : State) (headers : List (Option (List Byte))) : Option (List Byte) → State
  | none => s.loadFail 8 0
  | some comp =>
    if !companionEq s.image 0 s.image comp then s.loadFail 12 0
    else
      let all := mappedTiles comp s.place
      s.srcRead.swapJobs comp (s.modelJobs comp s.place all all (s.sourceList headers))

/-- WLD_PROG and WLD_RDONE are those of the operation that begins (R289). -/
def clearProgress (s : State) : State := ((List.range 3).foldl (fun s i => s.wr (Rg.WLD_RDONE i) 0) s).wr Rg.WLD_PROG 0

/-- WLD_CTL GO with OP SWAP (R294 step 1): every check of R293 is made before any request is held. -/
def swapStart (s : State) (resume : Bool) (comp : Option (List Byte)) (headers : List (Option (List Byte))) : State :=
  let st := s.fld Rg.WLD_STAT_STATE
  if st ≠ 0 ∧ st ≠ 5 then s.setFld Rg.WLD_STAT_CAUSE 13
  else if s.fld Rg.IMG_STAT_STATE ≠ 4 then s.wr Rg.WLD_STAT (5 * 2 ^ 28 + 13)
  else
    State.swapCheck { s.clearProgress with
      loader := { s.loader with job := .none, resume := resume, form := s.weightForm, models := [] } } headers comp

/-- WLD_CTL GO with OP STOP (R299). Requests that a failed swap holds keep the treatment chosen for the swap (R298). -/
def stopStart (s : State) (resume : Bool) : State :=
  let st := s.fld Rg.WLD_STAT_STATE
  if st ≠ 0 ∧ st ≠ 5 then s.setFld Rg.WLD_STAT_CAUSE 13
  else if s.fld Rg.IMG_STAT_STATE ≠ 4 then s.wr Rg.WLD_STAT (5 * 2 ^ 28 + 13)
  else
    (({ s.clearProgress with
        loader := { s.loader with job := .stop, resume := if s.loader.broken then s.loader.resume else resume } } : State).wr
      Rg.WLD_STAT (4 * 2 ^ 28)).holdFinish

/-- The effects of a write of SWP_HOLD (R295): ARM is taken as written, and the barrier may end. -/
def swpHoldWrite (s : State) (r v : Nat) : State := (s.setFld (Rg.SWP_HOLD_ARM r) (bits v 31 31)).holdFinish

end State

/-- The driver starts an image load (R197): it begins only in NOIMAGE, and ends a swap that still runs (R298). -/
def execLoad (img : List Byte) (place : BitVec 4) (headers : List (Option (List Byte))) (s : State) : Out :=
  .next (if s.fld Rg.IMG_STAT_STATE = 0 then
    (if s.loader.job = .swap then s.loadFail 14 0 else s).loadImage img place.toNat headers else s)

/-- A fetched segment or tile record (R287). -/
def execLoadSegment (m : Fin 5) (data : Option (List Byte)) (s : State) : Out := .next (s.loadSegment m data)

end Sys2Proof.Machine
end

