-- ==== Sys2Proof/Machine/Power.lean ====
section
/-!
DEFINITION. The power manager (R330 to R346, R355 to R357): power-downs, adaptive voltage, droops, shorts of a region, fences
by the driver, and the current and power limits (log 6 says which ramps take time).
-/
namespace Sys2Proof.Machine

/-- CBCLK in a millisecond. -/
def msCb : Nat := 1500000

/-- Rail `rail` (0 VAUX, 1 VEDGE, 2 VSD, 3 the VSTK of a stack) leaves regulation (R333). -/
def Rails.without (x : Rails) (rail stack : Nat) : Rails :=
  match rail with
  | 0 => { x with vaux := false }
  | 1 => { x with vedge := false }
  | 2 => { x with vsd := false }
  | _ => { x with vstk := if bit x.vstk stack then x.vstk - 2 ^ stack else x.vstk }

namespace State

/-- An entry of the power manager about a region (R398). -/
def logPower (s : State) (r code loc0 loc1 detail : Nat) : State :=
  s.log 96 { code := code, region := r, loc0 := loc0, loc1 := loc1, detail := detail }

/-! ### A region's power -/

/-- VINIT of a tuning step, mV, from the ring oscillators' count at the region's first power-up (R340). -/
def vinit (s : State) (r t : Nat) : Nat := 600 + Config.vinit ((s.region r).ro.getD 0) t % 251

/-- The region's inbound queues lose their content; those that are fenced stay so, which only a load ends (R167). -/
def queuesOff (s : State) (r : Nat) : State :=
  { s with queues := s.queues.filterMap fun e =>
      if 22 * r ≤ e.1 ∧ e.1 < 22 * r + 22 then (if e.2.fenced then some (e.1, { Queue.empty with fenced := true }) else none)
      else some e }

/-- A region loses power (R343, R345): its memories, registers and controller lose their content, with that of the channels it
drives (R420), and its rails' readings go to zero; pairs armed on its registers are IDLE again (R346). `st` is the state of RPWR_STAT. -/
def regionOff (s : State) (r st : Nat) : State :=
  let g := s.region r
  let s := ((s.dramLost r).setRegion r { Region.reset with ro := g.ro, retried := g.retried, retryAt := g.retryAt }).queuesOff r
  let s := { s with clusters := Store.eraseRange s.clusters (28 * r) 28
                    regs := Store.eraseRange s.regs (regionBase r) 0x200000000
                    armed := Store.eraseRange s.armed (Rg.RPWR_CTL r) 16 }
  ((s.wr (Rg.RPWR_STAT r) (st * 2 ^ 28)).wr (Rg.RPWR_VSET r) 0).wr (Rg.RPWR_MEAS r) 0

/-- Valid sense points of a region (R335). -/
def sensePoints (s : State) (r : Nat) : Nat := popcount 4 (s.fld (Rg.RPWR_STAT_SENSE r))

/-- What a region's VCORE regulator holds (R335): its lowest valid sensed voltage at the setpoint, or with fewer than two valid
points its own output at 40 mV above the setpoint, mV. -/
def vcoreTarget (s : State) (r : Nat) : Nat := s.fld (Rg.RPWR_VSET_MV r) + (if s.sensePoints r < 2 then 40 else 0)

/-- The lowest valid sensed VCORE follows the setpoint (R335); where the regulator regulates its own output, it is a free value not
above that output. -/
def vcoreFollow (s : State) (r : Nat) : State :=
  if s.sensePoints r < 2 then
    let x := s.fresh 10
    x.2.setFld (Rg.RPWR_STAT_VCORE r) (x.1 % (s.vcoreTarget r + 1))
  else s.setFld (Rg.RPWR_STAT_VCORE r) (s.vcoreTarget r)

/-- Does the regulator hold VCORE at the setpoint: the region is ON, or its ramp has come to VCORE (R340)? -/
def vcoreUp (s : State) (r : Nat) : Bool :=
  let st := s.fld (Rg.RPWR_STAT_STATE r)
  st == 2 || ((st == 1 || st == 5) && decide (750 ≤ s.fld (Rg.RPWR_MEAS_VSRAM r)))

/-- The setpoint of a region takes a value (R336), and VCORE follows it where the regulator holds it there. -/
def setVset (s : State) (r mv : Nat) : State :=
  let s := s.setFld (Rg.RPWR_VSET_MV r) mv
  if s.vcoreUp r then s.vcoreFollow r else s

/-- A region's rails ramp to the starting setpoint, the state of RPWR_STAT being `st` (R340): VCORE waits for VSRAM to be at least
0.75 V. -/
def regionRamp (s : State) (r st step vsram : Nat) : State :=
  let s := (s.wr (Rg.RPWR_STAT r) (st * 2 ^ 28 + 0xF000)).setFld (Rg.RPWR_MEAS_VSRAM r) vsram
  if 750 ≤ vsram then s.setVset r (s.vinit r step) else s

/-- The region has power-good: it is ON (R340). -/
def regionOn (s : State) (r : Nat) : State := s.setFld (Rg.RPWR_STAT_STATE r) 2

/-- A region is fenced in the yield map with a cause (R387, R388): the lowest cause stands; cause 8 reads 0. -/
def yieldFence (s : State) (r cause : Nat) : State :=
  let old := if s.yFenced r then (if s.fld (Rg.YMAP_CL_CAUSE r) = 0 then 8 else s.fld (Rg.YMAP_CL_CAUSE r)) else 9
  let c := Nat.min old cause
  ((s.setFld (Rg.YMAP_CL_FENCED r) 1).setFld (Rg.YMAP_CL_CAUSE r) (c % 8)).wr (Rg.YMAP_FENCE (r / 32))
    (s.rd (Rg.YMAP_FENCE (r / 32)) ||| 2 ^ (r % 32))

/-- The record 0x0220 of a latch (R344), made by the power manager. -/
def shortRecord (s : State) (r cause peak again : Nat) : State :=
  let f : FaultRec := { code := 0x220, region := r, flags := s.recFlags r 0xFF, detail := cause * 2 ^ 24 + peak % 4096, aux := again }
  s.record 96 (f.image s.ns)

/-- A region's regulators latch off (R343, R344): on a first latch a retry is due in 100 ms unless the module powers down; on a
retry or later the region is fenced with cause 2 (R345). -/
def latch (s : State) (r cause peak : Nat) : State :=
  let again := (s.region r).retried
  let retrying := s.fld (Rg.RPWR_STAT_STATE r) == 5
  if again then
    let s := ((s.regionOff r 6).shortRecord r cause peak 1).yieldFence r 2
    if retrying then s.logPower r 0x40C 1 0 0 else s
  else
    let s := (s.regionOff r 4).shortRecord r cause peak 0
    s.modRegion r fun g => { g with retryAt := s.time.cb + 100 * msCb }

/-- A region short (R343): it latches a region whose rails are up. -/
def short (s : State) (r cause peak : Nat) : State :=
  let st := s.fld (Rg.RPWR_STAT_STATE r)
  if st = 1 ∨ st = 2 ∨ st = 3 ∨ st = 5 then s.latch r cause peak else s

/-- A region is powered down and fenced (R345): its state is FENCED at once, and its rails come down within 5 ms; until then
RPWR_STAT shows free values not above the readings before. -/
def fenceDown (s : State) (r : Nat) : State :=
  let v := s.fld (Rg.RPWR_STAT_VCORE r)
  let i := s.fld (Rg.RPWR_STAT_ICORE r)
  let x := (s.halt r).fresh 22
  let s := ((x.2.setFld (Rg.RPWR_STAT_VCORE r) (x.1 % 1024 % (v + 1))).setFld (Rg.RPWR_STAT_ICORE r) (x.1 / 1024 % (i + 1))).setFld
    (Rg.RPWR_STAT_STATE r) 6
  { s with power := { s.power with falling := s.power.falling ++ [(r, s.time.cb + 5 * msCb)] } }

/-- The ramps of fenced regions that have ended: those regions have lost power (R345). -/
def rampsEnd (s : State) : State :=
  let due := s.power.falling.filter fun e => decide (e.2 ≤ s.time.cb)
  if due.isEmpty then s
  else
    due.foldl (fun s e => s.regionOff e.1 6)
      { s with power := { s.power with falling := s.power.falling.filter fun e => !decide (e.2 ≤ s.time.cb) } }

/-- A FENCE write of the driver is applied (R345): the region is FENCED at once, with cause 7 in the yield map (R387); a swap in
progress ends (R298). -/
def driverFence (s : State) (r v : Nat) : State :=
  let st := s.fld (Rg.RPWR_STAT_STATE r)
  if !bit v 31 ∨ st = 6 then s
  else
    let s := (if st = 0 then (s.halt r).regionOff r 6 else s.fenceDown r).yieldFence r 7
    if s.loader.job = .swap then s.loadFail 14 r else s

/-- A write of RPWR_VSET is applied (R358): one with an MV outside 600 to 850 has no effect. -/
def vsetWrite (s : State) (r v : Nat) : State :=
  let mv := bits v 9 0
  if 600 ≤ mv ∧ mv ≤ 850 then (s.setFld (Rg.RPWR_VSET_OVR r) (bits v 31 31)).setVset r mv else s

/-! ### Adaptive voltage -/

/-- With fewer than two valid sense points, TCAP is held at no more than 48 (R335). -/
def tcapHeld (s : State) (r : Nat) : State :=
  if s.sensePoints r < 2 ∧ 48 < s.fld (Rg.CLKCAP_TCAP r) then s.setFld (Rg.CLKCAP_TCAP r) 48 else s

/-- The 10 µs loop of R336, with the mean ring-oscillator count (R337). -/
def avs (s : State) (r : Nat) (slack : List Nat) (ro : Nat) : State :=
  if !s.powered r then s
  else
    let s := (s.wr (Rg.REPSLACK r) (leNat (slack.map (BitVec.ofNat 8)))).setFld (Rg.RMON_COUNT r) ro
    let x := slack.foldl Nat.min 255
    let held := s.flag (Rg.RPWR_VSET_OVR r)
    let v := s.fld (Rg.RPWR_VSET_MV r)
    let g := s.region r
    let cap (s : State) : Nat := s.fld (Rg.CLKCAP_TCAP r)
    let setV (s : State) (v : Nat) : State := if held then s else s.setVset r v
    let s :=
      if x < 8 then
        let s := s.setRegion r { g with calm := 0 }
        if v < 850 then setV s (Nat.min 850 (v + 5))
        else if 1 < cap s then s.setFld (Rg.CLKCAP_TCAP r) (cap s - 1)
        else s
      else if 24 < x then
        if 10 ≤ g.calm + 1 then setV (s.setRegion r { g with calm := 0 }) (Nat.max (v - 5) 600)
        else s.setRegion r { g with calm := g.calm + 1 }
      else s.setRegion r { g with calm := 0 }
    let g := s.region r
    let s :=
      if s.fld (Rg.RPWR_VSET_MV r) ≤ 830 ∧ cap s < 64 then
        if 10000 ≤ g.cool + 1 then (s.setRegion r { g with cool := 0 }).setFld (Rg.CLKCAP_TCAP r) (cap s + 1)
        else s.setRegion r { g with cool := g.cool + 1 }
      else s.setRegion r { g with cool := 0 }
    s.tcapHeld r

/-- A sense point becomes invalid until the region's next power-up (R335). -/
def senseBad (s : State) (r p mv : Nat) : State :=
  let m := s.fld (Rg.RPWR_STAT_SENSE r)
  if s.powered r ∧ bit m p then (((s.setFld (Rg.RPWR_STAT_SENSE r) (m - 2 ^ p)).logPower r 0x408 p 0 mv).vcoreFollow r).tcapHeld r else s

/-- One stretched ACLK period: while a detector fires, and one period after (R338). -/
def droop (s : State) (r : Nat) (firing : Bool) : State :=
  if s.powered r && (firing || (s.region r).droop) then
    (s.modRegion r fun g => { g with droop := firing }).count (Rg.DROOP_CNT r) 1
  else s

/-! ### Caps -/

/-- PCAP as the dictionary holds it (R356). -/
def pcapSet (s : State) : Nat := s.dict 0x2001 1 s.fuse.pcap
/-- PCAP_EFF (R356). -/
def pcapEff (s : State) : Nat := Nat.min s.fuse.pcap (Nat.min s.pcapSet (s.fld Rg.CP_CAP_PCOOL))
/-- PM_CAPSRC.SRC (R358). -/
def capSrc (s : State) : Nat :=
  let e := s.pcapEff
  (if s.fuse.pcap = e then 1 else 0) + (if s.pcapSet = e then 2 else 0) + (if s.fld Rg.CP_CAP_PCOOL = e then 4 else 0)

/-- EFF of a region. -/
def eff (s : State) (r : Nat) : Nat := s.fld (Rg.CLKTUNE_EFF r)

/-- The least of a region's caps (R355). -/
def effTarget (s : State) (r : Nat) : Nat :=
  [s.fld (Rg.CLKTUNE_ILIM r), s.fld (Rg.CLKCAP_TCAP r), s.fld (Rg.CLKCAP_TLIM r), s.fld (Rg.CLKCAP_SCAP r),
   s.fld (Rg.CLKCAP_PLIM r)].foldl Nat.min (s.fld (Rg.CLKTUNE_CEIL r))

/-- EFF moves one step (R353): at most once in 2 µs; before a rising step the setpoint is raised to VINIT of the new step, and
the step waits until the sense points have settled. -/
def effMove (s : State) (r : Nat) (settled : Bool) : State :=
  let e := s.eff r
  let t := s.effTarget r
  let step (s : State) (e : Nat) : State :=
    (s.setFld (Rg.CLKTUNE_EFF r) e).modRegion r fun g => { g with effAt := s.time.cb }
  if !s.powered r ∨ e = t ∨ s.time.cb < (s.region r).effAt + 2 * usCb then s
  else if t < e then step s (e - 1)
  else
    let v := s.vinit r (e + 1)
    let s := if s.flag (Rg.RPWR_VSET_OVR r) ∨ v ≤ s.fld (Rg.RPWR_VSET_MV r) then s else s.setVset r v
    if settled then step s (e + 1) else s

/-- ILIM from the mean VCORE current over the last 100 µs, every 10 µs (R355). -/
def ilim (s : State) (r mean : Nat) : State :=
  let l := s.fld (Rg.CLKTUNE_ILIM r)
  let run (n : Nat) (s : State) : State := s.modRegion r fun g => { g with ilimRun := n }
  if !s.powered r then s
  else if 300 < mean then run 0 (s.setFld (Rg.CLKTUNE_ILIM r) (Nat.max 1 (l - 1)))
  else if mean < 280 then
    if 100 ≤ (s.region r).ilimRun + 1 then run 0 (s.setFld (Rg.CLKTUNE_ILIM r) (Nat.min 64 (l + 1)))
    else run ((s.region r).ilimRun + 1) s
  else run 0 s

/-- The regions that are ON. -/
def regionsOn (s : State) : List Nat := (List.range 96).filter s.powered

/-- The region whose measure is best by `better`, the first of equals staying. -/
def bestBy (better : Nat → Nat → Bool) (f : Nat → Nat) : List Nat → Option Nat
  | [] => none
  | r :: rs =>
    match bestBy better f rs with
    | none => some r
    | some q => if better (f q) (f r) then some q else some r

/-- PLIM of a region takes a value. -/
def setPlim (s : State) (r v : Nat) : State := s.setFld (Rg.CLKCAP_PLIM r) v

/-- The input voltage as measured, mV (R358). -/
def vinRead (s : State) (vin : Option (BitVec 16)) : State :=
  match vin with
  | some v => s.setFld Rg.PM_IN_VIN v.toNat
  | none => s

/-- The readings of R356 and R358: `p` is the mean input power over 100 µs, `iin` the input current, `icore` and `isram` the
VCORE and VSRAM currents. -/
def capRead (s : State) (p iin : Nat) (icore isram : List Nat) : State :=
  let s := (s.setFld Rg.PM_POWER_PIN p).setFld Rg.PM_IN_IIN iin
  let s := s.wr Rg.PM_CAPSRC s.capSrc
  s.regionsOn.foldl (fun s r =>
    (s.setFld (Rg.RPWR_STAT_ICORE r) (Nat.min 4095 (icore.getD r 0))).setFld (Rg.RPWR_MEAS_ISRAM r) (Nat.min 4095 (isram.getD r 0))) s

/-- The counters of R356 and R357 take values. -/
def capPut (s : State) (above calm : Nat) : State := { s with power := { s.power with above := above, calm := calm } }

/-- The regions whose EFF is above 8 (R356). -/
def capFast (s : State) : List Nat := s.regionsOn.filter fun r => decide (8 < s.eff r)

/-- Power above PCAP_EFF (R356): PLIM of the region of greatest current goes below its EFF; with none left the brake's time
counts. -/
def capLower (s : State) : State :=
  match bestBy (fun a b => decide (b ≤ a)) (fun r => s.fld (Rg.RPWR_STAT_ICORE r)) s.capFast with
  | some r => (s.setPlim r (s.eff r - 1)).capPut 0 0
  | none => s.capPut (s.power.above + 1) 0

/-- Power below 97 % of PCAP_EFF for 100 samples (R356): the lowest PLIM goes up. -/
def capRaise (s : State) : State :=
  match bestBy (fun a b => decide (a < b)) (fun r => s.fld (Rg.CLKCAP_PLIM r))
      (s.regionsOn.filter fun r => decide (s.fld (Rg.CLKCAP_PLIM r) < 64)) with
  | some r => (s.setPlim r (s.fld (Rg.CLKCAP_PLIM r) + 1)).capPut 0 0
  | none => s.capPut 0 0

/-- The 10 µs loop of R356 once its readings are taken. -/
def capStep (s : State) (p : Nat) : State :=
  if s.pcapEff < p then s.capLower
  else if p * 100 < s.pcapEff * 97 then (if 100 ≤ s.power.calm + 1 then s.capRaise else s.capPut 0 (s.power.calm + 1))
  else s.capPut 0 0

/-- The 10 µs loop of R356. -/
def powerCap (s : State) (p iin : Nat) (icore isram : List Nat) : State := (s.capRead p iin icore isram).capStep p

/-- The current brake engages (R330, R357): for an input current above the part's maximum, or once P has exceeded PCAP_EFF for
10 ms with every EFF at or below 8. -/
def brakeOn (s : State) (power : Bool) (pin iin : Nat) : State :=
  let s := if s.power.on then s.setFld Rg.PM_IN_IIN iin else s
  if s.power.brake || (if power then decide (s.power.above < 1000) else decide (iin ≤ s.fuse.variant.current)) || !s.power.on then s
  else
    (({ s with power := { s.power with brake := true } } : State).count Rg.PM_BRAKE_CNT 1).logEdge 0x40B (if power then 2 else 1) 0 pin

/-- The current brake releases (R357). -/
def brakeOff (s : State) (p : Nat) : State :=
  if s.power.brake && decide (p < s.pcapEff) then { s with power := { s.power with brake := false } } else s

/-! ### Power-down -/

/-- The module is off (R341, R376): all content but the fuses is lost. -/
def offState (s : State) : State :=
  { State.reset with
    pending := s.pending, sent := s.sent, free := s.free, fuse := s.fuse, time := ⟨s.time.cb, 0⟩
    power := { Power.reset with
      offAt := some s.time.cb
      cables := s.power.cables.filterMap fun e =>
        if e.2.mated then some (e.1, { e.2 with on := false, latched := false }) else none } }

/-- PGOOD falls (R332, R341). -/
def pgoodLow (s : State) : State :=
  if s.power.pgood then ({ s with power := { s.power with pgood := false } } : State).emit (.pgood false) else s

/-- Every region that is ON halts before its next schedule cycle (R341, R370). -/
def haltAll (s : State) : State := s.regionsOn.foldl (fun s r => s.halt r) s

/-- An orderly power-down begins (R341), from P0 on (R487); one that runs is not restarted. -/
def powerDown (s : State) : State :=
  if s.power.down.isSome || !s.power.began then s
  else
    let s := s.pgoodLow.haltAll
    { s with power := { s.power with down := some ⟨none, some s.time.cb, 0⟩ } }

/-- The deadlines of the steps of a power-down, in ms from its start: retention, wafer off, VSTK, VSD, VEDGE and VAUX off
(R341, R370). -/
def downSteps (alarm : Bool) : List Nat := if alarm then [10, 11, 12, 13, 14, 15] else [5, 6, 7, 8, 9, 10]

/-- The CBCLK at which step `i` is due: the earlier of its deadlines (R341). -/
def downDue (d : Down) (i : Nat) : Nat :=
  let at_ (start : Option Nat) (alarm : Bool) : Nat :=
    match start with | some t => t + (downSteps alarm).getD i 0 * msCb | none => 2 ^ 200
  Nat.min (at_ d.alarm true) (at_ d.orderly false)

/-- A region whose rails are up goes to retention (R342): its clusters are disabled and its rails are at their retention
values. -/
def retain (s : State) (r : Nat) : State :=
  let st := s.fld (Rg.RPWR_STAT_STATE r)
  if st = 1 ∨ st = 2 ∨ st = 5 then
    let s := (List.range 28).foldl (fun s c => if s.enabled r c then s.setFld (Rg.CL_STAT_EN r c) 0 else s) s
    (s.wr (Rg.RPWR_STAT r) (3 * 2 ^ 28 + 600 * 2 ^ 16 + s.fld (Rg.RPWR_STAT_SENSE r) * 2 ^ 12)).setFld (Rg.RPWR_MEAS_VSRAM r) 650
  else s

/-- Step `i` of a power-down (R341). -/
def downStep (s : State) (i : Nat) : State :=
  match i with
  | 0 => (List.range 96).foldl (fun s r => s.retain r) s
  | 1 =>
    let s := (List.range 96).foldl (fun s r => if s.fld (Rg.RPWR_STAT_STATE r) = 3 then s.regionOff r 0 else s) s
    s.power.falling.foldl (fun s e => s.regionOff e.1 6) { s with power := { s.power with falling := [] } }
  | 2 => { s with dram := [], loader := { s.loader with chans := [], lost := [] }, power := { s.power with rails := { s.power.rails with vstk := 0 } } }
  | 3 =>
    (List.range 4).foldl (fun s g => (s.vcabStep g false).segmentDark g)
      { s with power := { s.power with rails := { s.power.rails with vsd := false } } }
  | 4 => { s.offState with
           power := { s.power with on := false, rails := { s.power.rails with vedge := false } }, mg := s.mg, time := s.time
           regs := s.regs.filter fun e => decide (0x60000 ≤ e.1 ∧ e.1 < 0x60020) }
  | _ => s.offState

/-- Every regulator turns off at once, VCAB with VSD (R332, R482). -/
def offAtOnce (s : State) : State :=
  let s := s.pgoodLow
  (({ s with power := { s.power with rails := Rails.off } } : State).vcabAll).offState

/-- The steps of a running power-down that are due happen; `n` bounds them. -/
def powerAdvance (s : State) : Nat → State
  | 0 => s
  | n + 1 =>
    match s.power.down with
    | none => s
    | some d =>
      if s.time.cb < downDue d d.stage then s
      else
        let s := s.downStep d.stage
        match s.power.down with
        | none => s
        | some d => ({ s with power := { s.power with down := some { d with stage := d.stage + 1 } } } : State).powerAdvance n

end State

/-- PWR_EN falls, or the firmware commands what its fall does (R341). -/
def execPwrEnFall (s : State) (_ : Bool := false) : Out := .next s.powerDown

/-- Input below 11.0 V for 20 µs (R332). -/
def execInputUndervoltage (s : State) : Out := .next s.powerDown

/-- Input above 13.2 V for 20 µs (R332). -/
def execInputOvervoltage (s : State) : Out := .next s.powerDown

/-- Input below 10.0 V (R332): every regulator turns off at once. -/
def execInputCollapse (s : State) : Out := .next (if s.power.began then s.offAtOnce else s)

/-- A lateral rail leaves regulation, at any time from P0 on (R333, R339): it alone does, and VCAB with VSD (R482); the entry names
it, and the module powers down. -/
def execRailFault (rail : Fin 4) (stack : Fin 24) (s : State) : Out :=
  .next (if s.power.rails.has rail stack then
    (({ s with power := { s.power with rails := s.power.rails.without rail stack } } : State).vcabAll.logEdge 0x409 (rail + 1)
      (if rail.val = 3 then stack else 0) 0).powerDown else s)

/-- The adaptive-voltage loop (R336). -/
def execAvsTick (r : Fin 96) (s0 s1 s2 s3 : Byte) (s : State) (ro : BitVec 16 := 0) : Out :=
  .next (s.avs r [s0.toNat, s1.toNat, s2.toNat, s3.toNat] ro.toNat)

/-- A sense point is invalid (R335). -/
def execSenseInvalid (r : Fin 96) (point : Fin 4) (mv : BitVec 10) (s : State) : Out := .next (s.senseBad r point mv.toNat)

/-- A stretched period (R338). -/
def execDroop (r : Fin 96) (firing : Bool) (s : State) : Out := .next (s.droop r firing)

/-- EFF moves one step (R353). -/
def execEffStep (r : Fin 96) (settled : Bool) (s : State) : Out := .next (s.effMove r settled)

/-- ILIM (R355). -/
def execIlimTick (r : Fin 96) (mean : Nat) (s : State) : Out := .next (s.ilim r mean)

/-- PLIM (R356). -/
def execPowerCapTick (p : Nat) (icore : List Nat) (s : State) (iin : BitVec 16 := 0) (isram : List Nat := List.replicate 96 0)
    (vin : Option (BitVec 16) := none) : Out :=
  .next ((s.vinRead vin).powerCap p iin.toNat icore isram)

/-- The current brake engages (R357). -/
def execCurrentBrake (power : Bool) (pin : BitVec 16) (s : State) (iin : BitVec 16 := 0) : Out := .next (s.brakeOn power pin.toNat iin.toNat)

/-- The current brake releases (R357). -/
def execBrakeRelease (p : Nat) (s : State) : Out := .next (s.brakeOff p)

end Sys2Proof.Machine
end

