-- ==== Sys2Proof/Machine/Clock.lean ====
section
/-!
DEFINITION. References and region clocks (R347 to R350), and the ceiling of a region's clock (R354). A region's inputs are
coded 0 W, 1 N, 2 E, 3 S (R359).
-/
namespace Sys2Proof.Machine

/-- The code of a region input (R359). -/
def inputCode : Side → Nat
  | .w => 0
  | .n => 1
  | .e => 2
  | .s => 3

namespace State

/-! ### The reference entry -/

/-- Is reference `b` (0 REFA, 1 REFB) valid? -/
def refOk (s : State) (b : Nat) : Bool := bit (s.fld Rg.REF_STAT_VALID) b

/-- The entry selects: the preferred input while it is valid, else the other, else holdover (R347). -/
def refSelect (s : State) : State :=
  let p := s.fld Rg.REF_CTL_PREF
  s.setFld Rg.REF_STAT_STATE (if s.refOk p then p else if s.refOk (1 - p) then 1 - p else 2)

/-- A reference input is lost (R347). -/
def refDrop (s : State) (b : Nat) : State :=
  if s.refOk b then
    let s := s.setFld Rg.REF_STAT_VALID (s.fld Rg.REF_STAT_VALID - 2 ^ b)
    if s.fld Rg.REF_STAT_STATE = b then s.refSelect else s
  else s

/-- A reference input becomes valid (R347): it is used where none is, and the entry goes back to the preferred one only if
REVERT is set. -/
def refGain (s : State) (b : Nat) : State :=
  if s.refOk b then s
  else
    let s := s.setFld Rg.REF_STAT_VALID (s.fld Rg.REF_STAT_VALID + 2 ^ b)
    if s.fld Rg.REF_STAT_STATE = 2 ∨ (s.flag Rg.REF_CTL_REVERT ∧ s.fld Rg.REF_CTL_PREF = b) then s.refSelect else s

/-- A write of REF_CTL (R347, R358): a new preference, or REVERT, selects. -/
def refCtl (s : State) (v : Nat) : State :=
  let old := s.rd Rg.REF_CTL
  let s := s.wr Rg.REF_CTL (v % 4)
  if bits v 0 0 ≠ bits old 0 0 ∨ bit v 1 then s.refSelect else s

/-! ### Region inputs -/

/-- Is input `k` of the region valid? -/
def inputOk (s : State) (r k : Nat) : Bool := bit (s.fld (Rg.CLKSRC_VALID r)) k
/-- Is input `k` of the region enabled? -/
def inputOn (s : State) (r k : Nat) : Bool := bit (s.fld (Rg.CLKSRC_INEN r)) k
/-- The depth that input `k` advertises (R348). -/
def inputDepth (s : State) (r k : Nat) : Nat := (s.region r).depths.getD k 31
/-- The inputs in their order of preference (R359). -/
def inputOrder (s : State) (r : Nat) : List Nat :=
  let o := s.fld (Rg.CLKSRC_ORDER r)
  (List.range 4).map fun i => bits o (2 * i + 1) (2 * i)

/-- The input that the region selects (R349): enabled, valid, and of depth below `limit`; the lowest depth, ties by ORDER. -/
def inputPick (s : State) (r limit : Nat) : Option Nat :=
  bestBy (fun a b => decide (a < b)) (fun k => s.inputDepth r k)
    ((s.inputOrder r).filter fun k => s.inputOn r k && s.inputOk r k && decide (s.inputDepth r k < limit))

/-- The region uses input `k`, advertising one more than its depth (R348). -/
def inputUse (s : State) (r k : Nat) : State :=
  (s.setFld (Rg.CLKSRC_SEL r) k).setFld (Rg.CLKSRC_DEPTH r) (Nat.min 31 (s.inputDepth r k + 1))

/-- A clean hold (R350): depth 31, and the region halts with record 0x0221. -/
def cleanHold (s : State) (r : Nat) : State :=
  let sel := s.fld (Rg.CLKSRC_SEL r)
  let depth := s.fld (Rg.CLKSRC_DEPTH r)
  let s := (s.setFld (Rg.CLKSRC_STATE r) 1).setFld (Rg.CLKSRC_DEPTH r) 31
  let s := s.modRegion r fun g => { g with holdAt := s.time.cb }
  s.raise r { code := 0x221, detail := sel * 256 + depth, aux := if s.fld Rg.REF_STAT_STATE = 2 then 1 else 0 }

/-- The input in use is lost (R349): another is selected, hitlessly and counted, or the region makes a clean hold. -/
def inputLeave (s : State) (r : Nat) : State :=
  match s.inputPick r (s.fld (Rg.CLKSRC_DEPTH r)) with
  | some k => (s.inputUse r k).count (Rg.REFSW_CNT r) 1
  | none => s.cleanHold r

/-- An input of a region has gone (R349, R350): if it was in use the region leaves it, and one that relocks with no input left to
select holds again. -/
def inputGone (s : State) (r : Nat) (used : Bool) : State :=
  if used then s.inputLeave r
  else if s.fld (Rg.CLKSRC_STATE r) = 2 ∧ (s.inputPick r 31).isNone then
    (s.setFld (Rg.CLKSRC_STATE r) 1).modRegion r fun g => { g with holdAt := s.time.cb }
  else s

/-- Is input `k` the one in use of a locked region? -/
def inputInUse (s : State) (r k : Nat) : Bool := s.fld (Rg.CLKSRC_STATE r) == 0 && s.fld (Rg.CLKSRC_SEL r) == k

/-- The input on which the neighbour on side `side` (R11) hears a region. -/
def inputFacing (side : Nat) : Nat := [3, 0, 1, 2].getD side 0

/-- Region `q` hears depth `d` on input `k` (R348, R349): at 31 a valid input is lost, and one in use is left; below, the depth of a
region that uses it follows. Does `q` then advertise anew? -/
def depthHeard (s : State) (q k d : Nat) : Bool × State :=
  if !(s.powered q && s.inputOk q k) || s.inputDepth q k == d then (false, s)
  else
    let used := s.inputInUse q k
    let s := s.modRegion q fun g => { g with depths := g.depths.set k d }
    if d < 31 then (if used then (true, s.inputUse q k) else (false, s))
    else
      let s := s.setFld (Rg.CLKSRC_VALID q) (s.fld (Rg.CLKSRC_VALID q) - 2 ^ k)
      (used, s.inputGone q used)

/-- Region `r` advertises its depth on its four sides (R348): the neighbours that then advertise anew. -/
def depthSent (s : State) (r : Nat) : List Nat × State :=
  (List.range 4).foldl (fun x side =>
    match regionNeighbour r side with
    | some q =>
      let y := x.2.depthHeard q (inputFacing side) (s.fld (Rg.CLKSRC_DEPTH r))
      (if y.1 then x.1 ++ [q] else x.1, y.2)
    | none => x) ([], s)

/-- The depths of regions whose own has changed reach the regions downstream of them (R348); `n` bounds the advertisements. -/
def depthSpread (s : State) : Nat → List Nat → State
  | 0, _ => s
  | _ + 1, [] => s
  | n + 1, r :: rs =>
    let x := s.depthSent r
    x.2.depthSpread n (rs ++ x.1)

/-- Region `r`'s depth has changed: what follows from it. A region selects only inputs of lower depth (R349), so the changes end;
the bound is that of 96 regions and 31 depths. -/
def depthChanged (s : State) (r : Nat) : State := s.depthSpread 2976 [r]

/-- A region input is lost (R349). -/
def inputDrop (s : State) (r k : Nat) : State :=
  if s.powered r && s.inputOk r k then
    let used := s.inputInUse r k
    let s := s.setFld (Rg.CLKSRC_VALID r) (s.fld (Rg.CLKSRC_VALID r) - 2 ^ k)
    let s := s.modRegion r fun g => { g with depths := g.depths.set k 31 }
    let s := s.inputGone r used
    if used then s.depthChanged r else s
  else s

/-- A region input is valid again at a depth (R349): a region that uses it advertises one more (R348), and one holding begins to
relock if the input is enabled (R350). -/
def inputGain (s : State) (r k depth : Nat) : State :=
  if s.powered r && decide (depth < 31) then
    let s := s.modRegion r fun g => { g with depths := g.depths.set k depth }
    let s := if s.inputOk r k then s else s.setFld (Rg.CLKSRC_VALID r) (s.fld (Rg.CLKSRC_VALID r) + 2 ^ k)
    if s.fld (Rg.CLKSRC_STATE r) = 1 ∧ s.inputOn r k then s.setFld (Rg.CLKSRC_STATE r) 2
    else if s.inputInUse r k then (s.inputUse r k).depthChanged r
    else s
  else s

/-- A region in clean hold locks to a valid input (R350); it stays halted. -/
def relock (s : State) (r k : Nat) : State :=
  if s.powered r && s.fld (Rg.CLKSRC_STATE r) != 0 && s.inputOn r k && s.inputOk r k then
    ((s.setFld (Rg.CLKSRC_STATE r) 0).inputUse r k).depthChanged r
  else s

/-- A write of CLKSRC (R359): an input disabled while in use is treated as lost. -/
def clksrcWrite (s : State) (r v : Nat) : State :=
  let k := s.fld (Rg.CLKSRC_SEL r)
  let s := (s.setFld (Rg.CLKSRC_ORDER r) (bits v 15 8)).setFld (Rg.CLKSRC_INEN r) (bits v 3 0)
  let used := s.inputInUse r k && s.inputOk r k && !s.inputOn r k
  let s := s.inputGone r used
  if used then s.depthChanged r else s

/-! ### The ceiling -/

/-- Σ ENVELOPE × CEIL over the regions that the selected placement uses, region `r` at ceiling `c` (R354). -/
def ceilSum (s : State) (r c : Nat) : Nat :=
  (s.usedRegions.map fun q => s.fld (Rg.ENVELOPE_AUENV q) * (if q = r then c else s.fld (Rg.CLKTUNE_CEIL q))).foldl (· + ·) 0

/-- A write of CEIL (R354, R359): 0 and values above 64 have no effect; a raise while an image is READY or RUNNING must keep
within CREDCAP. -/
def ceilWrite (s : State) (r v : Nat) : State :=
  let old := s.fld (Rg.CLKTUNE_CEIL r)
  if v = 0 ∨ 64 < v then s
  else if old < v ∧ s.imgInForce ∧ s.usedRegions.contains r ∧ credcap s.fuse.variant * 64000 < s.ceilSum r v * s.fuse.fmax then
    (s.setFld (Rg.CLKTUNE_CEILREF r) 1).logRegion r 0x40A v old 0
  else s.setFld (Rg.CLKTUNE_CEIL r) v

end State

/-- A reference input is lost (R347). -/
def execRefLost (b : Bool) (s : State) : Out := .next (s.refDrop b.toNat)

/-- A reference input becomes valid (R347). -/
def execRefValid (b : Bool) (s : State) : Out := .next (s.refGain b.toNat)

/-- A region input is lost (R349). -/
def execRegionRefLost (r : Fin 96) (side : Side) (s : State) : Out := .next (s.inputDrop r (inputCode side))

/-- A region input becomes valid again (R349). -/
def execRegionInputValid (r : Fin 96) (side : Side) (depth : BitVec 5) (s : State) : Out :=
  .next (s.inputGain r (inputCode side) depth.toNat)

end Sys2Proof.Machine
end

