-- ==== Sys2Proof/Machine/Dma.lean ====
section
/-!
DEFINITION. The DMA engine of a cluster (R223 to R226), the walker's checks (R228, R229) and control DMA (R227).
-/
namespace Sys2Proof.Machine

/-- The fields of a DMA command (R223): its CONST and its argument word. -/
structure DmaReq where
  write : Bool
  layout : Nat
  layer : Nat
  cvt : Bool
  ntok : Nat
  blk0 : Nat
  nblk : Nat
  req : Nat
  pos : Nat
  deriving DecidableEq, Repr

/-- The request in a DMA command (R223). -/
def DmaCmd.req (c : DmaCmd) : DmaReq :=
  let k := c.const.toNat
  ⟨bits k 63 60 == 1, bits k 59 56, bits k 55 48, bit k 47, bits k 43 32 + 1, bits k 31 22, bits k 21 12 + 1,
   bits c.arg.toNat 19 0, bits c.arg.toNat 63 32⟩

/-- A refused walk (R229). -/
def walkFail (q : DmaReq) (reason page : Nat) : WalkErr := ⟨0x211, reason * 2 ^ 24 + q.req, page⟩

/-- One piece of a request within a page: page-list entry, page byte, length. -/
structure Piece where
  entry : Nat
  off : Nat
  len : Nat
  deriving DecidableEq, Repr

/-- The pieces of one position's blocks (R219): one page or two. -/
def piecesAt (l : KvLayout) (q : DmaReq) (p : Nat) : List Piece :=
  let boff := l.boff q.layer (p % 64) + 33 * q.blk0
  let n := 33 * q.nblk
  let a := l.place (p / 64) boff
  let k := Nat.min n (65536 - a.2)
  ⟨a.1, a.2, k⟩ :: (if k < n then [⟨a.1 + 1, 0, n - k⟩] else [])

/-- A piece as its transactions: one for each 256-B chunk of the page that it touches (R206). -/
def Piece.chunks (x : Piece) : List Piece :=
  (List.range ((x.off % 256 + x.len + 255) / 256)).map fun i =>
    let a := Nat.max x.off (256 * (x.off / 256 + i))
    ⟨x.entry, a, Nat.min (x.off + x.len) (256 * (x.off / 256 + i + 1)) - a⟩

/-- The transactions of a request in position order. -/
def pieces (l : KvLayout) (q : DmaReq) : List Piece :=
  (List.range q.ntok).flatMap fun i => (piecesAt l q (q.pos + i)).flatMap Piece.chunks

/-- Compact blocks as tagged slots (R36, R223): `n` blocks. -/
def tagBlocks (tag : Byte) : Nat → List Byte → List Byte
  | 0, _ => []
  | n + 1, bs => tag :: bs.take 33 ++ tagBlocks tag n (bs.drop 33)

/-- The bytes that a KVREAD delivers for the whole blocks of `bs` (R223). -/
def kvDelivered (l : KvLayout) (q : DmaReq) (bs : List Byte) : List Byte :=
  if q.cvt then tagBlocks (if l.efmt = 1 then 9 else 8) (bs.length / 33) bs else bs.take (bs.length / 33 * 33)

/-- The root page's header (R216). -/
structure RootHdr where
  page : Nat
  layout : Nat
  next : Nat
  nent : Nat
  ext : List Nat
  deriving DecidableEq, Repr

/-- The header of a root page in its first 64 bytes (R216). -/
def RootHdr.ofBytes (p : Nat) (b : List Byte) : RootHdr :=
  ⟨p, byteAt b 0, byteAt b 1, fieldAt b 4 4, (List.range 12).map fun k => fieldAt b (16 + 4 * k) 4⟩

namespace State

/-- The failure of a transaction at byte `o` of page `p` that meets an uncorrectable error on the memory network (R226). -/
def netErr (s : State) (p o : Nat) : WalkErr :=
  let n := s.pageStack p
  let a := p / 24 * 65536 + o
  ⟨0x210, dramDetail (2 ^ 31) ⟨n, ((s.chanOf n a).map Prod.fst).getD 0, a⟩, p⟩

/-- A read of `len` bytes at byte `o` of page `p` by the engine. `net` counts the transactions before the one that meets an error on
the memory network, if one does, and comes back with this one taken off. -/
def netRead (s : State) (net : Option Nat) (p o len : Nat) (gone : WalkErr) : Except WalkErr (List Byte) × Option Nat × State :=
  if net = some 0 then (.error (s.netErr p o), none, s)
  else
    let x := s.pageRead p o len gone
    (x.1, net.map fun k => k - 1, x.2)

/-- A write of bytes at byte `o` of page `p` by the engine. -/
def netWrite (s : State) (net : Option Nat) (p o : Nat) (bs : List Byte) (gone : WalkErr) : Except WalkErr Unit × Option Nat × State :=
  if net = some 0 then (.error (s.netErr p o), none, s)
  else
    let x := s.pageWrite p o bs gone
    (x.1, net.map fun k => k - 1, x.2)

/-- The 16-byte header of page `p` (R214). -/
def pageHeader (s : State) (q : DmaReq) (net : Option Nat) (p : Nat) : Except WalkErr (List Byte) × Option Nat × State :=
  s.netRead net (p / 4096) (16 * (p % 4096)) 16 (walkFail q 6 p)

/-- The sequence entry (R215) and the root page's header, with checks 1 to 4 (R229). -/
def walkRoot (s : State) (q : DmaReq) (net : Option Nat) : Except WalkErr RootHdr × Option Nat × State :=
  match s.netRead net (s.rd Rg.SEQBASE + q.req / 4096) (16 * (q.req % 4096)) 16 (walkFail q 1 0xFFFFFFFF) with
  | (.error e, net, s) => (.error e, net, s)
  | (.ok b, net, s) =>
    let list := fieldAt b 0 4
    if list = 0xFFFFFFFF then (.error (walkFail q 1 0xFFFFFFFF), net, s)
    else if byteAt b 12 ≠ q.layout then (.error (walkFail q 2 0xFFFFFFFF), net, s)
    else
      match s.netRead net list 0 64 (walkFail q 6 list) with
      | (.error e, net, s) => (.error e, net, s)
      | (.ok h, net, s) =>
        let root := RootHdr.ofBytes list h
        if root.layout ≠ q.layout then (.error (walkFail q 2 list), net, s)
        else if fieldAt b 4 4 < q.pos + q.ntok then (.error (walkFail q 3 0xFFFFFFFF), net, s)
        else if q.write ∧ q.pos < fieldAt b 8 4 then (.error (walkFail q 4 0xFFFFFFFF), net, s)
        else (.ok root, net, s)

/-- Check 9 on each of the list pages `ps` (R229). -/
def listPages (s : State) (q : DmaReq) (net : Option Nat) : List Nat → Except WalkErr Unit × Option Nat × State
  | [] => (.ok (), net, s)
  | lp :: ps =>
    match s.pageHeader q net lp with
    | (.error x, net, s) => (.error x, net, s)
    | (.ok h, net, s) => if byteAt h 0 ≠ 2 then (.error (walkFail q 9 lp), net, s) else s.listPages q net ps

/-- The page of page-list entry `e`, with checks 5 to 9 in order (R216, R229): the root page, and the extension page where the entry
lies in one, are the list pages. -/
def walkEntry (s : State) (q : DmaReq) (l : KvLayout) (root : RootHdr) (net : Option Nat) (e : Nat) :
    Except WalkErr Nat × Option Nat × State :=
  let k := (e - 16368) / 16384
  if root.nent ≤ e ∨ (16368 ≤ e ∧ root.next ≤ k) then (.error (walkFail q 5 0xFFFFFFFF), net, s)
  else
    let lp := if e < 16368 then root.page else root.ext.getD k 0xFFFFFFFF
    let off := if e < 16368 then 64 + 4 * e else 4 * ((e - 16368) % 16384)
    match s.netRead net lp off 4 (walkFail q 6 lp) with
    | (.error x, net, s) => (.error x, net, s)
    | (.ok b, net, s) =>
      let p := leNat b
      if !s.pageExists p then (.error (walkFail q 6 p), net, s)
      else
        match s.pageHeader q net p with
        | (.error x, net, s) => (.error x, net, s)
        | (.ok h, net, s) =>
          if byteAt h 0 ≠ 4 ∨ byteAt h 1 ≠ q.layout ∨ fieldAt h 2 2 ≠ e % l.ppb then (.error (walkFail q 7 p), net, s)
          else if q.write ∧ fieldAt h 4 4 ≠ 1 then (.error (walkFail q 8 p), net, s)
          else
            match s.listPages q net (if e < 16368 then [root.page] else [root.page, lp]) with
            | (.error x, net, s) => (.error x, net, s)
            | (.ok _, net, s) => (.ok p, net, s)

/-- The walk over the transactions: each page is checked when it is first met; `at_` is the page of the last entry met. A
read gathers bytes; a write takes them from `data`. The gathered bytes come with the failure, if any. -/
def walkPieces (s : State) (q : DmaReq) (l : KvLayout) (root : RootHdr) (net : Option Nat) :
    List Piece → Option (Nat × Nat) → List Byte → List Byte → List Byte × Option WalkErr × State
  | [], _, _, got => (got, none, s)
  | x :: xs, at_, data, got =>
    let known := match at_ with | some (e, p) => if e = x.entry then some p else none | none => none
    let found : Except WalkErr Nat × Option Nat × State :=
      match known with | some p => (.ok p, net, s) | none => s.walkEntry q l root net x.entry
    match found with
    | (.error e, _, s) => (got, some e, s)
    | (.ok p, net, s) =>
      if q.write then
        match s.netWrite net p x.off (data.take x.len) (walkFail q 6 p) with
        | (.error e, _, s) => (got, some e, s)
        | (.ok _, net, s) => s.walkPieces q l root net xs (some (x.entry, p)) (data.drop x.len) got
      else
        match s.netRead net p x.off x.len (walkFail q 6 p) with
        | (.error e, _, s) => (got, some e, s)
        | (.ok bs, net, s) => s.walkPieces q l root net xs (some (x.entry, p)) data (got ++ bs)

/-- The completion words of a command (R224, R226, R229): what was delivered before a failure, then its fault word. -/
def dmaResult (q : DmaReq) (l : KvLayout) (bundle : Nat) (got : List Byte) : Option WalkErr → List DmaWord
  | some e =>
    let bs := if q.write then [] else kvDelivered l q got
    (toWords (bs.length / 8) bs).map DmaWord.data ++ [.bad e.code e.detail e.aux bundle]
  | none =>
    if q.write then [.data 0]
    else
      let bs := kvDelivered l q got
      (toWords (ceilDiv bs.length 8) bs).map DmaWord.data

/-- A DMA command runs (R223 to R229). `net`: the number of its transactions before the one that meets an uncorrectable error on the
memory network, if one does. -/
def dmaRun (s : State) (cmd : DmaCmd) (net : Option Nat) : List DmaWord × State :=
  let q := cmd.req
  let bad (e : WalkErr) : List DmaWord := [.bad e.code e.detail e.aux cmd.bundle]
  match (kvLayouts (sectionOf s.image 0x30 0xFF 0xFF s.place))[q.layout]? with
  | none => (bad (walkFail q 2 0xFFFFFFFF), s)
  | some l =>
    match s.walkRoot q net with
    | (.error e, _, s) => (bad e, s)
    | (.ok root, net, s) =>
      let x := s.walkPieces q l root net (pieces l q) none (ofWords cmd.data) []
      (dmaResult q l cmd.bundle x.1 x.2.1, x.2.2)

/-- The completion words of a command go to the completion queue of its cluster (R224). -/
def dmaDeliver (s : State) (r c : Nat) (ws : List DmaWord) : State :=
  s.modCluster r c fun k => ({ k with dmaOut := ws } : Cluster).dmaFill

/-- The DMA engine of a cluster runs the command at the front of its command queue, if it is of opcode `opc` and the words of the
command before it are all in the completion queue (R223, R224). -/
def dmaNext (s : State) (r c opc : Nat) (net : Option Nat) : State :=
  match (s.cluster r c).dmaCmd with
  | [] => s
  | cmd :: rest =>
    if bits cmd.const.toNat 63 60 = opc ∧ (s.cluster r c).dmaOut = [] then
      let x := (s.modCluster r c fun k => { k with dmaCmd := rest }).dmaRun cmd net
      x.2.dmaDeliver r c x.1
    else s

/-! ### Control DMA -/

/-- Words of control memory read by `who` (R413: 8 an assist, 9 DMA), as bytes; none at an uncorrectable word. -/
def cmGather (s : State) (who w : Nat) : Nat → Option (List Byte) × State
  | 0 => (some [], s)
  | n + 1 =>
    match s.cmRead w who with
    | (none, s) => (none, s)
    | (some d, s) =>
      match s.cmGather who (w + 1) n with
      | (none, s) => (none, s)
      | (some bs, s) => (some (leBytes 8 d.toNat ++ bs), s)

/-- `n` bytes of control memory from offset `a`, read by `who`. -/
def cmTake (s : State) (who a n : Nat) : Option (List Byte) × State :=
  let x := s.cmGather who (a / 8) ((a % 8 + n + 7) / 8)
  (x.1.map fun b => (b.drop (a % 8)).take n, x.2)

/-- Writes of whole 64-bit words of control memory from word `w`. -/
def cmSetWords (s : State) (w : Nat) : List DWord → State
  | [] => s
  | d :: ds => (s.cmWrite w d).cmSetWords (w + 1) ds

/-- A control DMA (R227): its status and the state after. `host` is what host memory answers, when it is the peer. -/
def ctlDma (s : State) (addr peer len : Nat) (inward zero : Bool) (host : Option (List Byte)) : Nat × State :=
  let n := (addr - 0x100000000000) / 0x2000000000
  let a := (addr - 0x100000000000) % 0x2000000000
  let cm := decide (cmemBase ≤ peer ∧ peer < cmemBase + 0x10000000)
  let okStack := decide (0x100000000000 ≤ addr ∧ addr < 0x130000000000 ∧ a + len ≤ s.stackSize n)
  let okPeer := zero || !cm || decide (peer + len ≤ cmemBase + 0x10000000)
  if !okStack || !okPeer || decide (len % 32 ≠ 0 ∨ 0x1000000 < len) then (2, s)
  else if zero || inward then
    let src : Option (List Byte) × State :=
      if zero then (some (List.replicate len 0), s)
      else if cm then s.cmTake 9 (peer - cmemBase) len
      else (host.map fun b => padTo len (b.take len), s)
    match src with
    | (none, s) => (if cm then 1 else 2, s)
    | (some bs, s) =>
      match s.dramWrite n a bs with
      | (.error _, s) => (2, s)
      | (.ok _, s) => (0, s)
  else
    match s.dramRead n a len with
    | (.error (.poison _), s) => (1, s)
    | (.error _, s) => (2, s)
    | (.ok bs, s) =>
      (0, if cm then s.cmSetBytes (peer - cmemBase) bs else s.emit (.hostWrite peer bs))

/-- The quarter that answers for stack-window address `addr`: that of its channel. -/
def dmaNode (s : State) (addr : Nat) : Nat :=
  let n := (addr - 0x100000000000) / 0x2000000000
  let ch := ((s.chanOf n ((addr - 0x100000000000) % 0x2000000000)).map Prod.fst).getD 0
  nodeOfQuarter (quarterRegion n (ch / 8))

end State

/-- KVREAD (R223). -/
def execKvread (p : Site) (net : Option Nat) (s : State) : Out := .next (s.unlessHeld (s.dmaNext p.r p.c 0 net))

/-- KVWRITE (R223). -/
def execKvwrite (p : Site) (net : Option Nat) (s : State) : Out := .next (s.unlessHeld (s.dmaNext p.r p.c 1 net))

/-- DMADONE at its requester (R227). -/
def execDmadone (src : BitVec 16) (tag : Word) (status : Byte) (s : State) (dest : BitVec 16 := 0x8000) (ord : Bool := false)
    (lost : Option (BitVec 16) := none) : Out :=
  .next (s.carried ord src.toNat dest.toNat 5 lost fun s => s.receive (.dmaDone src.toNat tag.toNat status.toNat))

end Sys2Proof.Machine
end

