-- ==== Sys2Proof/Machine/Hops.lean ====
section
/-!
DEFINITION. Relay packets on their way between the modules of a host group: the header, its hops and the port that carries it
(R322, R323).
-/
namespace Sys2Proof.Machine

/-- The header of a relay packet (R322). -/
structure RelayHdr where
  rdx : Int
  rdy : Int
  odx : Int
  ody : Int
  rop : Nat
  tag : Nat
  status : Nat
  len : Nat
  deriving DecidableEq, Repr

/-- The fields of a relay header. -/
def RelayHdr.ofNat (h : Nat) : RelayHdr :=
  ⟨signed 5 h, signed 5 (h / 32), signed 5 (h / 1024), signed 5 (h / 32768), bits h 23 20, bits h 39 32, bits h 47 40, bits h 60 48⟩

/-- The header flit of a packet with `n` data flits. -/
def RelayHdr.flit (h : RelayHdr) (n : Nat) : DWord :=
  BitVec.ofNat 64 (wrapInt 5 h.rdx + wrapInt 5 h.rdy * 32 + wrapInt 5 h.odx * 1024 + wrapInt 5 h.ody * 32768 + h.rop * 2 ^ 20
    + n * 2 ^ 24 + h.tag % 256 * 2 ^ 32 + h.status % 256 * 2 ^ 40 + h.len % 8192 * 2 ^ 48)

/-- The header of a response: its route is (−ODX, −ODY) (R323). -/
def RelayHdr.reply (h : RelayHdr) (rop status len : Nat) : RelayHdr :=
  ⟨-h.odx, -h.ody, -h.odx, -h.ody, rop, h.tag, status, len⟩

/-- The side on which the next hop leaves, and the header after it; none once the packet has arrived (R323). -/
def RelayHdr.hop (h : RelayHdr) : Option (Nat × RelayHdr) :=
  if 0 < h.rdx then some (1, { h with rdx := h.rdx - 1 })
  else if h.rdx < 0 then some (3, { h with rdx := h.rdx + 1 })
  else if 0 < h.rdy then some (0, { h with rdy := h.rdy - 1 })
  else if h.rdy < 0 then some (2, { h with rdy := h.rdy + 1 })
  else none

namespace State

/-- A packet with hops left goes on by the edge's lowest-numbered port UP; with none it is discarded with an entry (R323). -/
def relayOut (s : State) (side : Nat) (h : RelayHdr) (addr : DWord) (data : List DWord) : State :=
  match s.edgePort side with
  | none => s.logEdge 0x403 0x8000 0xB 3
  | some p => s.portSend p ⟨0xB, 0x8000, 0x8000, 0, 0, h.flit data.length :: addr :: data, false⟩

end State
end Sys2Proof.Machine
end

