-- ==== Sys2Proof/Machine/BringUp.lean ====
section
/-!
DEFINITION. Bring-up (R376 to R395): the stages, their reports, the firmware image and the retirement list, the region
wavefront with its repair and yield maps, and the shorts, fences and relocks that meet it (R345, R350, R395).
-/
namespace Sys2Proof.Machine

/-- Offset of the bring-up log in control memory (R378). -/
def buLog : Nat := 0xFF00000
/-- Offset of the retirement list in control memory (R383). -/
def rlBase : Nat := 0xFE00000

namespace State

/-! ### Reports -/

/-- The header of a report (R378). -/
def reportHead (s : State) (stage result len cause start : Nat) : List Byte :=
  [0x4C, 0x57, 0x42, 0x52] ++ leBytes 1 stage ++ leBytes 1 result ++ leBytes 2 len ++ leBytes 2 (s.fld Rg.BU_STAT_NREP)
  ++ leBytes 2 s.fuse.silrev ++ leBytes 1 s.fuse.archrev ++ leBytes 1 (Variant.code s.fuse.variant) ++ leBytes 2 0
  ++ padTo 16 (s.fuse.serial.take 16) ++ leBytes 8 start ++ leBytes 8 s.ns ++ leBytes 4 cause ++ leBytes 12 0

/-- A report is written to the bring-up log at the next 64-byte-aligned offset, stands for its stage (R378) and is counted
(R394). -/
def report (s : State) (stage result cause start : Nat) (body : List Byte) : State :=
  let b := s.reportHead stage result (64 + body.length) cause start ++ body
  let s := s.cmSetWords ((buLog + s.bring.off) / 8) (toWords (ceilDiv b.length 8) b)
  let s := { s with bring := { s.bring with reports := Store.put s.bring.reports stage b
                                            off := s.bring.off + (b.length + 63) / 64 * 64 } }
  s.setBu (setBits (setBits (s.rd Rg.BU_STAT) 15 0 (s.fld Rg.BU_STAT_NREP + 1)) 25 25 result)

/-- Stage `k` begins. -/
def enterStage (s : State) (k : Nat) : State :=
  let s := { s with bring := { s.bring with stage := k, start := s.ns, stageAt := s.time.cb } }
  s.setBu (setBits (s.rd Rg.BU_STAT) 31 28 k)

/-- Bring-up is in stage `k`, and the module is not powering down (R395). -/
def inStage (s : State) (k : Nat) : Bool := s.power.on && s.power.down.isNone && s.bring.stage == k

/-! ### P0 and P1 -/

/-- Ports whose EN is set begin to train (R305, R377). -/
def startPorts (s : State) : State :=
  (List.range 32).foldl (fun s p => if s.flag (Rg.VYB_CTL_EN p) then s.train p false else s) s

/-- P0 ends (R339, R377): control memory's valid bits are cleared (R380) and the report is written; the readings are in mV. -/
def poweredUp (s : State) (vin vaux vedge vsd075 vsd12 : Nat) : State :=
  let s := { s with power := { s.power with on := true, pgood := true }, cmem := []
                    mg := { s.mg with pgoodAt := some s.time.cb } }
  let s := (s.emit (.pgood true)).setFld Rg.PM_IN_VIN vin
  let s := s.startPorts
  let s := s.report 0 0 0 0 (leBytes 2 vin ++ leBytes 2 vaux ++ leBytes 2 vedge ++ leBytes 2 vsd075 ++ leBytes 2 vsd12
    ++ leBytes 4 s.power.rails.vstk ++ leBytes 4 (s.rd Rg.HB_CFG) ++ leBytes 46 0)
  s.enterStage 1

/-- P0 begins (R376, R377): the time base starts at 0 (R433). -/
def powerBegin (s : State) : State :=
  if s.power.began then s else { s with power := { s.power with began := true }, time := ⟨s.time.cb, 0⟩ }

/-- PWR_EN is high (R330, R339, R487): with the input from 11.4 V to 12.6 V P0 begins, and the lateral rails come up, each once the
one before it is in regulation, `rails` of them by now, and with VSD each VCAB that has an active cable; with all four P0 ends. -/
def powerUp (s : State) (vin vaux vedge vsd075 vsd12 rails : Nat) : State :=
  if s.power.on ∨ s.power.down.isSome ∨ vin < 11400 ∨ 12600 < vin then s
  else if (match s.power.offAt with | some t => decide (s.time.cb < t + 1000 * msCb) | none => false) then s
  else
    let s := s.powerBegin
    let s := ({ s with power := { s.power with rails := s.power.rails.join (Rails.upTo rails) } } : State).vcabAll
    if rails < 4 then s else s.poweredUp vin vaux vedge vsd075 vsd12

/-- The digest that holds for a key slot (R382): the root's for slot 0, an owner slot's fuses for 1 to 4 unless they are
unprogrammed or revoked. -/
def slotDigest (s : State) (slot : Nat) : Option (List Byte) :=
  if slot = 0 then some Config.rootDigest
  else if slot ≤ 4 ∧ bit s.fuse.prog (slot - 1) ∧ ¬ bit s.fuse.revoked (slot - 1) then
    some ((s.fuse.owner.drop (16 * (slot - 1))).take 16 |>.flatMap fun w => leBytes 4 w.toNat)
  else none

/-- Is the entry of a retirement list valid (R383)? -/
def rlOk (kind region cluster index : Nat) : Bool :=
  let inRegion := decide (region < 96)
  let inCluster := decide (cluster < 28)
  match kind with
  | 1 => inRegion && inCluster && decide (index < 38)
  | 2 => inRegion && inCluster && decide (index < 24)
  | 3 => inRegion && cluster == 0xFF && decide (index / 256 < 22 ∧ index % 256 < 64)
  | 4 => region == 0xFF && cluster == 0xFF && decide (index / 256 < 32 ∧ index % 256 < 64)
  | 5 => inRegion && cluster == 0xFF && index == 0
  | 6 => region == 0xFF && cluster == 0xFF && decide (index ≤ 0x23FFFFF)
  | _ => false

/-- The entries of a retirement list: kind, region, cluster, index; none when one is invalid (R383). -/
def parseRl : Nat → List Byte → Option (List (Nat × Nat × Nat × Nat))
  | 0, _ => some []
  | n + 1, b =>
    if rlOk (byteAt b 0) (byteAt b 1) (byteAt b 2) (fieldAt b 4 4) then
      (parseRl n (b.drop 8)).map fun l => (byteAt b 0, byteAt b 1, byteAt b 2, fieldAt b 4 4) :: l
    else none

/-- The first check that a firmware image fails (R382); 0 when it passes. `n` is the number of retirement entries. -/
def bootCause (s : State) (fw rl : List Byte) (n : Nat) : Nat :=
  let len := fieldAt fw 12 4
  let entry := fieldAt fw 16 8
  let key := bytesAt fw 64 512
  let signed := fw.take 576 ++ bytesAt fw 1088 len
  if bytesAt fw 0 4 ≠ [0x4C, 0x57, 0x46, 0x57] ∨ fieldAt fw 4 2 ≠ 1 ∨ ¬ zeroAt fw 24 40 ∨ len % 64 ≠ 0 ∨ len < 64
      ∨ 0x2000000 < len ∨ entry % 4 ≠ 0 ∨ len ≤ entry ∨ fw.length < 1088 + len then 2
  else if byteAt fw 6 ≠ s.fuse.archrev then 3
  else if s.slotDigest (byteAt fw 7) ≠ some (sha512 key) then 4
  else if fieldAt fw 8 4 < s.fuse.svnmin then 5
  else if ¬ Config.rsaVerify key signed (bytesAt fw 576 512) then 6
  else if 4096 < n ∨ parseRl n rl = none then 7
  else 0

/-- The boot ROM stops with a cause and writes a FAIL report of P1 (R382); what it could not read is a free value. -/
def bootFail (s : State) (cause : Nat) (fw : List Byte) (relay : Nat) : State :=
  let s := (s.setFld Rg.BOOT_STAT_STATE 4).setFld Rg.BOOT_STAT_CAUSE cause
  let len := fieldAt fw 12 4
  let known := decide (2 < cause)
  let (v, s) := s.fresh (8 * 64)
  let (w, s) := s.fresh (8 * 9)
  let digest := if known then padTo 64 (sha512 (fw.take 576 ++ bytesAt fw 1088 len)) else leBytes 64 v
  let slot := if known then byteAt fw 7 else w % 256
  let svn := if known then fieldAt fw 8 4 else w / 2 ^ 8 % 2 ^ 32
  let len := if known then len else w / 2 ^ 40
  s.report 1 1 cause s.bring.start
    (digest ++ leBytes 1 slot ++ leBytes 1 relay ++ leBytes 2 0 ++ leBytes 4 svn ++ leBytes 4 len ++ leBytes 4 0 ++ leBytes 48 0)

/-- Are the host reads of the boot ROM possible (R380, R395): through this module's active bridge, or along HB_ROUTE? -/
def bootPath (s : State) : Bool :=
  s.flag Rg.HB_CFG_ACTIVE ||
  s.routePort.isSome

/-- Where the boot ROM read its image (R382): 0 through this module's bridge, 1 along HB_ROUTE. -/
def bootRelay (s : State) : Nat := if s.flag Rg.HB_CFG_ACTIVE then 0 else 1

/-- The firmware image and the retirement list stand in control memory, core 0 starts at ENTRY (R381), and P2 begins (R382,
R383). -/
def bootLoad (s : State) (fw rl : List Byte) : State :=
  let n := s.fld Rg.BOOT_RL_N_N
  let relay := s.bootRelay
  let len := fieldAt fw 12 4
  let body := bytesAt fw 1088 len
  let digest := sha512 (fw.take 576 ++ body)
  let s := s.cmSetWords (rlBase / 8) (toWords n (rl.take (8 * n)))
  let s := s.cmSetWords 0 (toWords (len / 8) body)
  let s := { s with bring := { s.bring with
    fwdig := digest, keyslot := byteAt fw 7, svn := fieldAt fw 8 4, entry := some (fieldAt fw 16 8)
    rl := (parseRl n rl).getD [], seedLate := false } }
  let s := s.setFld Rg.BOOT_STAT_STATE 3
  let s := s.report 1 0 0 s.bring.start
    (padTo 64 digest ++ leBytes 1 (byteAt fw 7) ++ leBytes 1 relay ++ leBytes 2 0 ++ leBytes 4 (fieldAt fw 8 4)
      ++ leBytes 4 len ++ leBytes 4 n ++ leBytes 48 0)
  s.enterStage 2

/-- The checks of a firmware image that was read (R382). -/
def bootImage (s : State) (fw rl : List Byte) : State :=
  let c := s.bootCause fw rl (s.fld Rg.BOOT_RL_N_N)
  if c = 0 then s.bootLoad fw rl else s.bootFail c fw s.bootRelay

/-- The reads of a range of host memory that the boot ROM sends along HB_ROUTE (R322, R380): HRD packets of at most 4,096 bytes,
tagged in their order; `n` bounds them. -/
def bootAsk (s : State) (addr len : Nat) : Nat → Nat → State
  | 0, _ => s
  | n + 1, tag =>
    if len = 0 then s
    else
      let dx := signed 5 (s.fld Rg.HB_ROUTE_DX)
      let dy := signed 5 (s.fld Rg.HB_ROUTE_DY)
      let h : RelayHdr := ⟨dx, dy, dx, dy, 1, tag % 256, 0, Nat.min 4096 len⟩
      let s := match h.hop with | some (side, h) => s.relayOut side h (BitVec.ofNat 64 addr) [] | none => s
      s.bootAsk (addr + 4096) (len - 4096) n (tag + 1)

/-- The boot ROM's reads set out (R380): through its own bridge, or along HB_ROUTE; `fw` is what the host has for the image, whose
header gives its length. -/
def bootSend (s : State) (fw : Option (List Byte)) : State :=
  if s.flag Rg.HB_CFG_ACTIVE ∨ !s.flag Rg.HB_ROUTE_EN then s
  else
    let n := 1088 + Nat.min 0x2000000 (fieldAt (fw.getD []) 12 4)
    let s := s.bootAsk (s.rd Rg.BOOT_FW_HI * 2 ^ 32 + s.rd Rg.BOOT_FW_LO) n 8194 0
    s.bootAsk (s.rd Rg.BOOT_RL_HI * 2 ^ 32 + s.rd Rg.BOOT_RL_LO) (8 * s.fld Rg.BOOT_RL_N_N) 8 (ceilDiv n 4096)

/-- BOOT_CTL.GO (R380 to R383): the boot ROM fetches, from WAIT or FAILED in P1; `fw` and `rl` are what the host answers for the
firmware image and the retirement list. -/
def bootGo (s : State) (fw rl : Option (List Byte)) : State :=
  let st := s.fld Rg.BOOT_STAT_STATE
  if !s.inStage 1 ∨ (st ≠ 0 ∧ st ≠ 4) then s
  else
    let s := ((s.setFld Rg.BOOT_STAT_CAUSE 0).setFld Rg.BOOT_STAT_STATE 1).bootSend fw
    { s with bring := { s.bring with boot := some (fw, rl) } }

/-- The boot ROM goes on (R380, R382): from FETCH to CHECK once every host read has completed, or to FAILED; from CHECK to its
outcome. -/
def bootStep (s : State) : State :=
  match s.bring.boot with
  | none => s
  | some (fw, rl) =>
    let over_ (s : State) : State := { s with bring := { s.bring with boot := none } }
    if !s.inStage 1 then over_ s
    else if s.fld Rg.BOOT_STAT_STATE = 1 then
      (if s.bootPath && fw.isSome && rl.isSome then s.setFld Rg.BOOT_STAT_STATE 2 else (over_ s).bootFail 1 [] s.bootRelay)
    else (over_ s).bootImage (fw.getD []) (rl.getD [])

/-! ### P2 -/

/-- Does the reference entry hold a valid input (R347)? -/
def refHeld (s : State) : Bool := s.fld Rg.REF_STAT_STATE != 2

/-- The body of a P2 report (R379): the offset of the input in use is a measured value within ±200 ppm (R347). -/
def p2Body (s : State) : List Byte × State :=
  let (v, s) := s.fresh 32
  (leBytes 4 (s.rd Rg.REF_STAT) ++ leBytes 4 (wrapInt 32 ((v % 40001 : Nat) - 20000 : Int)) ++ leBytes 56 0, s)

/-- The reference is forwarded to column 0 (R384). -/
def clockSeed (s : State) : State :=
  if s.inStage 2 && s.refHeld then
    let x := s.p2Body
    (x.2.report 2 0 0 x.2.bring.start x.1).enterStage 3
  else s

/-- The report that no input was valid has been written (R384). -/
def seedMissed (s : State) : State := { s with bring := { s.bring with seedLate := true } }

/-- No input is valid 1 s after P2 began (R384). -/
def clockSeedLate (s : State) : State :=
  if s.inStage 2 && !s.refHeld && !s.bring.seedLate && decide (s.bring.stageAt + 1000 * msCb ≤ s.time.cb) then
    let x := s.p2Body
    (x.2.report 2 1 1 x.2.bring.start x.1).seedMissed
  else s

/-! ### P3 -/

/-- The record of P3 about region `r` from offset 8 (R389), once its steps have run. -/
def p3Rec (s : State) (r : Nat) : Option (List Byte) := Store.find s.bring.recs r

/-- The record from offset 8 (R389): macros left out, banks and queue entries retired, VTOP and the ring-oscillator count of the
first power-up, 0 before it, and the errors corrected. -/
def p3Body (s : State) (r macros banks nq ce : Nat) : List Byte :=
  leBytes 2 macros ++ leBytes 1 banks ++ leBytes 1 nq
  ++ (match (s.region r).ro with | some ro => leBytes 2 (s.vinit r 64) ++ leBytes 2 ro | none => leBytes 4 0)
  ++ leBytes 4 ce ++ leBytes 12 0

/-- Record of region `r` in the P3 report (R389): its yield is what the yield map now says. -/
def p3Record (s : State) (r : Nat) : List Byte :=
  let fenced := s.yFenced r
  let cause := if fenced then (if s.fld (Rg.YMAP_CL_CAUSE r) = 0 then 8 else s.fld (Rg.YMAP_CL_CAUSE r)) else 0
  let use := s.fld (Rg.YMAP_CL_USABLE r)
  leBytes 1 (if fenced then 1 else 0) ++ leBytes 1 cause ++ leBytes 1 (popcount 28 use)
  ++ leBytes 1 (if (s.region r).retried then 1 else 0) ++ leBytes 4 use ++ (s.p3Rec r).getD (s.p3Body r 0 0 0 0)

/-- The retirement-list entries of a kind about a region, as (cluster, index) (R383). -/
def rlOf (s : State) (kind r : Nat) : List (Nat × Nat) :=
  (s.bring.rl.filter fun e => e.1 == kind && e.2.1 == r).map fun e => (e.2.2.1, e.2.2.2)

/-- The numbers below `n` that two lists hold, without repeats, ascending. -/
def union (n : Nat) (a b : List Nat) : List Nat := (List.range n).filter fun i => a.contains i || b.contains i

/-- What BIST found in cluster `c`. -/
def clusterFind (find : RegionBist) (c : Nat) : ClusterBist :=
  (find.clusters.find? fun x => x.c.val == c).getD ⟨Fin.ofNat 28 c, [], [], false, false, 0⟩

/-- Macros left out of a cluster's repair map (R386). -/
def macrosOut (s : State) (find : RegionBist) (c : Nat) : List Nat :=
  union 38 ((clusterFind find c).macros.map Fin.val) ((s.rlOf 1 find.r).filterMap fun e => if e.1 = c then some e.2 else none)

/-- Banks of a cluster that are retired (R386). -/
def banksOut (s : State) (find : RegionBist) (c : Nat) : List Nat :=
  union 24 ((clusterFind find c).banks.map Fin.val) ((s.rlOf 2 find.r).filterMap fun e => if e.1 = c then some e.2 else none)

/-- Does the cluster pass P3 (R386)? -/
def clusterPasses (s : State) (find : RegionBist) (c : Nat) : Bool :=
  decide ((s.macrosOut find c).length ≤ 2) && decide ((s.banksOut find c).length ≤ 4)
  && !(clusterFind find c).progBad && !(clusterFind find c).tableBad

/-- Failing entries of inbound queue `q` (R385 step 7, R383 kind 3). -/
def entriesOut (s : State) (find : RegionBist) (q : Nat) : List Nat :=
  union 64 (find.badEntries.filterMap fun e => if e.1.val = q then some e.2.val else none)
    ((s.rlOf 3 find.r).filterMap fun e => if e.2 / 256 = q then some (e.2 % 256) else none)

/-- A cluster's repair map and bank mask are written (R122, R138): logical macros take the usable physical macros in ascending
order (log 61). -/
def writeRepair (s : State) (find : RegionBist) (c : Nat) : State :=
  let good := (List.range 38).filter fun m => !(s.macrosOut find c).contains m
  let s' := (List.range 36).foldl (fun t m =>
    match good[m]? with | some k => t.setFld (Rg.WTREPAIR_PHYS find.r c m) k | none => t) s
  s'.setFld (Rg.SPBANKMASK_RETIRED find.r c) (maskOf (s.banksOut find c))

/-- The retired entries of the region's inbound queues are written (R161). -/
def writeQret (s : State) (find : RegionBist) : State :=
  (List.range 22).foldl (fun t q =>
    let m := maskOf (s.entriesOut find q)
    (t.wr (Rg.QRET_LO find.r q) (m % 2 ^ 32)).wr (Rg.QRET_HI find.r q) (m / 2 ^ 32)) s

/-- A fenced region is powered down under the fencing of R345 (R387). -/
def fenceOff (s : State) (r cause : Nat) : State :=
  let s := s.yieldFence r cause
  if s.fld (Rg.RPWR_STAT_STATE r) = 6 then s else s.fenceDown r

/-- Clusters of a region become what P3 leaves usable, and the region is fenced below 26 of them (R387). -/
def setUsable (s : State) (r mask : Nat) : State :=
  let s := s.setFld (Rg.YMAP_CL_USABLE r) mask
  if popcount 28 mask < 26 then s.fenceOff r 1 else s

/-- The ring-oscillator count of the region's first power-up (R340, R389). -/
def firstRo (s : State) (find : RegionBist) : Nat := (s.region find.r).ro.getD find.ro.toNat

/-- The kind-5 entries of the retirement list fence the region (R387). -/
def listFence (s : State) (r : Nat) : State := if (s.rlOf 5 r).isEmpty then s else s.fenceOff r 5

/-- The steps of P3 in a locked region (R385 to R387). -/
def p3Steps (s : State) (find : RegionBist) : State :=
  let r := find.r.val
  let old := if (s.p3Rec r).isSome then s.fld (Rg.YMAP_CL_USABLE r) else 0xFFFFFFF
  let clusters := List.range 28
  let mask := maskOf (clusters.filter (s.clusterPasses find)) &&& old
  let macros := (clusters.map fun c => (s.macrosOut find c).length).foldl (· + ·) 0
  let banks := (clusters.map fun c => (s.banksOut find c).length).foldl (· + ·) 0
  let depths := (List.range 22).map fun q => 64 - (s.entriesOut find q).length
  let nq := ((List.range 22).map fun q => (s.entriesOut find q).length).foldl (· + ·) 0
  let ce := (find.clusters.map ClusterBist.corrected).foldl (· + ·) 0
  let s := { s with bring := { s.bring with recs := Store.put s.bring.recs r (s.p3Body r macros banks nq ce) } }
  let s := (clusters.foldl (fun t c => t.writeRepair find c) s).writeQret find
  let s := s.setUsable r mask
  let s := if find.controllerOk then s else s.fenceOff r 4
  let s := s.listFence r
  if depths.any fun d => decide (d < 16) then s.fenceOff r 8 else s

/-- Is region `r` powered and locked? -/
def locked (s : State) (r : Nat) : Bool := s.powered r && s.fld (Rg.CLKSRC_STATE r) == 0 && s.fld (Rg.CLKSRC_DEPTH r) != 31

/-- Depth that the neighbour on input `k` of region `r` advertises, 31 when nothing comes; the reference entry feeds the W inputs
of column 0 with depth 0 (R347, R348). -/
def feedDepth (s : State) (r k : Nat) : Nat :=
  let side := [3, 0, 1, 2].getD k 0
  match regionNeighbour r side with
  | some q => if s.locked q then s.fld (Rg.CLKSRC_DEPTH q) else 31
  | none => if k = 0 ∧ s.refHeld then 0 else 31

/-- Region `r`'s inputs take what its neighbours forward (R348). -/
def takeInputs (s : State) (r : Nat) : State :=
  if s.powered r then
    (List.range 4).foldl (fun t k => if s.feedDepth r k < 31 ∧ !t.inputOk r k then t.inputGain r k (s.feedDepth r k) else t) s
  else s

/-- A region's neighbours receive the copy that it forwards (R348). -/
def feedNeighbours (s : State) (r : Nat) : State :=
  (List.range 4).foldl (fun t side => match regionNeighbour r side with | some q => t.takeInputs q | none => t) s

/-- A region tries to lock to its inputs (R349, R385); its neighbours then receive its copies. -/
def tryLock (s : State) (r : Nat) : State :=
  let s := s.takeInputs r
  match s.inputPick r 31 with
  | some k => ((s.inputUse r k).depthChanged r).feedNeighbours r
  | none => s

/-- A region ramps at the starting step, 32 (R340, R385), latches if a latch meets it (R343), and is ON once its sense points have
settled; `st` is its state until then, RAMP or RETRY. -/
def rampRegion (s : State) (st : Nat) (find : RegionBist) : State :=
  let r := find.r.val
  let ro := s.firstRo find
  let s := s.modRegion r fun g => { g with ro := some ro }
  let s := (s.setFld (Rg.RMON_COUNT r) ro).regionRamp r st 32 find.vsram.toNat
  match find.latch with
  | some (cause, peak) => s.latch r (cause + 1) peak.toNat
  | none => if 750 ≤ find.vsram.toNat ∧ find.settled then s.regionOn r else s

/-- The steps of P3 are still to come for a region, which is at EFF 32 (R385). -/
def p3Wait (s : State) (find : RegionBist) : State :=
  let s := s.setFld (Rg.CLKTUNE_EFF find.r) 32
  { s with bring := { s.bring with pend := s.bring.pend.filter (fun f => f.r != find.r) ++ [find] } }

/-- A region once it ramped: locked, it runs its steps; not locked, it is fenced with cause 3 (R385). -/
def p3Region (s : State) (find : RegionBist) : State :=
  let r := find.r.val
  if !s.powered r then s else if s.locked r then s.p3Wait find else s.fenceOff r 3

/-- Is region `r` FENCED? -/
def fencedOff (s : State) (r : Nat) : Bool := s.fld (Rg.RPWR_STAT_STATE r) == 6

/-- Can the steps of region `r` come to their end: it is locked, and so is the other end of each of its crossings, unless it is
fenced (R385)? -/
def p3Ready (s : State) (r : Nat) : Bool :=
  s.locked r && (List.range 4).all fun side =>
    match regionNeighbour r side with
    | some q => s.locked q || s.fencedOff q
    | none => true

/-- A region leaves those whose steps are still to come: its steps run, or it has been fenced, and a kind-5 entry gives its
cause (R387). -/
def p3One (s : State) (find : RegionBist) : State :=
  let s : State := { s with bring := { s.bring with pend := s.bring.pend.filter fun f => f.r != find.r } }
  if s.fencedOff find.r then s.listFence find.r else s.p3Steps find

/-- The steps of the regions that can run them; a region in clean hold pauses them until it relocks (R395). -/
def p3Advance (s : State) : Nat → State
  | 0 => s
  | n + 1 =>
    match s.bring.pend.find? fun f => s.p3Ready f.r || s.fencedOff f.r with
    | some f => (s.p3One f).p3Advance n
    | none => s

/-- A P3 report as the regions are now; `start` is its start. -/
def p3Report (s : State) (start : Nat) : State := s.report 3 0 0 start ((List.range 96).flatMap s.p3Record)

/-- P3 ends once every column has been brought up, the steps of every region have run and no region waits for its retry (R385). -/
def p3Finish (s : State) : State :=
  if s.inStage 3 && s.bring.col == 12 && s.bring.pend.isEmpty && (List.range 96).all fun r => s.locked r || s.fencedOff r then
    (s.p3Report s.bring.start).enterStage 4
  else s

/-- P3 goes on as far as it can (R385); after P3 the steps that a retried region has run, or its fence, make a fresh P3 report
(R395). -/
def p3Go (s : State) : State :=
  let t := s.p3Advance 96
  if t.bring.stage = 3 then t.p3Finish
  else if 3 < t.bring.stage ∧ t.bring.pend.length < s.bring.pend.length then t.p3Report s.ns
  else t

/-- What the tests found in region `r`; a region that is not named has no fault (its count is then a free value). -/
def findOf (finds : List RegionBist) (r : Nat) (ro : Nat) : RegionBist :=
  (finds.find? fun x => x.r.val == r).getD ⟨Fin.ofNat 96 r, none, 800, true, true, true, BitVec.ofNat 16 ro, [], []⟩

/-- Is every region of column `x` locked or fenced, or latched before or in its retry (R385)? -/
def columnSettled (s : State) (x : Nat) : Bool :=
  (List.range 8).all fun y =>
    let st := s.fld (Rg.RPWR_STAT_STATE (12 * y + x))
    s.locked (12 * y + x) || st == 4 || st == 5 || st == 6

/-- The wavefront goes on to the column after `x` once none of its regions is left to ramp (R385). -/
def columnDone (s : State) (x : Nat) : State :=
  if (List.range 8).any fun y => s.fld (Rg.RPWR_STAT_STATE (12 * y + x)) ≤ 1 then s
  else { s with bring := { s.bring with col := x + 1 } }

/-- Can region `r` begin or go on to ramp: fewer than 8 regions are in RAMP or RETRY, or it is one of them (R340)? -/
def mayRamp (s : State) (r : Nat) : Bool :=
  let ramps (q : Nat) : Bool := s.fld (Rg.RPWR_STAT_STATE q) == 1 || s.fld (Rg.RPWR_STAT_STATE q) == 5
  ramps r || decide (((List.range 96).filter ramps).length < 8)

/-- A kind-5 entry gives its cause to a region that is fenced before its column comes (R387). -/
def listFenced (s : State) (x : Nat) : State :=
  (List.range 8).foldl (fun s y => if s.fencedOff (12 * y + x) then s.listFence (12 * y + x) else s) s

/-- Column `x` is brought up (R385), once every region of the column before it is locked or fenced: its regions that are not
fenced ramp, and lock in the order in which inputs come; their steps follow as P3 goes on. -/
def wavefront (s : State) (x : Nat) (finds : List RegionBist) : State :=
  if s.inStage 3 && s.bring.col == x && (x == 0 || s.columnSettled (x - 1)) then
    let a := s.fresh 16
    let s := a.2
    let fs := (List.range 8).map fun y => findOf finds (12 * y + x) a.1
    let s := s.listFenced x
    let fs := fs.filter fun f => s.fld (Rg.RPWR_STAT_STATE f.r) == 0 || s.fld (Rg.RPWR_STAT_STATE f.r) == 1
    let s := fs.foldl (fun s f => if s.mayRamp f.r then s.rampRegion 1 f else s) s
    let lockers := fs.filter RegionBist.locks
    let s := (List.range 8).foldl (fun s _ => lockers.foldl (fun s f =>
      if s.powered f.r && !s.locked f.r then s.tryLock f.r else s) s) s
    ((fs.foldl p3Region s).columnDone x).p3Go
  else s

/-- Is the retry of region `r` due, or does it still ramp (R345)? -/
def retryDue (s : State) (r : Nat) : Bool :=
  let st := s.fld (Rg.RPWR_STAT_STATE r)
  s.power.on && s.power.down.isNone && s.mayRamp r &&
    (st == 5 || (st == 4 && !(s.region r).retried && decide ((s.region r).retryAt ≤ s.time.cb)))

/-- A region's retry has ended, or it has latched again: P3 goes on, and after P3 a region that is fenced makes a fresh P3 report
(R395). -/
def p3Retried (s : State) (r : Nat) : State :=
  if s.fencedOff r && decide (3 < s.bring.stage) then s.p3Report s.ns else s.p3Go

/-- The retry 100 ms after a first latch (R345): it latches again, or the region is ON and runs its P3 steps. -/
def shortRetry (s : State) (find : RegionBist) : State :=
  let r := find.r.val
  if s.retryDue r then
    let s := (s.modRegion r fun g => { g with retried := true }).setFld (Rg.RPWR_STAT_STATE r) 5
    let s := s.rampRegion 5 find
    let s :=
      if s.powered r then
        let s := s.logPower r 0x40C 0 0 0
        ((if find.locks then s.tryLock r else s) : State).p3Region find
      else s
    s.p3Retried r
  else s

/-- A region short (R343); one that latches again is fenced (R345). -/
def shortTake (s : State) (r cause peak : Nat) : State :=
  let was := s.fencedOff r
  let s := s.short r cause peak
  if !was && s.fencedOff r then s.p3Retried r else s

/-- A region in clean hold for 1 s during P3 to P6, in which no input has returned, is fenced (R395). -/
def clockHoldLate (s : State) (r : Nat) : State :=
  if s.power.on && s.power.down.isNone && decide (3 ≤ s.bring.stage ∧ s.bring.stage ≤ 6) && s.powered r
      && s.fld (Rg.CLKSRC_STATE r) == 1
      && decide ((s.region r).holdAt + 1000 * msCb ≤ s.time.cb) then (s.fenceOff r 3).p3Go
  else s

/-! ### P4 to P7 -/

/-- Every word of every stack is zero (R390). A flip mask that is armed takes the first burst written to its channel (R213). -/
def dramZero (s : State) : State :=
  (List.range 96).foldl (fun s r => s.burstFlip (stackOf r) (8 * quarterOf r + s.fld (Rg.DFLIP_CTL_CH r)) 0)
    { s with dram := [], loader := { s.loader with lost := [] } }

/-- The channels that failed in a stack fence their regions (R390). -/
def fenceChannels (s : State) (f : StackBist) : State :=
  f.badChannels.foldl (fun s ch => s.fenceOff (quarterRegion f.n (ch.val / 8)) 6) s

/-- Record of stack `n` in the P4 report (R390). -/
def stackRecord (s : State) (finds : List StackBist) (n : Nat) : List Byte :=
  let f := finds.find? fun f => f.n.val == n
  leBytes 4 (s.chanMask n) ++ leBytes 4 ((f.map StackBist.rows).getD 0) ++ leBytes 4 ((f.map StackBist.corrected).getD 0)
  ++ leBytes 1 (s.fld (Rg.STK_THERM_STLIM n)) ++ leBytes 3 0

/-- A kind-4 entry of the retirement list retires an entry of a module-boundary queue (R383, R391). -/
def retireEntry (s : State) (e : Nat × Nat × Nat × Nat) : State :=
  if e.1 = 4 then
    let p := e.2.2.2 / 256
    let g := e.2.2.2 % 256
    let a := if g < 32 then Rg.MBQRET_LO p else Rg.MBQRET_HI p
    s.wr a (s.rd a ||| 2 ^ (g % 32))
  else s

/-- P4 (R390): a channel that fails fences its region; every word is zero; the report follows, and P5 applies the kind-4 entries
(R391). A stack that is tripped pauses the stage. -/
def stacksUp (s : State) (finds : List StackBist) : State :=
  if s.inStage 4 && (List.range 24).all fun n => !s.flag (Rg.STK_THERM_TTRIP n) then
    let s := (finds.foldl fenceChannels s).dramZero
    let s := s.report 4 0 0 s.bring.start ((List.range 24).flatMap (s.stackRecord finds))
    (s.bring.rl.foldl retireEntry s).enterStage 5
  else s

/-- P5 ends (R391): every port with EN set is UP or FAILED, or 300 ms have passed. -/
def linksUp (s : State) : State :=
  let settled := (List.range 32).all fun p =>
    !s.flag (Rg.VYB_CTL_EN p) || s.fld (Rg.VYB_STAT_STATE p) == 2 || s.fld (Rg.VYB_STAT_STATE p) == 3
  if s.inStage 5 && (settled || decide (s.bring.stageAt + 300 * msCb ≤ s.time.cb)) then
    (s.report 5 0 0 s.bring.start ((List.range 32).flatMap fun p =>
      leBytes 4 (s.rd (Rg.VYB_STAT p)) ++ leBytes 4 (s.rd (Rg.VYB_PEER p)))).enterStage 6
  else s

/-- Fenced regions. -/
def fencedCount (s : State) : Nat := ((List.range 96).filter s.yFenced).length
/-- Usable clusters in unfenced regions (R394). -/
def usableCount (s : State) : Nat :=
  (((List.range 96).filter fun r => !s.yFenced r).map fun r => popcount 28 (s.fld (Rg.YMAP_CL_USABLE r))).foldl (· + ·) 0
/-- Is the guarantee of R16 broken (R394)? -/
def outspec (s : State) : Bool :=
  decide (4 < s.fencedCount) || (List.range 96).any fun r => !s.yFenced r && decide (popcount 28 (s.fld (Rg.YMAP_CL_USABLE r)) < 26)

/-- Is a run of R392 region-level: run 6 or 7? -/
def regionRun (k : Fin 8) : Bool := k.val == 5 || k.val == 6

/-- A result of run `e.1` + 1 of R392 differs from the expected one in a cluster: the cluster is unusable, or after a region-level
run its region is fenced with cause 4. -/
def runFailed (s : State) (e : Fin 8 × Site) : State :=
  if regionRun e.1 then s.fenceOff e.2.r 4
  else s.setUsable e.2.r (s.fld (Rg.YMAP_CL_USABLE e.2.r) &&& (0xFFFFFFF ^^^ 2 ^ e.2.c.val))

/-- The regions that failed a region-level run. -/
def regionsFailed (failed : List (Fin 8 × Site)) (regions : List (Fin 96)) : Nat :=
  ((List.finRange 96).filter fun r => regions.contains r || failed.any fun e => regionRun e.1 && e.2.r == r).length

/-- P6 (R392, R393): clusters that failed a run are unusable, regions that failed a region-level run are fenced. A usable cluster has
given the expected results, whose digest is the architecture revision's, and so has run 8 where it passed; else the digests are
those of what the runs gave. -/
def knownAnswers (s : State) (failed : List (Fin 8 × Site)) (regions : List (Fin 96)) (results spread : List Byte)
    (spreadOk : Bool) : State :=
  if s.inStage 6 then
    let s := failed.foldl runFailed s
    let s := regions.foldl (fun s r => s.fenceOff r 4) s
    let count (k : Nat) : Nat := (failed.filter fun e => e.1.val == k).length
    let results := if s.usableCount = 0 then results else Config.kaResults
    let spread := if spreadOk then padTo 88 Config.kaSpread else spread
    (s.report 6 (if spreadOk then 0 else 1) (if spreadOk then 0 else 8) s.bring.start
      (padTo 64 (sha512 results) ++ padTo 64 (sha512 spread) ++ ((List.range 8).map count).flatMap (leBytes 2)
        ++ leBytes 2 (regionsFailed failed regions) ++ leBytes 110 0)).enterStage 7
  else s

/-- P7 (R394): the final report, DONE, and MSI-X class 3. -/
def ready (s : State) : State :=
  if s.inStage 7 && !s.flag Rg.BU_STAT_DONE then
    let o := if s.outspec then 1 else 0
    let s := s.report 7 o 0 s.bring.start
      (leBytes 2 s.usableCount ++ leBytes 1 s.fencedCount ++ leBytes 1 o ++ leBytes 4 (72 * s.usableCount) ++ padTo 64 s.ymapDig
        ++ leBytes 56 0)
    let s := s.setBu (setBits (setBits (s.rd Rg.BU_STAT) 26 26 o) 27 27 1)
    s.receive (.event 3)
  else s

end State

/-- PWR_EN high with the input in range (R339, R487). -/
def execPowerUp (vin vaux vedge vsd075 vsd12 : BitVec 16) (s : State) (rails : Fin 5 := 4) : Out :=
  .next (s.powerUp vin.toNat vaux.toNat vedge.toNat vsd075.toNat vsd12.toNat rails)

/-- A region short (R343). -/
def execRegionShort (r : Fin 96) (cause : Fin 4) (peak : BitVec 12) (s : State) : Out := .next (s.shortTake r (cause + 1) peak.toNat)

/-- A region in clean hold relocks (R350); in P3 its steps go on (R395). -/
def execRegionRelock (r : Fin 96) (side : Side) (s : State) : Out := .next (s.relock r (inputCode side)).p3Go

/-- The retry of a latched region (R345). -/
def execShortRetry (find : RegionBist) (s : State) : Out := .next (s.shortRetry find)

/-- A valid reference is forwarded to column 0 (R384). -/
def execClockSeed (s : State) : Out := .next s.clockSeed

/-- No reference is valid 1 s after P2 began (R384). -/
def execClockSeedTimeout (s : State) : Out := .next s.clockSeedLate

/-- A region in clean hold for 1 s (R395). -/
def execClockHoldTimeout (r : Fin 96) (s : State) : Out := .next (s.clockHoldLate r)

/-- The regions of a column are brought up (R385). -/
def execRegionWavefront (x : Fin 12) (finds : List RegionBist) (s : State) : Out := .next (s.wavefront x finds)

/-- Stage P4 (R390). -/
def execStackBringup (finds : List StackBist) (s : State) : Out := .next (s.stacksUp finds)

/-- Stage P5 (R391). -/
def execLinkStage (s : State) : Out := .next s.linksUp

/-- Stage P6 (R392). -/
def execKnownAnswerRuns (failed : List (Fin 8 × Site)) (regions : List (Fin 96)) (results spread : List Byte) (spreadOk : Bool)
    (s : State) : Out := .next (s.knownAnswers failed regions results spread spreadOk)

/-- Stage P7 (R394). -/
def execBringupReady (s : State) : Out := .next s.ready

end Sys2Proof.Machine
end

