-- ==== Sys2Proof/Machine/Gop.lean ====
section
/-!
DEFINITION. The global-operation unit (R324 to R328): barriers, broadcasts, snapshots, quiesces and the domain reset. Sides
of the array are coded 0 N, 1 E, 2 S, 3 W.
-/
namespace Sys2Proof.Machine
namespace State

/-- The sides of the child edges (R328). -/
def gopChildren (s : State) : List Nat := (List.range 4).filter fun e => bit (s.fld Rg.GOP_TREE_CHILD) (3 - e)

/-- The side of the parent edge; none at the root (R328). -/
def gopParent (s : State) : Option Nat := if s.fld Rg.GOP_TREE_PARENT = 0 then none else some (s.fld Rg.GOP_TREE_PARENT - 1)

/-- GOP_STAT.STATE follows the unit (R328). -/
def gopShow (s : State) : State :=
  let g := s.gop
  s.setFld Rg.GOP_STAT_STATE
    (if g.late || g.holdLate then 4 else if g.hold ≠ 0 then (if g.held then 3 else 2) else if g.bar then 1 else 0)

/-- The unit becomes `g`. -/
def setGop (s : State) (g : Gop) : State := ({ s with gop := g } : State).gopShow

/-- A marker goes out on the edge of a side, by its lowest-numbered port UP (R323, R324). -/
def mark (s : State) (side kind id origin data : Nat) : State :=
  match s.edgePort side with
  | none => s
  | some p => s.portSend p ⟨9, 0x8000, 0x8000, 0, id, [BitVec.ofNat 64 (kind + origin % 256 * 256 + data * 2 ^ 32)], false⟩

/-- A marker goes out on several edges. -/
def marks (s : State) (sides : List Nat) (kind id origin data : Nat) : State :=
  sides.foldl (fun s e => s.mark e kind id origin data) s

/-- The origin that a marker made here names: the module's MODPOS. -/
def gopOrigin (s : State) : Nat := imgModpos s.image % 256

/-- A barrier is released here (R324): GOP_REL takes its ID, RELEASE goes to the children, and the control complex is
signalled. -/
def gopRelease (s : State) (id : Nat) : State :=
  let g := s.gop
  let s := s.setGop { g with bar := false, up := false, arrived := g.arrived.filter fun e => e.2 != id }
  ((s.setFld Rg.GOP_REL_ID id).marks s.gopChildren 2 id s.gopOrigin 0).receive (.event 2)

/-- Once ARRIVE is written and has come from every child edge, it goes to the parent; at the root the barrier is released
(R324). -/
def gopTry (s : State) : State :=
  let g := s.gop
  if g.bar && !g.up && s.gopChildren.all fun e => g.arrived.contains (e, g.id) then
    match s.gopParent with
    | none => s.gopRelease g.id
    | some e => (s.setGop { g with up := true }).mark e 1 g.id s.gopOrigin 0
  else s

/-- GOP_CMD ARRIVE (R324): at most one barrier is outstanding. -/
def arrive (s : State) (id : Nat) : State :=
  if s.gop.bar then s
  else (s.setGop { s.gop with bar := true, id := id, since := s.time.cb, up := false, late := false }).gopTry

/-- A hold begins (R326). -/
def holdStart (s : State) (kind id k : Nat) : State :=
  s.setGop { s.gop with hold := kind, holdId := id, k := k, holdSince := s.time.cb, held := false, late := false, holdLate := false }

/-- The hold is lifted in every region (R326). -/
def holdEnd (s : State) : State := s.setGop { s.gop with hold := 0, held := false, late := false, holdLate := false }

/-- What a broadcast of a kind does at a module: SNAP and QUIESCE hold, RESUME lifts the hold. -/
def bcastAct (s : State) (kind id data : Nat) : State :=
  if kind = 4 ∨ kind = 5 then s.holdStart kind id data else if kind = 6 then s.holdEnd else s

/-- A broadcast begins here (R325): the marker goes out on every edge with a port UP, with this module as origin. -/
def bcast (s : State) (kind id : Nat) : State :=
  let origin := s.gopOrigin
  let data := s.rd Rg.GOP_DATA
  let s := s.setGop { s.gop with seen := s.gop.seen ++ [(origin, id)] }
  (s.bcastAct kind id data).marks [0, 1, 2, 3] kind id origin data

/-- A write of GOP_CMD (R324 to R326); reserved operations have no effect. -/
def gopCmd (s : State) (v : Nat) : State :=
  let id := bits v 14 0
  match bits v 31 28 with
  | 1 => s.arrive id
  | 2 => s.bcast 3 id
  | 3 => s.bcast 4 id
  | 4 => s.bcast 5 id
  | 5 => s.bcast 6 id
  | _ => s

/-- A broadcast marker arrives (R325): the first copy of an (origin, ID) pair is recorded, acts and goes on. -/
def bcastTake (s : State) (side kind id origin data : Nat) : State :=
  if s.gop.seen.contains (origin, id) then s
  else
    let s := s.setGop { s.gop with seen := s.gop.seen ++ [(origin, id)] }
    let s := ((s.setFld Rg.GOP_BCAST_ORIGIN origin).setFld Rg.GOP_BCAST_ID id).wr Rg.GOP_BDATA data
    (s.bcastAct kind id data).marks ((List.range 4).filter fun e => e != side) kind id origin data

/-- An ARRIVE marker (R324): from a child edge, and not of an abandoned barrier (R328). -/
def arriveTake (s : State) (side id : Nat) : State :=
  if s.gopChildren.contains side && s.gop.dead != some id && !s.gop.arrived.contains (side, id) then
    (s.setGop { s.gop with arrived := s.gop.arrived ++ [(side, id)] }).gopTry
  else s

/-- A RELEASE marker (R324): of the outstanding barrier, from the parent edge. -/
def releaseTake (s : State) (side id : Nat) : State :=
  if s.gop.bar && s.gop.id == id && s.gopParent == some side then s.gopRelease id else s

/-- Is the region held, or for a quiesce halted or fenced by the placement (R326)? -/
def regionHeld (s : State) (r : Nat) : Bool :=
  (s.gopHolds r && (s.region r).seg.isNone)
  || (s.gop.hold == 5 && ((s.region r).halted || bit (placeFence s.image s.place) r))

/-- Has the port no unacknowledged data flit in either direction (R326): none that it sent, none that it discarded and asked for
again, and none accepted that no flit has acknowledged? -/
def portDrained (s : State) (p : Nat) : Bool :=
  let x := s.port p
  !(x.replay.any fun e => e.type == 1) && !x.nak && x.told.2.2 == x.rxNext

/-- Is the module HELD (R326)? A snapshot cannot complete with a halted region (R328). -/
def allHeld (s : State) : Bool :=
  (s.usedRegions.all s.regionHeld || !s.imgInForce)
  && (s.gop.hold == 5 || ((List.range 96).all fun r => !(s.region r).halted)
    && (List.range 32).all fun p => !s.flag (Rg.VYB_BIND_EN p) || s.portDrained p)

/-- The module becomes HELD (R326). -/
def becomeHeld (s : State) : State :=
  if s.gop.hold != 0 && !s.gop.held && !s.gop.holdLate && s.allHeld then s.setGop { s.gop with held := true } else s

/-- Has GOP_TMO passed since CBCLK `t` (R328)? A field of 0 never times out. -/
def gopPast (s : State) (t : Nat) : Bool :=
  s.fld Rg.GOP_TMO_US != 0 && decide (t + s.fld Rg.GOP_TMO_US * usCb ≤ s.time.cb)

/-- A barrier that times out is abandoned, with an entry that names its GOP_CMD OP and ID (R328). -/
def barrierLate (s : State) : State :=
  if s.gop.bar && s.gopPast s.gop.since then
    (s.setGop { s.gop with bar := false, up := false, late := true, dead := some s.gop.id
                           arrived := s.gop.arrived.filter fun e => e.2 != s.gop.id }).logEdge 0x407 1 s.gop.id 0
  else s

/-- A hold that times out (R328). -/
def holdLate (s : State) : State :=
  if s.gop.hold != 0 && !s.gop.held && !s.gop.holdLate && s.gopPast s.gop.holdSince then
    (s.setGop { s.gop with holdLate := true }).logEdge 0x407 (s.gop.hold - 1) s.gop.holdId 0
  else s

/-- Operations that take longer than GOP_TMO time out (R328). -/
def gopLate (s : State) : State := s.barrierLate.holdLate

/-! ### The domain reset -/

/-- A cluster after a domain reset (R327): its pipelines, accumulators, registers and queues are cleared, and every scratchpad
valid bit; weights, tags, program memory and buffers stay. -/
def resetCluster (k : Cluster) : Cluster :=
  { Cluster.reset with prog := k.prog, wt := k.wt, tags := k.tags, proven := k.proven, abuf := k.abuf, cb := k.cb, cbLen := k.cbLen }

/-- A region controller after a domain reset: fault records, held entries, and the state of power, clock and temperature
stay. -/
def resetRegion (g : Region) : Region :=
  { g with seg := none, cycle := 0, segq := [], halted := false, haltReq := none, stall := 0, wstall := 0, stallReqs := [], smpq := []
           smpr := [], feedSeq := 0, feedPass := 0, feedRow := 0 }

/-- Every entry of a queue is cleared; a fence stays (R167). -/
def emptyQueue (s : State) (key : Nat) : State := s.setQueue key { Queue.empty with fenced := (s.queue key).fenced }

/-- A region is reset (R327). -/
def regionReset (s : State) (r : Nat) : State :=
  let s := (s.modRegion r resetRegion)
  let s := (List.range 28).foldl (fun s c => s.modCluster r c resetCluster) s
  let s := (List.range 28).foldl (fun s c => if s.enabled r c then s.setFld (Rg.CL_STAT_EN r c) 0 else s) s
  (queuesOf r).foldl (fun s k => if decide (k / 22 = r) || decide (2112 ≤ k) then s.emptyQueue k else s) s

/-- Every unfenced region is reset (R327). -/
def resetRegions (s : State) : State := (List.range 96).foldl (fun s r => if s.yFenced r then s else s.regionReset r) s

/-- A guarded write of GOP_RESET (R327): accepted only while HELD after a quiesce. The reset erases the session keys (R291, R468).
One made during a swap is FB's, and ends it with cause 14, when a region of the placement has been fenced (R298, R417); RP's lets
the swap go on to its last step (DEDUCED, log 60). -/
def domainReset (s : State) : State :=
  if s.gop.hold == 5 && s.gop.held && !s.gop.late && !s.gop.holdLate && s.gop.resetAt.isNone then
    let s := s.resetRegions
    let s := ((List.range 32).foldl (fun s p => s.emptyPort p) s).portsRun
    let s := if s.loader.job = .swap ∧ s.usedRegions.any s.yFenced then s.loadFail 14 0 else s
    let s := { s with gop := { s.gop with resetAt := some s.time.cb }, crypto := { s.crypto with slots := [] }
                      rxSession := Session.idle, txSession := Session.idle }
    s.holdFinish
  else s

/-- The 50 µs of a domain reset end (R327): no image is loaded, and the unit is IDLE. -/
def domainResetEnd (s : State) : State :=
  match s.gop.resetAt with
  | none => s
  | some t =>
    if s.time.cb < t + 50 * usCb then s
    else (s.setGop { s.gop with resetAt := none, hold := 0, held := false, late := false, holdLate := false }).setImgState 0

end State

/-- A side's code. -/
def Side.code : Side → Nat
  | .n => 0
  | .e => 1
  | .s => 2
  | .w => 3

/-- ARRIVE from a child edge (R324). -/
def execMarkArrive (edge : Side) (id : BitVec 15) (s : State) : Out := .next (s.arriveTake (Side.code edge) id.toNat)

/-- RELEASE from the parent edge (R324). -/
def execMarkRelease (edge : Side) (id : BitVec 15) (s : State) : Out := .next (s.releaseTake (Side.code edge) id.toNat)

/-- BCAST (R325). -/
def execMarkBcast (edge : Side) (id : BitVec 15) (origin : Byte) (data : Word) (s : State) : Out :=
  .next (s.bcastTake (Side.code edge) 3 id.toNat origin.toNat data.toNat)

/-- SNAP (R326). -/
def execMarkSnap (edge : Side) (id : BitVec 15) (origin : Byte) (data : Word) (s : State) : Out :=
  .next (s.bcastTake (Side.code edge) 4 id.toNat origin.toNat data.toNat)

/-- QUIESCE (R326). -/
def execMarkQuiesce (edge : Side) (id : BitVec 15) (origin : Byte) (data : Word) (s : State) : Out :=
  .next (s.bcastTake (Side.code edge) 5 id.toNat origin.toNat data.toNat)

/-- RESUME (R326). -/
def execMarkResume (edge : Side) (id : BitVec 15) (origin : Byte) (data : Word) (s : State) : Out :=
  .next (s.bcastTake (Side.code edge) 6 id.toNat origin.toNat data.toNat)

/-- The module becomes HELD (R326). -/
def execModuleHeld (s : State) : Out := .next s.becomeHeld

/-- A domain reset ends (R327). -/
def execDomainResetDone (s : State) : Out := .next s.domainResetEnd

/-- GOP_TMO passes (R328). -/
def execGopTimeout (s : State) : Out := .next s.gopLate

end Sys2Proof.Machine
end

