-- ==== Sys2Proof/Machine/Pfx.lean ====
section
/-!
DEFINITION. The prefix walker (R233 to R238).
-/
namespace Sys2Proof.Machine

/-- What a lookup looks for (R235): epoch, scope, layout. -/
structure PfxKey where
  epoch : Nat
  scope : Nat
  layout : Nat
  deriving DecidableEq, Repr

/-- HASH of a block (R235): `toks` is its 256 bytes. -/
def pfxHash (parent scope layout : Nat) (toks : List Byte) : Nat :=
  crc32c (leBytes 4 parent ++ leBytes 2 scope ++ leBytes 1 layout ++ [0] ++ toks)

/-- Does a node's 320 bytes match (R235)? -/
def pfxMatch (k : PfxKey) (parent : Nat) (toks : List Byte) (nd : List Byte) : Bool :=
  bit (byteAt nd 23) 0 && fieldAt nd 16 4 == k.epoch && fieldAt nd 0 4 == parent && fieldAt nd 20 2 == k.scope
  && byteAt nd 22 == k.layout && bytesAt nd 64 256 == toks

/-- What following a chain finds. -/
inductive ChainEnd where
  | hit (node : Nat)
  | miss
  | limit
  | poison
  deriving DecidableEq, Repr

namespace State

/-- A bookkeeping read of a page by an assist: none on poison or where the page does not exist. -/
def pageTake (s : State) (p o n : Nat) : Option (List Byte) × State :=
  match s.pageRead p o n ⟨0, 0, 0⟩ with
  | (.ok b, s) => (some b, s)
  | (.error _, s) => (none, s)

/-- A chain is followed for at most `n` nodes (R236). A node index that is not below the node count ends the chain. -/
def pfxChain (s : State) (k : PfxKey) (parent hash : Nat) (toks : List Byte) : Nat → Nat → ChainEnd × State
  | n, node =>
    if s.fld Rg.PFX_CFG_NNODE < node then (.miss, s)
    else
      match n with
      | 0 => (.limit, s)
      | n + 1 =>
        match s.pageTake (s.rd Rg.PFX_NODEBASE + node / 204) (320 * (node % 204)) 320 with
        | (none, s) => (.poison, s)
        | (some nd, s) =>
          if fieldAt nd 8 4 = hash ∧ pfxMatch k parent toks nd then (.hit node, s)
          else s.pfxChain k parent hash toks n (fieldAt nd 4 4)

/-- The blocks of a lookup from block `i` on, `n` of them at most (R236): blocks matched, newest last, and the end
code. -/
def pfxBlocks (s : State) (k : PfxKey) (tokaddr ntok maxblk : Nat) :
    Nat → Nat → Nat → List Nat → List Nat × Nat × State
  | 0, _, _, got => (got, 2, s)
  | n + 1, i, parent, got =>
    if ntok / 64 ≤ i then (got, 1, s)
    else if maxblk ≤ i then (got, 2, s)
    else
      match s.cmTake 8 (tokaddr + 256 * i) 256 with
      | (none, s) => (got, 4, s)
      | (some toks, s) =>
        let h := pfxHash parent k.scope k.layout toks
        let b := h % 2 ^ s.fld Rg.PFX_CFG_NBEXP
        match s.pageTake (s.rd Rg.PFX_BUCKBASE + b / 16384) (4 * (b % 16384)) 4 with
        | (none, s) => (got, 4, s)
        | (some e, s) =>
          match s.pfxChain k parent h toks 64 (leNat e) with
          | (.hit node, s) => s.pfxBlocks k tokaddr ntok maxblk n (i + 1) node (got ++ [node])
          | (.miss, s) => (got, 0, s)
          | (.limit, s) => (got, 3, s)
          | (.poison, s) => (got, 4, s)

/-- The write of PFX_LAUNCH (R236). -/
def pfxStart (s : State) (off : Nat) : State :=
  let a := off / 32 * 32
  if s.lookups.length < 4 then { s with lookups := s.lookups ++ [(a, s.rd Rg.PFX_EPOCH)] }
  else s.cmSetNum (a + 26) 2 0x8006

/-- A lookup runs and ends: the result array and MATCHED are written before STATUS (R236). -/
def pfxEnd (s : State) (a epoch : Nat) : State :=
  match s.cmTake 8 a 32 with
  | (none, s) => s.cmSetNum (a + 26) 2 0x8004
  | (some b, s) =>
    let x := s.pfxBlocks ⟨epoch, fieldAt b 12 2, byteAt b 14⟩ (fieldAt b 0 8) (fieldAt b 8 4) (fieldAt b 24 2) 4097 0
      0xFFFFFFFF []
    let s := x.2.2.cmSetBytes (fieldAt b 16 8) (x.1.flatMap (leBytes 4))
    (s.cmSetNum (a + 28) 4 x.1.length).cmSetNum (a + 26) 2 (0x8000 + x.2.1)

end State

/-- A prefix lookup ends (R236). -/
def execPfxLookupDone (a : Word) (s : State) : Out :=
  .next (match s.lookups.find? fun e => e.1 == a.toNat with
    | none => s
    | some e => s.unlessHeld (({ s with lookups := s.lookups.erase e }).pfxEnd e.1 e.2))

end Sys2Proof.Machine
end

