-- ==== Sys2Proof/Machine/Serving.lean ====
section
/-!
DEFINITION. Serving: host rings (R241 to R248), the request table and the commit assist (R249 to R252), ABORT (R256),
tenants and budgets (R257, R258) and the admission assist (R259).
-/
namespace Sys2Proof.Machine

/-- A command of the commit assist (R252). -/
structure CommitCmd where
  req : Nat
  frm : Nat
  dst : Nat
  hold : Nat
  ops : Nat
  nadv : Nat
  nent : Nat
  slot : Nat
  lasttok : Nat
  stop : Nat
  resv : Nat
  expn : Nat
  chg : Nat
  deriving DecidableEq, Repr

/-- The command in 32 bytes (R252). -/
def CommitCmd.ofNat (w : Nat) : CommitCmd :=
  ⟨bits w 31 0, bits w 39 32, bits w 47 40, bits w 55 48, bits w 63 56, bits w 79 64, bits w 95 80, bits w 127 96,
   bits w 159 128, bits w 167 160, bits w 191 168, bits w 223 192, bits w 255 224⟩

/-- Are the fields of a command inside their values (R252)? -/
def CommitCmd.fieldsOk (c : CommitCmd) : Bool :=
  (decide (c.frm ≤ 7) || c.frm == 0xFF) && decide (c.dst ≤ 7) && (c.dst != 4 || decide (c.hold < 8))
  && decide (c.ops < 32) && decide (c.nadv ≤ 9) && decide (c.nent ≤ 128)
  && (!bit c.ops 4 || decide (c.slot ≤ 65535) || c.slot == 0xFFFFFFFF) && c.resv == 0
  && (decide (c.dst < 5) || decide (1 ≤ c.stop ∧ c.stop ≤ 7))

/-- Is a request state live (R251)? -/
def liveState (st : Nat) : Bool := decide (1 ≤ st ∧ st ≤ 4)

/-- Is the change allowed (R251)? `adm`: it comes from the admission assist. `holdr` is the entry's HOLDR, `slot` the
slot after the commit's operations. -/
def changeOk (adm : Bool) (frm dst holdr hold slot : Nat) : Bool :=
  match frm, dst with
  | 0, 1 => true
  | 1, 2 => adm
  | 2, 4 => hold == 1
  | 2, 5 => true
  | 3, 5 => true
  | 4, 3 => adm && holdr == 1 && slot != 0xFFFFFFFF
  | 3, 4 => bit hold 0
  | 4, 4 => bit hold 0
  | 1, 1 => true
  | 2, 2 => true
  | 3, 3 => slot != 0xFFFFFFFF
  | 5, 0 => true
  | 6, 0 => true
  | 7, 0 => true
  | f, 6 => liveState f
  | f, 7 => liveState f
  | _, _ => false

/-- The outcome of a commit (R252): STATUS, BNEG and the first reserved index. -/
structure CommitRes where
  status : Nat
  bneg : Bool
  idx : Nat
  deriving DecidableEq, Repr

/-- The RES register of a result (R252). -/
def CommitRes.word (r : CommitRes) : Nat := r.status * 2 ^ 28 + (if r.bneg then 2 ^ 27 else 0) + r.idx % 2 ^ 24

/-- A budget saturates at ±2^62 (R257). -/
def satBudget (x : Int) : Int := max (-(2 ^ 62)) (min (2 ^ 62) x)

/-- The waiting list a request in state `st` with hold reasons `holdr` is on (R257): 1 decode, 2 prefill, 0 none. -/
def waitKind (st holdr : Nat) : Nat := if st = 1 then 2 else if st = 4 ∧ holdr = 1 then 1 else 0

namespace State

/-! ### Rings -/

/-- Completion ring `r`. -/
def ring (s : State) (r : Nat) : Ring := Store.get ⟨0, []⟩ s.serve.rings r
/-- Completion ring `r` becomes `x`. -/
def setRing (s : State) (r : Nat) (x : Ring) : State :=
  { s with serve := { s.serve with rings := Store.set ⟨0, []⟩ s.serve.rings r x } }

/-- Entries of completion ring `r` that are neither in use nor reserved (R243, R244). -/
def ringFree (s : State) (r : Nat) : Nat :=
  2 ^ s.fld (Rg.RCFG_CQLOG r) - ((s.ring r).next + 2 ^ 24 - s.fld (Rg.CQHEAD_IDX r)) % 2 ^ 24

/-- `n` entries of completion ring `r` are reserved; the first index (R252). -/
def ringReserve (s : State) (r n : Nat) : Nat × State :=
  let x := s.ring r
  (x.next, s.setRing r { x with next := (x.next + n) % 2 ^ 24 })

/-- CQTAIL moves past the entries that have been written in order (R241); `n` bounds its movement. -/
def tailOver (written : List Nat) : Nat → Nat → Nat × List Nat
  | 0, t => (t, written)
  | n + 1, t => if written.contains t then tailOver (written.erase t) n ((t + 1) % 2 ^ 24) else (t, written)

/-- Index `i` of completion ring `r` has been written (R241). -/
def ringWritten (s : State) (r i : Nat) : State :=
  let x := s.ring r
  let w := x.written ++ [i]
  let t := tailOver w w.length (s.fld (Rg.CQTAIL_IDX r))
  (s.setRing r { x with written := t.2 }).setFld (Rg.CQTAIL_IDX r) t.1

/-- Host address of entry `i` of completion ring `r` (R241). -/
def cqAddr (s : State) (r i : Nat) : Nat :=
  (s.rd (Rg.CQBASE_HI r) * 2 ^ 32 + s.rd (Rg.CQBASE_LO r)) / 32 * 32 + i % 2 ^ s.fld (Rg.RCFG_CQLOG r) * 32

/-- The device writes a completion entry at index `i` of ring `r` (R243): `b` is its 32 bytes but for the phase. A write that
does not reach the host is lost, and the index stays unwritten (R487). -/
def cqWrite (s : State) (r i : Nat) (b : List Byte) : State :=
  if !s.hostReach then s else
  let phase := BitVec.ofNat 8 (i / 2 ^ s.fld (Rg.RCFG_CQLOG r) % 2)
  (s.emit (.hostWrite (s.cqAddr r i) (b.take 1 ++ phase :: b.drop 2))).ringWritten r i

/-- The bytes of a completion entry (R247); FLAGS is filled in by the write. -/
def cqBytes (type b2 b3 ctag handle idx w16 w20 w24 : Nat) : List Byte :=
  leBytes 1 type ++ leBytes 1 0 ++ leBytes 1 b2 ++ leBytes 1 b3 ++ leBytes 4 ctag ++ leBytes 4 handle ++ leBytes 4 idx
  ++ leBytes 4 w16 ++ leBytes 4 w20 ++ leBytes 8 w24

/-- The ACK of an entry, at the index reserved for it (R244, R247). -/
def ackWrite (s : State) (r i opc status ctag handle : Nat) : State :=
  s.cqWrite r i (cqBytes 1 opc status ctag handle 0 0 0 s.ns)

/-- The unwritten reserved index of ring `r` whose entry lies at place `e`, if any; `n` bounds the search. -/
def reservedAt (s : State) (r e : Nat) : Nat → Nat → Option Nat
  | 0, _ => none
  | n + 1, i =>
    if i = (s.ring r).next then none
    else if i % 2 ^ s.fld (Rg.RCFG_CQLOG r) = e ∧ !(s.ring r).written.contains i then some i
    else s.reservedAt r e n ((i + 1) % 2 ^ 24)

/-- The firmware has written host memory at `addr`: a whole entry reserved in an enabled completion ring counts as
written (R241, R253). -/
def hostWritten (s : State) (addr len : Nat) : State :=
  (List.range 64).foldl (fun s r =>
    let base := s.cqAddr r 0
    let size := 2 ^ s.fld (Rg.RCFG_CQLOG r) * 32
    if s.flag (Rg.RCFG_EN r) ∧ base ≤ addr ∧ addr < base + size ∧ addr % 32 = 0 then
      (List.range (len / 32)).foldl (fun s k =>
        match s.reservedAt r ((addr - base) / 32 + k) (2 ^ s.fld (Rg.RCFG_CQLOG r)) (s.fld (Rg.CQTAIL_IDX r)) with
        | some i => s.ringWritten r i
        | none => s) s
    else s) s

/-- Does ring pair `r` hold an entry that the device may consume (R242, R244)? It reads the entry in host memory (R487). -/
def ringReady (s : State) (r : Nat) : Bool :=
  s.hostReach && s.flag (Rg.RCFG_EN r) && s.fld (Rg.SQHEAD_IDX r) != s.fld (Rg.SQTAIL_IDX r) && decide (1 ≤ s.ringFree r)

/-- The ring pair that the round robin serves next (R242). -/
def nextRing (s : State) : Option Nat :=
  ((List.range 64).map fun k => (s.serve.last + 1 + k) % 64).find? s.ringReady

/-- The entry at the head of ring pair `r` is consumed: an ACK index is reserved and SQHEAD advances (R242, R244). -/
def consume (s : State) (r : Nat) : Nat × State :=
  let x := s.ringReserve r 1
  let s := x.2
  (x.1, ({ s with serve := { s.serve with last := r } } : State).setFld (Rg.SQHEAD_IDX r) ((s.fld (Rg.SQHEAD_IDX r) + 1) % 2 ^ 24))

/-! ### Tables -/

/-- Control-memory offset of request-table entry `j` (R249). -/
def rqAt (s : State) (j : Nat) : Nat := s.fld Rg.RQTAB_OFF + 128 * j
/-- An `n`-byte field at offset `o` of request-table entry `j`. -/
def rq (s : State) (j o n : Nat) : Nat := s.cmNum (s.rqAt j + o) n
/-- HOLDR of request-table entry `j`: bits [2:0] of its byte, the others reserved (R8, R249). -/
def holdr (s : State) (j : Nat) : Nat := s.rq j 54 1 % 8
/-- A write of a field of request-table entry `j`. -/
def setRq (s : State) (j o n v : Nat) : State := s.cmSetNum (s.rqAt j + o) n v
/-- An `n`-byte field at offset `o` of tenant record `t` (R257). -/
def tn (s : State) (t o n : Nat) : Nat := s.cmNum (s.fld Rg.TENTAB_OFF + 64 * t + o) n
/-- A write of a field of tenant record `t`. -/
def setTn (s : State) (t o n v : Nat) : State := s.cmSetNum (s.fld Rg.TENTAB_OFF + 64 * t + o) n v
/-- B of tenant `t` (R257). -/
def budget (s : State) (t : Nat) : Int := signed 64 (s.tn t 0 8)
/-- B of tenant `t` takes a value, saturated. -/
def setBudget (s : State) (t : Nat) (v : Int) : State := s.setTn t 0 8 (wrapInt 64 (satBudget v))
/-- Is tenant `t` enabled (R257)? -/
def tenantOn (s : State) (t : Nat) : Bool := bit (s.tn t 26 2) 0

/-- Offset in a tenant record of the head of the waiting list of a kind (R257): 1 decode, 2 prefill. -/
def headOff (kind : Nat) : Nat := if kind = 1 then 44 else 52

/-- The words of control memory that hold what a commit reads and changes of request-table entry `j` (R249, R252). -/
def rqWords (s : State) (j : Nat) : List Nat := [0, 1, 3, 5, 6, 15].map fun k => s.rqAt j / 8 + k
/-- The words of control memory that hold tenant record `t` (R257). -/
def tnWords (s : State) (t : Nat) : List Nat := (List.range 8).map fun k => (s.fld Rg.TENTAB_OFF + 64 * t) / 8 + k

/-- The waiting list of tenant `t` (R257); `n` bounds its length. -/
def waitList (s : State) : Nat → Nat → List Nat
  | 0, _ => []
  | n + 1, j => if j = 0xFFFFFFFF then [] else j :: s.waitList n (s.rq j 120 4)

/-- The first request waiting at tenant `t`, or 0xFFFF_FFFF. -/
def waitHead (s : State) (t kind : Nat) : Nat := s.tn t (headOff kind) 4

/-- Request `j` enters a waiting list at its end (R257). -/
def waitPush (s : State) (t kind j : Nat) : State :=
  let tail := s.tn t (headOff kind + 4) 4
  let s := s.setRq j 120 4 0xFFFFFFFF
  let s := if s.waitHead t kind = 0xFFFFFFFF then s.setTn t (headOff kind) 4 j else s.setRq tail 120 4 j
  s.setTn t (headOff kind + 4) 4 j

/-- Request `j` leaves a waiting list (R257). -/
def waitDrop (s : State) (t kind j : Nat) : State :=
  let l := s.waitList 1048576 (s.waitHead t kind)
  let next := s.rq j 120 4
  let before := (l.takeWhile fun k => k != j).getLast?
  let s := match before with | none => s.setTn t (headOff kind) 4 next | some p => s.setRq p 120 4 next
  let s := if next = 0xFFFFFFFF then s.setTn t (headOff kind + 4) 4 (before.getD 0xFFFFFFFF) else s
  s.setRq j 120 4 0xFFFFFFFF

/-- A request moves between waiting lists as its commit requires (R252, R257). -/
def relist (s : State) (t j old new : Nat) : State :=
  if old = new then s
  else
    let s := if old = 0 then s else s.waitDrop t old j
    if new = 0 then s else s.waitPush t new j

/-! ### Commit -/

/-- The slot of a request after a commit (R251, R252): only DECODE holds one. -/
def slotAfter (s : State) (c : CommitCmd) (j : Nat) : Nat := if bit c.ops 4 then c.slot else s.rq j 28 4

/-- Tokens committed since power-up, by tenant, increase (R443). -/
def countTokens (s : State) (t n : Nat) : State :=
  { s with mg := { s.mg with tokens := Store.set 0 s.mg.tokens t (Store.get 0 s.mg.tokens t + n) } }

/-- The effects of a commit that passed every check (R252). -/
def commitApply (s : State) (c : CommitCmd) : CommitRes × State :=
  let j := c.req % 2 ^ 20
  let st := s.rq j 0 1
  let t := s.rq j 2 2
  let old := waitKind st (s.holdr j)
  let holdr := if c.dst = 4 then c.hold else 0
  let slot := if c.dst = 3 then s.slotAfter c j else 0xFFFFFFFF
  let x := if bit c.ops 2 then s.ringReserve (s.rq j 6 1) c.nent else (0, s)
  let s := x.2
  let s := if bit c.ops 0 then
      (((s.setRq j 12 4 (s.rq j 12 4 + c.nadv)).setRq j 24 4 (s.rq j 24 4 + c.nadv)).setRq j 40 4 c.lasttok).countTokens t c.nadv
    else s
  let s := if bit c.ops 1 then s.setBudget t (s.budget t - s.tn t 20 4 * c.nadv) else s
  let s := if bit c.ops 3 then s.setBudget t (s.budget t + signed 32 c.chg) else s
  let s := if st = 3 ∧ c.dst ≠ 3 then s.setTn t 32 4 (s.tn t 32 4 - 1)
    else if st ≠ 3 ∧ c.dst = 3 then s.setTn t 32 4 (s.tn t 32 4 + 1) else s
  let s := (((s.setRq j 0 1 c.dst).setRq j 54 1 holdr).setRq j 28 4 slot).setRq j 7 1 (if 5 ≤ c.dst then c.stop else 0)
  let s := if c.dst = 0 then s.setRq j 4 2 ((s.rq j 4 2 % 4096 + 1) % 4096) else s
  let s := s.relist t j old (waitKind c.dst holdr)
  (⟨0, decide (s.budget t < 0), x.1⟩, s)

/-- The words that hold the links that a commit changes (R257): those before request `j` in the list it leaves, and the end of
the list that it enters. -/
def linkWords (s : State) (j t old new : Nat) : List Nat :=
  let word (k : Nat) : Nat := s.rqAt k / 8 + 15
  if old = new then []
  else
    (if old = 0 then [] else ((s.waitList 1048576 (s.waitHead t old)).takeWhile fun k => k != j).map word)
      ++ (if new = 0 ∨ s.waitHead t new = 0xFFFFFFFF then [] else [word (s.tn t (headOff new + 4) 4)])

/-- The commit assist reads the words that a command needs (R413): can all be read? -/
def commitReads (s : State) (c : CommitCmd) : Bool × State :=
  let j := c.req % 2 ^ 20
  match s.cmProbe 8 (s.rqWords j) with
  | (false, s) => (false, s)
  | (true, s) =>
    match s.cmProbe 8 (s.tnWords (s.rq j 2 2 % 4096)) with
    | (false, s) => (false, s)
    | (true, s) =>
      s.cmProbe 8 (s.linkWords j (s.rq j 2 2 % 4096) (waitKind (s.rq j 0 1) (s.holdr j)) (waitKind c.dst c.hold))

/-- The result of a command that met a word it cannot read (R413): it takes no effect, and RES shows a status other than
those of R252, a free value. -/
def commitUnread (s : State) : CommitRes × State :=
  let x := s.fresh 8
  (⟨4 + x.1 % 12, false, 0⟩, x.2)

/-- The commit assist decides a command whose words it has read (R252). -/
def commitRun (s : State) (adm : Bool) (c : CommitCmd) : CommitRes × State :=
  let j := c.req % 2 ^ 20
  let st := s.rq j 0 1
  let fail (k : Nat) : CommitRes × State := (⟨k, false, 0⟩, s)
  if c.req / 2 ^ 20 ≠ s.rq j 4 2 % 4096 ∨ !(if c.frm = 0xFF then liveState st else decide (c.frm = st))
      ∨ (c.expn ≠ 0xFFFFFFFF ∧ c.expn ≠ s.rq j 24 4) then fail 1
  else if !changeOk adm st c.dst (s.holdr j) c.hold (s.slotAfter c j) ∨ 64 ≤ s.rq j 6 1 ∨ 4096 ≤ s.rq j 2 2 then fail 3
  else if bit c.ops 2 ∧ s.ringFree (s.rq j 6 1) < c.nent then fail 2
  else s.commitApply c

/-- The commit assist executes a command (R252). `adm`: it comes from the admission assist. -/
def commit (s : State) (adm : Bool) (c : CommitCmd) : CommitRes × State :=
  if !c.fieldsOk then (⟨3, false, 0⟩, s)
  else
    match s.commitReads c with
    | (false, s) => s.commitUnread
    | (true, s) => s.commitRun adm c

/-- The command in core `k`'s window (R252). -/
def windowCmd (s : State) (k : Nat) : CommitCmd :=
  CommitCmd.ofNat (((List.range 8).map fun w => s.rd (Rg.CMT_CMD k w) * 2 ^ (32 * w)).foldl (· + ·) 0)

/-- A commit of the firmware to FAULTED during a swap is a recovery by FO (R418), and ends the swap (R298). -/
def failover (s : State) (c : CommitCmd) (x : CommitRes) : State :=
  if c.dst = 7 ∧ x.status = 0 ∧ s.loader.job = .swap then s.loadFail 14 0 else s

/-- The write of CMD[7] of core `k`'s window submits it; the result appears in RES (R252). -/
def commitWindow (s : State) (k : Nat) : State :=
  let c := s.windowCmd k
  let x := s.commit false c
  (x.2.wr (Rg.CMT_RES k) x.1.word).failover c x.1

/-- A whole command is written to core `k`'s window (R252). -/
def commitFrom (s : State) (k cmd : Nat) : State :=
  ((List.range 8).foldl (fun s w => s.wr (Rg.CMT_CMD k w) (bits cmd (32 * w + 31) (32 * w))) s).commitWindow k

/-- The 32 bytes of a command that keeps a request in its state and carries one operation (R251, R252). -/
def keepCmd (s : State) (req op nadv nent slot lasttok expn chg : Nat) : Nat :=
  let j := req % 2 ^ 20
  let st := s.rq j 0 1
  req + 2 ^ 32 * st + 2 ^ 40 * st + 2 ^ 48 * (if st = 4 then s.holdr j else 0) + 2 ^ 56 * 2 ^ op + 2 ^ 64 * nadv
    + 2 ^ 80 * nent + 2 ^ 96 * slot + 2 ^ 128 * lasttok + 2 ^ 192 * expn + 2 ^ 224 * chg

/-! ### ABORT -/

/-- The END entry of a request at index `i` of its ring (R247, R253). -/
def endWrite (s : State) (j i reason : Nat) : State :=
  s.cqWrite (s.rq j 6 1) i (cqBytes 4 0 reason (s.rq j 8 4) (s.rq j 4 2 % 4096 * 2 ^ 20 + j) (s.rq j 24 4) (s.rq j 12 4) 0 s.ns)

/-- An ABORT by its commit (R256): the ACK follows from the result, or waits while the request's ring is full. -/
def abortRun (s : State) (a : WaitAbort) : State :=
  let j := a.handle % 2 ^ 20
  let c : CommitCmd := ⟨a.handle, 0xFF, 6, 0, 4, 0, 1, 0, 0, 6, 0, 0xFFFFFFFF, 0⟩
  let x := s.commit false c
  let ack (s : State) (st : Nat) : State := s.ackWrite a.ring a.ack 2 st a.ctag a.handle
  match x.1.status with
  | 0 => ack (x.2.endWrite j x.1.idx 6) 0
  | 2 => { x.2 with serve := { x.2.serve with aborts := x.2.serve.aborts ++ [a] } }
  | 1 =>
    let s := x.2
    if a.handle / 2 ^ 20 = s.rq j 4 2 % 4096 ∧ s.rq j 0 1 ≠ 0 then ack s 1 else ack s 2
  | _ =>
    let y := x.2.fresh 8
    ack y.2 y.1

/-- CQHEAD of a ring has advanced: ABORTs that wait are tried again, in their order (R256). -/
def retryAborts (s : State) : State :=
  s.serve.aborts.foldl (fun s a => s.abortRun a) { s with serve := { s.serve with aborts := [] } }

/-! ### Submission -/

/-- binary32 fields of a parameter block, as ordered integers: the sign bit, exponent and mantissa. -/
def b32Finite (x : Nat) : Bool := bits x 30 23 != 255
/-- Is a finite binary32 at least +0? -/
def b32NonNeg (x : Nat) : Bool := b32Finite x && (bits x 31 31 == 0 || x == 0x80000000)
/-- Is a finite binary32 above 0? -/
def b32Pos (x : Nat) : Bool := b32Finite x && bits x 31 31 == 0 && x != 0

/-- Is a parameter block valid (R246)? `kmax` is K_max. -/
def paramsOk (b : List Byte) (kmax : Nat) : Bool :=
  let topp := fieldAt b 4 4
  let minp := fieldAt b 8 4
  b32NonNeg (fieldAt b 0 4) && b32Pos topp && decide (topp ≤ 0x3F800000)
  && b32NonNeg minp && (minp == 0x80000000 || decide (minp < 0x3F800000))
  && b32Pos (fieldAt b 12 4) && b32Finite (fieldAt b 16 4) && decide (fieldAt b 20 2 ≤ kmax)
  && decide (byteAt b 22 ≤ 20 ∧ byteAt b 22 ≤ kmax) && decide (fieldAt b 24 2 ≤ 4096)

/-- Is the entry one that R245 does not allow: a reserved OPC, or a non-zero reserved byte? -/
def badEntry (b : List Byte) : Bool :=
  match byteAt b 0 with
  | 1 => !zeroAt b 43 21
  | 2 => !(zeroAt b 1 3 && zeroAt b 12 52)
  | 3 => !(zeroAt b 1 1 && zeroAt b 32 32)
  | 4 => !(zeroAt b 1 1 && zeroAt b 20 44)
  | _ => true

/-- CTAG of an entry, where its OPC has one (R245). -/
def entryCtag (b : List Byte) : Nat := fieldAt b 4 4

/-- The ACK of an entry that R245 does not allow: status 10, and the handle of an ABORT (R247). -/
def badAck (s : State) (r i : Nat) (b : List Byte) : State :=
  s.ackWrite r i (byteAt b 0) 10 (entryCtag b) (if byteAt b 0 = 2 then fieldAt b 8 4 else 0)

/-- The lowest FREE entry of the request table (R250); `n` entries from `j` on are looked at, and one that cannot be read is not
FREE (R413). -/
def firstFree (s : State) : Nat → Nat → Option Nat × State
  | 0, _ => (none, s)
  | n + 1, j =>
    match s.cmRead (s.rqAt j / 8) 8 with
    | (some d, s) => if d.toNat % 256 = 0 then (some j, s) else s.firstFree n (j + 1)
    | (none, s) => s.firstFree n (j + 1)

/-- The words of control memory that hold STATE and GRAMMAR of the request-table entries (R249): an entry whose first word was
never written is FREE. -/
def grammarWords (s : State) : List Nat :=
  let base := s.fld Rg.RQTAB_OFF / 8
  (s.cmem.filter fun e => decide (base ≤ e.1 ∧ e.1 < base + 0x1000000 ∧ (e.1 - base) % 16 = 0)).flatMap fun e => [e.1, e.1 + 5]

/-- Is grammar `g` held by a request that is not FREE (R248)? An entry with no listed word is FREE. -/
def grammarHeld (s : State) (g : Nat) : Bool :=
  let base := s.fld Rg.RQTAB_OFF / 8
  s.cmem.any fun e =>
    decide (base ≤ e.1 ∧ e.1 < base + 0x1000000 ∧ (e.1 - base) % 16 = 0)
    && s.rq ((e.1 - base) / 16) 0 1 != 0 && s.rq ((e.1 - base) / 16) 44 2 == g

/-- The word of tenant `t`'s record that says whether it is enabled is read, where the answer to a SUBMIT needs it (R248, R413): can
it be? -/
def submitReads (s : State) (t : Nat) : Bool × State :=
  if (s.fld Rg.IMG_STAT_STATE = 3 ∨ s.fld Rg.IMG_STAT_STATE = 4) ∧ t < 4096 then s.cmProbe 8 (((s.tnWords t).drop 3).take 1)
  else (true, s)

/-- The status that answers a SUBMIT (R248), its entry being well formed and but for a FREE entry, which is looked for last. -/
def submitStatus (s : State) (b : List Byte) (params : Option (List Byte)) (prompt : Option (List Word)) : Nat :=
  let st := s.fld Rg.IMG_STAT_STATE
  let t := fieldAt b 2 2
  let spec := bit (byteAt b 1) 1
  let draft := byteAt b 42
  let gram := fieldAt b 40 2
  let np := fieldAt b 24 4
  let mn := fieldAt b 28 4
  if st ≠ 3 ∧ st ≠ 4 then 9
  else if 4095 < t ∨ !s.tenantOn t then 4
  else if params.isNone ∨ prompt.isNone then 12
  else if mn = 0 ∨ 4 < draft ∨ (draft ≠ 0 ∧ !spec) ∨ !paramsOk (params.getD []) (64 * imgCandpass s.image s.place)
    then 5
  else if gram ≠ 0 ∧ !Store.has s.serve.grammars gram then 6
  else if spec ∧ (draft = 0 ∨ imgNdraft s.image s.place < draft ∨ !imgMaps s.image s.place draft) then 7
  else if np = 0 ∨ imgMaxctx s.image s.place < np + mn then 8
  else 0

/-- The fields that are written into a FREE entry before its commit (R249): those from CTAG to HOLDR in one run. -/
def fillRequest (s : State) (r j : Nat) (b params : List Byte) (prompt : List Word) : State :=
  let np := fieldAt b 24 4
  let spec := bit (byteAt b 1) 1
  let d := imgDraft s.image s.place (byteAt b 42)
  let s := s.setRq j 1 1 (byteAt b 1)
  let s := s.setRq j 2 2 (fieldAt b 2 2)
  let s := s.setRq j 6 1 r
  let s := s.setRq j 7 1 0
  let s := s.cmSetBytes (s.rqAt j + 8)
    (leBytes 4 (entryCtag b) ++ leBytes 4 np ++ leBytes 4 np ++ leBytes 4 (fieldAt b 28 4) ++ leBytes 4 0 ++ leBytes 4 0xFFFFFFFF
      ++ leBytes 8 (fieldAt b 8 8) ++ leBytes 4 ((prompt.take np).getLastD 0).toNat ++ leBytes 2 (fieldAt b 40 2)
      ++ leBytes 1 (byteAt b 42) ++ leBytes 1 (if spec then byteAt d 1 else 0) ++ leBytes 4 (if spec then 0x8000 else 0)
      ++ leBytes 2 (if spec then 64 else 0) ++ leBytes 2 0)
  s.cmSetBytes (s.rqAt j + 56) (padTo 64 (params.take 64))

/-- Valid page numbers (R208). -/
def pageCount : Nat := 24 * 1572864

/-- A page of a prompt is written to the first page, from page number `p` on, that takes it (R245); `n` pages are tried. A page of a
tripped stack waits (R369); none where no page takes it. -/
def promptPage (s : State) (bs : List Byte) : Nat → Nat → Option State
  | 0, _ => none
  | n + 1, p =>
    match s.pageWrite (p % pageCount) 0 bs ⟨0, 0, 0⟩ with
    | (.ok _, s') => some s'
    | (.error _, s') => if s'.blocked then some s' else s.promptPage bs n (p + 1)

/-- The prompt is copied into DRAM, page by page (R245), into pages that the firmware picks, each from a free value on; `n` pages. -/
def promptCopy (s : State) (bs : List Byte) : Nat → Option State
  | 0 => some s
  | n + 1 =>
    let p := s.fresh 32
    match p.2.promptPage (bs.take 65536) pageCount p.1 with
    | some s => s.promptCopy (bs.drop 65536) n
    | none => none

/-- The answer to a SUBMIT for which R248 gives no status: a free value that is none of success (log 105). -/
def submitFree (s : State) (r ack : Nat) (b : List Byte) : State :=
  let y := s.fresh 8
  y.2.ackWrite r ack 1 (1 + y.1 % 255) (entryCtag b) 0

/-- A SUBMIT that is accepted, its prompt copied (R245, R249, R251, R258): the entry is filled and committed to QUEUED with its
prefill charge; the outcome of the commit and the handle. -/
def submitAccept (s : State) (r j : Nat) (b params : List Byte) (prompt : List Word) : Nat × Nat × State :=
  let s := s.fillRequest r j b params prompt
  let h := s.rq j 4 2 % 4096 * 2 ^ 20 + j
  let charge := (s.tn (fieldAt b 2 2) 16 2 : Int) * (fieldAt b 24 4 : Int)
  let c : CommitCmd := ⟨h, 0, 1, 0, 0, 0, 0, 0, 0, 0, 0, 0xFFFFFFFF, 0⟩
  let x := s.commit false c
  if x.1.status ≠ 0 then (x.1.status, h, x.2)
  else
  let s := x.2.setBudget (fieldAt b 2 2) (x.2.budget (fieldAt b 2 2) - charge)
  (0, h, { s with serve := { s.serve with prompts := Store.put s.serve.prompts j (prompt.take (fieldAt b 24 4)) } })

/-- The request of a SUBMIT that nothing of R248 refuses is made in FREE entry `j` (R245): where no page takes its prompt, or a word of
the table cannot be read, none is. -/
def submitMake (s : State) (r ack j : Nat) (b params : List Byte) (prompt : List Word) : State :=
  match s.promptCopy ((prompt.take (fieldAt b 24 4)).flatMap fun t => leBytes 4 t.toNat) (ceilDiv (fieldAt b 24 4) 16384) with
  | none => s.submitFree r ack b
  | some s =>
    let x := s.submitAccept r j b params prompt
    if x.1 = 0 then x.2.2.ackWrite r ack 1 0 (entryCtag b) x.2.1 else x.2.2.submitFree r ack b

/-- A SUBMIT entry is answered (R245, R248). -/
def submit (s : State) (r ack : Nat) (b : List Byte) (params : Option (List Byte)) (prompt : Option (List Word)) : State :=
  match s.submitReads (fieldAt b 2 2) with
  | (false, s) => s.submitFree r ack b
  | (true, s) =>
    match s.submitStatus b params prompt with
    | 0 =>
      match s.firstFree 1048576 0 with
      | (some j, s) => s.submitMake r ack j b (params.getD []) (prompt.getD [])
      | (none, s) => s.ackWrite r ack 1 3 (entryCtag b) 0
    | k => s.ackWrite r ack 1 k (entryCtag b) 0

/-- The status that answers a TENANT (R245, R248). -/
def tenantStatus (b : List Byte) : Nat :=
  if 4095 < fieldAt b 2 2 then 4
  else if 8191 < fieldAt b 16 2 ∨ 8191 < fieldAt b 18 2 ∨ fieldAt b 24 2 = 0 then 5
  else 0

/-- A waiting list whose head is no request of tenant `t` that waits in it is empty (R257): a record that no assist has yet
touched has its lists emptied by the TENANT entry. -/
def listInit (s : State) (t kind : Nat) : State :=
  let h := s.waitHead t kind
  if h < 1048576 ∧ s.rq h 2 2 = t ∧ waitKind (s.rq h 0 1) (s.holdr h) = kind then s
  else (s.setTn t (headOff kind) 4 0xFFFFFFFF).setTn t (headOff kind + 4) 4 0xFFFFFFFF

/-- The words that a TENANT entry reads are read (R257, R413): its record and the heads of its waiting lists. Can they be? -/
def tenantReads (s : State) (t : Nat) : Bool × State :=
  match s.cmProbe 8 (s.tnWords t) with
  | (false, s) => (false, s)
  | (true, s) =>
    s.cmProbe 8 ([1, 2].flatMap fun k =>
      if s.waitHead t k < 1048576 then [s.rqAt (s.waitHead t k) / 8, s.rqAt (s.waitHead t k) / 8 + 6] else [])

/-- A TENANT entry's writes (R257). -/
def tenantWrite (s : State) (b : List Byte) : State :=
  let t := fieldAt b 2 2
  let s := (s.listInit t 1).listInit t 2
  let s := s.setTn t 8 4 (fieldAt b 8 4)
  let s := s.setTn t 12 4 (fieldAt b 12 4)
  let s := s.setTn t 16 2 (fieldAt b 16 2)
  let s := s.setTn t 18 2 (fieldAt b 18 2)
  let s := s.setTn t 20 4 (fieldAt b 20 4)
  let s := s.setTn t 24 2 (fieldAt b 24 2)
  let s := s.setTn t 26 2 (fieldAt b 26 2 % 2)
  let s := s.setTn t 28 4 (fieldAt b 28 4)
  if bit (fieldAt b 26 2) 1 then s.setBudget t (fieldAt b 12 4) else s

/-- A TENANT entry is answered; where a word cannot be read it has no effect, and its status is a free value (log 105). -/
def tenant (s : State) (r ack : Nat) (b : List Byte) : State :=
  match tenantStatus b with
  | 0 =>
    match s.tenantReads (fieldAt b 2 2) with
    | (true, s) => (s.tenantWrite b).ackWrite r ack 3 0 (entryCtag b) 0
    | (false, s) =>
      let y := s.fresh 8
      y.2.ackWrite r ack 3 (1 + y.1 % 255) (entryCtag b) 0
  | k => s.ackWrite r ack 3 k (entryCtag b) 0

/-- The status that answers a GRAMMAR (R245, R248). -/
def grammarStatus (s : State) (b : List Byte) (body : Option (List Byte)) : Nat :=
  let g := fieldAt b 2 2
  if g = 0 then 5 else if s.grammarHeld g then 11 else if body.isNone then 12 else 0

/-- A GRAMMAR entry is answered; where a word of the request table that says which grammars are held cannot be read it has no effect,
and its status is a free value (log 105). -/
def grammar (s : State) (r ack : Nat) (b : List Byte) (body : Option (List Byte)) : State :=
  match s.cmProbe 8 (if fieldAt b 2 2 = 0 then [] else s.grammarWords) with
  | (false, s) =>
    let y := s.fresh 8
    y.2.ackWrite r ack 4 (1 + y.1 % 255) (entryCtag b) 0
  | (true, s) =>
    let st := s.grammarStatus b body
    let s : State := if st = 0 then
        { s with serve := { s.serve with
                            grammars := Store.put s.serve.grammars (fieldAt b 2 2)
                              (padTo (fieldAt b 16 4) ((body.getD []).take (fieldAt b 16 4))) } }
      else s
    s.ackWrite r ack 4 st (entryCtag b) 0

/-! ### Admission -/

/-- Offset of DEF of a kind in a tenant record (R257). -/
def defOff (kind : Nat) : Nat := if kind = 1 then 36 else 40

/-- FLOOR of request `j` in its sequence-table entry, read by the admission assist (R215, R259); 0 where the entry
cannot be read. -/
def admFloor (s : State) (j : Nat) : Nat × State :=
  match s.pageTake (s.rd Rg.SEQBASE + j / 4096) (16 * (j % 4096)) 16 with
  | (some b, s) => (fieldAt b 8 4, s)
  | (none, s) => (0, s)

/-- The progress of an admission command: free slots not yet given, records written, units left, requests whose commit did not
succeed, which are skipped, tenants of which a word cannot be read, and units of the first request waiting at a tenant. -/
structure Adm where
  slots : List Nat
  recs : List (Nat × Nat)
  n : Nat
  skip : List Nat
  lost : List Nat
  units : List (Nat × Nat)
  deriving DecidableEq, Repr

/-- The first request waiting at tenant `t` that is not skipped, or 0xFFFF_FFFF (R259). -/
def admHead (s : State) (kind t : Nat) (a : Adm) : Nat :=
  ((s.waitList 1048576 (s.waitHead t kind)).find? fun j => !a.skip.contains j).getD 0xFFFFFFFF

/-- units of the first request waiting at tenant `t`, as `admLook` found them (R259). -/
def admUnits (t : Nat) (a : Adm) : Nat := Store.get 0 a.units t

/-- The words of control memory that the assist reads of tenant `t`'s waiting list: the links of the requests that it skips, and
words 0 and 2 of the first that it does not (R249, R257). -/
def headWords (s : State) (kind t : Nat) (a : Adm) : List Nat :=
  let skipped := (s.waitList 1048576 (s.waitHead t kind)).takeWhile a.skip.contains
  let j := s.admHead kind t a
  (skipped.map fun j => s.rqAt j / 8 + 15) ++ (if j = 0xFFFFFFFF then [] else [s.rqAt j / 8, s.rqAt j / 8 + 2])

/-- The assist looks at the first request waiting at tenant `t`, where the tenant is enabled and not in debt, and finds its units
(R259); a tenant of whose list a word cannot be read is passed over (R413). -/
def admLook (s : State) (kind t : Nat) (a : Adm) : Adm × State :=
  if !s.tenantOn t || decide (s.budget t < 0) || a.lost.contains t then (a, s)
  else
    match s.cmProbe 8 (s.headWords kind t a) with
    | (false, s) => ({ a with lost := t :: a.lost }, s)
    | (true, s) =>
      let j := s.admHead kind t a
      if j = 0xFFFFFFFF then (a, s)
      else if kind = 1 then ({ a with units := Store.put a.units t 1 }, s)
      else
        let f := s.admFloor j
        ({ a with units := Store.put a.units t (ceilDiv (s.rq j 16 4) 64 - f.1 / 64) }, f.2)

/-- The assist looks at the first request waiting at every tenant. -/
def admLooks (s : State) (kind : Nat) (a : Adm) : List Nat → Adm × State
  | [] => (a, s)
  | t :: ts =>
    let x := s.admLook kind t a
    x.2.admLooks kind x.1 ts

/-- Is tenant `t` eligible (R259)? -/
def admEligible (s : State) (kind t : Nat) (a : Adm) : Bool :=
  s.tenantOn t && decide (0 ≤ s.budget t) && s.admHead kind t a != 0xFFFFFFFF && !a.lost.contains t

/-- The first request waiting at tenant `t` is admitted by a commit of the assist (R251, R259), which charges its units to the
deficit of the kind where `turn` is set; one whose commit does not succeed is skipped and charges nothing. -/
def admitHead (s : State) (kind t : Nat) (turn : Bool) (a : Adm) : Adm × State :=
  let j := s.admHead kind t a
  let h := s.rq j 4 2 % 4096 * 2 ^ 20 + j
  let u := admUnits t a
  let slot := if kind = 1 then a.slots.headD 0xFFFFFFFF else 0xFFFFFFFF
  let c : CommitCmd := if kind = 1 then ⟨h, 4, 3, 0, 16, 0, 0, slot, 0, 0, 0, 0xFFFFFFFF, 0⟩
    else ⟨h, 1, 2, 0, 0, 0, 0, 0, 0, 0, 0, 0xFFFFFFFF, 0⟩
  let x := s.commit true c
  if x.1.status = 0 then
    (if turn then x.2.setTn t (defOff kind) 4 (x.2.tn t (defOff kind) 4 - 1024 * u) else x.2).admLook kind t
      { a with slots := a.slots.drop 1, recs := a.recs ++ [(slot, h)], n := a.n - u }
  else x.2.admLook kind t { a with skip := j :: a.skip }

/-- Admissions of one tenant under its reservation (R259); `k` bounds the requests considered. -/
def admReserved (s : State) (t : Nat) (a : Adm) : Nat → Adm × State
  | 0 => (a, s)
  | k + 1 =>
    if 0 < a.n ∧ s.tn t 32 4 < s.tn t 28 4 ∧ s.admEligible 1 t a then
      let x := s.admitHead 1 t false a
      x.2.admReserved t x.1 k
    else (a, s)

/-- Admissions of one tenant in its turn (R259); `k` bounds the requests considered. -/
def admTurn (s : State) (kind t : Nat) (a : Adm) : Nat → Adm × State
  | 0 => (a, s)
  | k + 1 =>
    if s.admEligible kind t a ∧ 1024 * admUnits t a ≤ s.tn t (defOff kind) 4 ∧ admUnits t a ≤ a.n then
      let x := s.admitHead kind t true a
      x.2.admTurn kind t x.1 k
    else (a, s)

/-- Requests there can be: a bound on those that one turn considers. -/
def admMost : Nat := 1048577

/-- The weighted deficit round robin (R259); `k` bounds its turns. -/
def admRounds (s : State) (kind : Nat) (a : Adm) : Nat → Adm × State
  | 0 => (a, s)
  | k + 1 =>
    let el := (List.range 4096).filter fun t => s.admEligible kind t a
    if !(el.any fun t => decide (admUnits t a ≤ a.n)) then (a, s)
    else
      let p := if kind = 1 then s.serve.ptrD else s.serve.ptrP
      let t := ((el.find? fun t => decide (p < t)).orElse fun _ => el.head?).getD 0
      let s : State := if kind = 1 then { s with serve := { s.serve with ptrD := t } }
        else { s with serve := { s.serve with ptrP := t } }
      let s := s.setTn t (defOff kind) 4 (s.tn t (defOff kind) 4 + s.tn t 24 2)
      let x := s.admTurn kind t a admMost
      let s := if x.2.admEligible kind t x.1 then x.2 else x.2.setTn t (defOff kind) 4 0
      s.admRounds kind x.1 k

/-- The reservations of tenant `t` come first (R259). -/
def admOne (x : Adm × State) (t : Nat) : Adm × State := x.2.admReserved t x.1 admMost

/-- Every tenant, ascending. -/
def tenants : List Nat := List.range 4096

/-- The reservations of the tenants, in their order. -/
def admAll (ts : List Nat) (x : Adm × State) : Adm × State := ts.foldl admOne x

/-- What reservations of tenants have not used. -/
def admUnmet (s : State) (ts : List Nat) : Nat := (ts.map fun t => s.tn t 28 4 - s.tn t 32 4).foldl (· + ·) 0

/-- What the reservations leave free is for the rounds. -/
def admLess (x : Adm × State) : Adm × State := ({ x.1 with n := x.1.n - x.2.admUnmet tenants }, x.2)

/-- In an admission of decode kind the reservations come first (R259). -/
def admFirst (s : State) (kind : Nat) (a : Adm) : Adm × State := if kind = 1 then admLess (admAll tenants (a, s)) else (a, s)

/-- A bound on the rounds of one admission. -/
def admBound : Nat := 2 ^ 64

/-- The assist reads the record of every tenant (R259, R413): those that it cannot read. -/
def admLost (s : State) : List Nat → List Nat × State
  | [] => ([], s)
  | t :: ts =>
    let x := s.cmProbe 8 (s.tnWords t)
    let y := x.2.admLost ts
    (if x.1 then y.1 else t :: y.1, y.2)

/-- ADM_CMD (R259): the command runs to its end; records and ADM_RES are written. -/
def admission (s : State) (kind n : Nat) : State :=
  let list := s.fld Rg.ADM_LIST_OFF
  let got := if kind = 1 then s.cmTake 8 list (4 * n) else (some [], s)
  let slots := (got.1.map fun b => (List.range n).map fun i => fieldAt b (4 * i) 4).getD []
  let y := admLost got.2 tenants
  let z := y.2.admLooks kind ⟨slots, [], if got.1.isNone then 0 else n, [], y.1, []⟩ tenants
  let x := z.2.admFirst kind z.1
  let x := x.2.admRounds kind x.1 admBound
  let s := x.2.cmSetBytes list (x.1.recs.flatMap fun e => leBytes 4 e.1 ++ leBytes 4 e.2)
  s.wr Rg.ADM_RES (2 ^ 31 + 2 ^ 30 * s.fld Rg.ADM_RES_IGN + x.1.recs.length)

/-- The millisecond's refill of tenant `t` (R258); none where its record cannot be read (R413). -/
def refillOne (s : State) (t : Nat) : State :=
  let x := s.cmProbe 8 ((s.tnWords t).take 4)
  let s := x.2
  let b := s.budget t
  let burst : Int := s.tn t 12 4
  if x.1 ∧ s.tenantOn t ∧ b < burst then s.setBudget t (min burst (b + s.tn t 8 4)) else s

/-- The millisecond's refill (R258). -/
def refill (s : State) : State := (List.range 4096).foldl refillOne s

end State

/-- A submission entry at the ring pair whose turn it is: consumed and answered by `f`, which has the state after and the
index reserved for the ACK; one that R245 does not allow is answered with status 10. One that meets a tripped stack waits (R369). -/
def entryRow (ring : Fin 64) (opc : Nat) (entry : List Byte) (s : State) (f : State → Nat → List Byte → State) : Out :=
  let b := padTo 64 (entry.take 64)
  .next (if byteAt b 0 = opc ∧ s.nextRing = some ring.val then
      let x := s.consume ring
      if State.badEntry b then x.2.badAck ring x.1 b else s.unlessHeld (f x.2 x.1 b)
    else s)

/-- SUBMIT (R245, R248, R249). -/
def execSubmit (ring : Fin 64) (entry : List Byte) (params : Option (List Byte)) (prompt : Option (List Word))
    (s : State) : Out :=
  entryRow ring 1 entry s fun s ack b => s.submit ring ack b params prompt

/-- ABORT (R256). -/
def execAbort (ring : Fin 64) (entry : List Byte) (s : State) : Out :=
  entryRow ring 2 entry s fun s ack b => s.abortRun ⟨ring, ack, State.entryCtag b, fieldAt b 8 4⟩

/-- TENANT (R257). -/
def execTenant (ring : Fin 64) (entry : List Byte) (s : State) : Out :=
  entryRow ring 3 entry s fun s ack b => s.tenant ring ack b

/-- GRAMMAR (R245, R248). -/
def execGrammar (ring : Fin 64) (entry : List Byte) (body : Option (List Byte)) (s : State) : Out :=
  entryRow ring 4 entry s fun s ack b => s.grammar ring ack b body

/-- A submission entry with a reserved OPC or a non-zero reserved byte (R245). -/
def execBadOpcode (ring : Fin 64) (entry : List Byte) (s : State) : Out :=
  let b := padTo 64 (entry.take 64)
  .next (if State.badEntry b ∧ s.nextRing = some ring.val then
      let x := s.consume ring
      x.2.badAck ring x.1 b
    else s)

/-- The command of a core's commit window (R252). -/
def execCommit (core : Fin 8) (cmd : BitVec 256) (s : State) : Out := .next (s.commitFrom core cmd.toNat)

/-- Commit of ADV alone (R252). -/
def execAdv (core : Fin 8) (req : Word) (nadv : Fin 10) (lasttok expn : Word) (s : State) : Out :=
  .next (s.commitFrom core (s.keepCmd req.toNat 0 nadv 0 0 lasttok.toNat expn.toNat 0))

/-- Commit of DEBIT alone (R258). -/
def execDebit (core : Fin 8) (req : Word) (nadv : Fin 10) (s : State) : Out :=
  .next (s.commitFrom core (s.keepCmd req.toNat 1 nadv 0 0 0 0xFFFFFFFF 0))

/-- Commit of RING alone (R252). -/
def execRing (core : Fin 8) (req : Word) (nent : Fin 129) (s : State) : Out :=
  .next (s.commitFrom core (s.keepCmd req.toNat 2 0 nent 0 0 0xFFFFFFFF 0))

/-- Commit of ADJ alone (R258). -/
def execAdj (core : Fin 8) (req : Word) (chg : Word) (s : State) : Out :=
  .next (s.commitFrom core (s.keepCmd req.toNat 3 0 0 0 0 0xFFFFFFFF chg.toNat))

/-- Commit of SLOT alone (R252). -/
def execSlot (core : Fin 8) (req : Word) (slotNo : Word) (s : State) : Out :=
  .next (s.commitFrom core (s.keepCmd req.toNat 4 0 0 slotNo.toNat 0 0xFFFFFFFF 0))

/-- The millisecond's refill of every enabled tenant (R258). -/
def execBudgetRefill (s : State) : Out := .next s.refill

end Sys2Proof.Machine
end

