-- ==== Sys2Proof/Machine/Held.lean ====
section
/-!
DEFINITION. Transactions that a tripped stack holds until its trip clears (R369): control DMA (R227), writes of stack words
and admissions. KVREAD, KVWRITE, lookups and rows of a feeder or sampler wait by having no effect.
-/
namespace Sys2Proof.Machine
namespace State

/-- A held transaction joins those that wait. -/
def hold (s : State) (x : HeldTxn) : State := { s with held := s.held ++ [x], blocked := false }

/-- A control DMA runs and is answered by a DMADONE packet (R227); host memory that it wrote may complete ring entries (R253). -/
def dmaServe (s : State) (src : Nat) (f0 peer f2 : DWord) (tag : Word) (host : Option (List Byte)) : State :=
  let addr := bits f0.toNat 47 0
  let len := bits f2.toNat 31 0
  let outward := !bit f2.toNat 32 && !bit f2.toNat 33
  let p := peer.toNat
  let x := s.ctlDma addr p len (bit f2.toNat 32) (bit f2.toNat 33) host
  if x.2.blocked then s.hold (.dma src f0 peer f2 tag host)
  else
    let s := if x.1 = 0 ∧ outward ∧ (p < cmemBase ∨ cmemBase + 0x10000000 ≤ p) then x.2.hostWritten p len else x.2
    s.packet 5 src (s.dmaNode addr) 0 0 [BitVec.ofNat 64 (tag.toNat + 2 ^ 32 * x.1)]

/-- A write of the 32-bit word at offset `o` of stack `n`, address `a`: its status and the state after. -/
def stackPut (s : State) (n o a : Nat) (v : Word) : Nat × State :=
  match s.dramWrite n o (leBytes 4 v.toNat) with
  | (.ok _, s') => (0, s')
  | (.error .absent, s') => if s'.blocked then (2, s.hold (.write a v)) else (1, s')
  | (.error _, s') => (2, s')

/-- A control-channel write of the 32-bit word at stack-window address `a` (R17, R455): its status (0 OK, 1 bus error, 2 no
answer) and the state after. -/
def stackWrite (s : State) (a : Nat) (v : Word) : Nat × State :=
  s.stackPut ((a - 0x100000000000) / 0x2000000000) ((a - 0x100000000000) % 0x2000000000) a v

/-- An admission runs (R259), or waits for a page that a tripped stack holds. -/
def admitOrHold (s : State) (kind n : Nat) : State :=
  let s' := s.admission kind n
  if s'.blocked then (s.hold (.admission kind n)).setFld Rg.ADM_RES_DONE 0 else s'

/-- A held transaction is tried again. -/
def replayOne (s : State) : HeldTxn → State
  | .dma src f0 peer f2 tag host => s.dmaServe src f0 peer f2 tag host
  | .write a v => (s.stackWrite a v).2
  | .admission kind n => s.admitOrHold kind n

/-- The held transactions are tried again in their order. -/
def replay (s : State) : State := s.held.foldl replayOne { s with held := [] }

end State

/-- A control DMA (R227). -/
def execControlDma (src : BitVec 16) (f0 peer f2 : DWord) (tag : Word) (hostPeer : Option (List Byte)) (s : State)
    (ord : Bool := false) (lost : Option (BitVec 16) := none) : Out :=
  .next (s.carried ord src.toNat (s.dmaNode (bits f0.toNat 47 0)) 4 lost fun s => s.dmaServe src.toNat f0 peer f2 tag hostPeer)

end Sys2Proof.Machine
end

