-- ==== Sys2Proof/Machine/Crypto.lean ====
section
/-!
DEFINITION. The crypto engine and its attestation assist (R450, R451, R468), fuse programming (R467) and the clearing of control
memory (R470).
-/
namespace Sys2Proof.Machine
namespace State

/-! ### Jobs -/

/-- The bytes of a 16-byte dictionary value. -/
def oct16 (s : State) (idx sub : Nat) : List Byte := leBytes 16 (s.dict idx sub 0)

/-- The first request begins (R451): a quote takes its nonce and the state that it reports. Words of control memory that cannot
be read are free values. -/
def cryBegin (s : State) : State :=
  let put (s : State) (b : List Byte) : State := { s with crypto := { s.crypto with body := b } }
  match s.crypto.jobs with
  | .network :: _ => put s (s.quoteBody (s.oct16 0x1200 1 ++ s.oct16 0x1200 2))
  | .command 1 _ arg :: _ =>
    let x := s.cmTake 8 arg 32
    match x.1 with
    | some n => put x.2 (x.2.quoteBody n)
    | none => put x.2 []
  | _ => s

/-- A request joins the queue (R451). -/
def cryPush (s : State) (j : CryJob) : State :=
  let idle := s.crypto.jobs.isEmpty
  let s := { s with crypto := { s.crypto with jobs := s.crypto.jobs ++ [j] } }
  if idle then s.cryBegin else s

/-- The request in progress is over, and the next begins. -/
def cryNext (s : State) : State :=
  { s with crypto := { s.crypto with jobs := s.crypto.jobs.drop 1 } }.cryBegin

/-- A command of the registers is done or has failed (R468). -/
def cryStat (s : State) (state cause : Nat) : State :=
  (s.setFld Rg.CRY_STAT_STATE state).setFld Rg.CRY_STAT_CAUSE cause

/-- The command fails: control memory held a word that cannot be read, for which no cause is stated. -/
def cryUnread (s : State) : State :=
  let x := s.fresh 8
  x.2.cryStat 3 x.1

/-- The quote in progress completes (R450, R451, R468). -/
def quoteEnd (s : State) : State :=
  let b := s.crypto.body
  let sign (s : State) : List Byte × State := (b ++ Config.pssSign b s.free, { s with free := s.free + 1 })
  match s.crypto.jobs with
  | .network :: _ =>
    let x := sign s
    ({ x.2 with crypto := { x.2.crypto with quote := x.1 } } : State).cryNext
  | .command 1 _ arg :: _ =>
    if b.isEmpty then s.cryUnread.cryNext
    else
      let x := sign s
      ((x.2.cmSetBytes (arg + 64) x.1).cryStat 2 0).cryNext
  | _ => s

/-- Session-key slot `k`. -/
def keySlot (s : State) (k : Nat) : Option (List Byte) := Store.find s.crypto.slots k
/-- A session key enters slot `k`. -/
def setSlot (s : State) (k : Nat) (v : List Byte) : State :=
  { s with crypto := { s.crypto with slots := Store.put s.crypto.slots k v } }

/-- SIGN (R468): a handshake message of at most 64 KiB. -/
def cmdSign (s : State) (arg : Nat) : State :=
  match s.cmTake 8 arg 4 with
  | (none, s) => s.cryUnread
  | (some n, s) =>
    let len := leNat n
    if 65536 < len then s.cryStat 3 2
    else
      match s.cmTake 8 (arg + 4) len with
      | (none, s) => s.cryUnread
      | (some m, s) =>
        let x := s.signMsg m
        (x.2.cmSetBytes (arg + 4 + len) x.1).cryStat 2 0

/-- UNWRAP (R468): a signed blob of R290 step 4; the signature is checked under the chain of the transfer's peer. -/
def cmdUnwrap (s : State) (slot arg : Nat) : State :=
  if (s.keySlot slot).isSome then s.cryStat 3 3
  else
    match s.cmTake 8 arg 1024 with
    | (none, s) => s.cryUnread
    | (some b, s) =>
      if Config.pssVerify s.rxSession.chain ([0x4C, 0x57, 0x48, 0x53] ++ b.take 512) (b.drop 512) then
        match Config.oaepOpen (b.take 512) with
        | none => s.cryStat 3 2
        | some k => ((s.setSlot slot (k.take 36)).cmSetBytes (arg + 1024) (k.drop 36)).cryStat 2 0
      else s.cryStat 3 2

/-- WRAP (R468): the modulus, Nr, Ns and a model identifier of 64 bytes are the input; the blob and its signature follow it. -/
def cmdWrap (s : State) (slot arg : Nat) : State :=
  if (s.keySlot slot).isSome then s.cryStat 3 3
  else
    match s.cmTake 8 arg 640 with
    | (none, s) => s.cryUnread
    | (some b, s) =>
      let k := s.fresh 288
      let key := leBytes 36 k.1
      let blob := Config.oaepSeal (b.take 512) (key ++ b.drop 512) k.2.free
      let s := { k.2 with free := k.2.free + 1 }
      let x := (s.setSlot slot key).signMsg blob
      (x.2.cmSetBytes (arg + 640) (blob ++ x.1)).cryStat 2 0

/-- ERASE (R468). -/
def cmdErase (s : State) (slot : Nat) : State :=
  if (s.keySlot slot).isSome then
    ({ s with crypto := { s.crypto with slots := Store.erase s.crypto.slots slot } } : State).cryStat 2 0
  else s.cryStat 3 4

/-- The SIGN, UNWRAP, WRAP or ERASE in progress ends (R468). -/
def cryEnd (s : State) : State :=
  match s.crypto.jobs with
  | .command 2 _ arg :: _ => (s.cmdSign arg).cryNext
  | .command 3 slot arg :: _ => (s.cmdUnwrap slot arg).cryNext
  | .command 4 slot arg :: _ => (s.cmdWrap slot arg).cryNext
  | .command 5 slot _ :: _ => (s.cmdErase slot).cryNext
  | _ => s

/-- A guarded CRY_CMD is applied (R468): while one is busy it fails with cause 1, and the one that runs goes on. -/
def cryApply (s : State) (v : Nat) : State :=
  let op := bits v 31 28
  if s.fld Rg.CRY_STAT_STATE = 1 then s.setFld Rg.CRY_STAT_CAUSE 1
  else if 1 ≤ op ∧ op ≤ 5 then (s.cryStat 1 0).cryPush (.command op (bits v 27 26) (s.fld Rg.CRY_ARG_OFF / 64 * 64))
  else s

/-! ### Fuses -/

/-- A fuse command is refused (R467). -/
def fuseRefuse (s : State) (cause : Nat) : State := (s.setFld Rg.FUSE_STAT_STATE 3).setFld Rg.FUSE_STAT_CAUSE cause

/-- Is owner slot `k` programmed, and not revoked? -/
def slotLive (s : State) (k : Nat) : Bool := bit s.fuse.prog (k - 1) && !bit s.fuse.revoked (k - 1)

/-- The cause for which a fuse command is refused while idle (R466), 0 if it is not. -/
def fuseCause (s : State) (v : Nat) : Nat :=
  let op := bits v 31 28
  let k := bits v 27 24
  if op < 1 ∨ 3 < op ∨ (op ≠ 3 ∧ (k < 1 ∨ 4 < k)) then 6
  else if op = 1 then (if bit s.fuse.prog (k - 1) then 2 else 0)
  else if op = 2 then (if s.slotLive k then 0 else 3)
  else if bits v 23 0 < s.fuse.svnmin then 4 else 0

/-- A guarded FUSE_PGM is applied (R467). No cause is stated for a refusal before DONE: it is a free value. -/
def fuseApply (s : State) (v : Nat) : State :=
  if s.fld Rg.FUSE_STAT_STATE = 1 then s.setFld Rg.FUSE_STAT_CAUSE 5
  else if s.fld Rg.IMG_STAT_STATE ≠ 0 then s.fuseRefuse 1
  else if !s.flag Rg.BU_STAT_DONE then
    let x := s.fresh 8
    x.2.fuseRefuse x.1
  else
    match s.fuseCause v with
    | 0 =>
      let s := (s.setFld Rg.FUSE_STAT_STATE 1).setFld Rg.FUSE_STAT_CAUSE 0
      { s with crypto := { s.crypto with fuse := some (v, (List.range 16).map fun w => s.reg (Rg.FUSE_PGM_DATA w)) } }
    | c => s.fuseRefuse c

/-- The fuses after a command (R466). -/
def fuseAfter (f : Fuses) (v : Nat) (data : List Word) : Fuses :=
  let k := bits v 27 24
  match bits v 31 28 with
  | 1 => { f with owner := padWords f.owner k data, prog := f.prog ||| 2 ^ (k - 1) }
  | 2 => { f with revoked := f.revoked ||| 2 ^ (k - 1) }
  | _ => { f with svnmin := bits v 23 0 }
where
  /-- The owner digests with slot `k`'s 16 words replaced. -/
  padWords (o : List Word) (k : Nat) (data : List Word) : List Word :=
    (List.range 64).map fun i => if i / 16 + 1 = k then data.getD (i % 16) 0 else o.getD i 0

/-- The programming in progress completes (R467). -/
def fuseEnd (s : State) : State :=
  match s.crypto.fuse with
  | some (v, data) =>
    let s := { s with fuse := fuseAfter s.fuse v data, crypto := { s.crypto with fuse := none } }
    (s.setFld Rg.FUSE_STAT_STATE 2).setFld Rg.FUSE_STAT_CAUSE 0
  | none => s

/-! ### Clearing control memory -/

/-- A write of CMCLR_GO (R470): REFUSED says whether the last GO was refused. -/
def clearGo (s : State) (v : Nat) : State :=
  let off := s.fld Rg.CMCLR_OFF_OFF / 512 * 512
  let len := s.fld Rg.CMCLR_LEN_LEN / 512 * 512
  if !bit v 31 then s
  else if 0x10000000 < off + len ∨ len = 0 ∨ s.flag Rg.CMCLR_STAT_BUSY then s.setFld Rg.CMCLR_STAT_REFUSED 1
  else { (s.setFld Rg.CMCLR_STAT_REFUSED 0).setFld Rg.CMCLR_STAT_BUSY 1 with crypto := { s.crypto with clear := some (off / 8, len / 8, []) } }

/-- The clear ends: the range's valid bits are clear, but for writes since that it did not reach again (R470). -/
def clearEnd (s : State) : State :=
  match s.crypto.clear with
  | some (w, n, keep) =>
    let s := { s with cmem := s.cmem.filter (fun e => e.1 < w || w + n ≤ e.1 || keep.contains e.1)
                      crypto := { s.crypto with clear := none } }
    s.setFld Rg.CMCLR_STAT_BUSY 0
  | none => s

end State

/-- The quote in progress completes (R451). -/
def execQuoteDone (s : State) : Out := .next s.quoteEnd

/-- A crypto command ends (R468). -/
def execCryDone (s : State) : Out := .next s.cryEnd

/-- Fuse programming completes (R467). -/
def execFusePgmDone (s : State) : Out := .next s.fuseEnd

/-- A clear of control memory ends (R470). -/
def execCmclrDone (s : State) : Out := .next s.clearEnd

end Sys2Proof.Machine
end

