-- ==== Sys2Proof/Machine/Sideband.lean ====
section
/-!
DEFINITION. The nodes that answer for control addresses (R172), and whether the control complex reaches them (R174).
-/
namespace Sys2Proof.Machine

/-- The control address's node (R172). -/
def clusterNode (r c : Nat) : Nat := (7 * (r % 12) + c % 7) * 128 + (4 * (r / 12) + c / 7) * 4

namespace State

/-- The node whose window holds offset `o` of region `r` (R18): a cluster, or the region controller. -/
def windowNode (r o : Nat) : Nat := if o < 28 * 0x10000000 then clusterNode r (o / 0x10000000) else nodeOfRegion r

/-- The node that answers for a control address (R172): for an address that nothing implements, the node of its window, and for one
that is not a multiple of 4 the sender's hub (R454, R455). -/
def answerNode (s : State) (a : Nat) : Nat :=
  if a % 4 ≠ 0 then 0x8000
  else if regionBase 0 ≤ a ∧ a < regionBase 96 then windowNode ((a - regionBase 0) / 0x200000000) ((a - regionBase 0) % 0x200000000)
  else if 0x100000000000 ≤ a ∧ a < 0x130000000000 then s.dmaNode a
  else 0x8000

/-- Do a request from the control complex for a control address and its response both get through? -/
def routed (s : State) (a : Nat) : Bool :=
  s.pathOpen false 0x8000 (s.answerNode a) && s.pathOpen false (s.answerNode a) 0x8000

end State
end Sys2Proof.Machine
end

