-- ==== Sys2Proof/Machine/Queues.lean ====
section
/-!
DEFINITION. Region-boundary queues as time passes (R160, R167), and the sideband packets that a region controller, a
requester or the control complex takes (R173, R176, R272).
-/
namespace Sys2Proof.Machine
namespace State

/-- The oldest entry pushed into queue `key` becomes visible (R160), with the error `flip` that the queue has brought into it
(R162). -/
def queueShow (s : State) (key : Nat) (flip : BitVec 1096) : State :=
  let q := s.queue key
  match q.hid with
  | [] => s
  | e :: es =>
    s.setQueue key { q with vis := q.vis ++ [{ e with beat := { e.beat with flip := e.beat.flip ^^^ flip } }], hid := es }

/-- The oldest slot freed in queue `key` becomes visible to the writer (R160). -/
def queueFree (s : State) (key : Nat) : State :=
  let q := s.queue key
  s.setQueue key { q with freed := q.freed - 1 }

/-- A segment command at region `r` (R176): queued, or discarded with an entry when the queue is full. Before every check of
the load has passed none reaches a region (R196). -/
def segPush (s : State) (r no : Nat) : State :=
  if s.fld Rg.IMG_STAT_STATE ≠ 3 ∧ s.fld Rg.IMG_STAT_STATE ≠ 4 then s
  else if (s.region r).segq.length < 16 then s.modRegion r fun g => { g with segq := g.segq ++ [no] }
  else s.logRegion r 0x404 no 0 0

/-- A HALT packet at region `r` (R173): it waits for the next schedule cycle, or acts at once where none is due. -/
def haltPacket (s : State) (r src : Nat) : State :=
  if (s.region r).halted then s
  else if (s.region r).seg.isSome then s.modRegion r fun g => { g with haltReq := some src }
  else s.raise r { code := 0x20D, detail := src }

/-- A packet that no unit can take is discarded with an entry (R173, R304, R323). -/
def discardPacket (s : State) (place type reason : Nat) : State :=
  let w := if reason = 1 then discardSource place else (96, 0xFF, 0xFE)
  s.log w.1 { code := 0x403, region := w.2.1, cluster := w.2.2, loc0 := place, loc1 := type, detail := reason }

end State

/-- A pushed entry becomes visible (R160), with an error that its storage has brought into it (R162). -/
def execQueueEntryVisible (r : Fin 96) (q : Fin 22) (s : State) (flip : BitVec 1096 := 0) : Out :=
  .next (s.queueShow (inKey r q) flip)

/-- A freed slot becomes visible (R160). -/
def execQueueSlotVisible (r : Fin 96) (q : Fin 22) (s : State) : Out := .next (s.queueFree (inKey r q)).portsRun

/-- The neighbours apply the fence of a region that lost power or is fenced (R167). -/
def execFenceApplied (r : Fin 96) (s : State) : Out :=
  .next (if s.yFenced r || !s.powered r then s.fenceRegion r else s)

/-- SEGCMD (R176). -/
def execSegcmd (r : Fin 96) (no : BitVec 15) (s : State) (ord : Bool := false) (lost : Option (BitVec 16) := none) : Out :=
  .next (s.carried ord 0x8000 (State.nodeOfRegion r) 8 lost fun s => s.segPush r no.toNat)

/-- HALT (R173). -/
def execHalt (r : Fin 96) (src : BitVec 16) (s : State) (ord : Bool := false) (lost : Option (BitVec 16) := none) : Out :=
  .next (s.carried ord src.toNat (State.nodeOfRegion r) 0xC lost fun s => s.haltPacket r src.toNat)

/-- RSP at its requester (R173). -/
def execRsp (dest : BitVec 16) (tag status : Byte) (data : Option Word) (s : State) (src : BitVec 16 := 0x8000) (ord : Bool := false)
    (lost : Option (BitVec 16) := none) : Out :=
  .next (s.carried ord src.toNat dest.toNat 3 lost fun s => s.receive (.response dest.toNat tag.toNat status.toNat data))

/-- TOKEN at the control complex (R272). -/
def execToken (f0 f1 : DWord) (s : State) (src : BitVec 16 := 0x8000) (ord : Bool := false) (lost : Option (BitVec 16) := none) : Out :=
  .next (s.carried ord src.toNat 0x8000 0xA lost fun s => s.receive (.token f0 f1))

/-- A packet that no unit can take (R173). -/
def execPacketDiscard (place : Word) (type : BitVec 4) (reason : Fin 5) (s : State) : Out :=
  .next (s.discardPacket place.toNat type.toNat (reason + 1))

end Sys2Proof.Machine
end

