-- ==== Sys2Proof/Machine/ErrLog.lean ====
section
/-!
DEFINITION. The error log (R400 to R403): the ring and its assist, fault buffers, their resending and release, and the
sending of held entries.
-/
namespace Sys2Proof.Machine
namespace State

/-- Entries of the error-log ring in use (R401). -/
def elogUsed (s : State) : Nat := (s.rd Rg.ELOG_TAIL + 2 ^ 32 - s.rd Rg.ELOG_HEAD) % 2 ^ 32

/-- Is the last error-log NOTIFY less than 10 ms, 15,000,000 CBCLK, old (R441)? -/
def elogRecent (s : State) : Bool :=
  match s.mg.elogAt with
  | some t => decide (s.time.cb < t + 15000000)
  | none => false

/-- The NOTIFY of the error log is sent (R441). -/
def elogNotify (s : State) : State :=
  let s : State := { s with mg := { s.mg with elogDue := false } }
  if s.notifies then ({ s with mg := { s.mg with elogAt := some s.time.cb } } : State).notify 0x5000 1 else s

/-- A new record in the error log is signalled to the control complex and notified, at once or with others when the 10 ms of the last
error-log NOTIFY end (R441). -/
def elogSignal (s : State) : State :=
  let s := s.receive (.event 3)
  if s.elogRecent then { s with mg := { s.mg with elogDue := s.mg.elogDue || s.notifies } } else s.elogNotify

/-- A record is written into the ring and ELOG_TAIL advances (R401). -/
def elogWrite (s : State) (e : BitVec 256) : State :=
  let s := s.cmSetWords ((0xFC00000 + 32 * (s.rd Rg.ELOG_TAIL % 65536)) / 8) (recFlits e)
  let s := s.wr Rg.ELOG_TAIL (s.rd Rg.ELOG_TAIL + 1)
  ({ s with recent := (e :: s.recent).take 256 } : State).elogSignal

/-- The fault buffer of a sending node (R172, R403). -/
def bufOfNode (src : Nat) : Nat := if bits src 15 14 = 1 ∨ bits src 15 14 = 3 then bits src 6 0 else 96

/-- The `n` oldest records of buffer `b` are released (R403). -/
def release (s : State) (b n : Nat) : State := s.modRegion b fun g => { g with faults := g.faults.drop n }

/-- A refusal or fault record reaches the assist (R402, R403): a copy of one just written is discarded; one that finds
the ring full stays in its source's buffer; else it is written and released. -/
def takeFault (s : State) (b : Nat) (e : BitVec 256) : State :=
  if s.recent.contains e then s
  else if 65536 ≤ s.elogUsed then { s with waiting := if s.waiting.contains b then s.waiting else s.waiting ++ [b] }
  else (s.elogWrite e).release b 1

/-- A corrected or event entry reaches the assist (R402). -/
def takeEntry (s : State) (e : BitVec 256) : State :=
  if 65536 - s.elogUsed < 256 then s.count Rg.ELOG_LOST 1 else s.elogWrite e

/-- The records of buffer `b` are taken while the ring has space; `n` bounds them (R402). -/
def drainBuf (s : State) (b : Nat) : Nat → State
  | 0 => s
  | n + 1 =>
    match (s.region b).faults with
    | [] => s
    | f :: _ =>
      if 65536 ≤ s.elogUsed then s
      else
        let s := if s.recent.contains f.entry then s else s.elogWrite f.entry
        (s.release b 1).drainBuf b n

/-- A write of ELOG_HEAD (R402): one that would pass ELOG_TAIL has no effect; else waiting records are taken. -/
def elogAdvance (s : State) (v : Nat) : State :=
  let h := s.rd Rg.ELOG_HEAD
  if s.elogUsed < (v + 2 ^ 32 - h) % 2 ^ 32 then s
  else
    let s := s.wr Rg.ELOG_HEAD v
    let s := s.waiting.foldl (fun s b => s.drainBuf b 32) s
    { s with waiting := s.waiting.filter fun b => !(s.region b).faults.isEmpty }

/-- Records of buffer `b` whose last sending is 65,536 CBCLK old are sent again (R403). -/
def resend (s : State) (b : Nat) : State :=
  let old (f : FaultEntry) : Bool := decide (f.sentAt + 65536 ≤ s.time.cb)
  let due := (s.region b).faults.filter old
  let s := s.modRegion b fun g =>
    { g with faults := g.faults.map fun f => if old f then { f with sentAt := s.time.cb } else f }
  due.foldl (fun s f => s.packet 6 0x8000 (bufNode b) 0 0 (recFlits f.entry)) s

/-- Held entries whose millisecond (1,500,000 CBCLK) has passed are sent (R400). -/
def holdExpire (s : State) (b : Nat) : State :=
  let old (h : HeldEntry) : Bool := decide (h.since + 1500000 ≤ s.time.cb)
  let due := (s.region b).merged.filter old
  let s := s.modRegion b fun g => { g with merged := g.merged.filter fun h => !old h }
  due.foldl (fun s h => s.packet 7 0x8000 (entryNode b h.entry) 0 0 (recFlits h.entry)) s

/-- ELOG_WAIT.N (R402): a buffer whose records have been released, or lost with power, waits no longer. -/
def elogWait (s : State) : Nat := (s.waiting.filter fun b => !(s.region b).faults.isEmpty).length

end State

/-- The buffer that an optional region names: the edge ring's when there is none. -/
def bufOf (r : Option (Fin 96)) : Nat := match r with | some r => r.val | none => 96

/-- FAULT at the error-log assist (R403). -/
def execFault (src : BitVec 16) (e : BitVec 256) (s : State) (ord : Bool := false) (lost : Option (BitVec 16) := none) : Out :=
  .next (s.carried ord src.toNat 0x8000 6 lost fun s => s.takeFault (State.bufOfNode src.toNat) e)

/-- ERRLOG at the error-log assist (R401). -/
def execErrlog (src : BitVec 16) (e : BitVec 256) (s : State) (ord : Bool := false) (lost : Option (BitVec 16) := none) : Out :=
  .next (s.carried ord src.toNat 0x8000 7 lost fun s => s.takeEntry e)

/-- Records not released within 65,536 CBCLK are sent again (R403). -/
def execFaultResend (r : Option (Fin 96)) (s : State) : Out := .next (s.resend (bufOf r))

/-- Merged entries are sent 1 ms after their first occurrence (R400). -/
def execErrlogHoldExpiry (r : Option (Fin 96)) (s : State) : Out := .next (s.holdExpire (bufOf r))

end Sys2Proof.Machine
end

