-- ==== Sys2Proof/Machine/Thermal.lean ====
section
/-!
DEFINITION. The cold plate, the sensors of regions and stacks, throttling, trips and ALARM (R361 to R373). A condition has held
for a time when the samples that show it span that time (log 62).
-/
namespace Sys2Proof.Machine

/-- A sampled condition: samples that show it and samples that do not. -/
def Held.step (h : Held) (now : Bool) : Held := if now then ⟨h.yes + 1, 0⟩ else ⟨0, h.no + 1⟩

/-- A status bit that sets or clears after the condition has held or been absent for `n` sampling periods (R374). -/
def Held.bit (h : Held) (n : Nat) (on : Bool) : Bool := if on then !decide (n < h.no) else decide (n < h.yes)

/-- The larger of two readings. -/
def hotter (a b : Int) : Int := if a < b then b else a

namespace State

/-! ### Cold plate -/

/-- The rise of the outlet reading over the last 100 ms, 0.01 °C; 0 while no such reading is kept. -/
def outletRise (s : State) : Int :=
  match s.plate.outlet, s.plate.outlet[100]? with
  | x :: _, some y => x - y
  | _, _ => 0

/-- AUX of a 0x0222 record (R372): outlet slope in 0.1 K/s, saturating, and flow in 0.1 L/min. -/
def thermalAux (s : State) : Nat := Nat.min 0xFFFF s.outletRise.toNat * 65536 + s.fld Rg.CP_FLOW_FLOW

/-- The ALARM pattern is driven on CHAIN_OUT (R431), which VAUX feeds. -/
def alarmDrive (s : State) : State :=
  if s.power.rails.vaux then (s.setFld Rg.MG_CHAIN_PHASE 2).emit (.chain .alarm) else s

/-- The edge ring, which VEDGE feeds, shows ALARM, records it and signals it (R370, R372). -/
def alarmRecord (s : State) (cause : Nat) : State :=
  if s.power.rails.vedge then
    let s := (s.setFld Rg.CP_STAT_ALARM 1).setFld Rg.CP_STAT_ASRC (cause - 2)
    let f : FaultRec := { code := 0x222, flags := s.recFlags 0 0xFF, aux := s.thermalAux
                          detail := cause * 2 ^ 24 + s.fld Rg.CP_TEMP_TOUT }
    (s.record 96 (f.image s.ns)).signal 0x3001 5
  else s

/-- ALARM is raised, at any stage from P0 on (R370, R371, R395): cause 3 flow, 4 slope, 5 received (R372). It takes over a running
orderly power-down. -/
def alarm (s : State) (cause : Nat) : State :=
  if !s.power.began || s.flag Rg.CP_STAT_ALARM || s.fld Rg.MG_CHAIN_PHASE == 2 then s
  else
    let s := ((s.alarmDrive.pgoodLow).alarmRecord cause).haltAll
    let d := match s.power.down with
      | some d => { d with alarm := some (d.alarm.getD s.time.cb) }
      | none => ⟨some s.time.cb, none, 0⟩
    { s with power := { s.power with down := some d } }

/-- A COOLANT entry (R399). -/
def coolantEntry (s : State) : State := s.logEdge 0x40D (bits (s.rd Rg.CP_STAT) 27 22) 0 (s.fld Rg.CP_TEMP_TIN)

/-- A status bit of CP_STAT follows its condition; setting it makes an entry (R361, R363, R374). -/
def plateBit (s : State) (b : Nat) (on : Bool) : State :=
  let old := s.rd Rg.CP_STAT
  if on = bit old b then s
  else if on then (s.wr Rg.CP_STAT (old ||| 2 ^ b)).coolantEntry
  else s.wr Rg.CP_STAT (old - 2 ^ b)

/-- The inlet and the outlet temperature that decide (R361): the higher reading of each pair. -/
def plateIn (x : PlateSample) : Int := hotter x.inA x.inB
/-- The outlet temperature that decides (R361). -/
def plateOut (x : PlateSample) : Int := hotter x.outA x.outB

/-- What the plate remembers after a sample (R361, R363, R370, R374). -/
def plateNext (p : Plate) (x : PlateSample) : Plate :=
  let tin := plateIn x
  { p with
    low := if x.flow < 100 then p.low + 1 else 0
    outlet := plateOut x :: p.outlet.take 100
    flows := x.flow :: p.flows.take 99, inlets := tin :: p.inlets.take 99
    inlo := p.inlo.step (decide (tin < 1500)), inhi := p.inhi.step (decide (4000 < tin))
    prange := p.prange.step (decide (x.press < 50 ∨ 600 < x.press ∨ 180 < x.drop))
    pairIn := p.pairIn.step (decide (200 < (x.inA - x.inB).natAbs))
    pairOut := p.pairOut.step (decide (200 < (x.outA - x.outB).natAbs))
    above := if 4500 < tin then p.above + 1 else 0 }

/-- The readings of the plate's registers (R361). -/
def plateRegs (s : State) (x : PlateSample) : State :=
  let s := s.setFld Rg.CP_FLOW_FLOW (Nat.min 0xFFFF x.flow)
  let s := (s.setFld Rg.CP_TEMP_TIN (Nat.min 0xFFFF (plateIn x).toNat)).setFld Rg.CP_TEMP_TOUT (Nat.min 0xFFFF (plateOut x).toNat)
  (s.setFld Rg.CP_PRESS_PIN (Nat.min 0xFFFF x.press)).setFld Rg.CP_PRESS_DP (Nat.min 0xFFFF x.drop)

/-- The status bits of CP_STAT after a sample (R374). -/
def plateBits (s : State) (p : Plate) : State :=
  let on (b : Nat) : Bool := bit (s.rd Rg.CP_STAT) b
  let s := s.plateBit 26 (p.inlo.bit 1000 (on 26))
  let s := s.plateBit 25 (p.inhi.bit 1000 (on 25))
  let s := s.plateBit 24 (p.prange.bit 1000 (on 24))
  let s := s.plateBit 22 (p.pairIn.bit 1000 (on 22))
  s.plateBit 23 (p.pairOut.bit 1000 (on 23))

/-- ALARM from the plate (R370): 20 samples of low flow, or an outlet that rises by more than 0.5 K in 100 ms. -/
def plateAlarm (s : State) : State :=
  if 20 ≤ s.plate.low then s.alarm 3 else if (50 : Int) < s.outletRise then s.alarm 4 else s

/-- The sensors are sampled (R361): flow in 0.1 L/min, temperatures in 0.01 °C, pressures in kPa. -/
def plateSample (s : State) (x : PlateSample) : State :=
  if !s.power.on then s
  else
    let p := plateNext s.plate x
    (((({ s with plate := p } : State).plateRegs x).plateBits p).plateAlarm)

/-- The cooling cap (R362) from the sums of `n` readings of flow in 0.1 L/min, inlet and outlet in 0.01 °C, and the mean power `p`,
W: PCOOL, FHEAT in 0.1 L/min or 0xFFFF, and FLOWSUS. FHEAT is 100·n·P / (77·D) L/min, D the sum of the rises. -/
def coolingCap (n flow : Nat) (tin tout : Int) (p : Nat) : Nat × Nat × Bool :=
  let d := (tout - tin).toNat
  let heat := decide (6000 ≤ p ∧ 100 * n ≤ d)
  let k := if tin ≤ 3200 * n then 1600 * n else (4800 * n - tin).toNat
  let cap := if heat && decide (1000 * n * n * p < 77 * d * flow) then 30000 * p * k / (77 * d * 1600)
    else 30 * flow * k / (1600 * n * n)
  (Nat.min 0xFFFF cap, if heat then Nat.min 0xFFFE (1000 * n * p / (77 * d)) else 0xFFFF,
    heat && decide (10000 * n * n * p < 616 * d * flow))

/-- The cooling cap (R362), from the readings of the last 100 ms and the mean power over them, W. Before the first sample there is
the means are `flow`, `tin` and `tout` (log 72). -/
def pcool (s : State) (flow : Nat) (tin tout : Int) (p : Nat) : State :=
  if !s.power.on then s
  else
    let n := s.plate.flows.length
    let x := if n = 0 then coolingCap 1 flow tin tout p
      else coolingCap n (s.plate.flows.foldl (· + ·) 0) (s.plate.inlets.foldl (· + ·) 0) ((s.plate.outlet.take 100).foldl (· + ·) 0) p
    let s := s.setFld Rg.CP_FLOW_FHEAT x.2.1
    let s := s.setFld Rg.CP_STAT_FLOWSUS (if x.2.2 then 1 else 0)
    s.setFld Rg.CP_CAP_PCOOL x.1

/-- The inlet has been above 45 °C for 1 s (R363). -/
def overtemp (s : State) : State :=
  if s.power.on && decide (1000 < s.plate.above) then
    ({ s with plate := { s.plate with above := 0 } } : State).coolantEntry.powerDown
  else s

/-! ### Regions -/

/-- Is diode `d` (0 A, 1 B) of pair `i` suspect? -/
def suspect (s : State) (r i d : Nat) : Bool := if d = 0 then s.flag (Rg.TPAIR_SUSA r i) else s.flag (Rg.TPAIR_SUSB r i)

/-- Temperature of a hot spot (R364). -/
def spotTemp (s : State) (r i : Nat) (h : HotSpot) : Nat :=
  match s.suspect r i 0, s.suspect r i 1 with
  | false, false => Nat.max h.a h.b
  | false, true => h.a
  | true, false => h.b
  | true, true => h.est

/-- The difference of two readings. -/
def apart (a b : Nat) : Nat := if a < b then b - a else a - b

/-- A DIODE entry (R399): pair, kind, and both readings. -/
def diodeEntry (s : State) (r i kind : Nat) (h : HotSpot) : State :=
  s.logRegion r 0x40E i kind (h.a * 65536 + h.b)

/-- One pair's sample (R364): counters, disagreement and suspects; 500 sampling periods are 10 ms. -/
def pairSample (s : State) (r i : Nat) (h : HotSpot) : State :=
  let c := (s.region r).pairs.getD i ⟨0, 0, 0, 0⟩
  let differ := decide (32 < apart h.a h.b)
  let out (x y : Nat) : Bool := decide (64 < apart x y ∧ 64 < apart x h.est)
  let c : PairRun := ⟨if differ then c.dis + 1 else 0, if differ then 0 else c.agree + 1, if out h.a h.b then c.outA + 1 else 0,
    if out h.b h.a then c.outB + 1 else 0⟩
  let s := s.modRegion r fun g => { g with pairs := g.pairs.set i c }
  let s := (s.setFld (Rg.TPAIR_TA r i) (Nat.min 4095 h.a)).setFld (Rg.TPAIR_TB r i) (Nat.min 4095 h.b)
  let s :=
    if s.flag (Rg.TPAIR_DIS r i) then (if 500 < c.agree then s.setFld (Rg.TPAIR_DIS r i) 0 else s)
    else if 500 < c.dis then (s.setFld (Rg.TPAIR_DIS r i) 1).diodeEntry r i 1 h else s
  let s := if 500 < c.outA && !s.suspect r i 0 then (s.setFld (Rg.TPAIR_SUSA r i) 1).diodeEntry r i 2 h else s
  if 500 < c.outB && !s.suspect r i 1 then (s.setFld (Rg.TPAIR_SUSB r i) 1).diodeEntry r i 3 h else s

/-- The region trips (R366, R372): hot spot `i` at temperature `t`. -/
def trip (s : State) (r i t : Nat) : State :=
  (s.setFld (Rg.THERM_STAT_TTRIP r) 1).raise r
    { code := 0x222, detail := 2 ^ 24 + i * 2 ^ 16 + t % 65536, aux := s.thermalAux }

/-- The four hot-spot temperatures of a sample (R364). -/
def spotTemps (s : State) (r : Nat) (hs : List HotSpot) : List Nat :=
  (List.range 4).map fun i => s.spotTemp r i (hs.getD i ⟨0, 0, 0⟩)

/-- The registers of a region after a sample of maximum `thot` (R364, R374). -/
def regionTemps (s : State) (r thot test : Nat) : State :=
  let s := (s.setFld (Rg.THERM_STAT_THOT r) (Nat.min 4095 thot)).setFld (Rg.THERM_STAT_TEST r) (Nat.min 4095 test)
  let s := s.setFld (Rg.THERM_STAT_HOT r) (if 760 ≤ thot then 1 else 0)
  let capped := (List.range 4).any fun i => s.suspect r i 0 && s.suspect r i 1
  let s := s.setFld (Rg.CLKCAP_SCAP r) (if capped then 38 else 64)
  let tripped := s.tripped r
  s.modRegion r fun g =>
    { g with tripRun := if 880 ≤ thot && !tripped then g.tripRun + 1 else 0
             clearRun := if thot < 720 && tripped then g.clearRun + 1 else 0
             coolRun := if thot < 736 then g.coolRun else 0 }

/-- The region samples its diodes (R364, R366). A diode found suspect in this sample is left out from the next one on (R373). -/
def regionSample (s : State) (r : Nat) (hs : List HotSpot) : State :=
  if !s.powered r then s
  else
    let temps := s.spotTemps r hs
    let thot := temps.foldl Nat.max 0
    let s := (List.range 4).foldl (fun s i => s.pairSample r i (hs.getD i ⟨0, 0, 0⟩)) s
    let s := s.regionTemps r thot ((hs.map HotSpot.est).foldl Nat.max 0)
    if 3 ≤ (s.region r).tripRun then s.trip r (temps.findIdx (· == thot)) thot else s

/-- TLIM steps (R365), every 100 µs. -/
def tlim (s : State) (r : Nat) : State :=
  if !s.powered r then s
  else
    let t := s.fld (Rg.THERM_STAT_THOT r)
    let l := s.fld (Rg.CLKCAP_TLIM r)
    let cool (n : Nat) (s : State) : State := s.modRegion r fun g => { g with coolRun := n }
    if 760 ≤ t then cool 0 (s.setFld (Rg.CLKCAP_TLIM r) (Nat.max 1 (l - 1)))
    else if t < 736 then
      if 100 ≤ (s.region r).coolRun + 1 then cool 0 (s.setFld (Rg.CLKCAP_TLIM r) (Nat.min 64 (l + 1)))
      else cool ((s.region r).coolRun + 1) s
    else cool 0 s

/-- A trip clears (R366): the region restarts its ACLK at TLIM 32 and stays halted. -/
def tripClear (s : State) (r : Nat) : State :=
  if s.powered r && s.tripped r && decide (50000 < (s.region r).clearRun) then
    (s.setFld (Rg.THERM_STAT_TTRIP r) 0).setFld (Rg.CLKCAP_TLIM r) 32
  else s

/-! ### Stacks -/

/-- Temperature control of stack `n`. -/
def stackHeat (s : State) (n : Nat) : StackHeat := Store.get StackHeat.reset s.heat n
/-- It becomes `x`. -/
def setHeat (s : State) (n : Nat) (x : StackHeat) : State := { s with heat := Store.set StackHeat.reset s.heat n x }

/-- The median of three readings. -/
def median3 (a b c : Nat) : Nat := Nat.max (Nat.min a b) (Nat.min (Nat.max a b) c)

/-- The median of the readings other than the one of quarter `q`. -/
def othersMedian (ts : List Nat) (q : Nat) : Nat :=
  let o := ts.eraseIdx q
  median3 (o.getD 0 0) (o.getD 1 0) (o.getD 2 0)

/-- Valid readings of stack `n`, as quarters. -/
def validQuarters (s : State) (n : Nat) : List Nat := (List.range 4).filter fun q => !bit (s.fld (Rg.STK_THERM_SUS n)) q

/-- The stack trips (R369, R372). -/
def stackTrip (s : State) (n t : Nat) : State :=
  let s := s.setFld (Rg.STK_THERM_TTRIP n) 1
  let f : FaultRec := { code := 0x222, flags := s.recFlags 0 0xFF, detail := 2 * 2 ^ 24 + n * 2 ^ 16 + t % 65536, aux := s.thermalAux }
  let s := s.record 96 (f.image s.ns)
  if s.fld Rg.IMG_STAT_STATE = 4 then (List.range 96).foldl (fun s r => s.packet 12 (nodeOfRegion r) 0x8000 0 0 []) s else s

/-- A quarter's reading becomes suspect (R367). -/
def suspectQuarter (s : State) (n q : Nat) : State :=
  (s.setFld (Rg.STK_THERM_SUS n) (s.fld (Rg.STK_THERM_SUS n) ||| 2 ^ q)).logEdge 0x40F n 1 q

/-- Samples in a row in which each quarter's reading was more than 8 °C from the others' median (R367). -/
def stackRuns (s : State) (n : Nat) (ts : List Nat) : List Nat :=
  (List.range 4).map fun q => if 64 < apart (ts.getD q 0) (othersMedian ts q) then (s.stackHeat n).sus.getD q 0 + 1 else 0

/-- The quarters whose readings have been off for 10 ms become suspect (R367). -/
def stackSuspects (s : State) (n : Nat) (runs : List Nat) : State :=
  (List.range 4).foldl (fun s q =>
    if 10 < runs.getD q 0 && !bit (s.fld (Rg.STK_THERM_SUS n)) q then s.suspectQuarter n q else s) s

/-- TSTK (R367): the highest valid reading; with none valid, a free value. -/
def stackTemp (s : State) (n : Nat) (ts : List Nat) : Nat × State :=
  let valid := s.validQuarters n
  if valid.isEmpty then s.fresh 12 else ((valid.map fun q => ts.getD q 0).foldl Nat.max 0, s)

/-- What follows from TSTK `t` (R367 to R369): the registers, STLIM held at 16 with fewer than two valid readings, the counts of
samples and the trip. `before` readings were valid before the sample. -/
def stackAct (s : State) (n t before : Nat) (runs : List Nat) : State :=
  let h := s.stackHeat n
  let s := (s.setFld (Rg.STK_THERM_TSTK n) (Nat.min 4095 t)).setFld (Rg.STK_THERM_THROT n) (if 680 ≤ t then 1 else 0)
  let few := decide ((s.validQuarters n).length < 2)
  let s := if few && decide (2 ≤ before) then s.logEdge 0x40F n 2 0 else s
  let s := if few then s.setFld (Rg.STK_THERM_STLIM n) 16 else s
  let tripped := s.stackHolds n
  let h : StackHeat := ⟨runs, if t < 656 then h.cool + 1 else 0, if 800 ≤ t && !few && !tripped then h.trip + 1 else 0,
    if t < 720 && tripped then h.clear + 1 else 0⟩
  let s := s.setHeat n h
  if 3 ≤ h.trip then s.stackTrip n t else s

/-- What the on-die ECC of stack `n` reports is added to the counters of its quarters (R206). -/
def onDieEcc (s : State) (n : Nat) (ecc : List (Nat × Nat)) : State :=
  (List.range 4).foldl (fun s k =>
    let r := quarterRegion n k
    let e := ecc.getD k (0, 0)
    if s.powered r then (s.count (Rg.SQ_CE_COUNT r) e.1).count (Rg.SQ_UE_COUNT r) e.2 else s) s

/-- The four readings of stack `n`, 1/8 °C (R367 to R369). -/
def stackSample (s : State) (n : Nat) (ts : List Nat) : State :=
  if !s.power.on then s
  else
    let runs := s.stackRuns n ts
    let x := (s.stackSuspects n runs).stackTemp n ts
    x.2.stackAct n x.1 (s.validQuarters n).length runs

/-- STLIM steps (R368), every 10 ms. -/
def stlim (s : State) (n : Nat) : State :=
  let l := s.fld (Rg.STK_THERM_STLIM n)
  if !s.power.on then s
  else if (s.validQuarters n).length < 2 then s.setFld (Rg.STK_THERM_STLIM n) 16
  else if 680 ≤ s.fld (Rg.STK_THERM_TSTK n) then (if 4 < l then s.setFld (Rg.STK_THERM_STLIM n) (Nat.max 4 (l / 2)) else s)
  else if 100 < (s.stackHeat n).cool then s.setFld (Rg.STK_THERM_STLIM n) (Nat.min 64 (2 * l))
  else s

/-- A stack's trip clears (R369): STLIM starts at 4, and what its quarters held goes on. -/
def stackClear (s : State) (n : Nat) : State :=
  if s.power.on && s.stackHolds n && decide (1000 < (s.stackHeat n).clear) then
    ((s.setFld (Rg.STK_THERM_TTRIP n) 0).setFld (Rg.STK_THERM_STLIM n) (if (s.validQuarters n).length < 2 then 16 else 4)).replay
  else s

end State

/-- The cold plate's sensors are sampled (R361, R370). -/
def execCpSample (x : PlateSample) (s : State) : Out := .next (s.plateSample x)

/-- The cooling cap (R362). -/
def execPcoolTick (flow : Nat) (tin tout : Int) (p : Nat) (s : State) : Out := .next (s.pcool flow tin tout p)

/-- The inlet is too hot (R363). -/
def execCoolantOvertemp (s : State) : Out := .next s.overtemp

/-- A region samples its diodes (R364). -/
def execRegionThermalSample (r : Fin 96) (h0 h1 h2 h3 : HotSpot) (s : State) : Out := .next (s.regionSample r [h0, h1, h2, h3])

/-- TLIM steps (R365). -/
def execTlimStep (r : Fin 96) (s : State) : Out := .next (s.tlim r)

/-- A region's trip clears (R366). -/
def execRegionTripClear (r : Fin 96) (s : State) : Out := .next (s.tripClear r)

/-- A stack's readings (R367). -/
def execStackThermalSample (n : Fin 24) (t0 t1 t2 t3 : Nat) (s : State) (ecc : List (Nat × Nat) := []) : Out :=
  .next ((s.onDieEcc n ecc).stackSample n [t0, t1, t2, t3])

/-- STLIM steps (R368). -/
def execStlimStep (n : Fin 24) (s : State) : Out := .next (s.stlim n)

/-- A stack's trip clears (R369). -/
def execStackTripClear (n : Fin 24) (s : State) : Out := .next (s.stackClear n)

/-- ALARM is recognised on CHAIN_IN (R371), or passes the bypass of a module without VAUX (R425). -/
def execAlarmReceived (s : State) : Out := .next (if s.power.rails.vaux then s.alarm 5 else s.emit (.chain .alarm))

end Sys2Proof.Machine
end

