-- ==== Sys2Proof/Machine/Mgmt.lean ====
section
/-!
DEFINITION. The management engine: the chain (R426 to R431), the time base (R434, R435), Quivor messages (R437 to R440), the
dictionary (R442 to R444) and the journal (R446, R447).
-/
namespace Sys2Proof.Machine

/-- Where the source of an object is (R333, R442): with the management engine on VAUX, in the edge ring on VEDGE, or in the control
complex. -/
inductive DictSrc where
  | aux
  | ring
  | complex
  deriving DecidableEq, Repr

/-- An object of the dictionary (R442, R443): bytes of its type (0 for DOMAIN), its type in the journal (R446), access 0 RO,
1 RW, 2 RB, 3 WC, and where its source is. -/
structure DictObj where
  size : Nat
  type : Nat
  acc : Nat
  src : DictSrc
  deriving DecidableEq, Repr

/-- Objects of each type. -/
def objU8 (acc : Nat) (src : DictSrc) : DictObj := ⟨1, 1, acc, src⟩
def objU16 (acc : Nat) (src : DictSrc) : DictObj := ⟨2, 2, acc, src⟩
def objU32 (acc : Nat) (src : DictSrc) : DictObj := ⟨4, 3, acc, src⟩
def objU64 (acc : Nat) (src : DictSrc) : DictObj := ⟨8, 4, acc, src⟩
def objOct (acc : Nat) (src : DictSrc) : DictObj := ⟨16, 7, acc, src⟩
def objDomain (src : DictSrc) : DictObj := ⟨0, 0, 0, src⟩

/-- The objects of R443. -/
def dictObj (idx sub : Nat) : Option DictObj :=
  match idx, sub with
  | 0x1000, 1 => some (objU32 0 .aux)
  | 0x1000, 2 => some (objU16 0 .aux)
  | 0x1000, 3 => some (objU8 0 .aux)
  | 0x1001, 1 => some (objOct 0 .aux)
  | 0x1001, 2 => some (objU16 0 .aux)
  | 0x1001, 3 => some (objU8 0 .aux)
  | 0x1001, 4 => some (objU64 0 .aux)
  | 0x1002, 1 => some (objDomain .complex)
  | 0x1002, 2 => some (objDomain .complex)
  | 0x1003, 1 => some (objU32 0 .ring)
  | 0x1003, 2 => some (objU32 0 .ring)
  | 0x1010, 1 => some (objDomain .complex)
  | 0x1100, 1 => some (objDomain .aux)
  | 0x1100, 2 => some (objDomain .aux)
  | 0x1200, 1 => some (objOct 1 .aux)
  | 0x1200, 2 => some (objOct 1 .aux)
  | 0x1200, 3 => some (objU8 3 .complex)
  | 0x1200, 4 => some (objU8 0 .aux)
  | 0x1200, 5 => some (objDomain .aux)
  | 0x1800, 1 => some (objU8 1 .aux)
  | 0x1810, 1 => some (objU8 2 .aux)
  | 0x1810, 2 => some (objU8 0 .aux)
  | 0x18F0, 1 => some (objU8 3 .aux)
  | 0x2001, 1 => some (objU32 1 .aux)
  | 0x2002, 1 => some (objU16 0 .ring)
  | 0x2002, 2 => some (objU16 0 .ring)
  | 0x2002, 3 => some (objU8 0 .ring)
  | 0x2003, 1 => some (objU16 0 .ring)
  | 0x2003, 2 => some (objU16 0 .ring)
  | 0x3001, 1 => some (objU16 0 .ring)
  | 0x3001, 2 => some (objU16 0 .ring)
  | 0x3001, 3 => some (objU16 0 .ring)
  | 0x3001, 4 => some (objU16 0 .ring)
  | 0x3001, 5 => some (objU32 0 .ring)
  | 0x3002, n => if 1 ≤ n ∧ n ≤ 96 then some (objU32 0 .ring) else none
  | 0x3003, n => if 1 ≤ n ∧ n ≤ 24 then some (objU32 0 .ring) else none
  | 0x4000, 1 => some (objU64 0 .aux)
  | 0x4000, 2 => some (objU8 0 .aux)
  | 0x4000, 3 => some (objU32 0 .aux)
  | 0x4010, 1 => some (objU16 1 .aux)
  | 0x4010, 2 => some ⟨4, 5, 0, .aux⟩
  | 0x4020, 1 => some (objU8 1 .ring)
  | 0x4020, 2 => some (objU32 0 .ring)
  | 0x5000, 1 => some (objU32 0 .ring)
  | 0x5000, 2 => some (objU32 0 .ring)
  | 0x5001, n => if 1 ≤ n ∧ n ≤ 3 then some (objU32 0 .ring) else none
  | 0x5002, 1 => some (objU8 1 .aux)
  | 0x6000, 1 => some (objU64 0 .complex)
  | 0x6000, 2 => some (objU32 0 .complex)
  | 0x6000, 3 => some (objU32 0 .complex)
  | 0x6010, 1 => some (objDomain .complex)
  | 0x7000, 1 => some (objU32 0 .aux)
  | 0x7000, 2 => some (objDomain .aux)
  | 0x7000, 3 => some (objU32 1 .aux)
  | 0x7000, 4 => some (objU8 1 .aux)
  | 0x7000, 5 => some (objU32 0 .aux)
  | _, _ => none

namespace State

/-- Is VAUX present, so that the management engine runs (R339, R341)? -/
def vaux (s : State) : Bool := s.power.rails.vaux

/-- Does an object's source have no power (R442): the edge ring before VEDGE is in regulation, the control complex before PGOOD? -/
def unpowered (s : State) (o : DictObj) : Bool :=
  match o.src with
  | .aux => false
  | .ring => !s.power.rails.vedge
  | .complex => !s.power.rails.vedge || s.mg.pgoodAt.isNone

/-- QSTATE (R443). -/
def qstate (s : State) : Nat := if s.crypto.jobs.contains .network then 1 else if s.crypto.quote.isEmpty then 0 else 2

/-- Requests of the request table whose state satisfies `p` (R443). -/
def requestsIn (s : State) (p : Nat → Bool) : Nat :=
  ((List.range 1048576).filter fun j => p (s.rq j 0 1)).length

/-- Tokens committed by the requests of tenant `t` (R443). -/
def tokensOf (s : State) (t : Nat) : Nat := Store.get 0 s.mg.tokens t

/-- The value of a fixed-size object of access RO or mirrored, none when it is not one or its region is not ON (R442, R443). -/
def dictMirror (s : State) (idx sub : Nat) : Option Nat :=
  match idx, sub with
  | 0x1000, 1 => some 0x534D4B49
  | 0x1000, 2 => some 0x96
  | 0x1000, 3 => some (Variant.code s.fuse.variant)
  | 0x1001, 1 => some (leNat (padTo 16 (s.fuse.serial.take 16)))
  | 0x1001, 2 => some (s.fuse.silrev % 65536)
  | 0x1001, 3 => some (s.fuse.archrev % 256)
  | 0x1001, 4 => some (s.fuse.mac % 2 ^ 48)
  | 0x1003, 1 => some (s.rd Rg.BU_STAT)
  | 0x1003, 2 => some (s.rd Rg.IMG_STAT)
  | 0x1200, 4 => some s.qstate
  | 0x1810, 2 => some s.mg.hostbridge
  | 0x2002, 1 => some (s.fld Rg.PM_POWER_PIN)
  | 0x2002, 2 => some s.pcapEff
  | 0x2002, 3 => some (s.fld Rg.PM_CAPSRC_SRC)
  | 0x2003, 1 => some (s.fld Rg.PM_IN_VIN)
  | 0x2003, 2 => some (s.fld Rg.PM_IN_IIN)
  | 0x3001, 1 => some (s.fld Rg.CP_FLOW_FLOW)
  | 0x3001, 2 => some (s.fld Rg.CP_TEMP_TIN)
  | 0x3001, 3 => some (s.fld Rg.CP_TEMP_TOUT)
  | 0x3001, 4 => some (s.fld Rg.CP_CAP_PCOOL)
  | 0x3001, 5 => some (s.rd Rg.CP_STAT)
  | 0x3002, n => if s.powered (n - 1) then some (s.rd (Rg.THERM_STAT (n - 1))) else none
  | 0x3003, n => some (s.rd (Rg.STK_THERM (n - 1)))
  | 0x4000, 1 => some s.ns
  | 0x4000, 2 => some (s.fld Rg.TB_STAT_STATE)
  | 0x4000, 3 => some s.mg.steps
  | 0x4010, 2 => some (s.rd Rg.TB_OFS)
  | 0x4020, 1 => some (s.rd Rg.REF_CTL % 4)
  | 0x4020, 2 => some (s.rd Rg.REF_STAT)
  | 0x5000, 1 => some (s.rd Rg.ELOG_TAIL)
  | 0x5000, 2 => some (s.rd Rg.ELOG_LOST)
  | 0x5001, n => some (s.rd (Rg.YMAP_FENCE (n - 1)))
  | 0x6000, 1 => some ((s.mg.tokens.map Prod.snd).foldl (· + ·) 0)
  | 0x6000, 2 => some (s.requestsIn liveState)
  | 0x6000, 3 => some (s.requestsIn (· == 3))
  | 0x7000, 1 => some s.mg.jseq
  | 0x7000, 5 => some s.mg.jlost
  | _, _ => none

/-- The default of a writable object (R443). -/
def dictDefault (s : State) (idx sub : Nat) : Nat :=
  match idx, sub with
  | 0x1800, 1 => 1
  | 0x2001, 1 => s.fuse.pcap
  | _, _ => 0

/-- Is the value mirrored from the device rather than kept as written? -/
def dictIsMirror (idx sub : Nat) : Bool :=
  match dictObj idx sub with
  | some o => o.acc == 0 || (idx == 0x4020 && sub == 1)
  | none => false

/-- The present value of a fixed-size object; none answers BUSY (R442). A command reads zero. -/
def dictValue (s : State) (idx sub : Nat) (o : DictObj) : Option Nat :=
  if s.unpowered o then none
  else if o.acc = 3 then some 0
  else if dictIsMirror idx sub then (s.dictMirror idx sub).map (· % 2 ^ (8 * o.size))
  else some (s.dict idx sub (s.dictDefault idx sub))

/-- The content of a DOMAIN object; none answers BUSY (R442, R443, R451). TENSTATS is kept by the firmware, and empty until core 0
has started. -/
def dictDomain (s : State) (idx sub : Nat) (o : DictObj) : Option (List Byte) :=
  if s.unpowered o then none
  else
    match idx, sub with
    | 0x1002, 1 => some s.fwDig
    | 0x1002, 2 => some s.piDig
    | 0x1010, 1 => some s.standing.flatten
    | 0x1100, 1 => some Config.ownChain
    | 0x1100, 2 => some Config.ktChain
    | 0x1200, 5 => if s.qstate = 1 then none else some s.crypto.quote
    | 0x6010, 1 =>
      some (if s.bring.entry.isNone then [] else (List.range 4096).flatMap fun t => leBytes 8 (s.tokensOf t) ++ leBytes 8 (s.tn t 0 8))
    | 0x7000, 2 => some ((List.range 4096).flatMap fun k => padTo 64 (Store.get [] s.mg.jring k))
    | _, _ => some []

/-- Is the value within the object's range (R443, R444)? -/
def dictInRange (s : State) (idx sub v : Nat) : Bool :=
  match idx, sub with
  | 0x1200, 3 => v == 1
  | 0x1800, 1 => decide (1 ≤ v ∧ v ≤ 3)
  | 0x1810, 1 => decide (v ≤ 1)
  | 0x18F0, 1 => v == 1
  | 0x2001, 1 => decide (2000 ≤ v ∧ v ≤ 65535)
  | 0x4010, 1 => decide (v ≤ 1000)
  | 0x4020, 1 => decide (v ≤ 3)
  | 0x5002, 1 => decide (v ≤ 31)
  | 0x7000, 3 => decide (v ≤ s.mg.jseq)
  | 0x7000, 4 => decide (v ≤ 1)
  | _, _ => true

/-! ### Journal -/

/-- JHEAD and JMODE (R443). -/
def jhead (s : State) : Nat := s.dict 0x7000 3 0
def jmode (s : State) : Nat := s.dict 0x7000 4 0

/-- A journal entry (R446, R447), which is an event of R441. -/
def journal (s : State) (src mac idx sub : Nat) (type size old new seq : Nat) : State :=
  let j := s.mg.jseq
  let e := leBytes 4 j ++ leBytes 1 src ++ leBytes 1 type ++ leBytes 6 mac ++ leBytes 2 idx ++ leBytes 1 sub ++ leBytes 1 size
    ++ leBytes 8 s.ns ++ leBytes 16 old ++ leBytes 16 new ++ leBytes 2 seq ++ leBytes 6 0
  let lost := s.jmode == 1 && decide (4096 ≤ j ∧ s.jhead ≤ j - 4096)
  ({ s with mg := { s.mg with jring := Store.set [] s.mg.jring (j % 4096) e, jseq := j + 1
                              jlost := if lost then s.mg.jlost + 1 else s.mg.jlost } } : State).signal 0x7000 1

/-- A control-channel write of REF_CTL (R444): as a change of REFPREF it is journaled. -/
def refCtlWrite (s : State) (v : Nat) : State :=
  let old := s.rd Rg.REF_CTL % 4
  let s := s.refCtl v
  s.journal 0xFD 0 0x4020 1 1 1 old (v % 4) 0

/-! ### The boot window -/

/-- The boot window closes (R429): HOSTBRIDGE is sampled, and the bridge becomes active or stays inactive (R319). -/
def closeWindow (s : State) : State :=
  if s.flag Rg.MG_CHAIN_BOOTWIN then
    let v := s.dict 0x1810 1 0
    let s := { s with mg := { s.mg with hostbridge := v } }
    (s.setFld Rg.MG_CHAIN_BOOTWIN 0).setFld Rg.HB_CFG_ACTIVE v
  else s

/-- The boot window is open 10 s after PGOOD rose (R429). -/
def windowTimeout (s : State) : State :=
  match s.mg.pgoodAt with
  | some t => if s.vaux && decide (t + 10000 * msCb ≤ s.time.cb) then s.closeWindow else s
  | none => s

/-! ### Quivor -/

/-- What a READ answers: status and data (R438, R442). -/
def quivorRead (s : State) (idx sub len off : Nat) : Nat × List Byte :=
  match dictObj idx sub with
  | none => (1, [])
  | some o =>
    if o.size = 0 then
      match s.dictDomain idx sub o with
      | none => (5, [])
      | some b => if b.length ≤ off then (6, []) else (0, (b.drop off).take len)
    else if len < o.size then (3, [])
    else
      match s.dictValue idx sub o with
      | none => (5, [])
      | some v => (0, leBytes o.size v)

/-- Is the object one that cannot be served yet (R442, R451)? -/
def writeBusy (s : State) (idx sub : Nat) (o : DictObj) : Bool :=
  s.unpowered o || (idx == 0x1200 && sub == 3 && s.qstate == 1)

/-- The status of a WRITE of value `v` in `len` bytes (R438): the lowest failing one. -/
def writeStatus (s : State) (idx sub len v : Nat) : Nat :=
  match dictObj idx sub with
  | none => 1
  | some o =>
    if o.acc = 0 then 2
    else if len ≠ o.size then 3
    else if !s.dictInRange idx sub v then 4
    else if s.writeBusy idx sub o then 5
    else if s.jmode = 1 ∧ s.jhead + 4080 ≤ s.mg.jseq ∧ ¬ (idx = 0x7000 ∧ sub = 3) then 7
    else 0

/-- The effect of a WRITE that is accepted (R442, R444): the value is stored or acts at once. -/
def writeEffect (s : State) (idx sub v : Nat) : State :=
  match idx, sub with
  | 0x1200, 3 => s.cryPush .network
  | 0x18F0, 1 => s.closeWindow
  | 0x4020, 1 => s.refCtl v
  | _, _ =>
    { s with mg := { s.mg with dict := Store.put s.mg.dict (256 * idx + sub) v } }

/-- An accepted WRITE: stored, and journaled unless it is JHEAD (R443, R446). A command acts once its entry is made. -/
def writeAccept (s : State) (src mac seq idx sub v : Nat) : State :=
  match dictObj idx sub with
  | none => s
  | some o =>
    let old := (s.dictValue idx sub o).getD 0
    let log (s : State) : State := if idx = 0x7000 ∧ sub = 3 then s else s.journal src mac idx sub o.type o.size old v seq
    if o.acc = 3 then (log s).writeEffect idx sub v else log (s.writeEffect idx sub v)

/-- A response: kept for its requester (R439) and sent to the source MAC address (R424). -/
def respond (s : State) (mac src seq idx sub status off : Nat) (data : List Byte) : State :=
  let b := quivor 3 (s.fld Rg.MG_NODE_NODE) src seq idx sub status data.length off data
  let s := { s with mg := { s.mg with kept := (src, seq, b) :: s.mg.kept.filter fun e => e.1 != src } }
  s.frame mac 0x88B5 b

/-- Is the frame a request of opcode `op` for this module (R437)? A READ carries no DATA, whatever its LEN. -/
def quivorFor (s : State) (op : Nat) (f : List Byte) : Bool :=
  s.vaux && s.flag Rg.MG_NODE_VALID && decide (16 ≤ f.length) && byteAt f 0 == 1 && byteAt f 1 == op
  && byteAt f 3 == s.fld Rg.MG_NODE_NODE && decide (fieldAt f 10 2 ≤ 1024)
  && (op == 1 || decide (16 + fieldAt f 10 2 ≤ f.length))

/-- A request is executed, or answered from what was kept (R438, R439). -/
def quivorRequest (s : State) (op : Nat) (f : List Byte) (mac : Nat) : State :=
  if !s.quivorFor op f then s
  else
    let src := byteAt f 2
    let seq := fieldAt f 4 2
    let idx := fieldAt f 6 2
    let sub := byteAt f 8
    let len := fieldAt f 10 2
    let off := fieldAt f 12 4
    match s.mg.kept.find? fun e => e.1 == src && e.2.1 == seq with
    | some e => s.frame mac 0x88B5 e.2.2
    | none =>
      if op = 1 then
        let x := s.quivorRead idx sub len off
        let dom := match dictObj idx sub with | some o => o.size == 0 | none => false
        s.respond mac src seq idx sub x.1 (if dom then off else 0) x.2
      else
        let v := leNat (bytesAt f 16 len)
        let st := s.writeStatus idx sub len v
        let s := if st = 0 then s.writeAccept src mac seq idx sub v else s
        s.respond mac src seq idx sub st 0 []

/-- Does the frame name object `idx`, `sub`? -/
def quivorNames (f : List Byte) (idx sub : Nat) : Bool := fieldAt f 6 2 == idx && byteAt f 8 == sub

/-- A 10 ms interval after an error-log NOTIFY ends (R441). -/
def notifyTick (s : State) : State :=
  match s.mg.elogAt with
  | some t =>
    if s.mg.elogDue && decide (t + 10 * msCb ≤ s.time.cb) then s.elogNotify else s
  | none => s

/-! ### Chain -/

/-- A pattern on CHAIN_IN: the passive bypass of a module without VAUX carries it on unchanged (R425); else `f` takes it. -/
def chainIn (s : State) (p : ChainOut) (f : State → State) : State := if s.vaux then f s else s.emit (.chain p)

/-- An ADDRESS token with count `n` (R426 to R428): the module is numbered anew, which discards the kept responses (R453), forwards a
token and enters TIME phase. A node number that is not valid reads as a free value. -/
def addressTake (s : State) (n : Nat) : State :=
  if s.fld Rg.MG_CHAIN_PHASE = 2 then s
  else
    let valid := decide (1 ≤ n ∧ n ≤ 31)
    let x := if valid then (n, s) else s.fresh 6
    let s := ((x.2.setFld Rg.MG_NODE_VALID (if valid then 1 else 0)).setFld Rg.MG_NODE_OVF (if 32 ≤ n then 1 else 0)).setFld
      Rg.MG_NODE_NODE x.1
    let s : State := { s with mg := { s.mg with kept := [] } }
    (s.emit (.chain (.token (if valid then n + 1 else n)))).setFld Rg.MG_CHAIN_PHASE 1

/-- The multiple of 10^9 nearest to `t`. -/
def nearestSecond (t : Nat) : Nat := (t + 500000000) / 1000000000 * 1000000000

/-- A TIME pulse (R426, R430, R434): it is forwarded in TIME phase, and gives the phase once CHAINDLY has been written. -/
def pulseTake (s : State) : State :=
  if s.fld Rg.MG_CHAIN_PHASE ≠ 1 then s
  else
    let s := s.emit (.chain .pulse)
    let d := s.dict 0x4010 1 0
    let n := s.fld Rg.MG_NODE_NODE
    if d ≠ 0 ∧ s.flag Rg.MG_NODE_VALID then
      let edge := nearestSecond s.ns + n * d + (n - 1) * 1000
      { s with mg := { s.mg with pulse := some ((s.ns : Int) - edge) } }
    else s

/-- An unrecognised pattern (R426). -/
def badPattern (s : State) : State :=
  if s.fld Rg.MG_CHAIN_PHASE = 2 then s else s.setFld Rg.MG_CHAIN_BADPAT 1

/-! ### Time base -/

/-- gPTP gives the aligned time (R434). -/
def syncTake (s : State) (aligned : Nat) : State :=
  if s.vaux then { s with mg := { s.mg with ptp := some ((s.ns : Int) - aligned) } } else s

/-- A gPTP peer-delay request is answered (R434), to the peer-delay address of IEEE 802.1AS. -/
def peerDelay (s : State) (seq : Nat) : State :=
  if s.vaux then s.frame 0x0180C200000E 0x88F7 (Config.pdelayResp seq s.ns) else s

/-- The offset that this second's messages give, with the state it stands for (R434, R435): phase from pulses and seconds from
gPTP; without gPTP, pulses keep a time base that has been aligned. -/
def offsetNow (s : State) : Option (Int × Nat) :=
  match s.mg.pulse, s.mg.ptp with
  | some o, some p => some (o + (p - o + 500000000) / 1000000000 * 1000000000, 2)
  | some o, none => if s.mg.alignedAt.isSome then some (o, 2) else none
  | none, some p => some (p, 1)
  | none, none => none

/-- The time base steps by `-off` ns, which is journaled (R435). -/
def stepTime (s : State) (off : Int) : State :=
  let old := s.mg.steps
  let s : State := { s with
    time := { s.time with tb3 := ((s.time.tb3 : Int) - 3 * off).toNat }
    mg := { s.mg with steps := old + 1, correct := 0 } }
  let s := s.setFld Rg.TB_STAT_STEPS (Nat.min 0xFFFF (old + 1))
  s.journal 0xFE 0 0x4000 3 3 4 old (old + 1) 0

/-- A signed value saturated to 32 bits. -/
def satI32 (v : Int) : Nat := wrapInt 32 (if v < -2147483648 then -2147483648 else if 2147483647 < v then 2147483647 else v)

/-- The second's offset and its correction (R435). -/
def offsetStep (s : State) : State :=
  if !s.vaux then s
  else
    match s.offsetNow with
    | some (off, st) =>
      let first := s.mg.alignedAt.isNone
      let s := (s.wr Rg.TB_OFS (satI32 off)).setFld Rg.TB_STAT_STATE st
      let s : State := { s with mg := { s.mg with ptp := none, pulse := none, alignedAt := some s.time.cb } }
      if first ∨ off < -1000000 then s.stepTime off
      else { s with mg := { s.mg with correct := -3 * off } }
    | none =>
      match s.mg.alignedAt with
      | some t => if t + 10000 * msCb ≤ s.time.cb then s.setFld Rg.TB_STAT_STATE 3 else s
      | none => s

end State

/-- An ADDRESS token (R425, R427). -/
def execAddressToken (n : BitVec 6) (s : State) : Out := .next (s.chainIn (.token n.toNat) fun s => s.addressTake n.toNat)

/-- A TIME pulse (R425, R430). -/
def execTimePulse (s : State) : Out := .next (s.chainIn .pulse State.pulseTake)

/-- A pattern of no recognised form (R425, R426). -/
def execBadpat (s : State) : Out := .next (s.chainIn .unknown State.badPattern)

/-- A WRITE of BOOTCLOSE (R429). -/
def execBootclose (frame : List Byte) (mac : BitVec 48) (s : State) : Out :=
  .next (if State.quivorNames frame 0x18F0 1 then s.quivorRequest 2 frame mac.toNat else s)

/-- The boot window's limit (R429). -/
def execBootWindowTimeout (s : State) : Out := .next s.windowTimeout

/-- A READ (R437). -/
def execRead (frame : List Byte) (mac : BitVec 48) (s : State) : Out := .next (s.quivorRequest 1 frame mac.toNat)

/-- A WRITE (R438). -/
def execWrite (frame : List Byte) (mac : BitVec 48) (s : State) : Out := .next (s.quivorRequest 2 frame mac.toNat)

/-- A WRITE of QUOTE_GO (R451). -/
def execQuoteGo (frame : List Byte) (mac : BitVec 48) (s : State) : Out :=
  .next (if State.quivorNames frame 0x1200 3 then s.quivorRequest 2 frame mac.toNat else s)

/-- A 10 ms interval ends (R441). -/
def execNotifyTimer (s : State) : Out := .next s.notifyTick

/-- A Sync and Follow_Up (R434). -/
def execSync (aligned : Nat) (s : State) : Out := .next (s.syncTake aligned)

/-- A peer-delay request (R434). -/
def execPeerDelayRequest (seq : BitVec 16) (s : State) : Out := .next (s.peerDelay seq.toNat)

/-- The second's offset correction (R435). -/
def execOffsetTick (s : State) : Out := .next s.offsetStep

end Sys2Proof.Machine
end

