-- ==== Sys2Proof/Machine/Sampling.lean ====
section
/-!
DEFINITION. Feeders (R264 to R266), the sampling unit (R267 to R273) and speculative decoding (R275).
-/
namespace Sys2Proof.Machine

/-- A row entry (R264). -/
structure RowEntry where
  req : Nat
  pos : Nat
  gidx : Nat
  ctx : Nat
  ptok : Nat
  ptokoff : Nat
  ntok : Nat
  kind : Nat
  tok : Nat
  depth : Nat
  dstep : Nat
  deriving DecidableEq, Repr

/-- The row entry in 32 bytes (R264). -/
def RowEntry.ofBytes (b : List Byte) : RowEntry :=
  ⟨fieldAt b 0 4, fieldAt b 4 4, fieldAt b 8 4, fieldAt b 12 4, fieldAt b 16 4, fieldAt b 20 2, byteAt b 22, byteAt b 23,
   fieldAt b 24 4, byteAt b 28, byteAt b 29⟩

/-- Are KIND and NTOK of a row in range (R264, R273)? -/
def RowEntry.ok (w : RowEntry) : Bool :=
  match w.kind with
  | 0 => true
  | 1 => decide (1 ≤ w.ntok ∧ w.ntok ≤ 64)
  | 2 => decide (1 ≤ w.ntok ∧ w.ntok ≤ 64)
  | 3 => w.ntok == 1
  | 4 => w.ntok == 1
  | 5 => decide (w.ntok = w.depth + 1 ∧ w.depth ≤ 8)
  | _ => false

/-- Positions of a row whose logits are formed: each of a verify row, one of any other. -/
def RowEntry.positions (w : RowEntry) : Nat := if w.kind = 5 then w.ntok else 1

/-- A record of SMPQ (R266): the pair (m, s) and the 64 entries, value and ID, in the format of R151. -/
structure SmpRec where
  row : Nat
  pass : Nat
  model : Nat
  resv : Nat
  m : Word
  sum : Word
  list : List (Word × Word)
  deriving DecidableEq, Repr

/-- The record in 66 words (R266). -/
def SmpRec.read (ws : List DWord) : SmpRec :=
  let b := ofWords ws
  ⟨fieldAt b 0 2, byteAt b 2, byteAt b 3, fieldAt b 4 4, BitVec.ofNat 32 (fieldAt b 8 4), BitVec.ofNat 32 (fieldAt b 12 4),
   (List.range 64).map fun i =>
     let o := 16 + 128 * (i / 16) + 4 * (i % 16)
     (BitVec.ofNat 32 (fieldAt b o 4), BitVec.ofNat 32 (fieldAt b (o + 64) 4))⟩

/-- The whole records among words; `n` bounds them. -/
def smpRecs : Nat → List DWord → List SmpRec
  | 0, _ => []
  | n + 1, ws => if ws.length < 66 then [] else SmpRec.read (ws.take 66) :: smpRecs n (ws.drop 66)

/-- The words of SMPQ without the records that `sel` selects; `n` bounds them. -/
def smpDrop (sel : SmpRec → Bool) : Nat → List DWord → List DWord
  | 0, ws => ws
  | n + 1, ws =>
    if ws.length < 66 then ws
    else if sel (SmpRec.read (ws.take 66)) then smpDrop sel n (ws.drop 66)
    else ws.take 66 ++ smpDrop sel n (ws.drop 66)

/-! ### The pipeline -/

/-- The sampling parameters of a context (R246, R265). -/
structure SmpParams where
  temp : FVal
  topp : FVal
  minp : FVal
  topk : Nat
  nlogp : Nat
  deriving DecidableEq, Repr

/-- The parameters in a context's header (R265). -/
def SmpParams.ofHeader (b : List Byte) : SmpParams :=
  ⟨fk (fieldAt b 16 4), fk (fieldAt b 20 4), fk (fieldAt b 24 4), fieldAt b 36 2, byteAt b 38⟩

/-- An entry kept by the sampler: ID, value a and probability p. -/
structure KeptEntry where
  id : Word
  a : FVal
  p : FVal
  deriving DecidableEq, Repr

/-- a ≥ b (R114). -/
def geV (a b : FVal) : Bool := ltV b a || eqV a b

/-- The list of a row, which ends at its first pad entry or NaN (R268). -/
def candidates (l : List (Word × Word)) : List (Word × Word) :=
  l.takeWhile fun e => e.2 != 0xFFFFFFFF && !(f32 e.1).isNan

/-- Running sums c_j, each rounded (R269). -/
def runSums (c : FVal) : List FVal → List FVal
  | [] => []
  | p :: ps => let c' := radd c p; c' :: runSums c' ps

/-- The entries up to and including the first whose running sum reaches `top` (R269, step 5). -/
def topP (top : FVal) (c : FVal) : List KeptEntry → List KeptEntry
  | [] => []
  | e :: es => let c' := radd c e.p; if geV c' top then [e] else e :: topP top c' es

/-- What step 1 of R269 reports. -/
inductive Decided where
  | numeric
  | noFinite
  | kept (l : List KeptEntry)
  deriving DecidableEq, Repr

/-- Steps 1 to 5 of R269 for candidates `l`, the pair (m, s) and at most `kmax` entries. -/
def keptList (q : SmpParams) (kmax : Nat) (m sum : FVal) (l : List (Word × Word)) : Decided :=
  let xs := candidates l
  if m.isNan || sum.isNan then .numeric
  else if m == .inf true || !((xs.head?.map fun e => (f32 e.1).isFin).getD false) then .noFinite
  else
    let k := if q.topk = 0 then kmax else Nat.min q.topk kmax
    let ks := (xs.take k).takeWhile fun e => f32 e.1 != .inf true
    let greedy := q.temp.isZero
    let rs := sfRcp sum
    let es := (ks.zipIdx).map fun e =>
      let a := f32 e.1.1
      (⟨e.1.2, a,
        if greedy then (if e.2 = 0 then FVal.one else FVal.zero)
        else rmul (sfExp2 (rmul (radd a m.negate) (fk 0x3FB8AA3B))) rs⟩ : KeptEntry)
    let p0 := (es.head?.map KeptEntry.p).getD FVal.zero
    let es := es.takeWhile fun e => geV e.p (rmul q.minp p0)
    .kept (topP q.topp FVal.zero es)

/-- The 64-bit product's halves (R270). -/
def mulhilo (a b : Nat) : Nat × Nat := (a * b / 2 ^ 32 % 2 ^ 32, a * b % 2 ^ 32)

/-- Rounds of Philox-4x32 (R270): keys, counter words and the rounds left; `first` on the first. -/
def philoxRounds : Nat → Bool → Nat → Nat → Nat → Nat → Nat → Nat → Nat
  | 0, _, _, _, c0, _, _, _ => c0
  | n + 1, first, k0, k1, c0, c1, c2, c3 =>
    let k0 := if first then k0 else (k0 + 0x9E3779B9) % 2 ^ 32
    let k1 := if first then k1 else (k1 + 0xBB67AE85) % 2 ^ 32
    let x := mulhilo 0xD2511F53 c0
    let y := mulhilo 0xCD9E8D57 c2
    philoxRounds n false k0 k1 (y.1 ^^^ c1 ^^^ k0) y.2 (x.1 ^^^ c3 ^^^ k1) x.2

/-- The first output word of Philox-4x32-10 (R270). -/
def philox (seed g stream : Nat) : Nat := philoxRounds 10 true (seed % 2 ^ 32) (seed / 2 ^ 32 % 2 ^ 32) (g % 2 ^ 32) stream 0 0

/-- The uniform of a draw (R270). -/
def uniform (seed g stream : Nat) : FVal := .fin false (philox seed g stream / 256) (-24)

/-- A draw (R269, step 6): the first entry whose running sum exceeds t, or the last. -/
def drawEntry (u : FVal) (ws : List FVal) (es : List KeptEntry) : Option KeptEntry :=
  let cs := runSums FVal.zero ws
  let t := rmul u (cs.getLastD FVal.zero)
  match (es.zip cs).find? fun e => ltV t e.2 with
  | some e => some e.1
  | none => es.getLast?

/-- The token of a kept list (R269, step 6). -/
def drawKept (q : SmpParams) (u : FVal) (es : List KeptEntry) : Option KeptEntry :=
  if q.temp.isZero then es.head? else drawEntry u (es.map KeptEntry.p) es

/-- The logprob of value `a` (R271). -/
def logprob (a m sum : FVal) : Word :=
  r47 (addV (radd a m.negate) (rmul (sfLog2 sum) (fk 0x3F317218)).negate)

/-- Payload flit 1 of a TOKEN packet (R272). -/
def tokenFlit (id status : Nat) (last bonus : Bool) (lp : Word) : DWord :=
  BitVec.ofNat 64 (id % 2 ^ 18 + status * 2 ^ 18 + (if last then 2 ^ 20 else 0) + (if bonus then 2 ^ 21 else 0)
    + lp.toNat * 2 ^ 32)

namespace State

/-! ### Rows and contexts -/

/-- Rows of the segments of KIND `k` under variant record `b` (R261). -/
def variantRows (b : List Byte) (k : Nat) : Nat :=
  match k with | 0 => fieldAt b 2 2 | 1 => fieldAt b 4 2 | 2 => fieldAt b 8 2 | 3 => fieldAt b 6 2 | _ => 0

/-- SEGNO and KIND of the segment region `r` runs (R187). -/
def segOf (s : State) (r : Nat) : Nat × Nat :=
  match (s.region r).seg with
  | some g => (g.no, ((imgSegments s.image s.place)[g.idx]?.map fun e => e.2.1).getD 4)
  | none => (0x7FFF, 4)

/-- The row count of region `r`'s segment (R261): the greatest of the variants whose pattern holds it. -/
def rowCount (s : State) (r : Nat) : Nat :=
  let b := servingBytes s.image s.place
  let x := s.segOf r
  ((List.range (byteAt b 0)).map fun v =>
    let w := bytesAt b (64 + 80 * v) 80
    if (List.range (byteAt w 0)).any fun i => fieldAt w (16 + 2 * i) 2 == x.1 then variantRows w x.2 else 0).foldl Nat.max 0

/-- The control-memory offset of row `row` of the slot of the segment that region `r` runs (R264). -/
def rowAt (s : State) (r row : Nat) : Nat :=
  let slot := (s.rd (Rg.SEGSEQ r) + 15) % 16
  s.fld Rg.ROWRING_OFF + (slot * imgRowmax s.image s.place + row) * 32

/-- Fault 0x0218 (R273): QH value `q`, reason, entry index and page. -/
def samplerFault (s : State) (r q reason idx page : Nat) : State :=
  s.raise r { code := 0x218, qh := 0xC000 + q, detail := reason * 2 ^ 24 + idx, aux := page }

/-- A row of region `r`'s slot, checked (R264, R273); `q` is the queue that a fault names. -/
def rowRead (s : State) (r q row : Nat) : Option RowEntry × State :=
  match s.cmTake 9 (s.rowAt r row) 32 with
  | (none, s) => (none, s.samplerFault r q 3 0 0)
  | (some b, s) =>
    let w := RowEntry.ofBytes b
    if w.ok then (some w, s) else (none, s.samplerFault r q 4 (w.req % 2 ^ 20) 0)

/-- First page of sampler context `c` (R265). -/
def ctxPage (s : State) (c : Nat) : Nat := s.rd Rg.CTXBASE + 6 * c

/-- `n` bytes at byte `o` of a row's context; a failed read raises reason 3 (R273). -/
def ctxRead (s : State) (r q : Nat) (w : RowEntry) (o n : Nat) : Option (List Byte) × State :=
  let p := s.ctxPage w.ctx + o / 65536
  match s.pageTake p (o % 65536) n with
  | (some b, s) => (some b, s)
  | (none, s) => (none, s.samplerFault r q 3 (w.req % 2 ^ 20) p)

/-- The header of a row's context, checked against the row (R265, R273). -/
def ctxHeader (s : State) (r q : Nat) (w : RowEntry) : Option (List Byte) × State :=
  match s.ctxRead r q w 0 64 with
  | (none, s) => (none, s)
  | (some b, s) =>
    if fieldAt b 0 4 = w.req ∧ fieldAt b 4 4 = w.gidx then (some b, s)
    else (none, s.samplerFault r q 2 (w.req % 2 ^ 20) (s.ctxPage w.ctx))

/-- A write of context bytes; one that fails raises reason 3 (R273). -/
def ctxWrite (s : State) (r : Nat) (w : RowEntry) (o : Nat) (bs : List Byte) : State :=
  let p := s.ctxPage w.ctx + o / 65536
  match s.pageWrite p (o % 65536) bs ⟨0, 0, 0⟩ with
  | (.ok _, s) => s
  | (.error _, s) => s.samplerFault r 0 3 (w.req % 2 ^ 20) p

/-! ### Feeders -/

/-- The feed declarations of region `r` that serve segments of KIND `k` (R266): draft models' in DRAFT segments. -/
def feedsFor (s : State) (r k : Nat) : List FeedDecl :=
  (imgFeeds s.image s.place).filter fun d => d.region == r && (d.model != 0) == (k == 2)

/-- Words pushed into the SMPR of cluster `c` (R266). -/
def smprPush (s : State) (r c : Nat) (bs : List Byte) : State :=
  s.modRegion r fun g => { g with smpr := g.smpr ++ (toWords (ceilDiv bs.length 8) bs).map fun w => (c, w) }

/-- The TOKENS record of a row (R266). -/
def tokensRecord (s : State) (r : Nat) (w : RowEntry) : Option (List Byte) × State :=
  match w.kind with
  | 1 | 2 =>
    match s.pageTake w.ptok (256 * w.ptokoff) (4 * w.ntok) with
    | (some b, s) => (some (padTo 256 b), s)
    | (none, s) => (none, s.samplerFault r 1 3 (w.req % 2 ^ 20) w.ptok)
  | 3 | 4 => (some (padTo 256 (leBytes 4 w.tok)), s)
  | 5 =>
    match s.ctxHeader r 1 w with
    | (none, s) => (none, s)
    | (some _, s) =>
      match s.ctxRead r 1 w 8192 32 with
      | (some b, s) => (some (padTo 256 (leBytes 4 w.tok ++ b.take (4 * w.depth))), s)
      | (none, s) => (none, s)
  | _ => (some (List.replicate 256 0), s)

/-- The header of an ADJ record (R266): flags, NPEN, REP, RREP, PRES and RT, each 4 bytes, then zeros. -/
def adjHeader (h : List Byte) (draft : Bool) : List Byte :=
  let temp := fieldAt h 16 4
  let rep := fieldAt h 28 4
  let pres := fieldAt h 32 4
  let npen := fieldAt h 8 2
  let pen := !draft && npen != 0
  let mask := !draft && byteAt h 10 == 1
  let flags := (if pen then 1 else 0) + (if mask then 2 else 0) + (if (fk temp).isZero then 0 else 4)
  padTo 32 (leBytes 4 flags ++ leBytes 4 npen ++ leBytes 4 rep ++ leBytes 4 (r47 (sfRcp (fk rep))).toNat ++ leBytes 4 pres
    ++ leBytes 4 (r47 (sfRcp (fk temp))).toNat)

/-- The ADJ records of a row for one declaration, position by position (R266); `n` positions from `j` on. -/
def adjRecords (s : State) (r : Nat) (w : RowEntry) (d : FeedDecl) (h : List Byte) : Nat → Nat → Option (List Byte) × State
  | 0, _ => (some [], s)
  | n + 1, j =>
    match s.ctxRead r 1 w 64 1024 with
    | (none, s) => (none, s)
    | (some pen, s) =>
      match s.ctxRead r 1 w (65536 + 32768 * j + d.vlo / 8) (d.vn / 8) with
      | (none, s) => (none, s)
      | (some mask, s) =>
        match s.adjRecords r w d h n (j + 1) with
        | (none, s) => (none, s)
        | (some rest, s) => (some (adjHeader h (w.kind == 4) ++ pen ++ mask ++ rest), s)

/-- The declared records of a row for one declaration (R266). A row of KIND 0 has records of zeros but for ARG. -/
def feedDecl (s : State) (r : Nat) (w : RowEntry) (d : FeedDecl) : State :=
  if (s.region r).halted then s
  else
    let arg := if bit d.recs 0 then leBytes 4 (w.req % 2 ^ 20) ++ leBytes 4 w.pos else []
    let toks := if bit d.recs 1 then s.tokensRecord r w else (some [], s)
    match toks with
    | (none, s) => s
    | (some tb, s) =>
      let adj : Option (List Byte) × State :=
        if !bit d.recs 2 then (some [], s)
        else if w.kind = 0 then (some (List.replicate (1056 + d.vn / 8) 0), s)
        else
          match s.ctxHeader r 1 w with
          | (none, s) => (none, s)
          | (some h, s) => s.adjRecords r w d h w.positions 0
      match adj with
      | (none, s) => s
      | (some ab, s) => s.smprPush r d.cluster (arg ++ tb ++ ab)

/-- The SMPQ records of a row and model at sampling region `q`, in order. -/
def rowRecs (s : State) (q row model : Nat) : List SmpRec :=
  let ws := (s.region q).smpq
  (smpRecs ws.length ws).filter fun x => x.row == row && x.model == model

/-- What a row takes from its request-table entry, SEED, LOGP and DRAFT, is read and checked (R254, R413); a word that cannot be read
raises reason 3 with QH value `q` (R273). -/
def requestRead (s : State) (r q : Nat) (w : RowEntry) : Bool × State :=
  if w.kind ≤ 1 then (true, s)
  else
    match s.cmTake 9 (s.rqAt (w.req % 2 ^ 20)) 56 with
    | (none, s) => (false, s.samplerFault r q 3 (w.req % 2 ^ 20) 0)
    | (some _, s) => (true, s)

/-- The model whose rows region `r`'s segment decides: the request's draft in a DRAFT segment, else the main model. -/
def rowModel (s : State) (w : RowEntry) : Nat := if w.kind = 4 then s.rq (w.req % 2 ^ 20) 46 1 else 0

/-- Does a record belong to row `row`, in a segment of KIND `k` (R264, R266)? A row of KIND 0 of a DRAFT segment takes those of
every draft model, to be discarded. -/
def ofRow (s : State) (k row : Nat) (w : RowEntry) (x : SmpRec) : Bool :=
  x.row == row && (if k == 2 && w.kind != 4 then x.model != 0 else x.model == s.rowModel w)

/-- The FLOOR records of a row and pass for one declaration (R266, R268): one for each position, from the last entry of
the pass before. -/
def floorPush (s : State) (r : Nat) (d : FeedDecl) (recs : List SmpRec) : State :=
  s.smprPush r d.cluster (recs.flatMap fun x =>
    let e := x.list.getLastD (0x7FC00000, 0xFFFFFFFF)
    leBytes 4 e.1.toNat ++ leBytes 4 e.2.toNat)

/-- The feeder of region `r` serves row `row`, if it is the row's turn (R266). -/
def feed (s : State) (r row : Nat) : State :=
  let seq := s.rd (Rg.SEGSEQ r)
  let s := if (s.region r).feedSeq = seq then s
    else s.modRegion r fun g => { g with feedSeq := seq, feedPass := 0, feedRow := 0 }
  let g := s.region r
  let n := s.rowCount r
  let k := (s.segOf r).2
  let turn := if row + 1 < n then (g.feedPass, row + 1) else (g.feedPass + 1, 0)
  let served (s : State) : State := s.modRegion r fun g => { g with feedPass := turn.1, feedRow := turn.2 }
  if row ≠ g.feedRow ∨ n ≤ row then s
  else
    match s.rowRead r 1 row with
    | (none, s) => s
    | (some w, s) =>
      if g.feedPass = 0 then (s.feedsFor r k).foldl (fun s d => s.feedDecl r w d) (served s)
      else if imgCandpass s.image s.place ≤ g.feedPass then s
      else
        match if w.kind = 4 then s.requestRead r 1 w else (true, s) with
        | (false, s) => s
        | (true, s) =>
          let m := s.rowModel w
          let recs := (s.rowRecs (imgSampler s.image s.place m) row m).filter fun x => x.pass + 1 == g.feedPass
          if recs.length < w.positions then s
          else ((s.feedsFor r k).filter fun d => bit d.recs 3).foldl (fun s d => s.floorPush r d recs) (served s)

/-! ### Sampling -/

/-- Reason 1 of R273: the first record that names no row of the segment, is out of order in PASS, or has a reserved
field set. `pos` gives the positions of a row. -/
def badRec (rows : Nat) (pos : Nat → Nat) : List SmpRec → List SmpRec → Option SmpRec
  | _, [] => none
  | seen, x :: xs =>
    let before := (seen.filter fun y => y.row == x.row && y.model == x.model).length
    if rows ≤ x.row ∨ x.resv ≠ 0 ∨ x.pass ≠ before / pos x.row then some x else badRec rows pos (seen ++ [x]) xs

/-- The entry index that reason 1 names (R273): that of the record's row, 0 where it names none. -/
def badIdx (s : State) (r : Nat) (x : SmpRec) : Nat :=
  if x.row < s.rowCount r then (RowEntry.ofBytes (s.cmBytes (s.rowAt r x.row) 32)).req % 2 ^ 20 else 0

/-- The entries of the rows that SMPQ records name are read (R264, R413): one that cannot be raises reason 3 (R273). -/
def rowsRead (s : State) (r : Nat) : List Nat → Bool × State
  | [] => (true, s)
  | row :: rows =>
    match s.cmTake 9 (s.rowAt r row) 32 with
    | (none, s) => (false, s.samplerFault r 0 3 0 0)
    | (some _, s) => s.rowsRead r rows

/-- The rows of the segment that records name. -/
def namedRows (s : State) (r : Nat) (recs : List SmpRec) : List Nat :=
  (dedup (recs.map SmpRec.row)).filter fun row => decide (row < s.rowCount r)

/-- Positions of a row of region `r`'s slot as its entry stands. -/
def positionsOf (s : State) (r row : Nat) : Nat :=
  Nat.max 1 (RowEntry.ofBytes (s.cmBytes (s.rowAt r row) 32)).positions

/-- The list and pair of position `j` of a row, if every pass has arrived (R266, R268). -/
def positionList (recs : List SmpRec) (passes j : Nat) : Option (FVal × FVal × List (Word × Word)) :=
  let at_ (p : Nat) : Option SmpRec := (recs.filter fun x => x.pass == p)[j]?
  match at_ 0 with
  | none => none
  | some x =>
    let ls := (List.range passes).map at_
    if ls.all Option.isSome then some (f32 x.m, f32 x.sum, (ls.filterMap id).flatMap SmpRec.list) else none

/-- The alternatives of a token (R271): NLOGP entries of ID and logprob, with pads. -/
def alternatives (n : Nat) (m sum : FVal) (l : List (Word × Word)) : List Byte :=
  let xs := candidates l
  (List.range n).flatMap fun i =>
    match xs[i]? with
    | some e => leBytes 4 e.2.toNat ++ leBytes 4 (logprob (f32 e.1) m sum).toNat
    | none => leBytes 4 0xFFFFFFFF ++ leBytes 4 0xFF800000

/-- The TOKEN packet of a decided token (R272). -/
def sendToken (s : State) (r : Nat) (w : RowEntry) (g id status : Nat) (last bonus : Bool) (lp : Word) : State :=
  s.packet 10 0x8000 (nodeOfRegion r) 0 0 [BitVec.ofNat 64 (w.req + g % 2 ^ 32 * 2 ^ 32), tokenFlit id status last bonus lp]

/-- A report without a token: status 1 no finite candidate, 2 NUMERIC (R272, R463). -/
def sendReport (s : State) (r : Nat) (w : RowEntry) (g status : Nat) : State :=
  (s.count (Rg.SMP_NOFIN r) 1).sendToken r w g 0 status true false 0

/-- A decided token of position `k` of a step: its alternatives are written first, when LOGP is set (R271, R272). -/
def decide1 (s : State) (r : Nat) (w : RowEntry) (q : SmpParams) (k : Nat) (e : KeptEntry) (m sum : FVal)
    (l : List (Word × Word)) (last bonus : Bool) : State :=
  let s := if bit (s.rq (w.req % 2 ^ 20) 1 1) 0 then
      s.ctxWrite r w (1088 + 160 * k) (alternatives q.nlogp m sum l) else s
  if (s.region r).halted then s
  else (s.count (Rg.SMP_TOKENS r) 1).sendToken r w (w.gidx + k) e.id.toNat 0 last bonus (logprob e.a m sum)

/-- A draft token (R269, R272): the kept list and the token go to the context before its packet. -/
def decideDraft (s : State) (r : Nat) (w : RowEntry) (es : List KeptEntry) (e : KeptEntry) (m sum : FVal) : State :=
  let dq := (List.range 64).flatMap fun i =>
    match es[i]? with
    | some x => leBytes 4 x.id.toNat ++ leBytes 4 (r47 x.p).toNat
    | none => leBytes 4 0xFFFFFFFF ++ leBytes 4 0
  let s := s.ctxWrite r w (4096 + 512 * w.dstep) dq
  if (s.region r).halted then s
  else
    let s := s.ctxWrite r w (8192 + 4 * w.dstep) (leBytes 4 e.id.toNat)
    if (s.region r).halted then s
    else (s.count (Rg.SMP_TOKENS r) 1).sendToken r w w.gidx e.id.toNat 3 false false (logprob e.a m sum)

/-- SEED of a request (R249). -/
def seedOf (s : State) (w : RowEntry) : Nat := s.rq (w.req % 2 ^ 20) 32 8

/-- The sampling unit of region `r` decides a row of one position (R269). -/
def sampleRow (s : State) (r : Nat) (w : RowEntry) (recs : List SmpRec) : State :=
  let draft := w.kind == 4
  let passes := if draft then 1 else imgCandpass s.image s.place
  match positionList recs passes 0 with
  | none => s
  | some (m, sum, l) =>
    match s.ctxHeader r 0 w with
    | (none, s) => s
    | (some h, s) =>
      let q := SmpParams.ofHeader h
      match keptList q (if draft then 64 else 64 * passes) m sum l with
      | .numeric => s.sendReport r w w.gidx 2
      | .noFinite => s.sendReport r w w.gidx 1
      | .kept es =>
        match drawKept q (uniform (s.seedOf w) w.gidx (if draft then 2 else 0)) es with
        | none => s.sendReport r w w.gidx 1
        | some e => if draft then s.decideDraft r w es e m sum else s.decide1 r w q 0 e m sum l true false

/-- q of a token in a draft's kept list of 64 entries (R265, R275). -/
def draftProb (dq : List Byte) (id : Nat) : FVal :=
  match (List.range 64).find? fun i => fieldAt dq (8 * i) 4 == id with
  | some i => fk (fieldAt dq (8 * i + 4) 4)
  | none => FVal.zero

/-- The residual draw at a rejection (R275). -/
def residual (q : SmpParams) (u : FVal) (dq : List Byte) (es : List KeptEntry) : Option KeptEntry :=
  let rs := es.map fun e => maxV FVal.zero (radd e.p (draftProb dq e.id.toNat).negate)
  if rs.all FVal.isZero then drawKept q u es else drawEntry u rs es

/-- The tests of a verify row from position `j` on, `n` drafts left (R275). -/
def verifyFrom (s : State) (r : Nat) (w : RowEntry) (q : SmpParams) (passes : Nat) (recs : List SmpRec) :
    Nat → Nat → State
  | n, j =>
    if (s.region r).halted then s
    else
      match positionList recs passes j with
      | none => s
      | some (m, sum, l) =>
        match keptList q (64 * passes) m sum l with
        | .numeric => s.sendReport r w (w.gidx + j) 2
        | .noFinite => s.sendReport r w (w.gidx + j) 1
        | .kept es =>
          match n with
          | 0 =>
            match drawKept q (uniform (s.seedOf w) (w.gidx + j) 0) es with
            | none => s.sendReport r w (w.gidx + j) 1
            | some e => s.decide1 r w q j e m sum l true true
          | n + 1 =>
            match s.ctxRead r 0 w (8192 + 4 * j) 4 with
            | (none, s) => s
            | (some tb, s) =>
              match s.ctxRead r 0 w (4096 + 512 * j) 512 with
              | (none, s) => s
              | (some dq, s) =>
                let x := leNat tb
                let hit := es.find? fun e => e.id.toNat == x
                let p := (hit.map KeptEntry.p).getD FVal.zero
                let u1 := uniform (s.seedOf w) (w.gidx + j) 1
                match hit, ltV (rmul u1 (draftProb dq x)) p with
                | some e, true =>
                  ((s.count (Rg.SMP_ACCEPT r) 1).decide1 r w q j e m sum l false false).verifyFrom r w q passes recs n (j + 1)
                | _, _ =>
                  let s := s.count (Rg.SMP_REJECT r) 1
                  match residual q (uniform (s.seedOf w) (w.gidx + j) 0) dq es with
                  | none => s.sendReport r w (w.gidx + j) 1
                  | some e => s.decide1 r w q j e m sum l true false

/-- The sampling unit of region `r` takes row `row`: its records are checked and, once every pass of every position has
arrived, taken from SMPQ; then `f` decides the row. `want` says which KINDs the command serves. -/
def takeRow (s : State) (r row : Nat) (want : Nat → Bool) (f : State → RowEntry → List SmpRec → State) : State :=
  if (s.region r).halted || !s.reachable r || decide (s.rowCount r ≤ row) then s
  else
    let ws := (s.region r).smpq
    match s.rowsRead r (s.namedRows r (smpRecs ws.length ws)) with
    | (false, s) => s
    | (true, s) =>
      match badRec (s.rowCount r) (s.positionsOf r) [] (smpRecs ws.length ws) with
      | some x => s.samplerFault r 0 1 (s.badIdx r x) 0
      | none =>
        match s.rowRead r 0 row with
        | (none, s) => s
        | (some w, s) =>
          if !want w.kind then s
          else
            match s.requestRead r 0 w with
            | (false, s) => s
            | (true, s) =>
              let mine := s.ofRow (s.segOf r).2 row w
              let recs := (smpRecs ws.length ws).filter mine
              let passes := if (s.segOf r).2 = 2 then 1 else imgCandpass s.image s.place
              if recs.length < passes * w.positions then s
              else f (s.modRegion r fun g => { g with smpq := smpDrop mine g.smpq.length g.smpq }) w recs

end State

/-- The feeder serves a row (R266). -/
def execFeed (r : Fin 96) (row : Fin 4096) (s : State) : Out :=
  .next (if (s.region r).halted || !s.reachable r then s else s.unlessHeld (s.feed r row))

/-- A row is decided (R269): rows of KIND 0 and 1 are discarded (R264). -/
def execSample (r : Fin 96) (row : Fin 4096) (s : State) : Out :=
  .next (s.unlessHeld (s.takeRow r row (fun k => decide (k ≤ 4)) fun s w recs =>
    if w.kind ≤ 1 then s else s.sampleRow r w recs))

/-- The drafts of a verify row are tested (R275). -/
def execVerify (r : Fin 96) (row : Fin 4096) (s : State) : Out :=
  .next (s.unlessHeld (s.takeRow r row (fun k => k == 5) fun s w recs =>
    match s.ctxHeader r 0 w with
    | (none, s) => s
    | (some h, s) => s.verifyFrom r w (SmpParams.ofHeader h) (imgCandpass s.image s.place) recs w.depth 0))

end Sys2Proof.Machine
end

