-- ==== Sys2Proof/Machine/Bus.lean ====
section
/-!
DEFINITION. The control channel (R146, R454 to R463): reads and writes of control addresses, guarded pairs, configuration writes
and what a write of each register starts.
-/
namespace Sys2Proof.Machine

/-- What the host answers to the reads of its memory that a register write starts: a first object, a second, and the headers
of five model images. -/
structure HostAns where
  fst : Option (List Byte)
  snd : Option (List Byte)
  headers : List (Option (List Byte))
  deriving DecidableEq, Repr

/-- The requester number of an access (R457). -/
def requesterCode : Requester → Nat
  | .core k => k
  | .host => 8
  | .relay _ _ => 9
  | .management => 10
  | .sequencer => 11

/-- The guarded register whose first address is `a` (R458): the write mask of its row, if it is one. -/
def guardedMask (a : Nat) : Option Nat :=
  match placeOf a with
  | .edgeReg w _ => if w.rwg = 0 then none else some w.rwg
  | _ => none

/-- Is `a` the first address of a guarded register (R458)? -/
def guardedFirst (a : Nat) : Bool := (guardedMask a).isSome
/-- Is `a` the second address of a guarded register (R458)? -/
def guardedSecond (a : Nat) : Bool := decide (4 ≤ a) && guardedFirst (a - 4)

/-- `old` with the bits of mask `m` taken from `v`. -/
def maskInto (old m v : Nat) : Nat := (old - (old &&& m)) ||| (v &&& m)

/-- The value a register of row `w` takes when `v` is written (R455, R463): `en` says that its block is enabled. -/
def RegRow.written (w : RegRow) (en : Bool) (old v : Nat) : Nat :=
  if w.counter then (if bit v 0 then 0 else old)
  else
    let x := maskInto old (w.rw ||| (if en then 0 else w.rwd)) v
    x - (x &&& (v &&& w.w1c))

/-- Does the write name an RWD field with another value while the block is enabled (R462)? -/
def RegRow.ignored (w : RegRow) (en : Bool) (old v : Nat) : Bool := en && (old &&& w.rwd) != (v &&& w.rwd)

/-- The bit of EDGE_CFGIGN of a block (R462). -/
def Blk.ignBit : Blk → Nat
  | .kv => 0
  | .serving => 1
  | .ring => 2
  | .loader => 3
  | .port => 4
  | .boot => 5
  | _ => 6

namespace State

/-! ### Guarded pairs -/

/-- The pair of address `a` is IDLE again. -/
def disarmPair (s : State) (a : Nat) : State := { s with armed := Store.erase s.armed a }

/-- A pair whose deadline has passed lapses (R459). -/
def lapse (s : State) (a : Nat) : State :=
  match Store.find s.armed a with
  | some x => if x.deadline < s.time.cb then (s.disarmPair a).count Rg.GP_LAPSE 1 else s
  | none => s

/-- The register whose power an RPWR address governs must not be LATCHED, RETRY or FENCED to be armed (R346). -/
def armRefused (s : State) (a : Nat) : Bool :=
  if 0x31000 ≤ a ∧ a < 0x31600 then
    let st := s.fld (Rg.RPWR_STAT_STATE ((a - 0x31000) / 16))
    st == 4 || st == 5 || st == 6
  else false

/-- A write to the first address of a pair (R346, R459): its status and the state after. -/
def firstHalf (s : State) (req : Requester) (a : Nat) (v : Word) : Nat × State :=
  let s := s.lapse a
  let arm (s : State) : State := { s with armed := Store.put s.armed a ⟨v, req, s.time.cb + 1024⟩ }
  if s.armRefused a then (1, s)
  else
    match Store.find s.armed a with
    | none => (0, arm s)
    | some x => if x.req = req then (0, arm s) else (1, s)

/-- The effect of a guarded register once its pair is complete (R459): the register takes the value, and its own rule acts. -/
def guardedApply (s : State) (a v : Nat) : State :=
  if a = Rg.GOP_RESET then (s.wr a v).domainReset
  else if a = Rg.FUSE_PGM then (s.wr a v).fuseApply v
  else if a = Rg.CRY_CMD then (s.wr a (v &&& 0xFC000000)).cryApply v
  else
    let r := (a - 0x31000) / 16
    if a % 16 = 0 then (if bit v 31 then ((s.wr a 0x80000000).driverFence r v).p3Go else s) else s.vsetWrite r v

/-- A write to the second address of a pair (R459). -/
def secondHalf (s : State) (req : Requester) (a : Nat) (v : Word) : Nat × State :=
  let s := s.lapse (a - 4)
  match Store.find s.armed (a - 4) with
  | some x =>
    if x.req = req ∧ v = ~~~ x.value then (0, (s.disarmPair (a - 4)).guardedApply (a - 4) x.value.toNat)
    else (1, (s.disarmPair (a - 4)).count Rg.GP_REFUSED 1)
  | none => (1, s.count Rg.GP_REFUSED 1)

/-! ### Reads -/

/-- Does a quiesce hold the module (R326)? -/
def quiesced (s : State) : Bool := s.gop.hold == 5 && s.gop.held

/-- The state that RC_STAT shows (R465). -/
def rcState (s : State) (r : Nat) : Nat :=
  let g := s.region r
  if s.tripped r then 5
  else if s.clockHold r then 6
  else if g.halted then 3
  else if (s.enabledClusters r).isEmpty then 0
  else if g.seg.isNone then (if s.gopHolds r || s.flag (Rg.SWP_HOLD_ARM r) then 4 else 2)
  else if g.stall = 0 then 1 else 2

/-- Word `i` of fault buffer `b` (R403). -/
def faultWord (s : State) (b i : Nat) : Nat :=
  match ((s.region b).faults)[i / 8]? with
  | some f => bits f.entry.toNat (32 * (i % 8) + 31) (32 * (i % 8))
  | none => 0

/-- What a register of the edge window reads as (R455): `v` is what it holds. -/
def edgeRead (s : State) (off i v : Nat) : Nat :=
  if 0x70000 ≤ off ∧ off < 0x70200 then s.fuseReg (off - 0x70000 + 4 * i)
  else
    match off with
    | 0x1011C => s.lookups.length
    | 0x20010 => setBits (setBits v 28 16 (s.port i).inq.length) 12 0 (s.mbqDepth i)
    | 0x30004 => setBits v 31 16 s.pcapEff
    | 0x3000C => credcap s.fuse.variant
    | 0x5000C => s.elogWait
    | 0x60010 => s.ns % 2 ^ 32
    | 0x51000 => s.faultWord 96 i
    | 0x51400 => setBits v 5 0 (s.region 96).faults.length
    | _ => v

/-- What a register of the region window reads as. -/
def regionRead (s : State) (r off i v : Nat) : Nat :=
  match off with
  | 0x1F0001000 =>
    let k := inKey r i
    (if (s.queue k).fenced then 2 ^ 31 else 0) + (if bit v 30 && !(s.region r).halted then 2 ^ 30 else 0)
      + 2 ^ 16 * (s.queue k).vis.length + s.depth k
  | 0x1F0000320 => v + (if s.swpIdle r then 2 ^ 30 else 0) + (if s.swpDone r then 2 ^ 29 else 0)
  | 0x1F0002000 => s.faultWord r i
  | 0x1F0002400 => setBits v 5 0 (s.region r).faults.length
  | 0x1F0000000 => 2 ^ 28 * s.rcState r + (if bit v 27 then 2 ^ 27 else 0) + 2 ^ 16 * (s.enabledClusters r).length
      + (s.region r).segq.length
  | 0x1F0004130 => 2 ^ 24 * bits (s.loader.chans.getD (stackOf r) 0) (8 * quarterOf r + 7) (8 * quarterOf r)
  | 0x1F0005010 => Nat.min 8191 (smpRecs (s.region r).smpq.length (s.region r).smpq).length
  | _ => v

/-- The reader that an entry CM_UNCORRECTABLE names for a requester (R413): one that is no core has no number there. -/
def cmReader (s : State) : Requester → Nat × State
  | .core k => (k, s)
  | _ => s.fresh 32

/-- Is word `w` of control memory one that a clear in progress may have reached (R470)? -/
def clearing (s : State) (w : Nat) : Bool :=
  match s.crypto.clear with
  | some (a, n, keep) => decide (a ≤ w ∧ w < a + n) && !keep.contains w
  | none => false

/-- A control-channel read of control memory (R134, R470): status and data. -/
def cmHalf (s : State) (req : Requester) (off : Nat) : Nat × Nat × State :=
  let w := off / 8
  let k := s.cmReader req
  let x := s.cmRead w k.1
  match x.1 with
  | none => (1, 0, { x.2 with free := k.2.free })
  | some d =>
    let c := if s.clearing w then s.fresh 1 else (0, s)
    (0, if c.1 = 1 then 0 else bits d.toNat (8 * (off % 8) + 31) (8 * (off % 8)), { x.2 with free := c.2.free })

/-- A control-channel write of control memory (R455, R470). -/
def cmHalfWrite (s : State) (off : Nat) (v : Word) : State :=
  let w := off / 8
  let s' := s.cmPut (off, leBytes 4 v.toNat)
  if s.clearing w then
    let k := s'.fresh 1
    match s'.crypto.clear with
    | some (a, n, keep) =>
      if k.1 = 1 then { k.2 with crypto := { s'.crypto with clear := some (a, n, w :: keep) } } else k.2
    | none => k.2
  else s'

/-- A raw read that cannot be corrected: a bus error and an entry (R146). -/
def rawBad (s : State) (r c a : Nat) : Nat × Nat × State :=
  (1, 0, s.log r { code := 0x401, region := r, cluster := c, loc0 := a % 2 ^ 32, loc1 := a / 2 ^ 32 })

/-- A raw read of the scratchpad (R131, R146). -/
def spRawRead (s : State) (r c a off : Nat) : Nat × Nat × State :=
  let key := off / 8
  let half (d : DWord) : Nat := bits d.toNat (8 * (off % 8) + 31) (8 * (off % 8))
  match Store.find (s.cluster r c).sp key with
  | none => (0, 0, s)
  | some x =>
    if !x.twin then s.rawBad r c a
    else
      match eccOf 72 x.flip.toNat with
      | .clean => (0, half x.data, s)
      | .corrected q =>
        (0, half (x.data ^^^ BitVec.ofNat 64 q),
         (s.log r { code := 0x301, region := r, cluster := c, loc0 := key / 8192, loc1 := key % 8192,
                    detail := Config.syndrome 72 x.flip.toNat }).count (Rg.SP_CE_COUNT r c) 1)
      | .bad => s.rawBad r c a

/-- A raw write of the scratchpad: as a write of any kind, through the flip mask (R143); in a word beyond correction the error
stays (DESIGN CHOICE, log 84). -/
def spRawWrite (s : State) (r c off : Nat) (v : Word) : State :=
  let key := off / 8
  let old := Store.find (s.cluster r c).sp key
  let d := ((old.map cmData).getD 0).toNat
  let x := s.spCell r c key (BitVec.ofNat 64 (setBits d (8 * (off % 8) + 31) (8 * (off % 8)) v.toNat))
  let y := narrowCell old x.1.data
  x.2.spPut r c key { y with flip := y.flip ^^^ x.1.flip }

/-- A raw read of program memory (R145, R146): the part of the word that holds it is checked. -/
def progRawRead (s : State) (r c a off : Nat) : Nat × Nat × State :=
  let k := off / 32
  let i := off % 32 / 8
  let x := Store.get PCell.zero (s.cluster r c).prog k
  let p := bits x.flip.toNat (72 * i + 71) (72 * i)
  let v (q : Nat) : Nat := bits (bits x.w.toNat (64 * i + 63) (64 * i) ^^^ q) (8 * (off % 8) + 31) (8 * (off % 8))
  match eccOf 72 p with
  | .clean => (0, v 0, s)
  | .corrected q =>
    (0, v q, (s.log r { code := 0x302, region := r, cluster := c, loc0 := k, loc1 := i, detail := Config.syndrome 72 p }).count
      (Rg.PM_CE_COUNT r c) 1)
  | .bad => s.rawBad r c a

/-- A raw write of program memory: in a part of the word that is beyond correction the error stays (DESIGN CHOICE, log 84). -/
def progRawWrite (s : State) (r c off : Nat) (v : Word) : State :=
  let k := off / 32
  let i := off % 32 / 8
  let o := 8 * (off % 32)
  s.modCluster r c fun x =>
    let y := Store.get PCell.zero x.prog k
    let p := progFlip y i
    let q := match eccOf 72 p with | .corrected q => q % 2 ^ 64 * 2 ^ (64 * i) | _ => 0
    let z : PCell :=
      ⟨BitVec.ofNat 256 (setBits (y.w.toNat ^^^ q) (o + 31) o v.toNat),
       BitVec.ofNat 288 (setBits y.flip.toNat (72 * i + 71) (72 * i) (narrowFlip 72 p))⟩
    { x with prog := Store.set PCell.zero x.prog k z }

/-- A read of a stack window (R17): a word that cannot be corrected has no status stated. -/
def stackRead (s : State) (n off : Nat) : Nat × Nat × State :=
  match s.dramRead n off 4 with
  | (.ok bs, s) => (0, leNat bs, s)
  | (.error .absent, s') => if s'.blocked then (2, 0, { s' with blocked := false }) else (1, 0, s')
  | (.error (.fenced _), s) => (2, 0, s)
  | (.error (.poison _), s) =>
    let x := s.fresh 33
    (x.1 % 2, x.1 / 2, x.2)

/-- A read on the control channel (R454, R455): status 0 OK, 1 bus error or 2 no answer, and the data. -/
def busRead (s : State) (req : Requester) (a : Nat) : Nat × Nat × State :=
  if a % 4 ≠ 0 then (1, 0, s)
  else
    match placeOf a with
    | .none => if guardedSecond a then (0, 0, s) else (1, 0, s)
    | .edgeReg w i =>
      let v := s.edgeRead w.off i (s.rd a)
      (0, v, if a = Rg.TB_LO then s.wr Rg.TB_HI (s.ns / 2 ^ 32 % 2 ^ 32) else s)
    | .cmem off => s.cmHalf req off
    | .stack n off => s.stackRead n off
    | .regionReg r w i => if s.reachable r then (0, s.regionRead r w.off i (s.rd a), s) else (2, 0, s)
    | .clusterReg r _ _ _ => if s.reachable r then (0, s.rd a, s) else (2, 0, s)
    | .weight r c off =>
      if !s.reachable r then (2, 0, s)
      else if s.enabled r c then (1, 0, s)
      else (0, leNat (Store.getMany 0 (s.cluster r c).wt (s.wtAddr r c (off / 16384) (off % 16384)) 4), s)
    | .tagArray r c t =>
      if !s.reachable r then (2, 0, s)
      else if s.enabled r c then (1, 0, s)
      else (0, (Store.get 0 (s.cluster r c).tags t).toNat, s)
    | .spRaw r c off => if !s.reachable r then (2, 0, s) else if s.enabled r c then (1, 0, s) else s.spRawRead r c a off
    | .prog r c off => if !s.reachable r then (2, 0, s) else if s.enabled r c then (1, 0, s) else s.progRawRead r c a off

/-! ### Writes -/

/-- Is the block that governs a place's RWD fields enabled (R461)? -/
def blockOn (s : State) : Place → Bool
  | .edgeReg w i =>
    match w.blk with
    | .port => decide (2 ≤ s.fld Rg.IMG_STAT_STATE) && !s.quiesced
    | .kv => decide (2 ≤ s.fld Rg.IMG_STAT_STATE)
    | .serving => s.imgInForce
    | .ring => s.flag (Rg.RCFG_EN i)
    | .loader => s.fld Rg.WLD_STAT_STATE != 0 && s.fld Rg.WLD_STAT_STATE != 5
    | .boot => s.fld Rg.BOOT_STAT_STATE != 0 && s.fld Rg.BOOT_STAT_STATE != 4
    | _ => false
  | .regionReg r w _ => w.blk == .regionCtl && !s.quiesced && !(s.enabledClusters r).isEmpty
  | .clusterReg r c w _ => (w.blk == .cluster || w.blk == .weightTier) && !s.quiesced && s.enabled r c
  | _ => false

/-- An ignored configuration write sets its block's flag and is captured (R462). -/
def cfgIgn (s : State) (p : Place) (req : Requester) (a : Nat) : State :=
  let s := match p with
    | .edgeReg w _ => s.wr Rg.EDGE_CFGIGN (s.rd Rg.EDGE_CFGIGN ||| 2 ^ w.blk.ignBit)
    | .regionReg r _ _ => s.setFld (Rg.RC_STAT_CFGIGN r) 1
    | .clusterReg r c _ _ => s.setFld (Rg.CL_STAT_CFGIGN r c) 1
    | _ => s
  if s.flag Rg.CFGIGN_CAP1_VALID then s
  else (s.wr Rg.CFGIGN_CAP0 (a % 2 ^ 32)).wr Rg.CFGIGN_CAP1 (2 ^ 31 + 2 ^ 16 * requesterCode req + a / 2 ^ 32 % 65536)

/-- A write of a register by the conventions (R455, R462, R463). -/
def regWrite (s : State) (p : Place) (w : RegRow) (req : Requester) (a : Nat) (v : Nat) : State :=
  let en := s.blockOn p
  let old := s.rd a
  let s := s.wr a (w.written en old v)
  if w.ignored en old v then s.cfgIgn p req a else s

/-- What the host answers when the write came with nothing: free values. -/
def hostAns (s : State) (h : Option HostAns) : HostAns × State :=
  match h with
  | some h => (h, s)
  | none =>
    let n := s.free
    (⟨Config.hostBytes n, Config.hostBytes (n + 1), (List.range 5).map fun m => Config.hostBytes (n + 2 + m)⟩, { s with free := n + 7 })

/-- A write of ADM_CMD (R259, R263): ignored while a command runs. -/
def admCmd (s : State) (v : Nat) : State :=
  if s.flag Rg.ADM_RES_DONE then (s.setFld Rg.ADM_RES_IGN 0).admitOrHold (if bit v 31 then 0 else 1) (bits v 20 0)
  else s.setFld Rg.ADM_RES_IGN 1

/-- A write of WLD_CTL (R289): reserved operations have no effect. -/
def wldCtl (s : State) (v : Nat) (h : Option HostAns) : State :=
  if bit v 31 ∧ bits v 30 28 = 1 then
    let x := s.hostAns h
    x.2.swapStart (bit v 27) x.1.fst x.1.headers
  else if bit v 31 ∧ bits v 30 28 = 2 then s.stopStart (bit v 27)
  else s

/-- A write of BOOT_CTL (R380). -/
def bootCtl (s : State) (v : Nat) (h : Option HostAns) : State :=
  if bit v 31 then
    let x := s.hostAns h
    x.2.bootGo x.1.fst x.1.snd
  else s

/-- The value of RCFG that a write to a disabled ring pair leaves: a size outside 8 to 20 leaves its field (R241). -/
def rcfgValue (old v : Nat) : Nat :=
  let f (hi lo v : Nat) : Nat := if 8 ≤ bits v hi lo ∧ bits v hi lo ≤ 20 then v else setBits v hi lo (bits old hi lo)
  f 4 0 (f 9 5 v)

/-- A write of a register of the edge window, and what it starts. -/
def edgeWrite (s : State) (w : RegRow) (i : Nat) (req : Requester) (a : Nat) (v : Nat) (h : Option HostAns) : State :=
  let put (s : State) : State := s.regWrite (.edgeReg w i) w req a v
  match w.off with
  | 0x10118 => s.pfxStart v
  | 0x10600 => s.admCmd v
  | 0x1070C => s.wldCtl v h
  | 0x20000 => s.vybCtl i v
  | 0x21000 => s.gopCmd v
  | 0x22040 => if i = 0 then s else put s
  | 0x30100 => s.refCtlWrite v
  | 0x40014 => s.bootCtl v h
  | 0x50004 => s.elogAdvance v
  | 0x51404 => s.release 96 (bits v 5 0)
  | 0x72008 => s.clearGo v
  | 0x1041C => (put s).commitWindow i
  | 0x1101C => (put s).retryAborts
  | 0x11010 => if s.flag (Rg.RCFG_EN i) then put s else s.regWrite (.edgeReg w i) w req a (rcfgValue (s.rd a) v)
  | _ => put s

/-- A write of CLKTUNE (R354, R359). -/
def clktuneWrite (s : State) (r v : Nat) : State :=
  (if bit v 31 then s.setFld (Rg.CLKTUNE_CEILREF r) 0 else s).ceilWrite r (bits v 6 0)

/-- A write of REMAPSTAT: one that takes effect asks for remaps at the next load (R416). -/
def remapWrite (s : State) (r : Nat) (w : RegRow) (req : Requester) (a v : Nat) : State :=
  let en := s.blockOn (.regionReg r w 0)
  let s := s.regWrite (.regionReg r w 0) w req a v
  if en || s.loader.asked.contains r then s else { s with loader := { s.loader with asked := s.loader.asked ++ [r] } }

/-- A write of a register of the region window, and what it starts. -/
def regionWrite (s : State) (r : Nat) (w : RegRow) (i : Nat) (req : Requester) (a v : Nat) : State :=
  match w.off with
  | 0x1F0000208 => if bit v 31 then s.setFld (Rg.AU_PEAK_PEAK r) 0 else s
  | 0x1F0000300 => s.remapWrite r w req a v
  | 0x1F0000320 => s.swpHoldWrite r v
  | 0x1F0000800 => s.clktuneWrite r v
  | 0x1F0000808 => s.clksrcWrite r v
  | 0x1F0002404 => s.release r (bits v 5 0)
  | _ => s.regWrite (.regionReg r w i) w req a v

/-- A write to a memory window of a cluster, which only a disabled cluster takes (R146). -/
def rawWrite (s : State) (r c : Nat) (f : State → State) : Nat × State :=
  if !s.reachable r then (2, s) else if s.enabled r c then (1, s) else (0, f s)

/-- A write on the control channel (R454, R455, R459): status 0 OK, 1 bus error or 2 no answer, and the state after. `h` is
what the host answers, when the write comes with it. -/
def busWrite (s : State) (req : Requester) (a : Nat) (v : Word) (h : Option HostAns) : Nat × State :=
  if a % 4 ≠ 0 then (1, s)
  else if guardedFirst a then s.firstHalf req a v
  else if guardedSecond a then s.secondHalf req a v
  else
    match placeOf a with
    | .none => (1, s)
    | .edgeReg w i => (0, s.edgeWrite w i req a v.toNat h)
    | .cmem off => (0, s.cmHalfWrite off v)
    | .stack _ _ => s.stackWrite a v
    | .regionReg r w i => if s.reachable r then (0, s.regionWrite r w i req a v.toNat) else (2, s)
    | .clusterReg r c w i => if s.reachable r then (0, s.regWrite (.clusterReg r c w i) w req a v.toNat) else (2, s)
    | .weight r c off => s.rawWrite r c fun s => s.tileWrite r c (off / 16384) (off % 16384) (leBytes 4 v.toNat)
    | .tagArray r c t => s.rawWrite r c fun s => s.tagWrite r c t v
    | .spRaw r c off => s.rawWrite r c fun s => s.spRawWrite r c off v
    | .prog r c off => s.rawWrite r c fun s => s.progRawWrite r c off v

/-- Does the control channel answer: is the edge ring powered (R376)? -/
def ringOn (s : State) : Bool := s.power.on

/-- The active bridge's host link is up (R318, R319, R480). -/
def hostUp (s : State) : Bool := s.power.on && s.flag Rg.HB_CFG_ACTIVE && s.fld Rg.HB_CFG_RATE != 0

/-- Does the control channel answer a requester: the host reaches it through an active bridge only (R319)? -/
def answers (s : State) (req : Requester) : Bool := s.ringOn && (req != .host || s.hostUp)

/-- A read that node `src` sends across the array (R174): status 2 when the request or its response is discarded on its way. -/
def sentRead (s : State) (ord : Bool) (src : Nat) (req : Requester) (a : Nat) : Nat × Nat × State :=
  if s.pathOpen ord src (s.answerNode a) then
    let x := s.busRead req a
    (if s.pathOpen ord (s.answerNode a) src then x.1 else 2, x.2)
  else (2, 0, s)

/-- A write that node `src` sends across the array (R174). -/
def sentWrite (s : State) (ord : Bool) (src : Nat) (req : Requester) (a : Nat) (v : Word) (h : Option HostAns) : Nat × State :=
  if s.pathOpen ord src (s.answerNode a) then
    let x := s.busWrite req a v h
    (if s.pathOpen ord (s.answerNode a) src then x.1 else 2, x.2)
  else (2, s)

/-- A write that a requester makes, with its completion; a misaligned one of the host never becomes an access (R319). -/
def accessWrite (s : State) (req : Requester) (a : Nat) (v : Word) (h : Option HostAns) : State :=
  if req = .host ∧ a % 4 ≠ 0 then (if s.answers req then s.emit (.hostDone 3 none) else s)
  else if s.answers req then
    let x := s.sentWrite false 0x8000 req a v h
    x.2.emit (.access req x.1 none)
  else s

/-- A read that a requester makes, with its completion; a misaligned one of the host never becomes an access (R319). -/
def accessRead (s : State) (req : Requester) (a : Nat) : State :=
  if req = .host ∧ a % 4 ≠ 0 then (if s.answers req then s.emit (.hostDone 2 none) else s)
  else if s.answers req then
    let x := s.sentRead false 0x8000 req a
    x.2.2.emit (.access req x.1 (if x.1 = 0 then some (BitVec.ofNat 32 x.2.1) else none))
  else s

/-- The second half of a guarded pair at first address `a`: the row acts when the armed value is the one it names. -/
def accessPair (s : State) (req : Requester) (a : Nat) (w : Word) (p : Nat → Bool) : State :=
  match Store.find s.armed a with
  | some x => if p x.value.toNat then s.accessWrite req (a + 4) w none else s
  | none => s

end State

/-! ### Rows -/

/-- A write of PFX_LAUNCH (R236). -/
def execPfxLaunch (req : Requester) (rec_ : Word) (s : State) : Out := .next (s.accessWrite req Rg.PFX_LAUNCH rec_ none)

/-- ADM_CMD of decode kind (R259). -/
def execDecodeAdmission (req : Requester) (n : BitVec 21) (s : State) : Out :=
  .next (s.accessWrite req Rg.ADM_CMD (BitVec.ofNat 32 n.toNat) none)

/-- ADM_CMD of prefill kind (R259). -/
def execPrefillAdmission (req : Requester) (n : BitVec 21) (s : State) : Out :=
  .next (s.accessWrite req Rg.ADM_CMD (BitVec.ofNat 32 (2 ^ 31 + n.toNat)) none)

/-- WLD_CTL GO with OP SWAP (R294). -/
def execSwap (req : Requester) (resume : Bool) (companion : Option (List Byte)) (headers : List (Option (List Byte))) (s : State) :
    Out :=
  .next (s.accessWrite req Rg.WLD_CTL (if resume then 0x98000000 else 0x90000000) (some ⟨companion, none, headers⟩))

/-- WLD_CTL GO with OP STOP (R299). -/
def execStop (req : Requester) (resume : Bool) (s : State) : Out :=
  .next (s.accessWrite req Rg.WLD_CTL (if resume then 0xA8000000 else 0xA0000000) none)

/-- A write of SWP_HOLD (R295). -/
def execSwpHoldArm (req : Requester) (r : Fin 96) (v : Word) (s : State) : Out := .next (s.accessWrite req (Rg.SWP_HOLD r) v none)

/-- A write of VYB_CTL with EN set (R305). -/
def execPortEn (req : Requester) (p : Fin 32) (v : Word) (s : State) : Out :=
  .next (if bit v.toNat 31 then s.accessWrite req (Rg.VYB_CTL p) v none else s)

/-- A write of VYB_CTL with RETRAIN set (R305). -/
def execRetrain (req : Requester) (p : Fin 32) (v : Word) (s : State) : Out :=
  .next (if bit v.toNat 30 then s.accessWrite req (Rg.VYB_CTL p) v none else s)

/-- A write of GOP_CMD. -/
def gopAccess (op : Nat) (req : Requester) (id : BitVec 15) (s : State) : State :=
  s.accessWrite req Rg.GOP_CMD (BitVec.ofNat 32 (op * 2 ^ 28 + id.toNat)) none

/-- GOP_CMD ARRIVE (R324). -/
def execGopArrive (req : Requester) (id : BitVec 15) (s : State) : Out := .next (gopAccess 1 req id s)
/-- GOP_CMD BCAST (R325). -/
def execGopBcast (req : Requester) (id : BitVec 15) (s : State) : Out := .next (gopAccess 2 req id s)
/-- GOP_CMD SNAP (R326). -/
def execGopSnap (req : Requester) (id : BitVec 15) (s : State) : Out := .next (gopAccess 3 req id s)
/-- GOP_CMD QUIESCE (R326). -/
def execGopQuiesce (req : Requester) (id : BitVec 15) (s : State) : Out := .next (gopAccess 4 req id s)
/-- GOP_CMD RESUME (R326). -/
def execGopResume (req : Requester) (id : BitVec 15) (s : State) : Out := .next (gopAccess 5 req id s)

/-- The second half of GOP_RESET (R327, R459). -/
def execGopReset (req : Requester) (w : Word) (s : State) : Out := .next (s.accessPair req Rg.GOP_RESET w fun _ => true)

/-- The second half of RPWR_CTL (R345, R459). -/
def execRegionFence (req : Requester) (r : Fin 96) (w : Word) (s : State) : Out :=
  .next (s.accessPair req (Rg.RPWR_CTL r) w fun _ => true)

/-- The second half of RPWR_VSET (R358, R459). -/
def execVset (req : Requester) (r : Fin 96) (w : Word) (s : State) : Out :=
  .next (s.accessPair req (Rg.RPWR_VSET r) w fun _ => true)

/-- A write of CLKTUNE (R354). -/
def execCeil (req : Requester) (r : Fin 96) (v : Word) (s : State) : Out := .next (s.accessWrite req (Rg.CLKTUNE r) v none)

/-- BOOT_CTL.GO (R380, R382). -/
def execBootGo (req : Requester) (fw rl : Option (List Byte)) (s : State) : Out :=
  .next (s.accessWrite req Rg.BOOT_CTL 0x80000000 (some ⟨fw, rl, []⟩))

/-- A write of FBACK (R403). -/
def execFback (req : Requester) (r : Option (Fin 96)) (v : Word) (s : State) : Out :=
  .next (s.accessWrite req (match r with | some r => Rg.FBACK r | none => Rg.EDGE_FBACK) v none)

/-- A write of ELOG_HEAD (R402). -/
def execElogHead (req : Requester) (v : Word) (s : State) : Out := .next (s.accessWrite req Rg.ELOG_HEAD v none)

/-- The second half of CRY_CMD with a given OP (R468). -/
def cryPair (op : Nat) (req : Requester) (w : Word) (s : State) : State :=
  s.accessPair req Rg.CRY_CMD w fun v => bits v 31 28 == op

/-- QUOTE (R468). -/
def execCryQuote (req : Requester) (w : Word) (s : State) : Out := .next (cryPair 1 req w s)
/-- SIGN (R468). -/
def execSign (req : Requester) (w : Word) (s : State) : Out := .next (cryPair 2 req w s)
/-- UNWRAP (R468). -/
def execUnwrap (req : Requester) (w : Word) (s : State) : Out := .next (cryPair 3 req w s)
/-- WRAP (R468). -/
def execWrap (req : Requester) (w : Word) (s : State) : Out := .next (cryPair 4 req w s)
/-- ERASE (R468). -/
def execErase (req : Requester) (w : Word) (s : State) : Out := .next (cryPair 5 req w s)

/-- The second half of FUSE_PGM with a given OP (R467). -/
def fusePair (op : Nat) (req : Requester) (w : Word) (s : State) : State :=
  s.accessPair req Rg.FUSE_PGM w fun v => bits v 31 28 == op

/-- FUSE_PGM OP 1 (R467). -/
def execFuseProgramSlot (req : Requester) (w : Word) (s : State) : Out := .next (fusePair 1 req w s)
/-- FUSE_PGM OP 2 (R467). -/
def execFuseRevokeSlot (req : Requester) (w : Word) (s : State) : Out := .next (fusePair 2 req w s)
/-- FUSE_PGM OP 3 (R467). -/
def execFuseRaiseSvnmin (req : Requester) (w : Word) (s : State) : Out := .next (fusePair 3 req w s)

/-- A write of CMCLR_GO (R470). -/
def execCmclrGo (req : Requester) (v : Word) (s : State) : Out := .next (s.accessWrite req Rg.CMCLR_GO v none)

/-- A write of SPFLIP_CTL (R143). -/
def execSpflipArm (req : Requester) (p : Site) (v : Word) (s : State) : Out :=
  .next (s.accessWrite req (Rg.SPFLIP_CTL p.r p.c) v none)

/-- A write of WTCRC_TEST (R144). -/
def execWtcrcTest (req : Requester) (p : Site) (v : Word) (s : State) : Out :=
  .next (s.accessWrite req (Rg.WTCRC_TEST p.r p.c) v none)

/-- A write of DFLIP_CTL (R213). -/
def execDflipArm (req : Requester) (r : Fin 96) (v : Word) (s : State) : Out := .next (s.accessWrite req (Rg.DFLIP_CTL r) v none)

/-- A write of a tile's tag (R128, R146). -/
def execTagArrayWrite (req : Requester) (p : Site) (tile : BitVec 13) (v : Word) (s : State) : Out :=
  .next (s.accessWrite req (clusterBase p.r p.c + 0xA000000 + 4 * tile.toNat) v none)

/-- A read of a raw memory window (R146). -/
def execRawWindowRead (req : Requester) (a : BitVec 48) (s : State) : Out := .next (s.accessRead req a.toNat)

/-- A write to a guarded register (R459). -/
def execGpFirstHalf (req : Requester) (a : BitVec 48) (v : Word) (s : State) : Out :=
  .next (if guardedFirst a.toNat then s.accessWrite req a.toNat v none else s)

/-- An armed pair lapses (R459). -/
def execGpLapse (a : BitVec 48) (s : State) : Out := .next (s.lapse a.toNat)

/-- A write to A+4 that the pair does not accept (R459). -/
def execGpSecondHalfRefused (req : Requester) (a : BitVec 48) (v : Word) (s : State) : Out :=
  .next (if guardedSecond a.toNat && (s.secondHalf req a.toNat v).1 == 1 then s.accessWrite req a.toNat v none else s)

/-- A write to a register with no row of its own (R455). -/
def execRegisterWrite (req : Requester) (a : BitVec 48) (v : Word) (s : State) : Out := .next (s.accessWrite req a.toNat v none)

/-- A read of TB_LO (R436). -/
def execTbLoRead (req : Requester) (s : State) : Out := .next (s.accessRead req Rg.TB_LO)

end Sys2Proof.Machine
end

