-- ==== Sys2Proof/Machine/Engine.lean ====
section
/-!
DEFINITION. The rows of the PRESS and POUR slots (R92), the completion of their operations (R96) and the tile
comparison (R125).
-/
namespace Sys2Proof.Machine

/-- PRESS RUN (R92). -/
def execPressRun (p : Site) (daddr : BitVec 14) (half : Bool) (accb : BitVec 8) (tile : BitVec 13) (s : State) : Out :=
  let e : EngSlot := ⟨1, daddr.toNat, half, accb.toNat, tile.toNat, 0⟩
  slotRow p (fun s n => s.engineOk p.r p.c e 1 n) (fun s n b => s.engineIssue p.r p.c e 1 n b) s

/-- POUR RUN (R92). -/
def execPourRun (p : Site) (daddr : BitVec 14) (half : Bool) (accb : BitVec 8) (tile : BitVec 13) (s : State) : Out :=
  let e : EngSlot := ⟨1, daddr.toNat, half, accb.toNat, tile.toNat, 0⟩
  slotRow p (fun s n => s.engineOk p.r p.c e 2 n) (fun s n b => s.engineIssue p.r p.c e 2 n b) s

/-- CBLOAD (R92, R60). -/
def execCbload (p : Site) (tile : BitVec 13) (nt : BitVec 2) (s : State) : Out :=
  slotRow p (fun s n => s.cbOk p.r p.c tile.toNat (nt.toNat + 1) n)
    (fun s n b => s.cbIssue p.r p.c tile.toNat (nt.toNat + 1) n b) s

/-- Is the effect a final value of an engine operation or the content of a codebook load? -/
def engineResult (e : Pend) : Bool :=
  (e.slot == 1 || e.slot == 2) && match e.eff with | .tileFirst _ _ => false | .tileCmp _ _ => false | _ => true

/-- The accumulators of engine operations that are due hold their final values (R96). -/
def execEngineOpComplete (p : Site) (s : State) : Out :=
  .next (if s.live p.r then s.landSel p.r p.c (s.region p.r).cycle engineResult else s)

/-- The oldest due tile comparison of the cluster, if any: one left of a segment that has ended is due. -/
def State.dueCompare (s : State) (p : Site) : Option Pend :=
  (s.cluster p.r p.c).pend.find? fun e =>
    (decide (e.due ≤ (s.region p.r).cycle) || (s.region p.r).seg.isNone) && match e.eff with | .tileCmp _ _ => true | _ => false

/-- The oldest due tile comparison completes (R125, R144). -/
def execTileCrcComparison (p : Site) (s : State) : Out :=
  .next (match s.dueCompare p with
    | none => s
    | some e =>
      if s.live p.r then
        (s.modCluster p.r p.c fun k => { k with pend := k.pend.erase e }).landEff p.r p.c (s.region p.r).cycle e
      else s)

end Sys2Proof.Machine
end

