-- ==== Sys2Proof/Machine/MemLink.lean ====
section
/-!
DEFINITION. The rows of the MEM slot (R104 to R106, R139 to R141, R223, R224) and of the LINK slot (R107, R108, R152).
-/
namespace Sys2Proof.Machine

/-- A row of a transfer whose descriptor is of kind `kind` (R105). -/
def xferRow (p : Site) (taddr : BitVec 14) (form : Bool) (kind : Nat) (s : State) : Out :=
  slotRow p (fun s n => s.xferOk p.r p.c taddr.toNat n form fun d => d.kind == kind)
    (fun s n b => s.xferIssue p.r p.c taddr.toNat form n b) s

/-- Transfer from the scratchpad to a port (R106). -/
def execXferFromScratchpad (p : Site) (taddr : BitVec 14) (form : Bool) (s : State) : Out := xferRow p taddr form 0 s

/-- Transfer from a port into the scratchpad (R106). -/
def execXferIntoScratchpad (p : Site) (taddr : BitVec 14) (form : Bool) (s : State) : Out := xferRow p taddr form 1 s

/-- Fill (R139). -/
def execFill (p : Site) (taddr : BitVec 14) (s : State) : Out := xferRow p taddr false 2 s

/-- Copy (R140). -/
def execCopy (p : Site) (taddr : BitVec 14) (s : State) : Out := xferRow p taddr false 3 s

/-- DMA command (R223). -/
def execDmaCommand (p : Site) (taddr : BitVec 14) (form : Bool) (s : State) : Out := xferRow p taddr form 4 s

/-- DMA completion (R224). -/
def execDmaCompletion (p : Site) (taddr : BitVec 14) (form : Bool) (s : State) : Out := xferRow p taddr form 5 s

/-- Release of a handle (R141). -/
def execRel (p : Site) (h : Fin 64) (s : State) : Out :=
  slotRow p (fun s n => s.memFree p.r p.c n) (fun s n b => s.relIssue p.r p.c h n b) s

/-- The transfer's last row has moved (R106): the MEM path is free and its effects that are due land. -/
def execTransferComplete (p : Site) (s : State) : Out :=
  .next (if s.live p.r then
      let n := (s.region p.r).cycle
      let s := s.landSel p.r p.c n fun e => e.slot == 4 && !State.isAccess e
      s.modCluster p.r p.c fun k =>
        { k with mem := k.mem.filter fun m => decide (n ≤ m.last (s.handle p.r p.c m.d.h)) }
    else s)

/-- A row of a ROUTE of a mode (R108). -/
def routeRow (p : Site) (raddr : BitVec 14) (form : Bool) (rmode : Nat) (s : State) : Out :=
  slotRow p (fun s n => s.routeOk p.r p.c raddr.toNat n fun d => d.rmode == rmode)
    (fun s n b => s.routeIssue p.r p.c raddr.toNat form n b) s

/-- ROUTE of mode 0 (R152). -/
def execRoutePass (p : Site) (raddr : BitVec 14) (form : Bool) (s : State) : Out := routeRow p raddr form 0 s

/-- ROUTE of mode 1 (R152). -/
def execRouteBinary32Sum (p : Site) (raddr : BitVec 14) (form : Bool) (s : State) : Out := routeRow p raddr form 1 s

/-- ROUTE of mode 2 (R152). -/
def execRouteBf16InSum (p : Site) (raddr : BitVec 14) (form : Bool) (s : State) : Out := routeRow p raddr form 2 s

/-- ROUTE of mode 3 (R152). -/
def execRouteXsSum (p : Site) (raddr : BitVec 14) (form : Bool) (s : State) : Out := routeRow p raddr form 3 s

/-- ROUTE of mode 4 (R152). -/
def execRouteMax (p : Site) (raddr : BitVec 14) (form : Bool) (s : State) : Out := routeRow p raddr form 4 s

/-- ROUTE of mode 5 (R152). -/
def execRouteLseMerge (p : Site) (raddr : BitVec 14) (form : Bool) (s : State) : Out := routeRow p raddr form 5 s

/-- ROUTE of mode 6 (R152). -/
def execRouteTopkMerge (p : Site) (raddr : BitVec 14) (form : Bool) (s : State) : Out := routeRow p raddr form 6 s

end Sys2Proof.Machine
end

