-- ==== Sys2Proof/Machine/Relay.lean ====
section
/-!
DEFINITION. Requests on the sideband (R170, R173), the host bridge (R318 to R321, R480) and relay between the modules of a host
group (R322, R323).
-/
namespace Sys2Proof.Machine

namespace State

/-! ### Arrival of responses -/

/-- A response that has arrived (R319, R322): it completes a relayed access of the bridge, or goes to its requester. -/
def relayResponse (s : State) (h : RelayHdr) (data : List DWord) : State :=
  match Store.find s.bridge.out h.tag with
  | some read =>
    let s : State := { s with bridge := { s.bridge with out := Store.erase s.bridge.out h.tag } }
    if read then
      if h.status = 0 then s.emit (.hostDone 0 (some (BitVec.ofNat 32 (data.headD 0).toNat))) else s.emit (.hostDone 1 none)
    else s
  | none => s.receive (.relay h.rop h.tag h.status data)

/-! ### Routing -/

/-- A response made here sets out (R323). -/
def relayReply (s : State) (h : RelayHdr) (addr : DWord) (data : List DWord) : State :=
  match h.hop with
  | some (side, h) => s.relayOut side h addr data
  | none => s.relayResponse h data

/-- A packet goes on, or is served here by `f` with its header. -/
def relayTake (s : State) (hdr addr : DWord) (data : List DWord) (f : State → RelayHdr → State) : State :=
  if !s.power.on then s
  else
    let h := RelayHdr.ofNat hdr.toNat
    match h.hop with
    | some (side, h) => s.relayOut side h addr data
    | none => f s h

/-- The member that sent a packet (R323). -/
def relaySender (s : State) (h : RelayHdr) : Option Nat :=
  (List.range 16).find? fun m =>
    s.flag (Rg.HB_MEMBER_EN m) && signed 5 (s.fld (Rg.HB_MEMBER_DX m)) == -h.odx && signed 5 (s.fld (Rg.HB_MEMBER_DY m)) == -h.ody

/-- A packet whose sender is no member is discarded with an entry (R323). -/
def relayUnknown (s : State) : State := s.logEdge 0x403 0x8000 0xB 5

/-- Data of an HRD in packets of at most 48 bytes, in ascending address order; `n` bounds the packets (R322). -/
def sendHrdd (s : State) (h : RelayHdr) (addr : Nat) : Nat → List Byte → State
  | 0, _ => s
  | n + 1, bs =>
    let now := bs.take 48
    let rest := bs.drop 48
    let s := s.relayReply (h.reply 2 0 now.length) (BitVec.ofNat 64 addr) (toWords 6 now)
    if rest.isEmpty then s else s.sendHrdd h (addr + 48) n rest

/-- HRD at its destination (R322, R323). -/
def hrdServe (s : State) (h : RelayHdr) (addr : DWord) (host : Option (List Byte)) : State :=
  if !s.flag Rg.HB_CFG_ACTIVE then s.relayReply (h.reply 2 3 0) addr []
  else if (s.relaySender h).isNone then s.relayUnknown
  else if !s.hostUp then s
  else
    match host with
    | some bs =>
      if 1 ≤ h.len ∧ h.len ≤ 4096 then s.sendHrdd h addr.toNat 86 (padTo h.len (bs.take h.len)) else s.relayReply (h.reply 2 1 0) addr []
    | none => s.relayReply (h.reply 2 1 0) addr []

/-- HWR at its destination (R322, R323). -/
def hwrServe (s : State) (h : RelayHdr) (addr : DWord) (data : List DWord) : State :=
  if !s.flag Rg.HB_CFG_ACTIVE then s.relayReply (h.reply 6 3 0) addr []
  else if s.hostUp ∧ h.len ≤ 48 then s.emit (.hostWrite addr.toNat ((ofWords data).take h.len))
  else s

/-- The requester that a relayed access carries (R457). -/
def relayReq (h : RelayHdr) : Requester := .relay (BitVec.ofInt 5 h.odx) (BitVec.ofInt 5 h.ody)

/-- CRD at its destination (R322, R323). -/
def crdServe (s : State) (h : RelayHdr) (addr : DWord) : State :=
  let x := s.sentRead false 0x8000 (relayReq h) (bits addr.toNat 47 0)
  x.2.2.relayReply (h.reply 6 x.1 4) addr (if x.1 = 0 then [BitVec.ofNat 64 x.2.1] else [])

/-- CWR at its destination (R322, R323). -/
def cwrServe (s : State) (h : RelayHdr) (addr : DWord) (v : Word) : State :=
  let x := s.sentWrite false 0x8000 (relayReq h) (bits addr.toNat 47 0) v none
  x.2.relayReply (h.reply 6 x.1 4) addr []

/-- IRQ at its destination (R320, R322, R323). -/
def irqServe (s : State) (h : RelayHdr) (addr : DWord) : State :=
  if !s.flag Rg.HB_CFG_ACTIVE then s.relayReply (h.reply 6 3 0) addr []
  else
    match s.relaySender h with
    | none => s.relayUnknown
    | some m =>
      let v := h.len % 256
      if !s.hostUp then s
      else if v < 64 then s.emit (.msix v)
      else if v < 68 then s.emit (.msix (64 + 4 * m + (v - 64)))
      else s

/-! ### The host's own accesses -/

/-- A host access of BAR2 window `i` goes to its member (R319, R321): none when the window is closed. -/
def hostWindow (s : State) (o : Nat) : Option (Nat × Nat) :=
  let i := o / 0x10000000
  if s.flag (Rg.HB_WIN_LO_EN i) then
    some (s.fld (Rg.HB_WIN_LO_MEMBER i), s.fld (Rg.HB_WIN_LO_BASE i) * 2 ^ 28 + s.fld (Rg.HB_WIN_HI_BASE i) * 2 ^ 32 + o % 0x10000000)
  else none

/-- The route from the bridge to member `m`. -/
def memberRoute (s : State) (m : Nat) : Int × Int := (signed 5 (s.fld (Rg.HB_MEMBER_DX m)), signed 5 (s.fld (Rg.HB_MEMBER_DY m)))

/-- A host access is relayed to a member with the bridge's next tag (R319, R322). -/
def hostRelay (s : State) (m : Nat) (rop : Nat) (a : Nat) (data : List DWord) : State :=
  let d := s.memberRoute m
  let t := s.bridge.tag % 256
  let s : State := { s with bridge := ⟨Store.put s.bridge.out t (rop == 4), t + 1⟩ }
  let h : RelayHdr := ⟨d.1, d.2, d.1, d.2, rop, t, 0, 4⟩
  match h.hop with
  | some (side, h) => s.relayOut side h (BitVec.ofNat 64 a) data
  | none => s

/-- A 4-byte read by the host of a control address of this module (R319, R454). -/
def hostReadHere (s : State) (a : Nat) : State :=
  let x := s.sentRead false 0x8000 .host a
  if x.1 = 0 then x.2.2.emit (.hostDone 0 (some (BitVec.ofNat 32 x.2.1))) else x.2.2.emit (.hostDone 1 none)

/-- A 4-byte read by the host (R319): `a` is an offset in BAR0, or in BAR2 with bit 47 set. -/
def hostRead (s : State) (a : Nat) : State :=
  if !s.hostUp then s
  else if a % 4 ≠ 0 then s.emit (.hostDone 2 none)
  else if bit a 47 then
    match s.hostWindow (a % 2 ^ 32) with
    | none => s.emit (.hostDone 0 (some 0))
    | some (m, a) =>
      if !s.flag (Rg.HB_MEMBER_EN m) then s.emit (.hostDone 1 none)
      else if s.memberRoute m = (0, 0) then s.hostReadHere a
      else s.hostRelay m 4 a []
  else if a < 0x10000000 then s.hostReadHere a
  else s

/-- A 4-byte write by the host (R319). -/
def hostStore (s : State) (a : Nat) (v : Word) : State :=
  if !s.hostUp then s
  else if a % 4 ≠ 0 then s.emit (.hostDone 3 none)
  else if bit a 47 then
    match s.hostWindow (a % 2 ^ 32) with
    | none => s
    | some (m, a) =>
      if !s.flag (Rg.HB_MEMBER_EN m) then s
      else if s.memberRoute m = (0, 0) then (s.sentWrite false 0x8000 .host a v none).2
      else s.hostRelay m 5 a [BitVec.ofNat 64 v.toNat]
  else if a < 0x10000000 then (s.sentWrite false 0x8000 .host a v none).2
  else s

/-! ### Sideband requests -/

/-- An RD packet from `src` (R173): nothing answers where the packet or its response was discarded on its way (R174). The response
takes the request's ORD. -/
def rdTake (s : State) (src : Nat) (ord : Bool) (tag : Nat) (req : Requester) (a : Nat) : State :=
  if !s.power.on then s
  else
    let x := s.sentRead ord src req a
    if x.1 = 2 then x.2.2
    else
      let d := if x.1 = 0 then (x.2.1, x.2.2) else x.2.2.fresh 32
      d.2.emit (.packet ⟨3, src, s.answerNode a, tag, x.1 * 256, [BitVec.ofNat 64 d.1], ord⟩)

/-- A WR packet from `src` (R173, R174). -/
def wrTake (s : State) (src : Nat) (ord : Bool) (tag : Nat) (req : Requester) (a : Nat) (v : Word) : State :=
  if !s.power.on then s
  else
    let x := s.sentWrite ord src req a v none
    if x.1 = 2 then x.2 else x.2.emit (.packet ⟨3, src, s.answerNode a, tag, x.1 * 256, [], ord⟩)

/-- A request with an uncorrectable flit (R170): it is discarded at router `node`; a read of the host completes with Completer
Abort (R319). -/
def requestLost (s : State) (type node : Nat) (req : Requester) : State :=
  if !s.power.on then s
  else
    let s := s.flitLost node type
    if req = .host ∧ type = 1 ∧ s.hostUp then s.emit (.hostDone 1 none) else s

/-- A request whose answer never came (R170): the requester receives status 2; a relayed read of the host completes with
Completer Abort (R319). -/
def timedOut (s : State) (src tag : Nat) : State :=
  match (if src = 0x8000 then Store.find s.bridge.out tag else none) with
  | some read =>
    let s : State := { s with bridge := { s.bridge with out := Store.erase s.bridge.out tag } }
    if read then s.emit (.hostDone 1 none) else s
  | none => s.receive (.response src tag 2 none)

end State

/-- RD at its destination, or the host's read of a BAR (R173, R319). -/
def execRd (src : BitVec 16) (tag : Byte) (req : Requester) (a : BitVec 48) (s : State) (ord : Bool := false)
    (lost : Option (BitVec 16) := none) : Out :=
  .next (match lost, req with
    | some node, _ => s.requestLost 1 node.toNat req
    | none, .host => s.hostRead a.toNat
    | none, _ => s.rdTake src.toNat ord tag.toNat req a.toNat)

/-- WR at its destination, or the host's write of a BAR (R173, R319). -/
def execWr (src : BitVec 16) (tag : Byte) (req : Requester) (a : BitVec 48) (v : Word) (s : State) (ord : Bool := false)
    (lost : Option (BitVec 16) := none) : Out :=
  .next (match lost, req with
    | some node, _ => s.requestLost 2 node.toNat req
    | none, .host => s.hostStore a.toNat v
    | none, _ => s.wrTake src.toNat ord tag.toNat req a.toNat v)

/-- A request unanswered for 65,536 CBCLK (R170). -/
def execSidebandTimeout (src : BitVec 16) (tag : Byte) (s : State) : Out := .next (s.timedOut src.toNat tag.toNat)

/-- HRD (R322). -/
def execHrd (hdr addr : DWord) (hostData : Option (List Byte)) (s : State) : Out :=
  .next (s.relayTake hdr addr [] fun s h => s.hrdServe h addr hostData)

/-- HRDD (R322). -/
def execHrdd (hdr addr : DWord) (data : List DWord) (s : State) : Out :=
  .next (s.relayTake hdr addr data fun s h => s.relayResponse h data)

/-- HWR (R322). -/
def execHwr (hdr addr : DWord) (data : List DWord) (s : State) : Out :=
  .next (s.relayTake hdr addr data fun s h => s.hwrServe h addr data)

/-- CRD (R322). -/
def execCrd (hdr addr : DWord) (s : State) : Out := .next (s.relayTake hdr addr [] fun s h => s.crdServe h addr)

/-- CWR (R322). -/
def execCwr (hdr addr : DWord) (data : Word) (s : State) : Out :=
  .next (s.relayTake hdr addr [BitVec.ofNat 64 data.toNat] fun s h => s.cwrServe h addr data)

/-- CRSP (R322): its data flit is there when NDATA says so. -/
def execCrsp (hdr addr : DWord) (data : Word) (s : State) : Out :=
  let flits := if bits hdr.toNat 26 24 = 0 then [] else [BitVec.ofNat 64 data.toNat]
  .next (s.relayTake hdr addr flits fun s h => s.relayResponse h flits)

/-- IRQ (R322). -/
def execIrq (hdr addr : DWord) (s : State) : Out := .next (s.relayTake hdr addr [] fun s h => s.irqServe h addr)

/-- A host request that is not single, aligned and 4 bytes (R319). -/
def execHostMalformedRequest (write : Bool) (addr : DWord) (len : Nat) (s : State) : Out :=
  .next (if s.hostUp ∧ (len ≠ 4 ∨ addr.toNat % 4 ≠ 0) then s.emit (.hostDone (if write then 3 else 2) none) else s)

/-- The active bridge's host link trains (R318, R321). -/
def execHostLinkTrained (rate : BitVec 4) (width : BitVec 5) (s : State) : Out :=
  .next (if s.power.on ∧ s.flag Rg.HB_CFG_ACTIVE then (s.setFld Rg.HB_CFG_RATE rate.toNat).setFld Rg.HB_CFG_WIDTH width.toNat else s)

/-- The host link goes down (R480, R487). -/
def execHostLinkLost (s : State) : Out :=
  .next (if s.flag Rg.HB_CFG_ACTIVE then (s.setFld Rg.HB_CFG_RATE 0).setFld Rg.HB_CFG_WIDTH 0 else s)

end Sys2Proof.Machine
end

