-- ==== Sys2Proof/Machine/Transfer.lean ====
section
/-!
DEFINITION. The transfer of a model from a neighbouring module (R290 to R292), at the receiver and at the source.
-/
namespace Sys2Proof.Machine

/-- A transfer message is sealed as segment `k` under the session key (R281, R291). -/
def sealAs (x : Session) (k : Nat) (pt : List Byte) : List Byte :=
  Config.gcmSeal x.sk (x.snonce ++ leBytes 8 k) (leBytes 8 k) pt

/-- A transfer message sealed as segment `k`, authenticated; none when that fails. -/
def openAs (x : Session) (k : Nat) (m : List Byte) : Option (List Byte) :=
  let n := m.length - 16
  Config.gcmOpen x.sk (x.snonce ++ leBytes 8 k) (leBytes 8 k) (m.take n) (m.drop n)

/-- Ascending tiles as runs of (MTILE, COUNT), 4 bytes each (R290). -/
def tileRuns : List Nat → List (Nat × Nat)
  | [] => []
  | t :: ts =>
    match tileRuns ts with
    | (u, n) :: rs => if u = t + 1 then (t, n + 1) :: rs else (t, 1) :: (u, n) :: rs
    | [] => [(t, 1)]

/-- The bytes of a request list. -/
def listBytes (rs : List (Nat × Nat)) : List Byte := rs.flatMap fun e => leBytes 4 e.1 ++ leBytes 4 e.2

/-- The tiles that a request list names, in its order; `n` bounds the runs. -/
def listTiles : Nat → List Byte → List Nat
  | 0, _ => []
  | n + 1, b =>
    if b.length < 8 then []
    else ((List.range (fieldAt b 4 4)).map fun i => fieldAt b 0 4 + i) ++ listTiles n (b.drop 8)

namespace State

/-- A check of the handshake fails at the receiver (R290): abort message, and the loader fails with cause 9. -/
def rxFail (s : State) : State := s.loadFail 9 s.rxSession.model

/-- A check fails at the source: abort message, and the session ends (R290, R291). -/
def txFail (s : State) (missing : Bool) : State :=
  ({ s with txSession := Session.idle } : State).emit (.handshake 0 (if missing then [[11]] else []))

/-- HELLO at the source (R290 steps 1 and 2): its quote over Nr, its chain and a fresh nonce go back. -/
def helloTake (s : State) (nr chain model : List Byte) : State :=
  if Config.chainOk chain then
    let x := s.fresh 256
    let ns := leBytes 32 x.1
    let q := x.2.quote nr
    ({ q.2 with txSession := { Session.idle with step := 2, nr := nr, ns := ns, chain := chain, wanted := model } } : State).emit
      (.handshake 2 [q.1, Config.ownChain, ns])
  else s.txFail false

/-- The model in force whose identifier begins with `wanted`; the main model when there is none. -/
def heldModel (s : State) (wanted : List Byte) : Nat :=
  match s.loader.inForce.find? fun e => e.2.take wanted.length == wanted with
  | some e => e.1
  | none => 0

/-- The source's quote at the receiver (R290 steps 2 and 3). -/
def quoteAtReceiver (s : State) (q chain ns : List Byte) : State :=
  let x := s.rxSession
  if Config.chainOk chain && quoteOk q chain x.nr s.fuse.archrev then
    let o := s.quote ns
    ({ o.2 with rxSession := { x with step := 3, ns := ns, chain := chain } } : State).emit (.handshake 3 [o.1] x.path)
  else s.rxFail

/-- The receiver's quote at the source (R290 steps 3 and 4): a session key goes back, wrapped to the receiver's key and
signed. -/
def quoteAtSource (s : State) (q : List Byte) : State :=
  let x := s.txSession
  if quoteOk q x.chain x.ns s.fuse.archrev then
    let k := s.fresh 256
    let n := k.2.fresh 32
    let s := n.2
    let sk := leBytes 32 k.1
    let sn := leBytes 4 n.1
    let m := s.heldModel x.wanted
    let id := (Store.get [] s.loader.inForce m).take x.wanted.length
    let blob := Config.oaepSeal (Config.chainModulus x.chain) (sk ++ sn ++ x.nr ++ x.ns ++ id) s.free
    let s := { s with free := s.free + 1 }
    let g := s.signMsg blob
    ({ g.2 with txSession := { x with step := 4, model := m, sk := sk, snonce := sn } } : State).emit (.handshake 4 [blob, g.1])
  else s.txFail false

/-- The session-key message at the receiver (R290 steps 4 and 5): the request list goes out. -/
def keyTake (s : State) (msg sig : List Byte) : State :=
  let x := s.rxSession
  if x.step ≠ 3 then s
  else if !Config.pssVerify x.chain ([0x4C, 0x57, 0x48, 0x53] ++ msg) sig then s.rxFail
  else
    match Config.oaepOpen msg with
    | none => s.rxFail
    | some b =>
      if bytesAt b 36 32 = x.nr ∧ bytesAt b 68 32 = x.ns ∧ b.drop 100 = x.wanted then
        let ts := (s.loader.tiles.filter fun t => MappedTile.model t == x.model).map MappedTile.mtile
        let ts := ascending (ts.foldl Nat.max 0 + 1) ts
        let x := { x with step := 5, sk := bytesAt b 0 32, snonce := bytesAt b 32 4, tiles := ts }
        ({ s with rxSession := x } : State).emit (.handshake 5 [sealAs x (2 ^ 64 - 1) (listBytes (tileRuns ts))] x.path)
      else s.rxFail

/-- The cluster and logical tile at which the module holds model tile `t` of model `m` of the image in force: mapped, not pending
and not rewritten by a swap that has not ended. -/
def holdsTile (s : State) (all : List MappedTile) (m t : Nat) : Option (Nat × Nat × Nat) :=
  if !s.imgInForce then none
  else
    (all.find? fun e => MappedTile.model e == m && MappedTile.mtile e == t
        && !s.tilePending e.1 (s.targetCluster e.1 e.2.1) e.2.2.1
        && !s.loader.swapped.contains (e.1, s.targetCluster e.1 e.2.1, e.2.2.1)).map
      fun e => (e.1, s.targetCluster e.1 e.2.1, e.2.2.1)

/-- The request list at the source (R290 steps 5 and 6, R291): the transfer segments go out, the last padded with zero
tiles. -/
def listTake (s : State) (sealed : List Byte) : State :=
  let x := s.txSession
  if x.step ≠ 4 then s
  else
    match openAs x (2 ^ 64 - 1) sealed with
    | none => s.txFail false
    | some b =>
      let ts := listTiles b.length b
      let all := mappedTiles s.image s.place
      let held := ts.map (s.holdsTile all x.model)
      if held.any Option.isNone then s.txFail true
      else
        let tiles := held.filterMap fun e => e.map fun e => s.tileBytes e.1 e.2.1 e.2.2
        let s := { s with txSession := { x with step := 6, tiles := ts } }
        (List.range (ceilDiv ts.length 64)).foldl (fun s k =>
          s.emit (.handshake 6 [leBytes 8 k, sealAs x k (padTo 1048576 ((tiles.drop (64 * k)).take 64).flatten)])) s

/-- Does transfer segment `part` hold a tile of a region that a swap does not yet hold IDLE (R294)? -/
def partWaits (s : State) (part : List Nat) : Bool :=
  s.loader.job == .swap && s.loader.tiles.any fun t =>
    MappedTile.model t == s.rxSession.model && part.contains (MappedTile.mtile t) && !s.swpIdle t.1

/-- The next transfer segment, opened (R291): its tiles are written; after the last, DONE goes out and the key is erased. -/
def segmentWrite (s : State) (pt : List Byte) : State :=
  let x := s.rxSession
  let part := (x.tiles.drop (64 * x.next)).take 64
  let s := s.writeSegment x.model pt fun t => part.findIdx? fun u => u == MappedTile.mtile t
  let s := s.modJob x.model fun j => { j with todo := j.todo.erase x.next }
  if x.next + 1 < ceilDiv x.tiles.length 64 then { s with rxSession := { x with next := x.next + 1 } }
  else
    let s := s.emit (.handshake 7 [sealAs x (2 ^ 64 - 2) []] x.path)
    ({ s with rxSession := Session.idle } : State).loadAdvance

/-- A transfer segment arrives for job `j` (R287, R291): three failed tries abandon the operation. -/
def segmentOpen (s : State) (j : ModelJob) (d : List Byte) : State :=
  let x := s.rxSession
  let s := if s.loader.job = .swap then s.setFld Rg.WLD_STAT_STATE 3 else s
  match openAs x x.next d with
  | none => s.segmentRetry j x.next
  | some pt => s.segmentWrite pt

/-- A transfer segment at the receiver (R291), which waits in a swap while a region it feeds is not IDLE. -/
def segmentTake (s : State) (sealed : Option (List Byte)) : State :=
  let x := s.rxSession
  if x.step ≠ 5 then s
  else
    match sealed, s.loader.models.find? fun j => j.m == x.model with
    | none, _ => s.loadFail 10 x.next
    | some _, none => s
    | some d, some j => if s.partWaits ((x.tiles.drop (64 * x.next)).take 64) then s else s.segmentOpen j d

/-- DONE at the source (R290 step 7): its key is erased. -/
def doneTake (s : State) (sealed : List Byte) : State :=
  let x := s.txSession
  if x.step ≠ 6 then s
  else if (openAs x (2 ^ 64 - 2) sealed).isSome then { s with txSession := Session.idle }
  else s.txFail false

/-- An abort message of the peer (R290): the receiver's loader fails with cause 9, or 11 for a missing tile (R288). -/
def abortTake (s : State) (missing : Bool) : State :=
  if s.rxSession.step ≠ 0 then
    ({ s with rxSession := Session.idle } : State).loadFail (if missing then 11 else 9) s.rxSession.model
  else { s with txSession := Session.idle }

end State

/-- HELLO at the source (R290). -/
def execHello (nr chain model : List Byte) (s : State) : Out := .next (s.helloTake nr chain model)

/-- The peer's quote (R290): the source's, or the receiver's when this module waits for it as the source. -/
def execTransferQuote (quote chain nonce : List Byte) (s : State) : Out :=
  .next (if s.txSession.step = 2 ∧ (s.rxSession.step ≠ 1 ∨ bytesAt quote 32 32 = s.txSession.ns) then s.quoteAtSource quote
    else if s.rxSession.step = 1 then s.quoteAtReceiver quote chain nonce
    else s)

/-- The session-key message at the receiver (R290). -/
def execSessionKey (msg sig : List Byte) (s : State) : Out := .next (s.keyTake msg sig)

/-- The request list at the source (R290). -/
def execRequestList (sealed : List Byte) (s : State) : Out := .next (s.listTake sealed)

/-- A transfer segment at the receiver, or the loss of the path (R288, R291). -/
def execTransferSegment (sealed : Option (List Byte)) (s : State) : Out := .next (s.segmentTake sealed)

/-- DONE at the source (R290). -/
def execTransferDone (sealed : List Byte) (s : State) : Out := .next (s.doneTake sealed)

/-- An abort message of the peer (R290). -/
def execTransferAbort (missing : Bool) (s : State) : Out := .next (s.abortTake missing)

end Sys2Proof.Machine
end

