-- ==== Sys2Proof/Machine/Vec.lean ====
section
/-!
DEFINITION. The rows of the VEC slot (R99): each issues its operation for the context of the region's current schedule
cycle; VEC_RESULT lands the results that are due (R87).
-/
namespace Sys2Proof.Machine

/-- A VEC row (R98, R99). -/
def vecRow (p : Site) (v : VecSlot) (s : State) : Out :=
  slotRow p (fun s n => s.vecOk p.r p.c v n) (fun s n b => s.vecIssue p.r p.c v n b) s

/-- FMA (R113). -/
def execFma (p : Site) (d a b c : Fin 32) (pair : Bool) (s : State) : Out :=
  vecRow p (.plain 0x01 d a b c (pairBit pair)) s

/-- MUL (R99, R113). -/
def execMul (p : Site) (d a b : Fin 32) (pair : Bool) (s : State) : Out :=
  vecRow p (.plain 0x02 d a b 0 (pairBit pair)) s

/-- ADD (R99, R113). -/
def execAdd (p : Site) (d a b : Fin 32) (pair : Bool) (s : State) : Out :=
  vecRow p (.plain 0x03 d a b 0 (pairBit pair)) s

/-- SUB (R99, R113). -/
def execSub (p : Site) (d a b : Fin 32) (pair : Bool) (s : State) : Out :=
  vecRow p (.plain 0x04 d a b 0 (pairBit pair)) s

/-- MAX (R114). -/
def execMax (p : Site) (d a b : Fin 32) (pair : Bool) (s : State) : Out :=
  vecRow p (.plain 0x05 d a b 0 (pairBit pair)) s

/-- MIN (R114). -/
def execMin (p : Site) (d a b : Fin 32) (pair : Bool) (s : State) : Out :=
  vecRow p (.plain 0x06 d a b 0 (pairBit pair)) s

/-- CMPEQ (R114). -/
def execCmpeq (p : Site) (d a b : Fin 32) (s : State) : Out := vecRow p (.plain 0x08 d a b 0 0) s

/-- CMPLT (R114). -/
def execCmplt (p : Site) (d a b : Fin 32) (s : State) : Out := vecRow p (.plain 0x09 d a b 0 0) s

/-- CMPLE (R114). -/
def execCmple (p : Site) (d a b : Fin 32) (s : State) : Out := vecRow p (.plain 0x0A d a b 0 0) s

/-- SEL (R99). -/
def execSel (p : Site) (d a b c : Fin 32) (s : State) : Out := vecRow p (.plain 0x0B d a b c 0) s

/-- IADD (R116). -/
def execIadd (p : Site) (d a b : Fin 32) (s : State) : Out := vecRow p (.plain 0x10 d a b 0 0) s

/-- ISUB (R116). -/
def execIsub (p : Site) (d a b : Fin 32) (s : State) : Out := vecRow p (.plain 0x11 d a b 0 0) s

/-- AND (R116). -/
def execAnd (p : Site) (d a b : Fin 32) (s : State) : Out := vecRow p (.plain 0x12 d a b 0 0) s

/-- OR (R116). -/
def execOr (p : Site) (d a b : Fin 32) (s : State) : Out := vecRow p (.plain 0x13 d a b 0 0) s

/-- XOR (R116). -/
def execXor (p : Site) (d a b : Fin 32) (s : State) : Out := vecRow p (.plain 0x14 d a b 0 0) s

/-- SHL (R116). -/
def execShl (p : Site) (d a b : Fin 32) (s : State) : Out := vecRow p (.plain 0x15 d a b 0 0) s

/-- SHR (R116). -/
def execShr (p : Site) (d a b : Fin 32) (s : State) : Out := vecRow p (.plain 0x16 d a b 0 0) s

/-- SAR (R116). -/
def execSar (p : Site) (d a b : Fin 32) (s : State) : Out := vecRow p (.plain 0x17 d a b 0 0) s

/-- LANEID (R99). -/
def execLaneid (p : Site) (d : Fin 32) (s : State) : Out := vecRow p (.plain 0x19 d 0 0 0 0) s

/-- BCAST (R99). -/
def execBcast (p : Site) (d a : Fin 32) (x : BitVec 8) (s : State) : Out :=
  vecRow p ⟨0x1A, d, a, 0, 0, 0, 0, 0, x.toNat⟩ s

/-- CVTW (R115). -/
def execCvtw (p : Site) (d a : Fin 32) (s : State) : Out := vecRow p (.plain 0x20 d a 0 0 0) s

/-- CVTN (R115). -/
def execCvtn (p : Site) (d a : Fin 32) (s : State) : Out := vecRow p (.plain 0x21 d a 0 0 0) s

/-- NARROWT (R103, R52). -/
def execNarrowt (p : Site) (d a : Fin 32) (x : BitVec 8) (s : State) : Out :=
  vecRow p ⟨0x22, d, a, 0, 0, 0, 0, 0, x.toNat⟩ s

/-- NARROWU (R103, R48). -/
def execNarrowu (p : Site) (d a : Fin 32) (s : State) : Out := vecRow p (.plain 0x23 d a 0 0 0) s

/-- CVTB8 (R103, R48). -/
def execCvtb8 (p : Site) (d a : Fin 32) (s : State) : Out := vecRow p (.plain 0x24 d a 0 0 0) s

/-- CVTB5 (R103, R48). -/
def execCvtb5 (p : Site) (d a : Fin 32) (s : State) : Out := vecRow p (.plain 0x25 d a 0 0 0) s

/-- CVTBI (R103, R48). -/
def execCvtbi (p : Site) (d a : Fin 32) (s : State) : Out := vecRow p (.plain 0x26 d a 0 0 0) s

/-- WIDEN (R103). -/
def execWiden (p : Site) (d a : Fin 32) (x : BitVec 8) (s : State) : Out :=
  vecRow p ⟨0x27, d, a, 0, 0, 0, 0, 0, x.toNat⟩ s

/-- EXP2 (R119, R120). -/
def execExp2 (p : Site) (d a : Fin 32) (s : State) : Out := vecRow p (.plain 0x30 d a 0 0 0) s

/-- LOG2 (R119, R120). -/
def execLog2 (p : Site) (d a : Fin 32) (s : State) : Out := vecRow p (.plain 0x31 d a 0 0 0) s

/-- RCP (R119, R120). -/
def execRcp (p : Site) (d a : Fin 32) (s : State) : Out := vecRow p (.plain 0x32 d a 0 0 0) s

/-- RSQRT (R119, R120). -/
def execRsqrt (p : Site) (d a : Fin 32) (s : State) : Out := vecRow p (.plain 0x33 d a 0 0 0) s

/-- SILU (R119, R120). -/
def execSilu (p : Site) (d a : Fin 32) (s : State) : Out := vecRow p (.plain 0x34 d a 0 0 0) s

/-- GELU (R119, R120). -/
def execGelu (p : Site) (d a : Fin 32) (s : State) : Out := vecRow p (.plain 0x35 d a 0 0 0) s

/-- RSUM (R73). -/
def execRsum (p : Site) (d a : Fin 32) (m : Fin 9) (l0 : BitVec 8) (s : State) : Out :=
  vecRow p ⟨0x40, d, a, 0, 0, 0, m, l0.toNat, 0⟩ s

/-- RMAX (R73). -/
def execRmax (p : Site) (d a : Fin 32) (m : Fin 9) (l0 : BitVec 8) (s : State) : Out :=
  vecRow p ⟨0x41, d, a, 0, 0, 0, m, l0.toNat, 0⟩ s

/-- RMIN (R73). -/
def execRmin (p : Site) (d a : Fin 32) (m : Fin 9) (l0 : BitVec 8) (s : State) : Out :=
  vecRow p ⟨0x42, d, a, 0, 0, 0, m, l0.toNat, 0⟩ s

/-- RLSE (R101). -/
def execRlse (p : Site) (d a b : Fin 32) (m : Fin 9) (l0 : BitVec 8) (s : State) : Out :=
  vecRow p ⟨0x43, d, a, b, 0, 0, m, l0.toNat, 0⟩ s

/-- TOPL (R102). -/
def execTopl (p : Site) (d a b : Fin 32) (x : BitVec 8) (m : Fin 9) (l0 : BitVec 8) (s : State) : Out :=
  vecRow p ⟨0x44, d, a, b, 0, 0, m, l0.toNat, x.toNat⟩ s

/-- XACC (R99, R67). -/
def execXacc (p : Site) (a : Fin 32) (x : BitVec 8) (m : Fin 9) (l0 : BitVec 8) (s : State) : Out :=
  vecRow p ⟨0x50, 0, a, 0, 0, 0, m, l0.toNat, x.toNat⟩ s

/-- XMAC (R99, R67). -/
def execXmac (p : Site) (a b : Fin 32) (pair : Bool) (x : BitVec 8) (m : Fin 9) (l0 : BitVec 8) (s : State) : Out :=
  vecRow p ⟨0x51, 0, a, b, 0, pairBit pair, m, l0.toNat, x.toNat⟩ s

/-- XFOLD (R99, R70). -/
def execXfold (p : Site) (x : BitVec 8) (m : Fin 8) (s : State) : Out :=
  vecRow p ⟨0x52, 0, 0, 0, 0, 0, m, 0, x.toNat⟩ s

/-- XCVT (R43). -/
def execXcvt (p : Site) (d : Fin 32) (bf16 : Bool) (x : BitVec 8) (m : Fin 9) (l0 : BitVec 8) (s : State) : Out :=
  vecRow p ⟨0x53, d, 0, 0, 0, pairBit bf16, m, l0.toNat, x.toNat⟩ s

/-- XRST (R99). -/
def execXrst (p : Site) (x : BitVec 8) (m : Fin 9) (s : State) : Out :=
  vecRow p ⟨0x54, 0, 0, 0, 0, 0, m, 0, x.toNat⟩ s

/-- The vector results that are due land (R87). -/
def execVecResult (p : Site) (s : State) : Out :=
  .next (if s.live p.r then s.landSel p.r p.c (s.region p.r).cycle fun e => e.slot == 3 else s)

end Sys2Proof.Machine
end

