-- ==== Sys2Proof/Machine/Dispatch.lean ====
section
/-!
DEFINITION. The dispatch of commands: one arm per constructor of Instr, each one direct call of its meaning.
-/
namespace Sys2Proof.Machine

/-- The effect of a command on everything but the queue of waiting commands. -/
def exec (i : Instr) (s : State) : Host.Outcome State Fault Refusal :=
  match i with
  | .idle at_ n => Sys2Proof.Machine.execIdle at_ n s
  | .loop at_ len cnt => Sys2Proof.Machine.execLoop at_ len cnt s
  | .segend at_ => Sys2Proof.Machine.execSegend at_ s
  | .mark at_ v => Sys2Proof.Machine.execMark at_ v s
  | .segmentBegin r => Sys2Proof.Machine.execSegmentBegin r s
  | .scheduleCycleExecutes r errs => Sys2Proof.Machine.execScheduleCycleExecutes r s errs
  | .queueTimeout r => Sys2Proof.Machine.execQueueTimeout r s
  | .pressRun at_ daddr half accb tile => Sys2Proof.Machine.execPressRun at_ daddr half accb tile s
  | .pourRun at_ daddr half accb tile => Sys2Proof.Machine.execPourRun at_ daddr half accb tile s
  | .cbload at_ tile nt => Sys2Proof.Machine.execCbload at_ tile nt s
  | .engineOpComplete at_ => Sys2Proof.Machine.execEngineOpComplete at_ s
  | .tileCrcComparison at_ => Sys2Proof.Machine.execTileCrcComparison at_ s
  | .fma at_ d a b c pair => Sys2Proof.Machine.execFma at_ d a b c pair s
  | .mul at_ d a b pair => Sys2Proof.Machine.execMul at_ d a b pair s
  | .add at_ d a b pair => Sys2Proof.Machine.execAdd at_ d a b pair s
  | .sub at_ d a b pair => Sys2Proof.Machine.execSub at_ d a b pair s
  | .max at_ d a b pair => Sys2Proof.Machine.execMax at_ d a b pair s
  | .min at_ d a b pair => Sys2Proof.Machine.execMin at_ d a b pair s
  | .cmpeq at_ d a b => Sys2Proof.Machine.execCmpeq at_ d a b s
  | .cmplt at_ d a b => Sys2Proof.Machine.execCmplt at_ d a b s
  | .cmple at_ d a b => Sys2Proof.Machine.execCmple at_ d a b s
  | .sel at_ d a b c => Sys2Proof.Machine.execSel at_ d a b c s
  | .iadd at_ d a b => Sys2Proof.Machine.execIadd at_ d a b s
  | .isub at_ d a b => Sys2Proof.Machine.execIsub at_ d a b s
  | .and at_ d a b => Sys2Proof.Machine.execAnd at_ d a b s
  | .or at_ d a b => Sys2Proof.Machine.execOr at_ d a b s
  | .xor at_ d a b => Sys2Proof.Machine.execXor at_ d a b s
  | .shl at_ d a b => Sys2Proof.Machine.execShl at_ d a b s
  | .shr at_ d a b => Sys2Proof.Machine.execShr at_ d a b s
  | .sar at_ d a b => Sys2Proof.Machine.execSar at_ d a b s
  | .laneid at_ d => Sys2Proof.Machine.execLaneid at_ d s
  | .bcast at_ d a x => Sys2Proof.Machine.execBcast at_ d a x s
  | .cvtw at_ d a => Sys2Proof.Machine.execCvtw at_ d a s
  | .cvtn at_ d a => Sys2Proof.Machine.execCvtn at_ d a s
  | .narrowt at_ d a x => Sys2Proof.Machine.execNarrowt at_ d a x s
  | .narrowu at_ d a => Sys2Proof.Machine.execNarrowu at_ d a s
  | .cvtb8 at_ d a => Sys2Proof.Machine.execCvtb8 at_ d a s
  | .cvtb5 at_ d a => Sys2Proof.Machine.execCvtb5 at_ d a s
  | .cvtbi at_ d a => Sys2Proof.Machine.execCvtbi at_ d a s
  | .widen at_ d a x => Sys2Proof.Machine.execWiden at_ d a x s
  | .exp2 at_ d a => Sys2Proof.Machine.execExp2 at_ d a s
  | .log2 at_ d a => Sys2Proof.Machine.execLog2 at_ d a s
  | .rcp at_ d a => Sys2Proof.Machine.execRcp at_ d a s
  | .rsqrt at_ d a => Sys2Proof.Machine.execRsqrt at_ d a s
  | .silu at_ d a => Sys2Proof.Machine.execSilu at_ d a s
  | .gelu at_ d a => Sys2Proof.Machine.execGelu at_ d a s
  | .rsum at_ d a m l0 => Sys2Proof.Machine.execRsum at_ d a m l0 s
  | .rmax at_ d a m l0 => Sys2Proof.Machine.execRmax at_ d a m l0 s
  | .rmin at_ d a m l0 => Sys2Proof.Machine.execRmin at_ d a m l0 s
  | .rlse at_ d a b m l0 => Sys2Proof.Machine.execRlse at_ d a b m l0 s
  | .topl at_ d a b x m l0 => Sys2Proof.Machine.execTopl at_ d a b x m l0 s
  | .xacc at_ a x m l0 => Sys2Proof.Machine.execXacc at_ a x m l0 s
  | .xmac at_ a b pair x m l0 => Sys2Proof.Machine.execXmac at_ a b pair x m l0 s
  | .xfold at_ x m => Sys2Proof.Machine.execXfold at_ x m s
  | .xcvt at_ d bf16 x m l0 => Sys2Proof.Machine.execXcvt at_ d bf16 x m l0 s
  | .xrst at_ x m => Sys2Proof.Machine.execXrst at_ x m s
  | .vecResult at_ => Sys2Proof.Machine.execVecResult at_ s
  | .xferFromScratchpad at_ taddr form => Sys2Proof.Machine.execXferFromScratchpad at_ taddr form s
  | .xferIntoScratchpad at_ taddr form => Sys2Proof.Machine.execXferIntoScratchpad at_ taddr form s
  | .fill at_ taddr => Sys2Proof.Machine.execFill at_ taddr s
  | .copy at_ taddr => Sys2Proof.Machine.execCopy at_ taddr s
  | .dmaCommand at_ taddr form => Sys2Proof.Machine.execDmaCommand at_ taddr form s
  | .dmaCompletion at_ taddr form => Sys2Proof.Machine.execDmaCompletion at_ taddr form s
  | .rel at_ h => Sys2Proof.Machine.execRel at_ h s
  | .transferComplete at_ => Sys2Proof.Machine.execTransferComplete at_ s
  | .routePass at_ raddr form => Sys2Proof.Machine.execRoutePass at_ raddr form s
  | .routeBinary32Sum at_ raddr form => Sys2Proof.Machine.execRouteBinary32Sum at_ raddr form s
  | .routeBf16InSum at_ raddr form => Sys2Proof.Machine.execRouteBf16InSum at_ raddr form s
  | .routeXsSum at_ raddr form => Sys2Proof.Machine.execRouteXsSum at_ raddr form s
  | .routeMax at_ raddr form => Sys2Proof.Machine.execRouteMax at_ raddr form s
  | .routeLseMerge at_ raddr form => Sys2Proof.Machine.execRouteLseMerge at_ raddr form s
  | .routeTopkMerge at_ raddr form => Sys2Proof.Machine.execRouteTopkMerge at_ raddr form s
  | .queueEntryVisible r q flip => Sys2Proof.Machine.execQueueEntryVisible r q s flip
  | .queueSlotVisible r q => Sys2Proof.Machine.execQueueSlotVisible r q s
  | .fenceApplied r => Sys2Proof.Machine.execFenceApplied r s
  | .rd src tag req addr ord lost => Sys2Proof.Machine.execRd src tag req addr s ord lost
  | .wr src tag req addr data ord lost => Sys2Proof.Machine.execWr src tag req addr data s ord lost
  | .rsp dest tag status data src ord lost => Sys2Proof.Machine.execRsp dest tag status data s src ord lost
  | .controlDma src f0 peer f2 tag hostPeer ord lost => Sys2Proof.Machine.execControlDma src f0 peer f2 tag hostPeer s ord lost
  | .dmadone src tag status dest ord lost => Sys2Proof.Machine.execDmadone src tag status s dest ord lost
  | .fault src rec ord lost => Sys2Proof.Machine.execFault src rec s ord lost
  | .errlog src rec ord lost => Sys2Proof.Machine.execErrlog src rec s ord lost
  | .segcmd r segno ord lost => Sys2Proof.Machine.execSegcmd r segno s ord lost
  | .token f0 f1 src ord lost => Sys2Proof.Machine.execToken f0 f1 s src ord lost
  | .halt r src ord lost => Sys2Proof.Machine.execHalt r src s ord lost
  | .sidebandTimeout src tag => Sys2Proof.Machine.execSidebandTimeout src tag s
  | .kvread at_ net => Sys2Proof.Machine.execKvread at_ net s
  | .kvwrite at_ net => Sys2Proof.Machine.execKvwrite at_ net s
  | .pfxLaunch req rec => Sys2Proof.Machine.execPfxLaunch req rec s
  | .pfxLookupDone rec => Sys2Proof.Machine.execPfxLookupDone rec s
  | .submit ring entry params prompt => Sys2Proof.Machine.execSubmit ring entry params prompt s
  | .abort ring entry => Sys2Proof.Machine.execAbort ring entry s
  | .tenant ring entry => Sys2Proof.Machine.execTenant ring entry s
  | .grammar ring entry body => Sys2Proof.Machine.execGrammar ring entry body s
  | .commit core cmd => Sys2Proof.Machine.execCommit core cmd s
  | .adv core req nadv lasttok expn => Sys2Proof.Machine.execAdv core req nadv lasttok expn s
  | .debit core req nadv => Sys2Proof.Machine.execDebit core req nadv s
  | .ring core req nent => Sys2Proof.Machine.execRing core req nent s
  | .adj core req chg => Sys2Proof.Machine.execAdj core req chg s
  | .slot core req slotNo => Sys2Proof.Machine.execSlot core req slotNo s
  | .decodeAdmission req n => Sys2Proof.Machine.execDecodeAdmission req n s
  | .prefillAdmission req n => Sys2Proof.Machine.execPrefillAdmission req n s
  | .budgetRefill => Sys2Proof.Machine.execBudgetRefill s
  | .feed r row => Sys2Proof.Machine.execFeed r row s
  | .sample r row => Sys2Proof.Machine.execSample r row s
  | .verify r row => Sys2Proof.Machine.execVerify r row s
  | .load img place headers => Sys2Proof.Machine.execLoad img place headers s
  | .loadSegment m data => Sys2Proof.Machine.execLoadSegment m data s
  | .swap req resume companion headers => Sys2Proof.Machine.execSwap req resume companion headers s
  | .stop req resume => Sys2Proof.Machine.execStop req resume s
  | .swpHoldArm req r v => Sys2Proof.Machine.execSwpHoldArm req r v s
  | .hello nr chain model => Sys2Proof.Machine.execHello nr chain model s
  | .transferQuote quote chain nonce => Sys2Proof.Machine.execTransferQuote quote chain nonce s
  | .sessionKey msg sig => Sys2Proof.Machine.execSessionKey msg sig s
  | .requestList sealed => Sys2Proof.Machine.execRequestList sealed s
  | .transferSegment sealed => Sys2Proof.Machine.execTransferSegment sealed s
  | .transferDone sealed => Sys2Proof.Machine.execTransferDone sealed s
  | .transferAbort missing => Sys2Proof.Machine.execTransferAbort missing s
  | .linkDataFlit p flit flip fec => Sys2Proof.Machine.execLinkDataFlit p flit s flip fec
  | .linkControlFlit p flit fec lost => Sys2Proof.Machine.execLinkControlFlit p flit s fec lost
  | .idleFlit p flit fec => Sys2Proof.Machine.execIdleFlit p flit s fec
  | .trainingFlit p flit fec => Sys2Proof.Machine.execTrainingFlit p flit s fec
  | .portEn req p v => Sys2Proof.Machine.execPortEn req p v s
  | .retrain req p v => Sys2Proof.Machine.execRetrain req p v s
  | .detectRetry p signal => Sys2Proof.Machine.execDetectRetry p signal s
  | .trainingPhaseComplete p lanes peerDom => Sys2Proof.Machine.execTrainingPhaseComplete p lanes s peerDom
  | .trainingPhaseLimit p => Sys2Proof.Machine.execTrainingPhaseLimit p s
  | .linkLoss p => Sys2Proof.Machine.execLinkLoss p s
  | .peerSilent p => Sys2Proof.Machine.execPeerSilent p s
  | .cableMated seg active => Sys2Proof.Machine.execCableMated seg active s
  | .cableRemoved seg => Sys2Proof.Machine.execCableRemoved seg s
  | .vcabOvercurrent seg => Sys2Proof.Machine.execVcabOvercurrent seg s
  | .hrd hdr addr hostData => Sys2Proof.Machine.execHrd hdr addr hostData s
  | .hrdd hdr addr data => Sys2Proof.Machine.execHrdd hdr addr data s
  | .hwr hdr addr data => Sys2Proof.Machine.execHwr hdr addr data s
  | .crd hdr addr => Sys2Proof.Machine.execCrd hdr addr s
  | .cwr hdr addr data => Sys2Proof.Machine.execCwr hdr addr data s
  | .crsp hdr addr data => Sys2Proof.Machine.execCrsp hdr addr data s
  | .irq hdr addr => Sys2Proof.Machine.execIrq hdr addr s
  | .hostMalformedRequest write addr len => Sys2Proof.Machine.execHostMalformedRequest write addr len s
  | .gopArrive req id => Sys2Proof.Machine.execGopArrive req id s
  | .gopBcast req id => Sys2Proof.Machine.execGopBcast req id s
  | .gopSnap req id => Sys2Proof.Machine.execGopSnap req id s
  | .gopQuiesce req id => Sys2Proof.Machine.execGopQuiesce req id s
  | .gopResume req id => Sys2Proof.Machine.execGopResume req id s
  | .markArrive edge id => Sys2Proof.Machine.execMarkArrive edge id s
  | .markRelease edge id => Sys2Proof.Machine.execMarkRelease edge id s
  | .markBcast edge id origin data => Sys2Proof.Machine.execMarkBcast edge id origin data s
  | .markSnap edge id origin data => Sys2Proof.Machine.execMarkSnap edge id origin data s
  | .markQuiesce edge id origin data => Sys2Proof.Machine.execMarkQuiesce edge id origin data s
  | .markResume edge id origin data => Sys2Proof.Machine.execMarkResume edge id origin data s
  | .moduleHeld => Sys2Proof.Machine.execModuleHeld s
  | .gopReset req w => Sys2Proof.Machine.execGopReset req w s
  | .domainResetDone => Sys2Proof.Machine.execDomainResetDone s
  | .gopTimeout => Sys2Proof.Machine.execGopTimeout s
  | .powerUp vin vaux vedge vsd075 vsd12 rails => Sys2Proof.Machine.execPowerUp vin vaux vedge vsd075 vsd12 s rails
  | .pwrEnFall firmware => Sys2Proof.Machine.execPwrEnFall s firmware
  | .inputUndervoltage => Sys2Proof.Machine.execInputUndervoltage s
  | .inputOvervoltage => Sys2Proof.Machine.execInputOvervoltage s
  | .inputCollapse => Sys2Proof.Machine.execInputCollapse s
  | .railFault rail stack => Sys2Proof.Machine.execRailFault rail stack s
  | .avsTick r s0 s1 s2 s3 ro => Sys2Proof.Machine.execAvsTick r s0 s1 s2 s3 s ro
  | .senseInvalid r point mv => Sys2Proof.Machine.execSenseInvalid r point mv s
  | .droop r firing => Sys2Proof.Machine.execDroop r firing s
  | .regionShort r cause peak => Sys2Proof.Machine.execRegionShort r cause peak s
  | .shortRetry find => Sys2Proof.Machine.execShortRetry find s
  | .regionFence req r w => Sys2Proof.Machine.execRegionFence req r w s
  | .vset req r w => Sys2Proof.Machine.execVset req r w s
  | .refLost b => Sys2Proof.Machine.execRefLost b s
  | .refValid b => Sys2Proof.Machine.execRefValid b s
  | .regionRefLost r side => Sys2Proof.Machine.execRegionRefLost r side s
  | .regionRelock r side => Sys2Proof.Machine.execRegionRelock r side s
  | .effStep r settled => Sys2Proof.Machine.execEffStep r settled s
  | .ceil req r v => Sys2Proof.Machine.execCeil req r v s
  | .ilimTick r mean => Sys2Proof.Machine.execIlimTick r mean s
  | .powerCapTick p icore iin isram vin => Sys2Proof.Machine.execPowerCapTick p icore s iin isram vin
  | .currentBrake power pin iin => Sys2Proof.Machine.execCurrentBrake power pin s iin
  | .brakeRelease p => Sys2Proof.Machine.execBrakeRelease p s
  | .cpSample x => Sys2Proof.Machine.execCpSample x s
  | .pcoolTick flow tin tout p => Sys2Proof.Machine.execPcoolTick flow tin tout p s
  | .coolantOvertemp => Sys2Proof.Machine.execCoolantOvertemp s
  | .regionThermalSample r h0 h1 h2 h3 => Sys2Proof.Machine.execRegionThermalSample r h0 h1 h2 h3 s
  | .tlimStep r => Sys2Proof.Machine.execTlimStep r s
  | .regionTripClear r => Sys2Proof.Machine.execRegionTripClear r s
  | .stackThermalSample n t0 t1 t2 t3 ecc => Sys2Proof.Machine.execStackThermalSample n t0 t1 t2 t3 s ecc
  | .stlimStep n => Sys2Proof.Machine.execStlimStep n s
  | .stackTripClear n => Sys2Proof.Machine.execStackTripClear n s
  | .alarmReceived => Sys2Proof.Machine.execAlarmReceived s
  | .bootGo req fw rl => Sys2Proof.Machine.execBootGo req fw rl s
  | .clockSeed => Sys2Proof.Machine.execClockSeed s
  | .regionWavefront x finds => Sys2Proof.Machine.execRegionWavefront x finds s
  | .stackBringup finds => Sys2Proof.Machine.execStackBringup finds s
  | .linkStage => Sys2Proof.Machine.execLinkStage s
  | .knownAnswerRuns failed regions results spread spreadOk => Sys2Proof.Machine.execKnownAnswerRuns failed regions results spread spreadOk s
  | .bringupReady => Sys2Proof.Machine.execBringupReady s
  | .fback req r v => Sys2Proof.Machine.execFback req r v s
  | .faultResend r => Sys2Proof.Machine.execFaultResend r s
  | .errlogHoldExpiry r => Sys2Proof.Machine.execErrlogHoldExpiry r s
  | .elogHead req v => Sys2Proof.Machine.execElogHead req v s
  | .addressToken n => Sys2Proof.Machine.execAddressToken n s
  | .timePulse => Sys2Proof.Machine.execTimePulse s
  | .bootclose frame mac => Sys2Proof.Machine.execBootclose frame mac s
  | .bootWindowTimeout => Sys2Proof.Machine.execBootWindowTimeout s
  | .read frame mac => Sys2Proof.Machine.execRead frame mac s
  | .write frame mac => Sys2Proof.Machine.execWrite frame mac s
  | .notifyTimer => Sys2Proof.Machine.execNotifyTimer s
  | .sync aligned => Sys2Proof.Machine.execSync aligned s
  | .peerDelayRequest seq => Sys2Proof.Machine.execPeerDelayRequest seq s
  | .offsetTick => Sys2Proof.Machine.execOffsetTick s
  | .quoteGo frame mac => Sys2Proof.Machine.execQuoteGo frame mac s
  | .quoteDone => Sys2Proof.Machine.execQuoteDone s
  | .cryQuote req w => Sys2Proof.Machine.execCryQuote req w s
  | .sign req w => Sys2Proof.Machine.execSign req w s
  | .unwrap req w => Sys2Proof.Machine.execUnwrap req w s
  | .wrap req w => Sys2Proof.Machine.execWrap req w s
  | .erase req w => Sys2Proof.Machine.execErase req w s
  | .fuseProgramSlot req w => Sys2Proof.Machine.execFuseProgramSlot req w s
  | .fuseRevokeSlot req w => Sys2Proof.Machine.execFuseRevokeSlot req w s
  | .fuseRaiseSvnmin req w => Sys2Proof.Machine.execFuseRaiseSvnmin req w s
  | .fusePgmDone => Sys2Proof.Machine.execFusePgmDone s
  | .cmclrGo req v => Sys2Proof.Machine.execCmclrGo req v s
  | .cmclrDone => Sys2Proof.Machine.execCmclrDone s
  | .spflipArm req at_ v => Sys2Proof.Machine.execSpflipArm req at_ v s
  | .wtcrcTest req at_ v => Sys2Proof.Machine.execWtcrcTest req at_ v s
  | .dflipArm req r v => Sys2Proof.Machine.execDflipArm req r v s
  | .tagArrayWrite req at_ tile v => Sys2Proof.Machine.execTagArrayWrite req at_ tile v s
  | .rawWindowRead req addr => Sys2Proof.Machine.execRawWindowRead req addr s
  | .gpFirstHalf req addr v => Sys2Proof.Machine.execGpFirstHalf req addr v s
  | .gpLapse addr => Sys2Proof.Machine.execGpLapse addr s
  | .gpSecondHalfRefused req addr v => Sys2Proof.Machine.execGpSecondHalfRefused req addr v s
  | .registerWrite req addr v => Sys2Proof.Machine.execRegisterWrite req addr v s
  | .badOpcode ring entry => Sys2Proof.Machine.execBadOpcode ring entry s
  | .packetDiscard place type reason => Sys2Proof.Machine.execPacketDiscard place type reason s
  | .badpat => Sys2Proof.Machine.execBadpat s
  | .tbLoRead req => Sys2Proof.Machine.execTbLoRead req s
  | .cryDone => Sys2Proof.Machine.execCryDone s
  | .hostLinkTrained rate width => Sys2Proof.Machine.execHostLinkTrained rate width s
  | .hostLinkLost => Sys2Proof.Machine.execHostLinkLost s
  | .regionInputValid r side depth => Sys2Proof.Machine.execRegionInputValid r side depth s
  | .clockSeedTimeout => Sys2Proof.Machine.execClockSeedTimeout s
  | .clockHoldTimeout r => Sys2Proof.Machine.execClockHoldTimeout r s

end Sys2Proof.Machine
end

