-- ==== Sys2Proof/Machine/Tick.lean ====
section
/-!
DEFINITION. The CBCLK tick: what happens when the module idles for one cycle (log 4).
-/
namespace Sys2Proof.Machine
namespace State

/-- Thirds of a nanosecond by which the time base advances at a CBCLK: 2, and once in 5,000 cycles 4 or 0 while it is slewed at
200 ppm (R430, R434). -/
def tbStep (s : State) : Nat :=
  if (s.time.cb + 1) % 5000 = 0 then (if 0 < s.mg.correct then 4 else if s.mg.correct < 0 then 0 else 2) else 2

/-- What remains to slew after that step. -/
def tbLeft (s : State) : Int :=
  if (s.time.cb + 1) % 5000 = 0 then
    (if 0 < s.mg.correct then (if s.mg.correct ≤ 2 then 0 else s.mg.correct - 2)
     else if s.mg.correct < 0 then (if -2 ≤ s.mg.correct then 0 else s.mg.correct + 2) else 0)
  else s.mg.correct

/-- One CBCLK: the cycle count and the time base advance, and the steps of a power-down (R341) and the ends of ramps (R345)
that are due happen, the boot ROM goes on (R382), and flits in near-end loopback arrive (R310). -/
def tick (s : State) : State :=
  ({ s with time := ⟨s.time.cb + 1, s.time.tb3 + s.tbStep⟩, mg := { s.mg with correct := s.tbLeft } } : State).bootStep.rampsEnd.loopsStep.powerAdvance 8

end State
end Sys2Proof.Machine
end

