-- ==== Sys2Proof/WellFormed.lean ====
section
/-!
DEFINITION. Well-formed commands: operands are of the sizes and within the ranges that the row's rule gives. The meanings are
total: a command that is not well formed has the effect that the rules leave it.
-/
namespace Sys2Proof

/-- A span of 2^M lanes from L0 is aligned and inside the register (R98). -/
def spanOk (m : Fin 9) (l0 : BitVec 8) : Bool := l0.toNat % 2 ^ m.val == 0 && decide (l0.toNat + 2 ^ m.val ≤ 256)

/-- A 64-byte submission entry of opcode `opc` (R241, R245). -/
def entryOk (opc : Nat) (entry : List Byte) : Bool := entry.length == 64 && (entry.getD 0 0).toNat == opc

/-- Is the command well formed? -/
def Instr.wf : Instr → Bool
  | .pressRun _ _ _ _ tile => decide (tile.toNat < 4608)
  | .pourRun _ _ _ _ tile => decide (tile.toNat < 4608)
  | .cbload _ tile nt => decide (tile.toNat + nt.toNat < 4608)
  | .widen _ _ _ x => decide (x.toNat ≤ 4)
  | .rsum _ _ _ m l0 => spanOk m l0
  | .rmax _ _ _ m l0 => spanOk m l0
  | .rmin _ _ _ m l0 => spanOk m l0
  | .rlse _ d _ _ m l0 => spanOk m l0 && decide (d.val ≤ 30)
  | .topl _ d _ _ x m l0 => spanOk m l0 && decide (d.val ≤ 30 ∧ x.toNat < 2 ^ m.val)
  | .xacc _ _ _ m l0 => spanOk m l0
  | .xmac _ _ _ _ _ m l0 => spanOk m l0
  | .xcvt _ _ _ _ m l0 => spanOk m l0
  | .submit _ entry params _ => entryOk 1 entry && params.all (·.length == 64)
  | .abort _ entry => entryOk 2 entry
  | .tenant _ entry => entryOk 3 entry
  | .grammar _ entry _ => entryOk 4 entry
  | .load _ _ headers => headers.length == 5
  | .swap _ _ _ headers => headers.length == 5
  | .hello nr _ _ => nr.length == 32
  | .transferQuote _ _ nonce => nonce.length == 32
  | .sessionKey msg sig => msg.length == 512 && sig.length == 512
  | .linkDataFlit _ flit _ _ => flit.length == 140
  | .linkControlFlit _ flit _ _ => flit.length == 140
  | .idleFlit _ flit _ => flit.length == 140
  | .trainingFlit _ flit _ => flit.length == 140
  | .portEn _ _ v => v.toNat.testBit 31
  | .retrain _ _ v => v.toNat.testBit 30
  | .hrdd _ _ data => decide (data.length ≤ 6)
  | .hwr _ _ data => decide (data.length ≤ 6)
  | .hostMalformedRequest _ addr len => len != 4 || addr.toNat % 4 != 0
  | .railFault rail stack => rail.val == 3 || stack.val == 0
  | .powerCapTick _ icore _ isram _ => icore.length == 96 && isram.length == 96
  | .regionWavefront x finds => finds.all fun f => f.r.val % 12 == x.val
  | .tagArrayWrite _ _ tile _ => decide (tile.toNat < 4608)
  | .rawWindowRead _ addr => decide (0x200000000000 ≤ addr.toNat ∧ addr.toNat < 0x20C000000000)
  | .badOpcode _ entry => entry.length == 64
  | .hostLinkTrained rate width => decide (1 ≤ rate.toNat ∧ rate.toNat ≤ 6) && [1, 2, 4, 8, 16].contains width.toNat
  | .regionInputValid _ _ depth => decide (depth.toNat < 31)
  | .idle .. | .loop .. | .segend .. | .mark .. | .segmentBegin .. | .scheduleCycleExecutes .. | .queueTimeout ..
   | .engineOpComplete .. | .tileCrcComparison .. | .fma .. | .mul .. | .add .. | .sub .. | .max .. | .min .. | .cmpeq ..
   | .cmplt .. | .cmple .. | .sel .. | .iadd .. | .isub .. | .and .. | .or .. | .xor .. | .shl .. | .shr .. | .sar ..
   | .laneid .. | .bcast .. | .cvtw .. | .cvtn .. | .narrowt .. | .narrowu .. | .cvtb8 .. | .cvtb5 .. | .cvtbi .. | .exp2 ..
   | .log2 .. | .rcp .. | .rsqrt .. | .silu .. | .gelu .. | .xfold .. | .xrst .. | .vecResult .. | .xferFromScratchpad ..
   | .xferIntoScratchpad .. | .fill .. | .copy .. | .dmaCommand .. | .dmaCompletion .. | .rel .. | .transferComplete ..
   | .routePass .. | .routeBinary32Sum .. | .routeBf16InSum .. | .routeXsSum .. | .routeMax .. | .routeLseMerge ..
   | .routeTopkMerge .. | .queueEntryVisible .. | .queueSlotVisible .. | .fenceApplied .. | .rd .. | .wr .. | .rsp ..
   | .controlDma .. | .dmadone .. | .fault .. | .errlog .. | .segcmd .. | .token .. | .halt .. | .sidebandTimeout ..
   | .kvread .. | .kvwrite .. | .pfxLaunch .. | .pfxLookupDone .. | .commit .. | .adv .. | .debit .. | .ring .. | .adj ..
   | .slot .. | .decodeAdmission .. | .prefillAdmission .. | .budgetRefill .. | .feed .. | .sample .. | .verify ..
   | .loadSegment .. | .stop .. | .swpHoldArm .. | .requestList .. | .transferSegment .. | .transferDone ..
   | .transferAbort .. | .detectRetry .. | .trainingPhaseComplete .. | .trainingPhaseLimit .. | .linkLoss .. | .peerSilent ..
   | .cableMated .. | .cableRemoved .. | .vcabOvercurrent .. | .hrd .. | .crd .. | .cwr .. | .crsp .. | .irq ..
   | .gopArrive .. | .gopBcast .. | .gopSnap .. | .gopQuiesce .. | .gopResume .. | .markArrive .. | .markRelease ..
   | .markBcast .. | .markSnap .. | .markQuiesce .. | .markResume .. | .moduleHeld .. | .gopReset .. | .domainResetDone ..
   | .gopTimeout .. | .powerUp .. | .pwrEnFall .. | .inputUndervoltage .. | .inputOvervoltage .. | .inputCollapse ..
   | .avsTick .. | .senseInvalid .. | .droop .. | .regionShort .. | .shortRetry .. | .regionFence .. | .vset .. | .refLost ..
   | .refValid .. | .regionRefLost .. | .regionRelock .. | .effStep .. | .ceil .. | .ilimTick .. | .currentBrake ..
   | .brakeRelease .. | .cpSample .. | .pcoolTick .. | .coolantOvertemp .. | .regionThermalSample .. | .tlimStep ..
   | .regionTripClear .. | .stackThermalSample .. | .stlimStep .. | .stackTripClear .. | .alarmReceived .. | .bootGo ..
   | .clockSeed .. | .stackBringup .. | .linkStage .. | .knownAnswerRuns .. | .bringupReady .. | .fback .. | .faultResend ..
   | .errlogHoldExpiry .. | .elogHead .. | .addressToken .. | .timePulse .. | .bootclose .. | .bootWindowTimeout ..
   | .read .. | .write .. | .notifyTimer .. | .sync .. | .peerDelayRequest .. | .offsetTick .. | .quoteGo .. | .quoteDone ..
   | .cryQuote .. | .sign .. | .unwrap .. | .wrap .. | .erase .. | .fuseProgramSlot .. | .fuseRevokeSlot ..
   | .fuseRaiseSvnmin .. | .fusePgmDone .. | .cmclrGo .. | .cmclrDone .. | .spflipArm .. | .wtcrcTest .. | .dflipArm ..
   | .gpFirstHalf .. | .gpLapse .. | .gpSecondHalfRefused .. | .registerWrite .. | .packetDiscard .. | .badpat ..
   | .tbLoRead .. | .cryDone .. | .hostLinkLost .. | .clockSeedTimeout .. | .clockHoldTimeout .. => true

end Sys2Proof
end

