-- ==== Sys2Proof/Safety.lean ====
section
/-!
DEFINITION. What counts as safe: runs that stop on nothing, the irreversible content of the fuses (R466, R467), and memories in
canonical form.
-/
namespace Sys2Proof.Machine

/-- A run of `n` steps that no fault or refusal stops. -/
def Safe (s : State) (n : Nat) : Prop := ∃ t, Host.Core.run Sys2Proof.core n s = .next t

/-- A cluster's memories are in canonical form: addresses rising, and no entry equal to what an unlisted address reads as. A listed
word of scratchpad is a valid one, whatever it holds. -/
def Cluster.memWf (k : Cluster) : Bool :=
  Store.sorted k.sp && Store.wf 0 k.wt && Store.wf 0 k.tags && Store.wf false k.proven && Store.wf PCell.zero k.prog

/-- The memories of the module are in canonical form: control memory, the stacks and those of every cluster. A listed word of control
memory is a valid one, whatever it holds. -/
def State.memWf (s : State) : Bool :=
  Store.sorted s.cmem && Store.wf DCell.zero s.dram && s.clusters.all fun e => e.2.memWf

/-- Every bit below 4 of `a` is a bit of `b`. -/
def bitsWithin (a b : Nat) : Bool := (List.range 4).all fun k => !bit a k || bit b k

/-- Fuses `g` may follow fuses `f` (R466, R467): programmed slots stay programmed, revoked ones revoked, SVNMIN does not fall, and
what is fused at manufacture stays. -/
def Fuses.le (f g : Fuses) : Prop :=
  bitsWithin f.prog g.prog = true ∧ bitsWithin f.revoked g.revoked = true ∧ f.svnmin ≤ g.svnmin
  ∧ g.serial = f.serial ∧ g.silrev = f.silrev ∧ g.archrev = f.archrev ∧ g.variant = f.variant ∧ g.pcap = f.pcap
  ∧ g.fmax = f.fmax ∧ g.mac = f.mac ∧ g.vermax = f.vermax

/-- A fuse command that is being programmed is one that may run (R466): it does not lower SVNMIN. -/
def fuseJobOk (s : State) : Prop :=
  ∀ v d, s.crypto.fuse = some (v, d) → bits v 31 28 ≠ 1 → bits v 31 28 ≠ 2 → s.fuse.svnmin ≤ bits v 23 0

/-- The fuses have come from `f` by permitted programming only, and so will the one in progress. -/
def FusesFrom (f : Fuses) (s : State) : Prop := Fuses.le f s.fuse ∧ fuseJobOk s

end Sys2Proof.Machine
end

