-- ==== Sys2Proof/Certificates/Slice0/Obligations.lean ====
section
/-!
DEFINITION. The statements about the module, from the numbered rules of the specification.
-/
namespace Sys2Proof.Claims
open Sys2Proof.Machine

/-- The region's current schedule cycle. -/
def cyc (p : Site) (s : State) : Nat := (s.region p.r).cycle

/-- The machine as a slot of cluster `p` reads it: every effect due by the current schedule cycle has landed (R87). -/
def due (p : Site) (s : State) : State := s.land p.r p.c (cyc p s)

/-- Register `a` of the context that issues in the current cycle (R71, R85), as the slot reads it. -/
def operand (p : Site) (a : Fin 32) (s : State) : Lanes := (due p s).vreg p.r p.c (cyc p s % 4) a

/-- The state in which a vector slot has been issued and its writes wait: each is a latency, a register, a first lane
and the lanes' values; every other part of the machine is as the slot found it. -/
def vecPends (p : Site) (ws : List (Nat × Nat × Nat × List Word)) (s : State) : State :=
  (due p s).addPend p.r p.c (ws.map fun w =>
    ⟨cyc p s + w.1, (s.cluster p.r p.c).pc, 3, .vreg ((cyc p s % 4 * 32 + w.2.1) * 256 + w.2.2.1) w.2.2.2⟩)

/-- The special-function unit is free from cycle `f` up to cycle `e` (R100). -/
def sfuFree (p : Site) (f e : Nat) (s : State) : Prop :=
  ∀ q ∈ (s.cluster p.r p.c).sfu, q.2 ≤ f ∨ e ≤ q.1

/-- The number of sign `neg`, significand `m` and exponent `e` in units of 2^q, q not above e (R37). -/
def inUnits (neg : Bool) (m : Nat) (e q : Int) : Int := (if neg then -1 else 1) * (m * 2 ^ (e - q).toNat)

/-- A word of program memory holds no error (R145). -/
def progClean (p : Site) (a : Nat) (s : State) : Prop := (Store.get PCell.zero (s.cluster p.r p.c).prog a).flip = 0

/-- The machine in state `t` after a requester's access has been answered with status 0, OK (R454, R455). -/
def answered (req : Requester) (t : State) : State := t.emit (.access req 0 none)

/-- The machine after a requester's access has met a bus error that leaves state `t` (R454, R455). -/
def busError (req : Requester) (t : State) : State := t.emit (.access req 1 none)

/-- The register offsets of the edge window whose write starts something of its own. -/
def starts : List Nat :=
  [0x10118, 0x10600, 0x1070C, 0x20000, 0x21000, 0x22040, 0x30100, 0x40014, 0x50004, 0x51404, 0x72008, 0x1041C, 0x1101C, 0x11010]

/-- The register offsets of a region window whose write starts something of its own. -/
def regionStarts : List Nat := [0x1F0000208, 0x1F0000300, 0x1F0000320, 0x1F0000800, 0x1F0000808, 0x1F0002404]

/-- The first addresses of the guarded registers (R458). -/
def guardedPairs : List Nat :=
  [Rg.GOP_RESET, Rg.FUSE_PGM, Rg.CRY_CMD] ++ (List.range 96).flatMap fun r => [Rg.RPWR_CTL r, Rg.RPWR_VSET r]

/-- The pair at first address `a` is ARMED by `req` with value `v`, and its deadline has not passed (R459). -/
def armedWith (req : Requester) (a : Nat) (v : Word) (s : State) : Prop :=
  ∃ d, Store.find s.armed a = some ⟨v, req, d⟩ ∧ s.time.cb ≤ d

end Sys2Proof.Claims

open Sys2Proof Sys2Proof.Machine Sys2Proof.Claims

/-- R113, R114 with the opcode rows of R99: FMA, MUL, ADD, SUB, MAX, MIN, in both forms, and the comparisons; and what MAX, MIN and the
comparisons give for a NaN, for zeros of both signs, for infinities, and for finite values, which compare by value. -/
def Obligations.ArithmeticLanesCarryOneRounding : Prop :=
  (∀ (p : Site) (d a b c : Fin 32) (pair : Bool) (s : State), s.canIssue p = true →
    let lane := fun f => if pair then lane16 f else lane32 f
    let A := operand p a s
    let B := operand p b s
    exec (.fma p d a b c pair) s =
        .next (vecPends p [(4, d, 0, map3 (lane fun x y z => addV (mulV x y) z) A B (operand p c s))] s)
    ∧ exec (.mul p d a b pair) s =
        .next (vecPends p [(4, d, 0, List.zipWith (fun x y => lane (fun x y _ => addV (mulV x y) (.fin true 0 0)) x y 0) A B)] s)
    ∧ exec (.add p d a b pair) s =
        .next (vecPends p [(4, d, 0, List.zipWith (fun x y => lane (fun x y _ => addV (mulV x .one) y) x y 0) A B)] s)
    ∧ exec (.sub p d a b pair) s =
        .next (vecPends p [(4, d, 0, List.zipWith (fun x y => lane (fun x y _ => addV (mulV y (.fin true 1 0)) x) x y 0) A B)] s)
    ∧ exec (.max p d a b pair) s =
        .next (vecPends p [(4, d, 0, List.zipWith (fun x y => lane (fun x y _ => maxV x y) x y 0) A B)] s)
    ∧ exec (.min p d a b pair) s =
        .next (vecPends p [(4, d, 0, List.zipWith (fun x y => lane (fun x y _ => minV x y) x y 0) A B)] s)
    ∧ exec (.cmpeq p d a b) s = .next (vecPends p [(4, d, 0, List.zipWith (fun x y => maskOf (eqV (f32 x) (f32 y))) A B)] s)
    ∧ exec (.cmplt p d a b) s = .next (vecPends p [(4, d, 0, List.zipWith (fun x y => maskOf (ltV (f32 x) (f32 y))) A B)] s)
    ∧ exec (.cmple p d a b) s =
        .next (vecPends p [(4, d, 0, List.zipWith (fun x y => maskOf (ltV (f32 x) (f32 y) || eqV (f32 x) (f32 y))) A B)] s))
  ∧ r47 .nan = 0x7FC00000 ∧ roundF bf16 .nan = 0x7FC0
  ∧ ∀ x y : FVal,
    (x = .nan ∨ y = .nan → maxV x y = .nan ∧ minV x y = .nan ∧ eqV x y = false ∧ ltV x y = false)
    ∧ (∀ a j b k, x = .fin a 0 j → y = .fin b 0 k → a ≠ b →
        maxV x y = .fin false 0 0 ∧ minV x y = .fin true 0 0 ∧ eqV x y = true ∧ ltV x y = false)
    ∧ (ltV x y = true → maxV x y = y ∧ minV x y = x)
    ∧ (ltV y x = true → maxV x y = x ∧ minV x y = y)
    ∧ (x ≠ .nan → y ≠ .nan → (eqV x y = true ↔ ltV x y = false ∧ ltV y x = false))
    ∧ (eqV x y = true → x.isZero = false → maxV x y = x ∧ minV x y = x)
    ∧ (∀ a m j b n k, x = .fin a m j → y = .fin b n k → ∀ q ≤ j, q ≤ k → (ltV x y = true ↔ inUnits a m j q < inUnits b n k q))
    ∧ (∀ a, x = .inf a → (∀ b, y = .inf b → ltV x y = (a && !b)) ∧ ∀ b n k, y = .fin b n k → ltV x y = a ∧ ltV y x = !a)

/-- The opcode rows of R99 with R116: selection, integer and bitwise operations, lane numbers and a broadcast lane. -/
def Obligations.IntegerLanesWrapModulo2To32 : Prop :=
  ∀ (p : Site) (d a b c : Fin 32) (x : BitVec 8) (s : State), s.canIssue p = true →
    let A := operand p a s
    let B := operand p b s
    exec (.sel p d a b c) s = .next (vecPends p [(4, d, 0, map3 (fun x y z => if z = 0 then y else x) A B (operand p c s))] s)
    ∧ exec (.iadd p d a b) s = .next (vecPends p [(4, d, 0, List.zipWith (fun x y => x + y) A B)] s)
    ∧ exec (.isub p d a b) s = .next (vecPends p [(4, d, 0, List.zipWith (fun x y => x - y) A B)] s)
    ∧ exec (.and p d a b) s = .next (vecPends p [(4, d, 0, List.zipWith (fun x y => x &&& y) A B)] s)
    ∧ exec (.or p d a b) s = .next (vecPends p [(4, d, 0, List.zipWith (fun x y => x ||| y) A B)] s)
    ∧ exec (.xor p d a b) s = .next (vecPends p [(4, d, 0, List.zipWith (fun x y => x ^^^ y) A B)] s)
    ∧ exec (.shl p d a b) s = .next (vecPends p [(4, d, 0, List.zipWith (fun (x y : Word) => x <<< (y.toNat % 32)) A B)] s)
    ∧ exec (.shr p d a b) s = .next (vecPends p [(4, d, 0, List.zipWith (fun (x y : Word) => x >>> (y.toNat % 32)) A B)] s)
    ∧ exec (.sar p d a b) s = .next (vecPends p [(4, d, 0, List.zipWith (fun x y => x.sshiftRight (y.toNat % 32)) A B)] s)
    ∧ exec (.laneid p d) s = .next (vecPends p [(4, d, 0, (List.range 256).map (BitVec.ofNat 32))] s)
    ∧ exec (.bcast p d a x) s = .next (vecPends p [(4, d, 0, List.replicate 256 (A.getD x.toNat 0))] s)

/-- The opcode rows of R99 with R115 and R103: conversions of lanes and of blocks, latency 4 and 8. A tested narrowing
also counts its 8 blocks and those that left wide (R54). -/
def Obligations.ConversionsWriteTheirRecords : Prop :=
  ∀ (p : Site) (d a : Fin 32) (x : BitVec 8) (s : State), s.canIssue p = true →
    let A := operand p a s
    let wd := (due p s).widenPoint p.r p.c x.toNat
    exec (.cvtw p d a) s = .next (vecPends p [(4, d, 0, A.map fun w => r47 (fbf (w.toNat % 65536)))] s)
    ∧ exec (.cvtn p d a) s = .next (vecPends p [(4, d, 0, A.map fun w => BitVec.ofNat 32 (roundF bf16 (f32 w)))] s)
    ∧ exec (.narrowt p d a x) s =
        .next (((vecPends p [(8, d, 0, bytesLanes 256 ((List.range 8).flatMap fun g =>
            tagged (narrowTested wd (blockLanes A g)).1 (narrowTested wd (blockLanes A g)).2))] s).count
          (Rg.WP_TESTED p.r p.c x.toNat) 8).count (Rg.WP_WIDENED p.r p.c x.toNat) (widenedBlocks wd A))
    ∧ (∀ f i, (f, i) ∈ [(MxFmt.fp4, Instr.narrowu p d a), (.e4m3, .cvtb8 p d a), (.e5m2, .cvtb5 p d a), (.int8, .cvtbi p d a)] →
        exec i s = .next (vecPends p [(8, d, 0, bytesLanes 256 ((List.range 8).flatMap fun g =>
          compact f (mxConvert f (blockLanes A g))))] s))
    ∧ (∀ l, x.toNat ≤ 4 → widenLanes x.toNat A = some l →
        exec (.widen p d a x) s = .next (vecPends p [(8, d, 0, l)] s))

/-- R119 and R120 with the opcode rows of R99: the special functions, with the unit's occupation of R100. -/
def Obligations.SpecialFunctionsOccupyTheUnit : Prop :=
  ∀ (p : Site) (d a : Fin 32) (s : State), s.canIssue p = true →
    let n := cyc p s
    let busy := fun (e : Nat) (t : State) => t.modCluster p.r p.c fun k => { k with sfu := (k.sfu.filter fun q => decide (n < q.2)) ++ [(n, n + e)] }
    (sfuFree p n (n + 4) s → ∀ f i, (f, i) ∈ [(sfExp2, Instr.exp2 p d a), (sfLog2, .log2 p d a), (sfRcp, .rcp p d a),
        (sfRsqrt, .rsqrt p d a)] →
        exec i s = .next (busy 4 (vecPends p [(12, d, 0, (operand p a s).map fun w => r47 (f (f32 w)))] s)))
    ∧ (sfuFree p n (n + 8) s → ∀ f i, (f, i) ∈ [(sfSilu, Instr.silu p d a), (sfGelu, .gelu p d a)] →
        exec i s = .next (busy 8 (vecPends p [(24, d, 0, (operand p a s).map fun w => r47 (f (f32 w)))] s)))

/-- R73, R101, R102 with the opcode rows of R99: reductions over an aligned span by the fixed tree; no NaN's sign
or payload is carried (R37). -/
def Obligations.ReductionsFollowTheFixedTree : Prop :=
  ∀ (p : Site) (d a b : Fin 32) (x : BitVec 8) (m : Fin 9) (l0 : BitVec 8) (s : State), s.canIssue p = true →
    l0.toNat % 2 ^ m.val = 0 → l0.toNat + 2 ^ m.val ≤ 256 →
    let A := spanOf l0.toNat m (operand p a s)
    let B := spanOf l0.toNat m (operand p b s)
    let n := cyc p s
    exec (.rsum p d a m l0) s =
        .next (vecPends p [(4 * (1 + (m.val + 1) / 2), d, l0.toNat, (treeReduce (fun x y => r47 (addV (f32 x) (f32 y))) m A).map canonWord)] s)
    ∧ exec (.rmax p d a m l0) s =
        .next (vecPends p [(4 * (1 + (m.val + 1) / 2), d, l0.toNat, (treeReduce (fun x y => r47 (maxV (f32 x) (f32 y))) m A).map canonWord)] s)
    ∧ exec (.rmin p d a m l0) s =
        .next (vecPends p [(4 * (1 + (m.val + 1) / 2), d, l0.toNat, (treeReduce (fun x y => r47 (minV (f32 x) (f32 y))) m A).map canonWord)] s)
    ∧ (d.val ≤ 30 → 0 < m.val → sfuFree p (n + 4) (n + 4 + 8 * m) s →
        let t := treeReduce mergeWords m (List.zip A B)
        exec (.rlse p d a b m l0) s =
          .next ((vecPends p [(4 + 28 * m, d, l0.toNat, t.map fun e => canonWord e.1), (4 + 28 * m, d + 1, l0.toNat, t.map fun e => canonWord e.2)] s).modCluster
            p.r p.c fun k => { k with sfu := (k.sfu.filter fun q => decide (n < q.2)) ++ [(n + 4, n + 4 + 8 * m)] }))
    ∧ (d.val ≤ 30 → m.val = 0 →
        exec (.rlse p d a b m l0) s =
          .next (vecPends p [(4, d, l0.toNat, (List.zip A B).map fun e => canonWord e.1),
            (4, d + 1, l0.toNat, (List.zip A B).map fun e => canonWord e.2)] s))
    ∧ (d.val ≤ 30 → x.toNat + 1 ≤ 2 ^ m.val →
        let t := (candSort (List.zip A B)).take (x.toNat + 1)
        exec (.topl p d a b x m l0) s =
          .next (vecPends p [(4 * (2 + m), d, l0.toNat, t.map fun e => canonWord e.1), (4 * (2 + m), d + 1, l0.toNat, t.map Prod.snd)] s))

/-- R67, R70, R43 with the opcode rows of R99: terms into the accumulator file, folds, roundings out of it, resets. -/
def Obligations.AccumulatorFileTakesExactTerms : Prop :=
  ∀ (p : Site) (d a b : Fin 32) (pair : Bool) (x : BitVec 8) (m : Fin 9) (k : Fin 8) (l0 : BitVec 8) (s : State),
    s.canIssue p = true → l0.toNat % 2 ^ m.val = 0 → l0.toNat + 2 ^ m.val ≤ 256 →
    let pend := fun (lat : Nat) (es : List Eff) =>
      (due p s).addPend p.r p.c (es.map fun e => ⟨cyc p s + lat, (s.cluster p.r p.c).pc, 3, e⟩)
    let lane := fun r i => (operand p r s).getD (l0.toNat + i) 0
    exec (.xacc p a x m l0) s =
        .next (pend 4 ((List.range (2 ^ m.val)).map fun i => .accAdd ((x.toNat + i) % 256) (f32 (lane a i))))
    ∧ exec (.xmac p a b pair x m l0) s =
        .next (pend 4 ((List.range (2 ^ m.val)).flatMap fun i =>
          (xmacTerms (if pair then 1 else 0) (lane a i) (lane b i)).map fun t => .accAdd ((x.toNat + i) % 256) t))
    ∧ exec (.xfold p x k) s =
        .next (pend 4 ((List.range (2 ^ k.val)).map fun i =>
          .accFold ((x.toNat + i) % 256) ((due p s).acc p.r p.c (x.toNat + 2 ^ k.val + i))))
    ∧ exec (.xcvt p d pair x m l0) s =
        .next (vecPends p [(8, d, l0.toNat, (List.range (2 ^ m.val)).map fun i =>
          xcvtLane (if pair then 1 else 0) ((due p s).acc p.r p.c (x.toNat + i)))] s)
    ∧ exec (.xrst p x m) s = .next (pend 4 ((List.range (2 ^ m.val)).map fun i => .accSet ((x.toNat + i) % 256) Acc.reset))

/-- R91: the CTL slot. IDLE holds the bundle for n more schedule cycles, LOOP pushes a frame of the loop stack, MARK writes
the trace buffer (R465); each leaves every other part of the machine as it was. -/
def Obligations.CtlSlotsGovernTheNextBundle : Prop :=
  ∀ (p : Site) (n cnt v : BitVec 16) (len : BitVec 10) (s : State), s.canIssue p = true →
    let i := s.fld (Rg.TRACE_IDX_IDX p.r)
    let g := s.region p.r
    exec (.idle p n) s =
        .next (s.modCluster p.r p.c fun k => if n = 0 then k.advance else { k with idle := n.toNat })
    ∧ exec (.loop p len cnt) s =
        .next (s.modCluster p.r p.c fun k =>
          { k with pc := (k.pc + 1) % 16384, loops := ⟨(k.pc + 1) % 16384, len.toNat + 1, cnt.toNat⟩ :: k.loops })
    ∧ exec (.segend p) s = .next (s.modRegion p.r fun g => { g with seg := none }).holdFinish
    ∧ (s.loader.job ≠ .swap → s.loader.job ≠ .stop →
        exec (.segend p) s = .next (s.modRegion p.r fun g => { g with seg := none }))
    ∧ exec (.mark p v) s =
        .next (((((s.wr (Rg.TRACE p.r (4 * i)) g.cycle).wr (Rg.TRACE p.r (4 * i + 1)) (v.toNat * 65536 + p.c)).wr
          (Rg.TRACE p.r (4 * i + 2)) ((g.seg.map SegRun.no).getD 0x7FFF)).setFld (Rg.TRACE_IDX_IDX p.r) ((i + 1) % 256)).modCluster
          p.r p.c Cluster.advance)

/-- R85, R176: the enabled clusters of a region pop the segment queue together: effects of the last segment land, each
cluster takes its entry address with nothing in flight, the cycle counter is 0 and SEGSEQ counts the segment; the first
segment of an image makes it RUNNING (R196). -/
def Obligations.SegmentPopEntersEveryCluster : Prop :=
  ∀ (r : Fin 96) (no idx : Nat) (rest : List Nat) (s : State), s.mayBegin r = true → (s.region r).segq = no :: rest →
    segIndex s.image s.place no = some idx →
    let last := (s.region r).cycle + 2 ^ 33
    let land := fun n (t : State) => (s.enabledClusters r).foldl (fun t c => t.landSel r c n fun e => !State.isDeliver e) t
    let u := land (last + 4) (land last s)
    let enter := fun (t : State) c => t.modCluster r c fun k =>
      { k with pc := cfgEntry (t.clusterSection 0x13 r c) idx % 16384, idle := 0, loops := [], mem := [], runs := [], streams := [],
               inb := [], pressEnd := 0, pourEnd := 0, sfu := [] }
    let v := ((s.enabledClusters r).foldl enter u).modRegion r fun g =>
      { g with seg := some ⟨no, idx⟩, cycle := 0, segq := rest, stall := 0, wstall := 0, stallReqs := [] }
    let w := v.wr (Rg.SEGSEQ r) (v.rd (Rg.SEGSEQ r) + 1)
    exec (.segmentBegin r) s = .next (if w.fld Rg.IMG_STAT_STATE = 3 then w.setImgState 4 else w)

/-- R163 to R167, R80, R110 to R112, R148, R158, R173: one ACLK of a region for its pending schedule cycle. Its faults are those
that arise as the cycle opens, 0x0203 for operations on fenced queues, 0x0201 for asserted operations that are not ready in the
ACLK that would execute the cycle, and 0x020D for a halt in waiting; with any of them nothing issues or moves. Otherwise a
widening or excess-beat stall spends the ACLK and moves its beats, or waits for their queues; a blocking operation whose queue
is not ready spends it and shows WAIT; else the cycle executes, and the cycle counter advances unless the region halts.
The model's choices in it: an excess-beat stall that waits for its queues, how its beats move and what it adds to STALL_AU
(logs 96, 116), a fault before a stall at every ACLK of the stall (log 23), and the halt in waiting (log 25). -/
def Obligations.ScheduleCycleStallsOrAdvances : Prop :=
  ∀ (r : Fin 96) (errs : List (Fin 28 × Fin 4 × BitVec 1096)) (s0 : State), s0.running r = true →
    let s := s0.linkErrors r errs
    let g := s.region r
    let n := g.cycle
    let ops := s.dueOps r n
    let run := exec (.scheduleCycleExecutes r errs) s0
    let fence := fun (os : List State.QDue) (t : State) => (os.filter fun o => o.fenced).foldl (fun t q =>
        t.raise r { code := 0x203, cluster := q.c, bundle := q.bundle, slot := q.slot, qh := q.qh }) t
    let asserted := fun (os : List State.QDue) (t : State) => (os.filter fun o => o.asserted && !o.ready && !o.fenced).foldl
      (fun t q => t.raise r { code := 0x201, cluster := q.c, bundle := q.bundle, slot := q.slot, qh := q.qh, detail := q.idx }) t
    let wait := fun (a : Nat) (os : List State.QDue) (t : State) =>
      (((t.modRegion r fun g => { g with stall := g.stall + 1 }).count a 1).setWaits r (os.filterMap State.QDue.inq)).portsRun
    let held := fun (os : List State.QDue) => os.filter fun o => !o.asserted && !o.ready
    let a := fence ops ((s.openBatch r).opening r n)
    let b := if State.stallLen g n ≤ g.wstall ∧ held ops = [] then asserted ops a else a
    let o := match (b.region r).haltReq with
      | some src => (b.modRegion r fun g => { g with haltReq := none }).raise r { code := 0x20D, detail := src }
      | none => b
    ((o.region r).halted = true → run = .next ((o.flush r).setWaits r []).portsRun)
    ∧ ((o.region r).halted = false →
      (g.wstall < State.stallLen g n →
        let fs := (s.stallPath r n g.wstall).1
        let u := (s.stallPath r n g.wstall).2
        let os := u.stallDue r (n - 1) fs
        os.any (fun o => o.fenced) = false →
          (held os ≠ [] → run = .next (wait (Rg.WSTALL_COUNT r) (held os) u))
          ∧ (held os = [] →
            let v := ((u.modRegion r fun g => { g with stall := g.stall + 1, wstall := g.wstall + 1 }).count
              (Rg.WSTALL_COUNT r) 1).count (Rg.STALL_AU r) (State.stallAu (u.region r) n (u.region r).wstall)
            let w := asserted os (v.openBatch r)
            run = .next ((if (w.region r).halted then w else w.stallMove r (n - 1) fs).flush r).portsRun))
      ∧ (State.stallLen g n ≤ g.wstall →
        (held ops ≠ [] → run = .next (wait (Rg.QSTALL_COUNT r) (held ops) s))
        ∧ (held ops = [] → ((s.enabledClusters r).all fun c => s.bundleOk r c n) = true →
          run = .next (o.executeCycle r n).portsRun
          ∧ (((o.executeCycle r n).region r).halted = true ∨ ((o.executeCycle r n).region r).cycle = n + 1))))

/-- R165: a cycle whose stall ACLK have reached 2^LIMEXP, LIMEXP not 0, with a blocking operation still not ready raises 0x0202
naming the first such operation; the region halts. That it is so too of an operation of the excess-beat stall before the cycle is
the model's choice (log 96). -/
def Obligations.QueueTimeoutHaltsTheRegion : Prop :=
  ∀ (r : Fin 96) (q : State.QDue) (qs : List State.QDue) (s : State), s.running r = true →
    let g := s.region r
    let x := s.stallPath r g.cycle g.wstall
    (if g.wstall < State.stallLen g g.cycle then x.2.stallDue r (g.cycle - 1) x.1 else s.dueOps r g.cycle).filter
      (fun o => !o.asserted && !o.ready) = q :: qs →
    s.fld (Rg.QCTL_LIMEXP r) ≠ 0 → 2 ^ s.fld (Rg.QCTL_LIMEXP r) ≤ g.stall →
    exec (.queueTimeout r) s =
        .next (s.raise r { code := 0x202, cluster := q.c, bundle := q.bundle, slot := q.slot, qh := q.qh,
                           detail := g.stall, aux := q.slot })
    ∧ ∀ t, exec (.queueTimeout r) s = .next t → (t.region r).halted = true

/-- R92 to R97, R79, R80, R124, R125: an engine operation whose descriptor is sound and whose engine is free runs: its tiles
stream through the port and are compared as they leave it, and the engine is occupied for its duration. A K-step samples its
slots; a wide one takes a second pass out of its group's slack, or where none is left asks the region for a stall and is
counted. After the last the results land, three cycles after the operation's end. The model's choices in it (log 19): the cycle
in which a K-step begins and samples its slots, the stall asked for the next cycle, and tiles, codebooks and starting accumulators
read once, with the last cycle. -/
def Obligations.EngineRunMakesItsResults : Prop :=
  (∀ (p : Site) (daddr : BitVec 14) (half : Bool) (accb : BitVec 8) (tile : BitVec 13) (kind : Nat) (run : Instr) (s : State),
    (kind, run) ∈ [(1, Instr.pressRun p daddr half accb tile), (2, .pourRun p daddr half accb tile)] →
    let t := due p s
    let n := cyc p s
    let pc := (s.cluster p.r p.c).pc
    let d := OpDesc.ofWord (t.progPeek p.r p.c daddr.toNat)
    let e : EngSlot := ⟨1, daddr.toNat, half, accb.toNat, tile.toNat, 0⟩
    s.canIssue p = true → s.engineOk p.r p.c e kind n = true → progClean p daddr.toNat t →
    (isCb d.wfmt = false ∨ d.cblen = (t.cluster p.r p.c).cbLen) →
    exec run s = .next ((t.addPend p.r p.c
        (State.tileEvents (State.portCycle d n) tile.toNat d.ntiles pc kind (t.segNo p.r))).modCluster p.r p.c fun k =>
      { k with runs := k.runs ++ [⟨kind, e, d, n, pc, [], [], 0, n + 1, groupSlack d 0⟩],
               pressEnd := if kind = 1 then n + d.dur else k.pressEnd, pourEnd := if kind = 1 then k.pourEnd else n + d.dur }))
  ∧ ∀ (r c n : Nat) (x : EngRun) (s : State),
    let slots := (s.sampleSlots r c x).1
    let u := (s.sampleSlots r c x).2
    let left := if x.step % 32 = 0 then groupSlack x.d x.step else x.slack
    let wide := x.kind = 1 ∧ wideStep x.d slots = true
    (badTag x.d slots = none → badIdx x.d (u.engineTiles r c x.e.tile x.d.ntiles) (fun j => u.tilePending r c (x.e.tile + j)) x.step = none →
      s.engineStep r c n x =
        (some { x with buf := x.buf ++ slots, step := x.step + 1, slack := if wide ∧ 0 < left then left - 1 else left,
                       at_ := stepAt x.d x.issue (x.step + 1) x.at_ (if wide ∧ 0 < left then 2 else 1) },
         if wide ∧ left = 0 then (u.askStall r ⟨n + 1, 1, 16, none⟩).count (Rg.XSTEP_COUNT r c) 1 else u))
    ∧ (State.biasWords (s.handle r c x.d.biash) x n = [] → x.d.ksteps ≤ x.step → x.issue + x.d.dur ≤ n →
      let res := State.engineResults s.origin x.kind x.e.accb x.d (s.engineTiles r c x.e.tile x.d.ntiles) (s.codebooks r c) x.buf
        (s.engineInit r c x)
      s.engineRun r c n x = (none, s.addPend r c (res.map fun e => ⟨x.issue + x.d.dur + 3, x.bundle, x.kind, e⟩)))

/-- R36, R39, R60, R92, R204: a codebook operation whose table length is not the store's raises 0x020B with detail 5 at its
issue. A K-step that meets a reserved TAG raises it with detail 1, a codebook index past CBLEN with detail 2, with the offending
value and the QH of the operand. The region halts and the operation is over. The model's choices in it: the cycle of the fault and
the bundle of the RUN (log 20), and which handle or side the QH names (`originQh`, log 98). -/
def Obligations.EngineFormatFaultsHaltTheRegion : Prop :=
  (∀ (p : Site) (daddr : BitVec 14) (half : Bool) (accb : BitVec 8) (tile : BitVec 13) (kind : Nat) (run : Instr) (s : State),
    (kind, run) ∈ [(1, Instr.pressRun p daddr half accb tile), (2, .pourRun p daddr half accb tile)] →
    let t := due p s
    let pc := (s.cluster p.r p.c).pc
    let d := OpDesc.ofWord (t.progPeek p.r p.c daddr.toNat)
    s.canIssue p = true → s.engineOk p.r p.c ⟨1, daddr.toNat, half, accb.toNat, tile.toNat, 0⟩ kind (cyc p s) = true →
    progClean p daddr.toNat t → isCb d.wfmt = true → d.cblen ≠ (t.cluster p.r p.c).cbLen →
    let u := t.raise p.r { code := 0x20B, cluster := p.c, bundle := pc, slot := kind, detail := 5, aux := (t.cluster p.r p.c).cbLen }
    exec run s = .next u ∧ (u.region p.r).halted = true)
  ∧ ∀ (r c n : Nat) (x : EngRun) (s : State),
    let slots := (s.sampleSlots r c x).1
    let u := (s.sampleSlots r c x).2
    let fault := fun (q : Nat × State) det aux =>
      q.2.raise r { code := 0x20B, cluster := c, bundle := x.bundle, slot := x.kind, qh := q.1, detail := det, aux := aux }
    (∀ tag, badTag x.d slots = some tag →
      let q := u.originQh r c (some (State.engPort x.kind x.e.half))
      s.engineStep r c n x = (none, fault q 1 tag) ∧ ((fault q 1 tag).region r).halted = true)
    ∧ (∀ i, badTag x.d slots = none → badIdx x.d (u.engineTiles r c x.e.tile x.d.ntiles) (fun j => u.tilePending r c (x.e.tile + j)) x.step = some i →
      let q := u.originQh r c none
      s.engineStep r c n x = (none, fault q 2 i) ∧ ((fault q 2 i).region r).halted = true)

/-- R92, R60: CBLOAD of nt + 1 tiles occupies the pour port for the rounded-up 6.4 cycles a tile; then the codebook store
holds the tiles' bytes and the store length of the image's entry. -/
def Obligations.CodebookLoadFillsTheStore : Prop :=
  ∀ (p : Site) (tile : BitVec 13) (nt : BitVec 2) (s : State), s.canIssue p = true →
    tile.toNat + (nt.toNat + 1) ≤ 4608 → (s.cluster p.r p.c).pourEnd ≤ cyc p s →
    let n := cyc p s
    let m := nt.toNat + 1
    let pc := (s.cluster p.r p.c).pc
    let len := (((cfgCbt ((due p s).clusterSection 0x13 p.r p.c)).find? fun e => e.1 == tile.toNat && e.2.1 == m).map
      fun e => e.2.2).getD 0
    exec (.cbload p tile nt) s =
      .next (((due p s).addPend p.r p.c (State.tileEvents (fun b => n + 1 + b / 2560) tile.toNat m pc 2 ((due p s).segNo p.r) ++
          [⟨n + (64 * m + 9) / 10, pc, 2,
            .cbStore ((List.range m).flatMap fun j => (due p s).tileBytes p.r p.c (tile.toNat + j)) len⟩])).modCluster p.r p.c
        fun k => { k with pourEnd := Nat.max k.pourEnd (n + (64 * m + 9) / 10) })

/-- R87, R96, R106, R125: the rows that land what is due: results of the vector unit, final accumulators of the engines,
the writes of a transfer, and the oldest tile comparison. -/
def Obligations.DueResultsLandInOrder : Prop :=
  ∀ (p : Site) (s : State), s.live p.r = true →
    let n := cyc p s
    let pend := (s.cluster p.r p.c).pend
    let landed := fun sel : Pend → Bool =>
      (pend.filter fun e => decide (e.due ≤ n) && sel e).foldl (fun t e => t.landEff p.r p.c n e)
        (s.modCluster p.r p.c fun k => { k with pend := k.pend.filter fun e => !(decide (e.due ≤ n) && sel e) })
    exec (.vecResult p) s = .next (landed fun e => e.slot == 3)
    ∧ exec (.engineOpComplete p) s = .next (landed engineResult)
    ∧ exec (.transferComplete p) s =
        .next (let t := landed fun e => e.slot == 4 && !State.isAccess e
          t.modCluster p.r p.c fun k => { k with mem := k.mem.filter fun m => decide (n ≤ m.last (t.handle p.r p.c m.d.h)) })
    ∧ (∀ e, s.dueCompare p = some e →
        exec (.tileCrcComparison p) s =
          .next ((s.modCluster p.r p.c fun k => { k with pend := k.pend.erase e }).landEff p.r p.c n e))

/-- R87, R41, R67, R69, R70, R105, R125, R128, R130 to R132, R144: what each kind of effect leaves when it lands. An exact
addition or fold that would leave the 640-bit range raises 0x020A, and an infinity or a NaN sets its sticky flag; a pending tile
raises 0x0205, a comparison that fails 0x0204 (R144: with the armed tile's CRC inverted in bit 0), a scratchpad word that cannot
be corrected 0x0206; a corrected one is logged and counted. A write's bank access takes the armed flip mask (R143) and is visible
four cycles later, a codebook load fills the store, and a delivered beat stands at the neighbour's link in the next cycle, or is
pushed at the region's boundary (R109). That bytes beyond a port are lost is the model's choice (log 95). -/
def Obligations.LandedEffectsLeaveTheirValues : Prop :=
  ∀ (r c n due b sl : Nat) (s : State),
    let land := fun e => s.landEff r c n ⟨due, b, sl, e⟩
    (∀ key vals, land (.vreg key vals) = s.modCluster r c fun k =>
        { k with vregs := Store.setMany 0 k.vregs key vals, from_ := Store.erase k.from_ (4 + key / 256) })
    ∧ (∀ port sel o h bs, port ≤ 3 → land (.port port sel o h bs) = s.modCluster r c fun k =>
        { k with abuf := Store.setMany 0 k.abuf (bufBase port + o) (bs.take (State.portSize port 0 - o)),
                 from_ := Store.put k.from_ port h })
    ∧ (∀ sel o h bs, land (.port 6 sel o h bs) = s.modCluster r c fun k =>
        { k with vregs := Store.setMany 0 k.vregs ((sel / 64 * 32 + sel % 32) * 256)
                   (bytesLanes 256 (State.overlay (lanesBytes (s.vreg r c (sel / 64) (sel % 32))) o (bs.take (1024 - o)))),
                 from_ := Store.put k.from_ (4 + sel / 64 * 32 + sel % 32) h })
    ∧ (∀ key h, land (.spBad key h) =
        s.raise r { code := 0x206, cluster := c, bundle := b, slot := sl, qh := 0x2000 + h, detail := key })
    ∧ (∀ key syn, land (.spFixed key syn) =
        (s.log r { code := 0x301, region := r, cluster := c, loc0 := key / 8192, loc1 := key % 8192, detail := syn }).count
          (Rg.SP_CE_COUNT r c) 1)
    ∧ (∀ det aux qh, land (.format det aux qh) =
        s.raise r { code := 0x20B, cluster := c, bundle := b, slot := sl, qh := qh, detail := det, aux := aux })
    ∧ (∀ i x, land (.accSet i x) = s.modCluster r c fun k => { k with accs := Store.set Acc.reset k.accs i x })
    ∧ (∀ i w, land (.pacc i w) = s.modCluster r c fun k => { k with pacc := Store.set 0 k.pacc i w })
    ∧ (∀ i w, land (.qacc i w) = s.modCluster r c fun k => { k with qacc := Store.set 0 k.qacc i w })
    ∧ (∀ i sg m (e : Int), let a := (s.acc r c i).a + gridInt sg m e
        land (.accAdd i (.fin sg m e)) =
          if -(2 ^ 639 : Int) ≤ a ∧ a < 2 ^ 639 then
            s.modCluster r c fun k => { k with accs := Store.set Acc.reset k.accs i { s.acc r c i with a := a } }
          else s.raise r { code := 0x20A, cluster := c, bundle := b, slot := sl, detail := i })
    ∧ (∀ i v (f : Acc → Acc), (v, f) ∈ [(FVal.nan, fun x => { x with nan := true }), (.inf true, fun x => { x with ninf := true }),
          (.inf false, fun x => { x with pinf := true })] →
        land (.accAdd i v) = s.modCluster r c fun k => { k with accs := Store.set Acc.reset k.accs i (f (s.acc r c i)) })
    ∧ (∀ i y, let x := s.acc r c i
        land (.accFold i y) =
          if -(2 ^ 639 : Int) ≤ x.a + y.a ∧ x.a + y.a < 2 ^ 639 then
            let sum : Acc := ⟨x.a + y.a, x.pinf || y.pinf, x.ninf || y.ninf, x.nan || y.nan⟩
            s.modCluster r c fun k => { k with accs := Store.set Acc.reset k.accs i sum }
          else s.raise r { code := 0x20A, cluster := c, bundle := b, slot := sl, detail := i })
    ∧ (∀ acc0 o h bs, let ds := bs.take (State.portSize 7 0 - o)
        let n := ceilDiv (o % 88 + ds.length) 88
        let img := State.overlay (s.afrImage r c acc0 (o / 88) n) (o % 88) ds
        land (.port 7 acc0 o h bs) = s.modCluster r c fun k =>
          { k with accs := (List.range n).foldl (fun m i =>
              Store.set Acc.reset m ((acc0 + o / 88 + i) % 256) (ofAccRecord (bytesAt img (88 * i) 88))) k.accs })
    ∧ (∀ a w,
        let armed := s.flag (Rg.SPFLIP_CTL_ARM r c) = true ∧ s.fld (Rg.SPFLIP_CTL_BANK r c) = a / 8192
        let mask := s.rd (Rg.SPFLIP_D0 r c) + s.rd (Rg.SPFLIP_D1 r c) * 2 ^ 32 + s.fld (Rg.SPFLIP_CTL_CHK r c) * 2 ^ 64
        let t := if armed then s.setFld (Rg.SPFLIP_CTL_ARM r c) 0 else s
        land (.spAccess a w) = t.addPend r c [⟨n + 4, b, sl, .spVisible a
          (if armed then ⟨w, BitVec.ofNat 72 mask, true⟩ else ⟨w, 0, true⟩)⟩])
    ∧ (∀ bs len, land (.cbStore bs len) = s.modCluster r c fun k => { k with cb := Store.setMany 0 k.cb 0 bs, cbLen := len })
    ∧ (∀ side beat idx form iss, land (.deliver side beat idx form iss) =
        match innerNeighbour c side with
        | some c' => s.modCluster r c' fun k => { k with inb := k.inb ++ [⟨oppSide side, n + 1, beat, iss⟩] }
        | none => s.push (pushKey r c side) beat)
    ∧ (∀ a, land (.spClear a) = s.modCluster r c fun k =>
        { k with sp := Store.erase k.sp a, pend := k.pend.filter (State.notWriteOf a) })
    ∧ (∀ a x, land (.spVisible a x) = s.modCluster r c fun k => { k with sp := Store.put k.sp a x })
    ∧ (∀ t seg, land (.tileFirst t seg) = if s.tilePending r c t then
        s.raiseAt r seg (due % 2 ^ 32) { code := 0x205, cluster := c, bundle := b, slot := sl, qh := 0x8000 + t } else s)
    ∧ (∀ t seg,
        let armed := s.flag (Rg.WTCRC_TEST_ARM r c) = true ∧ s.fld (Rg.WTCRC_TEST_TILE r c) = t
        let crc := if armed then crc32c (s.tileBytes r c t) ^^^ 1 else crc32c (s.tileBytes r c t)
        let u := if armed then s.setFld (Rg.WTCRC_TEST_ARM r c) 0 else s
        let tag := (Store.get 0 (s.cluster r c).tags t).toNat
        land (.tileCmp t seg) = if crc = tag then u else (u.count (Rg.WT_CHK_COUNT r c) 1).raiseAt r seg (due % 2 ^ 32)
          { code := 0x204, cluster := c, bundle := b, slot := sl, qh := 0x8000 + t, detail := crc, aux := tag })

/-- R104 to R106, R139 to R141, R223, R224: a transfer of an allowed descriptor of its kind, and a release, take the free MEM
path; nothing else of the machine changes at their issue. -/
def Obligations.TransfersTakeTheMemPath : Prop :=
  ∀ (p : Site) (taddr : BitVec 14) (form : Bool) (h : Fin 64) (s : State), s.canIssue p = true →
    s.memFree p.r p.c (cyc p s) = true →
    let n := cyc p s
    let pc := (s.cluster p.r p.c).pc
    exec (.rel p h) s =
        .next ((due p s).modCluster p.r p.c fun k =>
          { k with mem := k.mem ++ [{ d := ⟨2, 0, h, 0, 0, 0, 0, 0, 0, 0, 0⟩, rel := true, form := false, issue := n,
                                      bundle := pc, buf := [] }] })
    ∧ (∀ kind i f, (kind, i, f) ∈ [(0, Instr.xferFromScratchpad p taddr form, form), (1, .xferIntoScratchpad p taddr form, form),
          (2, .fill p taddr, false), (3, .copy p taddr, false), (4, .dmaCommand p taddr form, form),
          (5, .dmaCompletion p taddr form, form)] →
        (XferDesc.ofWord (s.progPeek p.r p.c taddr.toNat)).ok f = true →
        (XferDesc.ofWord (s.progPeek p.r p.c taddr.toNat)).kind = kind → progClean p taddr.toNat (due p s) →
        exec i s = .next ((due p s).modCluster p.r p.c fun k =>
          { k with mem := k.mem ++ [{ d := XferDesc.ofWord ((due p s).progPeek p.r p.c taddr.toNat), rel := false, form := f,
                                      issue := n, bundle := pc, buf := [] }] }))

/-- R107, R108, R155: a ROUTE of an allowed descriptor of its mode starts its stream. That one whose stream an excess-beat stall has
already brought in for this cycle goes on with it, and which streams carry XS (`carriesXs`), is the model's choice (log 96). -/
def Obligations.RoutesStartTheirStreams : Prop :=
  ∀ (p : Site) (raddr : BitVec 14) (form : Bool) (m : Nat) (i : Instr) (s : State), s.canIssue p = true →
    (m, i) ∈ [(0, Instr.routePass p raddr form), (1, .routeBinary32Sum p raddr form), (2, .routeBf16InSum p raddr form),
      (3, .routeXsSum p raddr form), (4, .routeMax p raddr form), (5, .routeLseMerge p raddr form),
      (6, .routeTopkMerge p raddr form)] →
    s.routeOk p.r p.c raddr.toNat (cyc p s) (fun d => d.rmode == m) = true → progClean p raddr.toNat (due p s) →
    let d := RouteDesc.ofWord ((due p s).progPeek p.r p.c raddr.toNat)
    let fe := (due p s).frameEntry p.r p.c raddr.toNat
    let st := Stream.start d raddr.toNat form (cyc p s) (s.cluster p.r p.c).pc fe.1 fe.2
      (carriesXs (due p s).xsMap p.r p.c d)
    exec i s = .next (if ((due p s).cluster p.r p.c).streams.any (fun x => x.issue == cyc p s) then due p s
      else (due p s).modCluster p.r p.c fun k => { k with streams := k.streams ++ [st] })

/-- R160, R162, R167: an entry pushed and not yet visible becomes visible at the reader in its order, with the bits that the queue's
storage has flipped in it, a slot freed becomes visible to the writer, and the fence of a region that is fenced or without power
empties every queue of its crossings. -/
def Obligations.QueueEndsSeeEachOtherInOrder : Prop :=
  ∀ (r : Fin 96) (q : Fin 22) (s : State),
    let k := inKey r q
    (∀ e es, (s.queue k).hid = e :: es →
      ∀ flip, exec (.queueEntryVisible r q flip) s = .next (s.setQueue k { s.queue k with
        vis := (s.queue k).vis ++ [⟨⟨e.beat.data, e.beat.flip ^^^ flip⟩, e.slot⟩], hid := es }))
    ∧ exec (.queueSlotVisible r q) s = .next (s.setQueue k { s.queue k with freed := (s.queue k).freed - 1 }).portsRun
    ∧ ((s.yFenced r = true ∨ s.powered r = false) →
        exec (.fenceApplied r) s = .next ((State.queuesOf r).foldl (fun t k => t.setQueue k { Queue.empty with fenced := true }) s)
        ∧ ∀ t, exec (.fenceApplied r) s = .next t → ∀ k ∈ State.queuesOf r,
            (t.queue k).fenced = true ∧ (t.queue k).vis = [] ∧ (t.queue k).hid = [])

/-- R173, R174, R176, R196, R227, R272: the packets that a region controller, a requester and the control complex take. A segment
command joins the queue of 16 of an image that is READY or RUNNING, or is discarded with an entry when the queue is full; a HALT
packet waits for the next schedule cycle of a region in a segment. That it acts at once in one that waits, and has no effect in one
that is halted, is the model's choice (log 25).
R170, R174: each of them is lost without effect on a path that crosses a fenced or unpowered region, and one with an uncorrectable
flit is discarded at its router with an entry 0x0402.
R170, R173, R399: a request whose answer never came returns status 2 to its requester, and a packet that no unit can take
leaves an entry 0x0403 that names its place, type and reason. -/
def Obligations.PacketsReachTheirUnitsOrAreReported : Prop :=
  (∀ (r : Fin 96) (no : BitVec 15) (src dest : BitVec 16) (tag status : Byte) (tag32 : Word) (data : Option Word)
     (f0 f1 : DWord) (ord : Bool),
     let took (x : Arrival) (s : State) : State := { s with inbox := s.inbox ++ [x] }
     let command (s : State) : State :=
       if s.fld Rg.IMG_STAT_STATE ≠ 3 ∧ s.fld Rg.IMG_STAT_STATE ≠ 4 then s
       else if (s.region r).segq.length < 16 then s.modRegion r fun g => { g with segq := g.segq ++ [no.toNat] }
       else s.packet 7 0x8000 (0x4000 + r) 0 0
         (State.recFlits (State.LogRec.image { code := 0x404, region := r, loc0 := no.toNat } s.ns))
     let halt (s : State) : State :=
       if (s.region r).halted then s
       else if (s.region r).seg.isSome then s.modRegion r fun g => { g with haltReq := some src.toNat }
       else s.raise r { code := 0x20D, detail := src.toNat }
     let rows : List (Nat × Nat × Nat × (Option (BitVec 16) → Instr) × (State → State)) :=
       [(8, 0x8000, 0x4000 + r, fun l => .segcmd r no ord l, command), (0xC, src.toNat, 0x4000 + r, fun l => .halt r src ord l, halt),
        (3, src.toNat, dest.toNat, fun l => .rsp dest tag status data src ord l, took (.response dest.toNat tag.toNat status.toNat data)),
        (0xA, src.toNat, 0x8000, fun l => .token f0 f1 src ord l, took (.token f0 f1)),
        (5, src.toNat, dest.toNat, fun l => .dmadone src tag32 status dest ord l, took (.dmaDone src.toNat tag32.toNat status.toNat))]
     ∀ type p q i f, (type, p, q, i, f) ∈ rows → ∀ s : State,
       exec (i none) s = .next (if s.pathOpen ord p q then f s else s)
       ∧ ∀ node : BitVec 16, s.power.on = true →
           let w := State.discardSource node.toNat
           exec (i (some node)) s =
             .next (s.log w.1 { code := 0x402, region := w.2.1, cluster := w.2.2, loc0 := node.toNat, loc1 := type }))
  ∧ (∀ (src : BitVec 16) (tag : Byte) (place : BitVec 32) (type : BitVec 4) (reason : Fin 5) (s : State),
      (src.toNat ≠ 0x8000 ∨ Store.find s.bridge.out tag.toNat = none →
        exec (.sidebandTimeout src tag) s = .next { s with inbox := s.inbox ++ [.response src.toNat tag.toNat 2 none] })
      ∧ (let w := if reason.val = 0 then State.discardSource place.toNat else (96, 0xFF, 0xFE)
        exec (.packetDiscard place type reason) s =
          .next (s.packet 7 0x8000 (if w.1 < 96 then 0x4000 + w.1 else 0x8000) 0 0 (State.recFlits (State.LogRec.image
            { code := 0x403, region := w.2.1, cluster := w.2.2, loc0 := place.toNat, loc1 := type.toNat, detail := reason + 1 } s.ns)))))

/-- R401 to R403, R441: the error-log assist, for packets that reach it. A record that finds the ring full stays in its buffer and
waits; any other is written at ELOG_TAIL, signalled to the control complex and released; an entry that finds fewer than 256 free is
lost and counted. That a record which it has just written is discarded without being released again is the model's choice (log 42).
R400, R403: records that no release has freed for 65,536 CBCLK are sent again, oldest first, and a merged entry is sent when
its millisecond has passed. -/
def Obligations.ErrorLogAssistKeepsAndResends : Prop :=
  (∀ (src : BitVec 16) (e : BitVec 256) (ord : Bool) (s : State), s.pathOpen ord src.toNat 0x8000 = true →
     let used := (s.rd Rg.ELOG_TAIL + 2 ^ 32 - s.rd Rg.ELOG_HEAD) % 2 ^ 32
     let b := State.bufOfNode src.toNat
     let put := fun (s : State) => (((s.cmSetWords ((0xFC00000 + 32 * (s.rd Rg.ELOG_TAIL % 65536)) / 8) (State.recFlits e)).wr
       Rg.ELOG_TAIL (s.rd Rg.ELOG_TAIL + 1)))
     let note := fun (s : State) => ({ put s with recent := (e :: (put s).recent).take 256 } : State).elogSignal
     exec (.fault src e ord) s = .next
         (if s.recent.contains e then s
          else if 65536 ≤ used then { s with waiting := if s.waiting.contains b then s.waiting else s.waiting ++ [b] }
          else (note s).modRegion b fun g => { g with faults := g.faults.drop 1 })
     ∧ exec (.errlog src e ord) s = .next
         (if 65536 - used < 256 then s.wr Rg.ELOG_LOST (Nat.min (s.rd Rg.ELOG_LOST + 1) 0xFFFFFFFF) else note s)
     ∧ ∀ node : BitVec 16, s.power.on = true →
        exec (.fault src e ord (some node)) s = .next (s.flitLost node.toNat 6)
        ∧ exec (.errlog src e ord (some node)) s = .next (s.flitLost node.toNat 7))
  ∧ (∀ t : State,
      let told := { t with inbox := t.inbox ++ [Arrival.event 3] }
      let sent : State := { told with mg := { told.mg with elogDue := false, elogAt := some told.time.cb } }
      (t.notifies = true → (∀ a, t.mg.elogAt = some a → a + 10 * msCb ≤ t.time.cb) → t.elogSignal = sent.notify 0x5000 1)
      ∧ (∀ a, t.mg.elogAt = some a → t.time.cb < a + 10 * msCb →
          t.elogSignal = { told with mg := { told.mg with elogDue := told.mg.elogDue || t.notifies } }))
  ∧ (∀ (r : Option (Fin 96)) (s : State),
      let b := bufOf r
      let old := (s.region b).faults.filter fun f => decide (f.sentAt + 65536 ≤ s.time.cb)
      let late := (s.region b).merged.filter fun h => decide (h.since + 1500000 ≤ s.time.cb)
      exec (.faultResend r) s =
          .next (old.foldl (fun t f => t.packet 6 0x8000 (State.bufNode b) 0 0 (State.recFlits f.entry))
            (s.modRegion b fun g => { g with faults := g.faults.map fun f =>
              if f.sentAt + 65536 ≤ s.time.cb then { f with sentAt := s.time.cb } else f }))
      ∧ exec (.errlogHoldExpiry r) s =
          .next (late.foldl (fun t h => t.packet 7 0x8000 (State.entryNode b h.entry) 0 0 (State.recFlits h.entry))
            (s.modRegion b fun g => { g with merged := g.merged.filter fun h => !decide (h.since + 1500000 ≤ s.time.cb) }))
      ∧ ∀ (f : State.LogRec) (t : State), State.mergeCode f.code = true →
          t.log b f = t.modRegion b fun g =>
            { g with merged := (State.mergeInto (f.image t.ns) g.merged).getD (g.merged ++ [⟨f.image t.ns, t.time.cb⟩]) })

/-- R223 to R226: the DMA engine takes the command at the front of its queue once the words of the one before it are all in the
completion queue; its words go there as far as the 8,192 words allow, the rest as they leave. Where the memory network fails the
first transaction the only word is a fault word 0x0210. A tripped stack keeps the command waiting (R369). -/
def Obligations.DmaEngineAnswersItsFrontCommand : Prop :=
  ∀ (p : Site) (net : Option Nat) (opc : Nat) (i : Instr) (cmd : DmaCmd) (rest : List DmaCmd) (s : State),
    (opc, i) ∈ [(0, Instr.kvread p net), (1, .kvwrite p net)] →
    (s.cluster p.r p.c).dmaCmd = cmd :: rest → bits cmd.const.toNat 63 60 = opc → (s.cluster p.r p.c).dmaOut = [] →
    s.blocked = false →
    let u := s.modCluster p.r p.c fun k => { k with dmaCmd := rest }
    let x := u.dmaRun cmd net
    let gone := fun (t : State) (ws : List DmaWord) => t.modCluster p.r p.c fun k =>
      let room := 8192 - k.dmaDone.length
      { k with dmaDone := k.dmaDone ++ ws.take room, dmaOut := ws.drop room }
    (x.2.blocked = false → exec i s = .next (gone x.2 x.1))
    ∧ (x.2.blocked = true → exec i s = .next s)
    ∧ (∀ l, (kvLayouts (sectionOf s.image 0x30 0xFF 0xFF s.place))[cmd.req.layout]? = some l → net = some 0 →
        ∃ d a, exec i s = .next (gone u [.bad 0x210 d a cmd.bundle]))

/-- R236: a launch starts a lookup under the epoch in force while fewer than four run, and else answers STATUS BUSY; a lookup
that ends writes its result array and MATCHED before STATUS. -/
def Obligations.PrefixLookupsReportAtTheirEnd : Prop :=
  ∀ (req : Requester) (rec_ : Word) (s : State),
    let a := rec_.toNat / 32 * 32
    (s.answers req = true → s.lookups.length < 4 →
      exec (.pfxLaunch req rec_) s =
        .next (({ s with lookups := s.lookups ++ [(a, s.rd Rg.PFX_EPOCH)] } : State).emit (.access req 0 none)))
    ∧ (s.answers req = true → 4 ≤ s.lookups.length →
      exec (.pfxLaunch req rec_) s = .next ((s.cmSetNum (a + 26) 2 0x8006).emit (.access req 0 none)))
    ∧ (∀ e b u, s.lookups.find? (fun x => x.1 == rec_.toNat) = some e →
      ({ s with lookups := s.lookups.erase e } : State).cmTake 8 e.1 32 = (some b, u) →
      let x := u.pfxBlocks ⟨e.2, fieldAt b 12 2, byteAt b 14⟩ (fieldAt b 0 8) (fieldAt b 8 4) (fieldAt b 24 2) 4097 0 0xFFFFFFFF []
      let t := ((x.2.2.cmSetBytes (fieldAt b 16 8) (x.1.flatMap (leBytes 4))).cmSetNum (e.1 + 28) 4 x.1.length).cmSetNum
        (e.1 + 26) 2 (0x8000 + x.2.1)
      t.blocked = false → exec (.pfxLookupDone rec_) s = .next t)

/-- R227: a control DMA that reaches its stack is carried out and answered by a DMADONE packet that carries its tag and status,
unless a tripped stack holds it, in which case it waits in its order (R369); one with an uncorrectable flit leaves an entry 0x0402 (R170),
and one on a path that is not open nothing (R174). -/
def Obligations.ControlDmaIsAnsweredOrHeld : Prop :=
  ∀ (src : BitVec 16) (f0 peer f2 : DWord) (tag : Word) (host : Option (List Byte)) (ord : Bool) (s : State),
    let addr := bits f0.toNat 47 0
    let len := bits f2.toNat 31 0
    let x := s.ctlDma addr peer.toNat len (bit f2.toNat 32) (bit f2.toNat 33) host
    let way := s.pathOpen ord src.toNat (s.dmaNode addr)
    (way = false → exec (.controlDma src f0 peer f2 tag host ord) s = .next s)
    ∧ (∀ node : BitVec 16, s.power.on = true →
        exec (.controlDma src f0 peer f2 tag host ord (some node)) s = .next (s.flitLost node.toNat 4))
    ∧ (way = true → x.2.blocked = true →
      exec (.controlDma src f0 peer f2 tag host ord) s =
        .next { s with held := s.held ++ [.dma src.toNat f0 peer f2 tag host], blocked := false })
    ∧ (way = true → x.2.blocked = false →
        let toHost := x.1 = 0 ∧ (!bit f2.toNat 32 && !bit f2.toNat 33) = true ∧
          (peer.toNat < cmemBase ∨ cmemBase + 0x10000000 ≤ peer.toNat)
        let u := if toHost then x.2.hostWritten peer.toNat len else x.2
        exec (.controlDma src f0 peer f2 tag host ord) s =
          .next (u.packet 5 src.toNat (u.dmaNode addr) 0 0 [BitVec.ofNat 64 (tag.toNat + 2 ^ 32 * x.1)]))

/-- R454, R455, R17, R18, R146, R174, R319: what a 32-bit write does by the kind of its address, so that every aligned write that
reaches its node completes. A register takes its value by the access of its fields; control memory, a stack's DRAM and the memory
windows of a disabled cluster (weights, scratchpad, program, tags) take the word; those of an enabled cluster and every other address
are a bus error without effect. A region that does not answer, or a request lost on its path, leaves the requester with status 2; a
misaligned write is a bus error, or of the host ends at the bridge.
R241, R256, R321, R347, R359, R416, R444: the writes that start something and have no row of their own: RCFG, CQHEAD, HB_MEMBER,
REF_CTL, AU_PEAK, REMAPSTAT and CLKSRC. That a write to a tripped stack is held and not answered is the model's choice (log 73). -/
def Obligations.WritesCompleteByTheirAddress : Prop :=
  ∀ (req : Requester) (a : BitVec 48) (v : Word) (s : State), s.answers req = true →
    let run := exec (.registerWrite req a v) s
    let silent (t : State) : State := t.emit (.access req 2 none)
    (a.toNat % 4 ≠ 0 → req = .host → run = .next (s.emit (.hostDone 3 none)))
    ∧ (a.toNat % 4 ≠ 0 → req ≠ .host → s.routed a.toNat = true → run = .next (busError req s))
    ∧ (a.toNat % 4 = 0 → s.pathOpen false 0x8000 (s.answerNode a.toNat) = false → run = .next (silent s))
    ∧ (a.toNat % 4 = 0 → guardedFirst a.toNat = false → guardedSecond a.toNat = false → s.routed a.toNat = true →
      (placeOf a.toNat = .none → run = .next (busError req s))
      ∧ (∀ w i, placeOf a.toNat = .edgeReg w i →
          let plain := s.regWrite (.edgeReg w i) w req a.toNat v.toNat
          let size (hi lo : Nat) (x : Nat) : Nat :=
            if 8 ≤ bits x hi lo ∧ bits x hi lo ≤ 20 then x else setBits x hi lo (bits (s.rd a.toNat) hi lo)
          let sized := s.regWrite (.edgeReg w i) w req a.toNat (size 4 0 (size 9 5 v.toNat))
          let ref := s.wr Rg.REF_CTL (v.toNat % 4)
          let picked := if v.toNat % 2 ≠ s.rd Rg.REF_CTL % 2 ∨ v.toNat.testBit 1 = true then ref.refSelect else ref
          (w.off ∉ starts → run = .next (answered req plain))
          ∧ (w.off = 0x22040 → run = .next (answered req (if i = 0 then s else plain)))
          ∧ (w.off = 0x1101C → run = .next (answered req
              (plain.serve.aborts.foldl (fun t x => t.abortRun x) { plain with serve := { plain.serve with aborts := [] } })))
          ∧ (w.off = 0x11010 → run = .next (answered req (if s.flag (Rg.RCFG_EN i) then plain else sized)))
          ∧ (w.off = 0x30100 → run = .next (answered req
              (picked.journal 0xFD 0 0x4020 1 1 1 (s.rd Rg.REF_CTL % 4) (v.toNat % 4) 0))))
      ∧ (∀ off, placeOf a.toNat = .cmem off → run = .next (answered req (s.cmHalfWrite off v)))
      ∧ (∀ n off, placeOf a.toNat = .stack n off →
          let x := s.dramWrite n off (leBytes 4 v.toNat)
          (x.1 = .ok () → run = .next (answered req x.2))
          ∧ (x.1 = .error .absent → x.2.blocked = false → run = .next (busError req x.2))
          ∧ (x.1 = .error .absent → x.2.blocked = true →
              run = .next (silent { s with held := s.held ++ [.write a.toNat v], blocked := false }))
          ∧ (∀ l, x.1 = .error (.fenced l) → run = .next (silent x.2)))
      ∧ (∀ r w i, placeOf a.toNat = .regionReg r w i →
          let plain := s.regWrite (.regionReg r w i) w req a.toNat v.toNat
          (s.reachable r = true →
            (w.off ∉ regionStarts → run = .next (answered req plain))
            ∧ (w.off = 0x1F0000208 → run = .next (answered req (if v.toNat.testBit 31 then s.setFld (Rg.AU_PEAK_PEAK r) 0 else s)))
            ∧ (w.off = 0x1F0000300 →
                let en := w.blk == .regionCtl && !s.quiesced && !(s.enabledClusters r).isEmpty
                let p0 := s.regWrite (.regionReg r w 0) w req a.toNat v.toNat
                run = .next (answered req (if en = true ∨ r ∈ p0.loader.asked then p0
                  else { p0 with loader := { p0.loader with asked := p0.loader.asked ++ [r] } })))
            ∧ (w.off = 0x1F0000808 →
                let k := s.fld (Rg.CLKSRC_SEL r)
                let t := (s.setFld (Rg.CLKSRC_ORDER r) (bits v.toNat 15 8)).setFld (Rg.CLKSRC_INEN r) (bits v.toNat 3 0)
                let gone := t.inputInUse r k && t.inputOk r k && !t.inputOn r k
                run = .next (answered req (if gone then (t.inputGone r true).depthChanged r else t.inputGone r false))))
          ∧ (s.reachable r = false → run = .next (silent s)))
      ∧ (∀ r c w i, placeOf a.toNat = .clusterReg r c w i →
          (s.reachable r = true → run = .next (answered req (s.regWrite (.clusterReg r c w i) w req a.toNat v.toNat)))
          ∧ (s.reachable r = false → run = .next (silent s)))
      ∧ (∀ r c off tile, ∀ row ∈ [(Place.weight r c off, s.tileWrite r c (off / 16384) (off % 16384) (leBytes 4 v.toNat)),
            (.spRaw r c off, s.spRawWrite r c off v), (.prog r c off, s.progRawWrite r c off v), (.tagArray r c tile, s.tagWrite r c tile v)],
          placeOf a.toNat = row.1 →
          (s.reachable r = true → s.enabled r c = false → run = .next (answered req row.2))
          ∧ (s.reachable r = true → s.enabled r c = true → run = .next (busError req s))
          ∧ (s.reachable r = false → run = .next (silent s))))

/-- R455, R461 to R463: the bits of a register after a write of `v` over `old`, one by one, for masks that do not overlap: a
plain field takes the bit, a configuration field takes it only while its block is disabled, a bit cleared by writing one is
cleared, every other bit stays; and a counter is cleared when bit 0 is written one, whatever the other bits. -/
def Obligations.WrittenBitsFollowTheirAccess : Prop :=
  ∀ (w : RegRow) (en : Bool) (old v : Nat) (k : Nat),
    (w.counter = false →
      (w.rw.testBit k = true → w.w1c.testBit k = false → (w.written en old v).testBit k = v.testBit k)
      ∧ (w.rwd.testBit k = true → w.rw.testBit k = false → w.w1c.testBit k = false →
          (w.written en old v).testBit k = if en then old.testBit k else v.testBit k)
      ∧ (w.w1c.testBit k = true → w.rw.testBit k = false → w.rwd.testBit k = false →
          (w.written en old v).testBit k = (old.testBit k && !v.testBit k))
      ∧ (w.rw.testBit k = false → w.rwd.testBit k = false → w.w1c.testBit k = false →
          (w.written en old v).testBit k = old.testBit k))
    ∧ (w.counter = true → w.written en old v = if v % 2 = 1 then 0 else old)

/-- R461 to R463: the configuration fields of every block, while it is enabled: a cluster's and its weight tier's registers, a
region controller's, and those of the port data paths, the KV block, the server, the ring pairs, the loader and the boot fetch. A write
that names such a field with another value leaves every such field as it is (R455 has the others), sets the block's sticky flag
(CL_STAT.CFGIGN, RC_STAT.CFGIGN or the block's bit of EDGE_CFGIGN) and captures the access where none is captured yet; the response
is OK. A counter stops at 0xFFFF_FFFF. -/
def Obligations.IgnoredConfigurationWritesAreCaptured : Prop :=
  ∀ (req : Requester) (a : BitVec 48) (v : Word) (s : State), s.answers req = true → a.toNat % 4 = 0 →
    guardedFirst a.toNat = false → guardedSecond a.toNat = false → s.routed a.toNat = true →
    let run := exec (.registerWrite req a v) s
    let img := s.fld Rg.IMG_STAT_STATE
    let held := s.gop.hold == 5 && s.gop.held
    let caught (t : State) : State :=
      if t.flag Rg.CFGIGN_CAP1_VALID then t
      else (t.wr Rg.CFGIGN_CAP0 (a.toNat % 2 ^ 32)).wr Rg.CFGIGN_CAP1 (2 ^ 31 + 2 ^ 16 * requesterCode req + a.toNat / 2 ^ 32 % 65536)
    let took (w : RegRow) (on : Bool) (flag : State → State) : State :=
      let t := s.wr a.toNat (w.written on (s.rd a.toNat) v.toNat)
      if on = true ∧ s.rd a.toNat &&& w.rwd ≠ v.toNat &&& w.rwd then caught (flag t) else t
    (∀ w i, placeOf a.toNat = .edgeReg w i → w.off ∉ starts →
      ∀ k on, (w.blk, k, on) ∈ [(Blk.kv, 0, decide (2 ≤ img)), (.serving, 1, img == 3 || img == 4), (.ring, 2, s.flag (Rg.RCFG_EN i)),
          (.loader, 3, s.fld Rg.WLD_STAT_STATE != 0 && s.fld Rg.WLD_STAT_STATE != 5), (.port, 4, decide (2 ≤ img) && !held),
          (.boot, 5, s.fld Rg.BOOT_STAT_STATE != 0 && s.fld Rg.BOOT_STAT_STATE != 4)] →
        run = .next (answered req (took w on fun t => t.wr Rg.EDGE_CFGIGN (t.rd Rg.EDGE_CFGIGN ||| 2 ^ k))))
    ∧ (∀ w i, placeOf a.toNat = .edgeReg w i → w.off = 0x11010 → s.flag (Rg.RCFG_EN i) = true → w.blk = .ring →
        run = .next (answered req (took w true fun t => t.wr Rg.EDGE_CFGIGN (t.rd Rg.EDGE_CFGIGN ||| 2 ^ 2))))
    ∧ (∀ r w i, placeOf a.toNat = .regionReg r w i → w.off ∉ regionStarts → w.blk = .regionCtl → s.reachable r = true →
        run = .next (answered req
          (took w (!held && !(s.enabledClusters r).isEmpty) fun t => t.setFld (Rg.RC_STAT_CFGIGN r) 1)))
    ∧ (∀ r c w i, placeOf a.toNat = .clusterReg r c w i → w.blk = .cluster ∨ w.blk = .weightTier → s.reachable r = true →
        run = .next (answered req (took w (!held && s.enabled r c) fun t => t.setFld (Rg.CL_STAT_CFGIGN r c) 1)))
    ∧ ∀ (t : State) (b n : Nat), (t.count b n).rd b = Nat.min (t.rd b + n) 0xFFFFFFFF

/-- R458, R459, the event table of a guarded register: a first half arms an IDLE pair or re-arms the requester's own, with a
deadline 1,024 CBCLK later; another requester's is a bus error; a second half that is no complement, comes from another
requester or finds the pair IDLE is a bus error that leaves the pair IDLE and is counted; a pair whose deadline has passed
lapses and is counted; the complement of the armed value from the requester that armed it, in time, disarms the pair and applies the
value, which each register's own rule then acts on. (R346: a register of a region that is LATCHED, RETRY or FENCED is not armed.) -/
def Obligations.GuardedPairsFollowTheirTable : Prop :=
  ∀ a ∈ guardedPairs, ∀ (req : Requester) (v : Word) (s : State), s.answers req = true →
    (∀ x, Store.find s.armed a = some x → s.time.cb ≤ x.deadline) →
    (s.armRefused a = false → (∀ x, Store.find s.armed a = some x → x.req = req) →
      exec (.gpFirstHalf req (BitVec.ofNat 48 a) v) s =
        .next (answered req { s with armed := Store.put s.armed a ⟨v, req, s.time.cb + 1024⟩ }))
    ∧ ((s.armRefused a = true ∨ ∃ x, Store.find s.armed a = some x ∧ x.req ≠ req) →
      exec (.gpFirstHalf req (BitVec.ofNat 48 a) v) s = .next (busError req s))
    ∧ ((∀ x, Store.find s.armed a = some x → x.req ≠ req ∨ v ≠ ~~~ x.value) →
      exec (.gpSecondHalfRefused req (BitVec.ofNat 48 (a + 4)) v) s = .next (busError req
        (if (Store.find s.armed a).isSome then (s.disarmPair a).count Rg.GP_REFUSED 1 else s.count Rg.GP_REFUSED 1)))
    ∧ (armedWith req a v s →
      let t : State := { s with armed := Store.erase s.armed a }
      exec (.registerWrite req (BitVec.ofNat 48 (a + 4)) (~~~v)) s = .next (answered req (t.guardedApply a v.toNat))
      ∧ (a = Rg.GOP_RESET → t.guardedApply a v.toNat = (t.wr a v.toNat).domainReset)
      ∧ (a = Rg.FUSE_PGM → t.guardedApply a v.toNat = (t.wr a v.toNat).fuseApply v.toNat)
      ∧ (a = Rg.CRY_CMD → t.guardedApply a v.toNat = (t.wr a (v.toNat &&& 0xFC000000)).cryApply v.toNat)
      ∧ ∀ r < 96,
        (a = Rg.RPWR_VSET r → t.guardedApply a v.toNat = t.vsetWrite r v.toNat)
        ∧ (a = Rg.RPWR_CTL r → t.guardedApply a v.toNat =
            if v.toNat.testBit 31 then ((t.wr a 0x80000000).driverFence r v.toNat).p3Go else t))
    ∧ ∀ t x, Store.find t.armed a = some x → exec (.gpLapse (BitVec.ofNat 48 a)) t =
        .next (if x.deadline < t.time.cb then ({ t with armed := Store.erase t.armed a } : State).count Rg.GP_LAPSE 1 else t)

/-- R436, R455, R128, R131, R134, R145, R146, R212: what a 32-bit read of an aligned address that reaches its node gives. A read of
TB_LO captures TB_HI. A register gives its value, a second address that holds no register 0, an unimplemented address a bus error; a
word of control memory or of a stack gives its data, corrected where the check corrects it, an invalid one 0, one beyond correction
in control memory a bus error with entry 0x0410. The memory windows of a disabled cluster (weights, scratchpad, program, tags) are
read in place: a corrected word is logged with 0x0301 or 0x0302 and counted, one beyond correction is a bus error with entry 0x0401;
those of an enabled cluster answer with a bus error, those of a region that does not answer leave status 2. A written tag leaves its tile
pending. That a raw read logs what it corrects (log 84), and that a tripped stack leaves a read unanswered (log 73), is the model's
choice. -/
def Obligations.WindowReadsAndTagWrites : Prop :=
  ∀ (req : Requester) (p : Site) (tile : BitVec 13) (v : Word) (s : State), s.answers req = true →
    exec (.tbLoRead req) s = .next ((s.wr Rg.TB_HI (s.ns / 2 ^ 32 % 2 ^ 32)).emit
      (.access req 0 (some (BitVec.ofNat 32 (s.ns % 2 ^ 32)))))
    ∧ (let a := clusterBase p.r p.c + 0xA000000 + 4 * tile.toNat
      s.reachable p.r = true → s.routed a = true → tile.toNat < 4608 →
      (s.enabled p.r p.c = false → exec (.tagArrayWrite req p tile v) s = .next (answered req (s.modCluster p.r p.c fun k =>
          { k with tags := Store.set 0 k.tags tile.toNat v, proven := Store.set false k.proven tile.toNat false })))
      ∧ (s.enabled p.r p.c = true → exec (.tagArrayWrite req p tile v) s = .next (busError req s)))
    ∧ ∀ a : BitVec 48, a.toNat % 4 = 0 → s.routed a.toNat = true →
      let run := exec (.rawWindowRead req a) s
      let gives (x : Nat) (t : State) := run = .next (t.emit (.access req 0 (some (BitVec.ofNat 32 x))))
      let silent (t : State) := run = .next (t.emit (.access req 2 none))
      let half (d : DWord) (o : Nat) : Nat := bits d.toNat (8 * (o % 8) + 31) (8 * (o % 8))
      (placeOf a.toNat = .none →
          (guardedSecond a.toNat = true → gives 0 s) ∧ (guardedSecond a.toNat = false → run = .next (busError req s)))
      ∧ (∀ w i, placeOf a.toNat = .edgeReg w i → a.toNat ≠ Rg.TB_LO →
          gives (s.edgeRead w.off i (s.rd a.toNat)) s
          ∧ (w.off ∉ [0x1011C, 0x20010, 0x30004, 0x3000C, 0x5000C, 0x60010, 0x51000, 0x51400] → w.off < 0x70000 ∨ 0x70200 ≤ w.off →
              gives (s.rd a.toNat) s))
      ∧ (∀ r w i, placeOf a.toNat = .regionReg r w i →
          (s.reachable r = true → gives (s.regionRead r w.off i (s.rd a.toNat)) s
            ∧ (w.off ∉ [0x1F0001000, 0x1F0000320, 0x1F0002000, 0x1F0002400, 0x1F0000000, 0x1F0004130, 0x1F0005010] →
                gives (s.rd a.toNat) s))
          ∧ (s.reachable r = false → silent s))
      ∧ (∀ r c w i, placeOf a.toNat = .clusterReg r c w i →
          (s.reachable r = true → gives (s.rd a.toNat) s) ∧ (s.reachable r = false → silent s))
      ∧ (∀ off, placeOf a.toNat = .cmem off → s.clearing (off / 8) = false →
          (Store.find s.cmem (off / 8) = none → gives 0 s)
          ∧ ∀ x, Store.find s.cmem (off / 8) = some x →
            (x.twin = true → eccOf 72 x.flip.toNat = .clean → gives (half x.data off) s)
            ∧ (∀ q, x.twin = true → eccOf 72 x.flip.toNat = .corrected q → gives (half (x.data ^^^ BitVec.ofNat 64 q) off) s)
            ∧ (x.twin = false ∨ eccOf 72 x.flip.toNat = .bad → ∃ n f, (∀ k, req = .core k → n = k.val ∧ f = s.free)
                ∧ run = .next (busError req
                    { s.log 96 { code := 0x410, cluster := 0xFE, loc0 := 8 * (off / 8), loc1 := n } with free := f })))
      ∧ (∀ n off, placeOf a.toNat = .stack n off →
          (s.chanOf n (off / 8 * 8) = none → s.blocked = false → run = .next (busError req s))
          ∧ ∀ ch b, s.chanOf n (off / 8 * 8) = some (ch, b) →
            (s.chanFenced n ch = true → silent s)
            ∧ (s.chanFenced n ch = false → s.stackHolds n = true → silent { s with blocked := false })
            ∧ (s.chanFenced n ch = false → s.stackHolds n = false →
                let x := s.dramCell n ch b
                (eccOf 72 x.flip.toNat = .clean → gives (half x.data off) (s.countTxn n off 4))
                ∧ ∀ q, eccOf 72 x.flip.toNat = .corrected q → gives (half (x.data ^^^ BitVec.ofNat 64 q) off)
                    ((s.dramFound n ch (off / 8 * 8) b x (.corrected q)).2.countTxn n off 4)))
      ∧ ∀ r c off t,
          (∀ q ∈ [Place.weight r c off, .spRaw r c off, .prog r c off, .tagArray r c t], placeOf a.toNat = q →
            (s.reachable r = false → silent s) ∧ (s.reachable r = true → s.enabled r c = true → run = .next (busError req s)))
          ∧ (s.reachable r = true → s.enabled r c = false →
            let k := s.cluster r c
            let bad := run = .next (busError req
              (s.log r { code := 0x401, region := r, cluster := c, loc0 := a.toNat % 2 ^ 32, loc1 := a.toNat / 2 ^ 32 }))
            (placeOf a.toNat = .weight r c off →
                gives (leNat (Store.getMany 0 k.wt (s.wtAddr r c (off / 16384) (off % 16384)) 4)) s)
            ∧ (placeOf a.toNat = .tagArray r c t → gives (Store.get 0 k.tags t).toNat s)
            ∧ (placeOf a.toNat = .spRaw r c off →
                (Store.find k.sp (off / 8) = none → gives 0 s)
                ∧ ∀ x, Store.find k.sp (off / 8) = some x →
                  (x.twin = true → eccOf 72 x.flip.toNat = .clean → gives (half x.data off) s)
                  ∧ (∀ q, x.twin = true → eccOf 72 x.flip.toNat = .corrected q → gives (half (x.data ^^^ BitVec.ofNat 64 q) off)
                      ((s.log r { code := 0x301, region := r, cluster := c, loc0 := off / 8 / 8192, loc1 := off / 8 % 8192,
                                  detail := Config.syndrome 72 x.flip.toNat }).count (Rg.SP_CE_COUNT r c) 1))
                  ∧ (x.twin = false ∨ eccOf 72 x.flip.toNat = .bad → bad))
            ∧ (placeOf a.toNat = .prog r c off →
                let x := Store.get PCell.zero k.prog (off / 32)
                let i := off % 32 / 8
                let e := State.progFlip x i
                let part (q : Nat) : Nat := bits (bits x.w.toNat (64 * i + 63) (64 * i) ^^^ q) (8 * (off % 8) + 31) (8 * (off % 8))
                (eccOf 72 e = .clean → gives (part 0) s)
                ∧ (∀ q, eccOf 72 e = .corrected q → gives (part q)
                    ((s.log r { code := 0x302, region := r, cluster := c, loc0 := off / 32, loc1 := i,
                                detail := Config.syndrome 72 e }).count (Rg.PM_CE_COUNT r c) 1))
                ∧ (eccOf 72 e = .bad → bad)))

/-- R143, R125, R213, R295, R403, R402, R354, R470: what the writes of the test, release and clear registers leave. That an
accepted GO of a clear takes REFUSED back is the model's choice (log 118). -/
def Obligations.RegistersThatStartSomething : Prop :=
  ∀ (req : Requester) (p : Site) (r : Fin 96) (v : Word) (s : State), s.answers req = true → s.reachable p.r = true →
    s.reachable r = true → (∀ a ∈ [Rg.SPFLIP_CTL p.r p.c, Rg.WTCRC_TEST p.r p.c, Rg.DFLIP_CTL r, Rg.SWP_HOLD r, Rg.FBACK r, Rg.CLKTUNE r],
      s.routed a = true) →
    exec (.spflipArm req p v) s = .next (answered req (s.wr (Rg.SPFLIP_CTL p.r p.c)
      (maskInto (s.rd (Rg.SPFLIP_CTL p.r p.c)) 0x80001FFF v.toNat)))
    ∧ exec (.wtcrcTest req p v) s = .next (answered req (s.wr (Rg.WTCRC_TEST p.r p.c)
      (maskInto (s.rd (Rg.WTCRC_TEST p.r p.c)) 0x80001FFF v.toNat)))
    ∧ exec (.dflipArm req r v) s = .next (answered req (s.wr (Rg.DFLIP_CTL r) (maskInto (s.rd (Rg.DFLIP_CTL r)) 0x80000007 v.toNat)))
    ∧ exec (.swpHoldArm req r v) s = .next (answered req (s.setFld (Rg.SWP_HOLD_ARM r) (bits v.toNat 31 31)).holdFinish)
    ∧ exec (.fback req (some r) v) s =
        .next (answered req (s.modRegion r fun g => { g with faults := g.faults.drop (bits v.toNat 5 0) }))
    ∧ exec (.fback req none v) s =
        .next (answered req (s.modRegion 96 fun g => { g with faults := g.faults.drop (bits v.toNat 5 0) }))
    ∧ exec (.elogHead req v) s = .next (answered req (s.elogAdvance v.toNat))
    ∧ exec (.ceil req r v) s = .next (answered req
        ((if v.toNat.testBit 31 then s.setFld (Rg.CLKTUNE_CEILREF r) 0 else s).ceilWrite r (bits v.toNat 6 0)))
    ∧ (v.toNat.testBit 31 = true →
      let off := s.fld Rg.CMCLR_OFF_OFF / 512 * 512
      let len := s.fld Rg.CMCLR_LEN_LEN / 512 * 512
      exec (.cmclrGo req v) s = .next (answered req
        (if 0x10000000 < off + len ∨ len = 0 ∨ s.flag Rg.CMCLR_STAT_BUSY then s.setFld Rg.CMCLR_STAT_REFUSED 1
         else { (s.setFld Rg.CMCLR_STAT_REFUSED 0).setFld Rg.CMCLR_STAT_BUSY 1 with crypto := { s.crypto with clear := some (off / 8, len / 8, []) } })))

/-- R324 to R326: a write of GOP_CMD. ARRIVE starts a barrier unless one is outstanding; BCAST, SNAP, QUIESCE and RESUME take
effect here and their marker leaves on every edge, with the ID, this module as origin and GOP_DATA.
R324, R325, R328: markers from the array. ARRIVE counts once from a child edge and not for an abandoned barrier; RELEASE of
the outstanding barrier from the parent edge releases it; the first copy of a broadcast is recorded in GOP_BCAST and GOP_BDATA,
acts, and goes on by every other edge, and a later copy has no effect. That GOP_BCAST takes the markers of every kind, and knows a
copy by its origin and ID whatever its kind (log 59), and that a barrier and a hold run side by side (log 58), is the model's choice. -/
def Obligations.GlobalOperationsBeginAndSpread : Prop :=
  (∀ (req : Requester) (id : BitVec 15) (s : State), s.answers req = true →
     let origin := imgModpos s.image % 256
     let t := s.setGop { s.gop with seen := s.gop.seen ++ [(origin, id.toNat)] }
     let data := s.rd Rg.GOP_DATA
     exec (.gopArrive req id) s = .next (answered req
       (if s.gop.bar then s
        else (s.setGop { s.gop with bar := true, id := id.toNat, since := s.time.cb, up := false, late := false }).gopTry))
     ∧ exec (.gopBcast req id) s = .next (answered req (t.marks [0, 1, 2, 3] 3 id.toNat origin data))
     ∧ exec (.gopSnap req id) s = .next (answered req ((t.holdStart 4 id.toNat data).marks [0, 1, 2, 3] 4 id.toNat origin data))
     ∧ exec (.gopQuiesce req id) s =
         .next (answered req ((t.holdStart 5 id.toNat data).marks [0, 1, 2, 3] 5 id.toNat origin data))
     ∧ exec (.gopResume req id) s = .next (answered req (t.holdEnd.marks [0, 1, 2, 3] 6 id.toNat origin data)))
  ∧ (∀ (edge : Side) (id : BitVec 15) (origin : Byte) (data : Word) (s : State),
      let e := Side.code edge
      exec (.markArrive edge id) s = .next
        (if e ∈ s.gopChildren ∧ s.gop.dead ≠ some id.toNat ∧ (e, id.toNat) ∉ s.gop.arrived then
          (s.setGop { s.gop with arrived := s.gop.arrived ++ [(e, id.toNat)] }).gopTry
         else s)
      ∧ exec (.markRelease edge id) s =
          .next (if s.gop.bar = true ∧ s.gop.id = id.toNat ∧ s.gopParent = some e then s.gopRelease id.toNat else s)
      ∧ ∀ i f, (i, f) ∈ [(Instr.markBcast edge id origin data, fun (t : State) (ids : List Nat) => t.marks ids 3 id.toNat origin.toNat data.toNat),
          (.markSnap edge id origin data, fun t ids => (t.holdStart 4 id.toNat data.toNat).marks ids 4 id.toNat origin.toNat data.toNat),
          (.markQuiesce edge id origin data, fun t ids => (t.holdStart 5 id.toNat data.toNat).marks ids 5 id.toNat origin.toNat data.toNat),
          (.markResume edge id origin data, fun t ids => t.holdEnd.marks ids 6 id.toNat origin.toNat data.toNat)] →
        exec i s = .next
          (if (origin.toNat, id.toNat) ∈ s.gop.seen then s
           else f ((((s.setGop { s.gop with seen := s.gop.seen ++ [(origin.toNat, id.toNat)] }).setFld Rg.GOP_BCAST_ORIGIN
              origin.toNat).setFld Rg.GOP_BCAST_ID id.toNat).wr Rg.GOP_BDATA data.toNat) ((List.range 4).filter fun x => x != e)))

/-- R326 to R328, R288, R291: a module whose regions all wait is HELD; a domain reset is accepted only while HELD after a quiesce,
resets every region that the yield map does not fence, empties the ports' queues and erases the session keys and those of the engine
slots, and ends 50 µs later with no image loaded and the unit IDLE; a barrier and a hold that take longer than GOP_TMO are each
reported with the GOP_CMD operation and ID, and the barrier is abandoned. That the reset acts when it is applied, that one during a swap
ends it with cause 14 where a region of the placement is fenced and else lets it come to its last step (log 60), and that a barrier and
a hold time out apart (log 58), is the model's choice. -/
def Obligations.HoldsEndInHeldResetOrTimeout : Prop :=
  ∀ (req : Requester) (v : Word) (s : State),
    (s.gop.hold ≠ 0 → s.gop.held = false → s.gop.holdLate = false →
      exec .moduleHeld s = .next (if s.allHeld then s.setGop { s.gop with held := true } else s))
    ∧ (s.answers req = true → armedWith req Rg.GOP_RESET v s → s.gop.hold = 5 → s.gop.held = true → s.gop.late = false →
        s.gop.holdLate = false → s.gop.resetAt = none →
        let u := (s.disarmPair Rg.GOP_RESET).wr Rg.GOP_RESET v.toNat
        exec (.gopReset req (~~~v)) s = .next (answered req
          (let t := ((List.range 32).foldl (fun s p => s.modPort p fun x => { x with outq := [], inq := [], freedD := x.freedD + x.inq.length })
            ((List.range 96).foldl (fun s r => if s.yFenced r then s else s.regionReset r) u)).portsRun
           let w := if t.loader.job = .swap ∧ t.usedRegions.any t.yFenced = true then t.loadFail 14 0 else t
           State.holdFinish { w with gop := { w.gop with resetAt := some w.time.cb }, crypto := { w.crypto with slots := [] }
                                     rxSession := Session.idle, txSession := Session.idle })))
    ∧ (∀ t, s.gop.resetAt = some t → t + 75000 ≤ s.time.cb → exec .domainResetDone s =
        .next ((s.setGop { s.gop with resetAt := none, hold := 0, held := false, late := false, holdLate := false }).setImgState 0))
    ∧ (let us := s.fld Rg.GOP_TMO_US
      let b := if s.gop.bar = true ∧ us ≠ 0 ∧ s.gop.since + us * 1500 ≤ s.time.cb then
          (s.setGop { s.gop with bar := false, up := false, late := true, dead := some s.gop.id
                                 arrived := s.gop.arrived.filter fun e => e.2 != s.gop.id }).logEdge 0x407 1 s.gop.id 0
        else s
      exec .gopTimeout s = .next
        (if s.gop.hold ≠ 0 ∧ s.gop.held = false ∧ s.gop.holdLate = false ∧ us ≠ 0 ∧ s.gop.holdSince + us * 1500 ≤ s.time.cb then
          (b.setGop { b.gop with holdLate := true }).logEdge 0x407 (s.gop.hold - 1) s.gop.holdId 0
         else b))

/-- R345, R358, R459: a completed pair of RPWR_VSET with 600 to 850 mV sets the override and the setpoint, which VCORE follows where
the regulator holds it there; one outside has no effect. One of RPWR_CTL with FENCE fences the region with cause 7: its state is
FENCED at once and its rails come down; a swap in progress ends with cause 14 (R298). The pair is IDLE afterwards. That the rails are off
5 ms later, the readings free until then, and that VCORE moves at once (log 6), that RPWR_CTL keeps 0x80000000 (log 85), and that
bring-up goes on when a region it waits for is fenced, is the model's choice. -/
def Obligations.RegionPairsFenceAndSetVoltage : Prop :=
  ∀ (req : Requester) (r : Fin 96) (v : Word) (s : State), s.answers req = true →
    (armedWith req (Rg.RPWR_VSET r) v s →
      exec (.vset req r (~~~v)) s = .next (answered req
        (let t := s.disarmPair (Rg.RPWR_VSET r)
         if 600 ≤ bits v.toNat 9 0 ∧ bits v.toNat 9 0 ≤ 850 then
           let w := (t.setFld (Rg.RPWR_VSET_OVR r) (bits v.toNat 31 31)).setFld (Rg.RPWR_VSET_MV r) (bits v.toNat 9 0)
           let st := w.fld (Rg.RPWR_STAT_STATE r)
           if st = 2 ∨ (st = 1 ∨ st = 5) ∧ 750 ≤ w.fld (Rg.RPWR_MEAS_VSRAM r) then w.vcoreFollow r else w
         else t)))
    ∧ (armedWith req (Rg.RPWR_CTL r) v s →
      let u := s.disarmPair (Rg.RPWR_CTL r)
      let u' := u.wr (Rg.RPWR_CTL r) 0x80000000
      exec (.regionFence req r (~~~v)) s = .next (answered req
        (if v.toNat.testBit 31 = false then u
         else if u'.fld (Rg.RPWR_STAT_STATE r) = 6 then u'.p3Go
         else
          let t := (if u'.fld (Rg.RPWR_STAT_STATE r) = 0 then (u'.halt r).regionOff r 6 else u'.fenceDown r).yieldFence r 7
          (if t.loader.job = .swap then t.loadFail 14 r else t).p3Go)))
    ∧ (∀ k : State, ((k.fenceDown r).region r).halted = true ∧ (k.fenceDown r).fld (Rg.RPWR_STAT_STATE r) = 6
        ∧ (k.fenceDown r).fld (Rg.RPWR_STAT_VCORE r) ≤ k.fld (Rg.RPWR_STAT_VCORE r)
        ∧ (k.fenceDown r).fld (Rg.RPWR_STAT_ICORE r) ≤ k.fld (Rg.RPWR_STAT_ICORE r)
        ∧ (k.fenceDown r).power.falling = k.power.falling ++ [(r.val, k.time.cb + 7500000)])

/-- R468, R451: a completed pair of CRY_CMD. An idle engine takes the command with its slot and the argument address; one that
runs a command keeps it and shows cause 1. A command that ends shows DONE or FAILED and the next begins.
R450, R451, R468: the end of a request. A network quote is kept, and a quote of CRY_CMD is written behind its nonce; ERASE
empties its slot, and fails with cause 4 where it is empty; UNWRAP and WRAP fail with cause 3 where their slot is full. That a command
refused while another runs leaves STATE busy (log 77), and which bits the register keeps (log 85), is the model's choice. -/
def Obligations.CryptoCommandsRunAndDeliver : Prop :=
  (∀ (req : Requester) (v : Word) (s : State), s.answers req = true → armedWith req Rg.CRY_CMD v s →
     ∀ op i, (op, i) ∈ [(1, Instr.cryQuote req (~~~v)), (2, .sign req (~~~v)), (3, .unwrap req (~~~v)), (4, .wrap req (~~~v)),
       (5, .erase req (~~~v))] → bits v.toNat 31 28 = op →
     let u := (s.disarmPair Rg.CRY_CMD).wr Rg.CRY_CMD (v.toNat &&& 0xFC000000)
     exec i s = .next (answered req
       (if u.fld Rg.CRY_STAT_STATE = 1 then u.setFld Rg.CRY_STAT_CAUSE 1
        else ((u.setFld Rg.CRY_STAT_STATE 1).setFld Rg.CRY_STAT_CAUSE 0).cryPush
           (.command op (bits v.toNat 27 26) (u.fld Rg.CRY_ARG_OFF / 64 * 64)))))
  ∧ (∀ (slot arg : Nat) (js : List CryJob) (s : State),
      let q := s.crypto.body ++ Config.pssSign s.crypto.body s.free
      let drawn := { s with free := s.free + 1 }
      (s.crypto.jobs = .network :: js →
        exec .quoteDone s = .next ({ drawn with crypto := { s.crypto with quote := q } } : State).cryNext)
      ∧ (s.crypto.jobs = .command 1 slot arg :: js → s.crypto.body ≠ [] →
          exec .quoteDone s = .next ((drawn.cmSetBytes (arg + 64) q).cryStat 2 0).cryNext)
      ∧ (s.crypto.jobs = .command 5 slot arg :: js →
          exec .cryDone s = .next
            (if (Store.find s.crypto.slots slot).isSome then
              ({ s with crypto := { s.crypto with slots := Store.erase s.crypto.slots slot } } : State).cryStat 2 0
             else s.cryStat 3 4).cryNext)
      ∧ (∀ op ∈ [3, 4], s.crypto.jobs = .command op slot arg :: js → (Store.find s.crypto.slots slot).isSome = true →
          exec .cryDone s = .next (s.cryStat 3 3).cryNext)
      ∧ ∀ t : State, t.cryNext = ({ t with crypto := { t.crypto with jobs := t.crypto.jobs.drop 1 } } : State).cryBegin
          ∧ ∀ st cause, t.cryStat st cause = (t.setFld Rg.CRY_STAT_STATE st).setFld Rg.CRY_STAT_CAUSE cause)

/-- R466, R467: a completed pair of FUSE_PGM, idle, with bring-up done and no image: the causes of a refusal, in their order, or
programming begins with the data words; while one runs the engine shows cause 5. Programming that ends sets the slot's words
and its bit, the slot's revocation, or SVNMIN, and the engine shows DONE. That STATE stays busy in that case, and that cause 5 comes
first (log 77), and that a command before bring-up is done is refused with a cause that is a free value (log 78), is the model's choice. -/
def Obligations.FuseProgrammingFollowsItsRules : Prop :=
  ∀ (req : Requester) (v : Word) (s : State),
    (s.answers req = true → armedWith req Rg.FUSE_PGM v s →
      ∀ op i, (op, i) ∈ [(1, Instr.fuseProgramSlot req (~~~v)), (2, .fuseRevokeSlot req (~~~v)), (3, .fuseRaiseSvnmin req (~~~v))] →
      bits v.toNat 31 28 = op →
      let u := (s.disarmPair Rg.FUSE_PGM).wr Rg.FUSE_PGM v.toNat
      let k := bits v.toNat 27 24
      let bad := if op ≠ 3 ∧ (k < 1 ∨ 4 < k) then 6
        else if op = 1 ∧ s.fuse.prog.testBit (k - 1) then 2
        else if op = 2 ∧ ¬(s.fuse.prog.testBit (k - 1) ∧ ¬ s.fuse.revoked.testBit (k - 1)) then 3
        else if op = 3 ∧ bits v.toNat 23 0 < s.fuse.svnmin then 4 else 0
      (u.fld Rg.FUSE_STAT_STATE = 1 → exec i s = .next (answered req (u.setFld Rg.FUSE_STAT_CAUSE 5)))
      ∧ (u.fld Rg.FUSE_STAT_STATE ≠ 1 → u.fld Rg.IMG_STAT_STATE ≠ 0 →
          exec i s = .next (answered req ((u.setFld Rg.FUSE_STAT_STATE 3).setFld Rg.FUSE_STAT_CAUSE 1)))
      ∧ (u.fld Rg.FUSE_STAT_STATE ≠ 1 → u.fld Rg.IMG_STAT_STATE = 0 → u.flag Rg.BU_STAT_DONE = false →
          exec i s = .next (answered req (((u.fresh 8).2.setFld Rg.FUSE_STAT_STATE 3).setFld Rg.FUSE_STAT_CAUSE (u.fresh 8).1)))
      ∧ (u.fld Rg.FUSE_STAT_STATE ≠ 1 → u.fld Rg.IMG_STAT_STATE = 0 → u.flag Rg.BU_STAT_DONE = true →
          exec i s = .next (answered req
            (if bad ≠ 0 then (u.setFld Rg.FUSE_STAT_STATE 3).setFld Rg.FUSE_STAT_CAUSE bad
             else
              let t := (u.setFld Rg.FUSE_STAT_STATE 1).setFld Rg.FUSE_STAT_CAUSE 0
              { t with crypto := { t.crypto with fuse := some (v.toNat, (List.range 16).map fun w => t.reg (Rg.FUSE_PGM_DATA w)) } }))))
    ∧ ∀ (w k : Nat) (data : List Word), s.crypto.fuse = some (w, data) → bits w 27 24 = k → 1 ≤ k → k ≤ 4 →
      ∃ t, exec .fusePgmDone s = .next t ∧ t.crypto = { s.crypto with fuse := none } ∧ t.fld Rg.FUSE_STAT_STATE = 2
        ∧ t.fld Rg.FUSE_STAT_CAUSE = 0
        ∧ (bits w 31 28 = 1 → t.fuse = { s.fuse with
            owner := (List.range 64).map fun i => if i / 16 + 1 = k then data.getD (i % 16) 0 else s.fuse.owner.getD i 0
            prog := s.fuse.prog ||| 2 ^ (k - 1) })
        ∧ (bits w 31 28 = 2 → t.fuse = { s.fuse with revoked := s.fuse.revoked ||| 2 ^ (k - 1) })
        ∧ (bits w 31 28 = 3 → t.fuse = { s.fuse with svnmin := bits w 23 0 })

/-- R470, R134, R129, R121, R123, R212: the memories. The end of a clear of control memory: the words of its range are invalid, so they
read as zero, except those written since that the clear did not reach again; every other word is as before. Bytes written to control
memory read as written, and every other byte as before, in words that hold no error. A word written to the scratchpad or to a stack, bytes
written to a tile and a tag read as written, and what is stored anywhere else, in this cluster or another, as before. Each of these writes
keeps the memories in canonical form. -/
def Obligations.ClearedControlMemoryReadsAsZero : Prop :=
  (∀ (w n : Nat) (keep : List Nat) (s : State), s.crypto.clear = some (w, n, keep) →
    ∃ t, exec .cmclrDone s = .next t ∧ t.fld Rg.CMCLR_STAT_BUSY = 0 ∧ t.crypto.clear = none
      ∧ (∀ x, Store.find t.cmem x = if w ≤ x ∧ x < w + n ∧ x ∉ keep then none else Store.find s.cmem x)
      ∧ (s.memWf = true → t.memWf = true))
  ∧ (∀ (a b : Nat) (bs : List Byte) (s : State), (∀ x, Store.find s.cmem (b / 8) = some x → x.flip = 0 ∧ x.twin = true) →
      (s.cmSetBytes a bs).cmByte b = if a ≤ b ∧ b < a + bs.length then bs.getD (b - a) 0 else s.cmByte b)
  ∧ (∀ (n m ch dh b d : Nat) (x : DCell) (s : State), ch < 32 → dh < 32 → b < 2 ^ 32 → d < 2 ^ 32 →
      (s.setDramCell n ch b x).dramCell m dh d = if m = n ∧ dh = ch ∧ d / 8 = b / 8 then x else s.dramCell m dh d)
  ∧ ∀ (r q : Fin 96) (c d : Fin 28) (s : State),
      (∀ key a x, Store.find ((s.spPut r c key x).cluster q d).sp a =
        if q = r ∧ d = c ∧ a = key then some x else Store.find (s.cluster q d).sp a)
      ∧ (∀ t o bs a, Store.get 0 ((s.tileWrite r c t o bs).cluster q d).wt a =
        let e := s.wtAddr r c t o
        if q = r ∧ d = c ∧ e ≤ a ∧ a < e + bs.length then bs.getD (a - e) 0 else Store.get 0 (s.cluster q d).wt a)
      ∧ (∀ t tag a, Store.get 0 ((s.tileTag r c t tag).cluster q d).tags a =
        if q = r ∧ d = c ∧ a = t then tag else Store.get 0 (s.cluster q d).tags a)
      ∧ (s.memWf = true →
        (∀ a bs, (s.cmSetBytes a bs).memWf = true) ∧ (∀ n ch b x, (s.setDramCell n ch b x).memWf = true)
        ∧ (∀ key x, (s.spPut r c key x).memWf = true) ∧ (∀ t o bs, (s.tileWrite r c t o bs).memWf = true)
        ∧ (∀ t tag, (s.tileTag r c t tag).memWf = true) ∧ ∀ off v, (s.progRawWrite r c off v).memWf = true)

/-- R242, R244, R245, R248, R249, R256, R257, R413: the submission entry at the ring pair whose turn it is. An ACK index is reserved and
SQHEAD advances; an entry that R245 does not allow is answered with status 10. A SUBMIT is answered with its first failing status in the
order of R248; one that passes takes the lowest FREE request, its prompt is copied and it is committed to QUEUED. An ABORT ends the
request and then is acknowledged, waits while its ring is full, or is answered with status 1 or 2. TENANT and GRAMMAR take effect
where their status is 0. One that meets a tripped stack waits (R369). That an entry whose words in control memory cannot be read, whose prompt
no page takes or whose commit fails is answered with a free status that is not success is the model's choice (log 105). -/
def Obligations.SubmissionEntriesAreAnswered : Prop :=
  ∀ (ring : Fin 64) (entry : List Byte) (s : State), s.nextRing = some ring.val →
    let b := padTo 64 (entry.take 64)
    let i := (s.ring ring).next
    let t := (s.consume ring).2
    let ctag := fieldAt b 4 4
    let ten := fieldAt b 2 2
    let np := fieldAt b 24 4
    let open_ (u : State) (opc : Nat) : State := (u.fresh 8).2.ackWrite ring i opc (1 + (u.fresh 8).1 % 255) ctag 0
    t.fld (Rg.SQHEAD_IDX ring) = (s.fld (Rg.SQHEAD_IDX ring) + 1) % 2 ^ 24 ∧ (t.ring ring).next = (i + 1) % 2 ^ 24
    ∧ (State.badEntry b = true → exec (.badOpcode ring entry) s = .next (t.ackWrite ring i (byteAt b 0) 10 ctag
        (if byteAt b 0 = 2 then fieldAt b 8 4 else 0)))
    ∧ (State.badEntry b = false → byteAt b 0 = 1 → ∀ params prompt,
        let answers (u : State) : Prop := exec (.submit ring entry params prompt) s = .next (s.unlessHeld u)
        let ok := (t.submitReads ten).1
        let u := (t.submitReads ten).2
        (ok = false → answers (open_ u 1))
        ∧ (ok = true → ∀ k, u.submitStatus b params prompt = k → k ≠ 0 → answers (u.ackWrite ring i 1 k ctag 0))
        ∧ (ok = true → u.submitStatus b params prompt = 0 →
          let v := (u.firstFree 1048576 0).2
          ((u.firstFree 1048576 0).1 = none → answers (v.ackWrite ring i 1 3 ctag 0))
          ∧ ∀ j, (u.firstFree 1048576 0).1 = some j →
            let copied := v.promptCopy (((prompt.getD []).take np).flatMap fun x => leBytes 4 x.toNat) (ceilDiv np 16384)
            (copied = none → answers (open_ v 1))
            ∧ ∀ w, copied = some w →
              let z := w.submitAccept ring j b (params.getD []) (prompt.getD [])
              answers (if z.1 = 0 then z.2.2.ackWrite ring i 1 0 ctag z.2.1 else open_ z.2.2 1)))
    ∧ (∀ (u : State) (params : Option (List Byte)) (prompt : Option (List Word)),
        let spec := (byteAt b 1).testBit 1
        let draft := byteAt b 42
        let gram := fieldAt b 40 2
        let fails : List (Nat × Bool) :=
          [(9, u.fld Rg.IMG_STAT_STATE != 3 && u.fld Rg.IMG_STAT_STATE != 4), (4, decide (4095 < ten) || !u.tenantOn ten),
           (12, params.isNone || prompt.isNone),
           (5, fieldAt b 28 4 == 0 || decide (4 < draft) || (draft != 0 && !spec)
                || !State.paramsOk (params.getD []) (64 * imgCandpass u.image u.place)),
           (6, gram != 0 && !Store.has u.serve.grammars gram),
           (7, spec && (draft == 0 || decide (imgNdraft u.image u.place < draft) || !imgMaps u.image u.place draft)),
           (8, np == 0 || decide (imgMaxctx u.image u.place < np + fieldAt b 28 4))]
        u.submitStatus b params prompt = ((fails.find? fun e => e.2).map fun e => e.1).getD 0)
    ∧ (∀ (u v : State) (n j : Nat) (x : Option DWord), u.cmRead (u.rqAt j / 8) 8 = (x, v) →
        u.firstFree (n + 1) j = if (x.map fun d => d.toNat % 256) = some 0 then (some j, v) else v.firstFree n (j + 1))
    ∧ (State.badEntry b = false → byteAt b 0 = 2 →
        let h := fieldAt b 8 4
        let j := h % 2 ^ 20
        let x := t.commit false ⟨h, 0xFF, 6, 0, 4, 0, 1, 0, 0, 6, 0, 0xFFFFFFFF, 0⟩
        let answers (u : State) : Prop := exec (.abort ring entry) s = .next (s.unlessHeld u)
        (x.1.status = 0 → answers ((x.2.endWrite j x.1.idx 6).ackWrite ring i 2 0 ctag h))
        ∧ (x.1.status = 2 → answers { x.2 with serve := { x.2.serve with aborts := x.2.serve.aborts ++ [⟨ring, i, ctag, h⟩] } })
        ∧ (x.1.status = 1 → answers (x.2.ackWrite ring i 2 (if h / 2 ^ 20 = x.2.rq j 4 2 % 4096 ∧ x.2.rq j 0 1 ≠ 0 then 1 else 2) ctag h))
        ∧ (2 < x.1.status → answers ((x.2.fresh 8).2.ackWrite ring i 2 (x.2.fresh 8).1 ctag h)))
    ∧ (State.badEntry b = false → byteAt b 0 = 3 →
        let answers (u : State) : Prop := exec (.tenant ring entry) s = .next (s.unlessHeld u)
        (State.tenantStatus b ≠ 0 → answers (t.ackWrite ring i 3 (State.tenantStatus b) ctag 0))
        ∧ (State.tenantStatus b = 0 → (t.tenantReads ten).1 = true →
            answers (((t.tenantReads ten).2.tenantWrite b).ackWrite ring i 3 0 ctag 0))
        ∧ (State.tenantStatus b = 0 → (t.tenantReads ten).1 = false → answers (open_ (t.tenantReads ten).2 3)))
    ∧ (State.badEntry b = false → byteAt b 0 = 4 → ∀ body,
        let answers (u : State) : Prop := exec (.grammar ring entry body) s = .next (s.unlessHeld u)
        let x := t.cmProbe 8 (if ten = 0 then [] else t.grammarWords)
        (x.1 = false → answers (open_ x.2 4))
        ∧ (x.1 = true → ∀ k, x.2.grammarStatus b body = k → k ≠ 0 → answers (x.2.ackWrite ring i 4 k ctag 0))
        ∧ (x.1 = true → x.2.grammarStatus b body = 0 →
            let object := padTo (fieldAt b 16 4) ((body.getD []).take (fieldAt b 16 4))
            let u : State := { x.2 with serve := { x.2.serve with grammars := Store.put x.2.serve.grammars ten object } }
            answers (u.ackWrite ring i 4 0 ctag 0)))

/-- R252, R251: a command in a core's window is executed and RES shows its outcome. Its checks come in their order (fields and
reserved bits, then generation, state and EXPN, then the change, then free ring entries), and one that fails has no effect. ADV, DEBIT, RING, ADJ and SLOT alone are commits that keep the request's state. That those rows are such commits (log 37), that one
whose words in control memory cannot be read (R413) fails with a free status above those of R252 (log 105), and that a commit to FAULTED
during a swap ends it (log 115), is the model's choice. -/
def Obligations.CommitsTakeEveryEffectOrNone : Prop :=
  ∀ (core : Fin 8) (s : State),
    let run (cmd : Nat) : State :=
      let u := (List.range 8).foldl (fun s w => s.wr (Rg.CMT_CMD core w) (bits cmd (32 * w + 31) (32 * w))) s
      let x := u.commit false (CommitCmd.ofNat (cmd % 2 ^ 256))
      (x.2.wr (Rg.CMT_RES core) x.1.word).failover (CommitCmd.ofNat (cmd % 2 ^ 256)) x.1
    (∀ cmd, exec (.commit core cmd) s = .next (run cmd.toNat))
    ∧ (∀ req nadv lasttok expn, exec (.adv core req nadv lasttok expn) s =
        .next (run (s.keepCmd req.toNat 0 nadv 0 0 lasttok.toNat expn.toNat 0)))
    ∧ (∀ req nadv, exec (.debit core req nadv) s = .next (run (s.keepCmd req.toNat 1 nadv 0 0 0 0xFFFFFFFF 0)))
    ∧ (∀ req nent, exec (.ring core req nent) s = .next (run (s.keepCmd req.toNat 2 0 nent 0 0 0xFFFFFFFF 0)))
    ∧ (∀ req chg, exec (.adj core req chg) s = .next (run (s.keepCmd req.toNat 3 0 0 0 0 0xFFFFFFFF chg.toNat)))
    ∧ (∀ req slot, exec (.slot core req slot) s = .next (run (s.keepCmd req.toNat 4 0 0 slot.toNat 0 0xFFFFFFFF 0)))
    ∧ ∀ (u : State) (c : CommitCmd),
        let v := (u.commitReads c).2
        let j := c.req % 2 ^ 20
        let st := v.rq j 0 1
        let stale := c.req / 2 ^ 20 ≠ v.rq j 4 2 % 4096 ∨ (c.frm = 0xFF ∧ liveState st = false) ∨ (c.frm ≠ 0xFF ∧ c.frm ≠ st)
          ∨ (c.expn ≠ 0xFFFFFFFF ∧ c.expn ≠ v.rq j 24 4)
        (c.fieldsOk = false → u.commit false c = (⟨3, false, 0⟩, u))
        ∧ (c.fieldsOk = true → (u.commitReads c).1 = false →
            ∃ k, 4 ≤ k ∧ u.commit false c = (⟨k, false, 0⟩, (v.fresh 8).2))
        ∧ (c.fieldsOk = true → (u.commitReads c).1 = true →
            (stale → u.commit false c = (⟨1, false, 0⟩, v))
            ∧ (¬ stale → changeOk false st c.dst (v.rq j 54 1 % 8) c.hold (v.slotAfter c j) = false →
                u.commit false c = (⟨3, false, 0⟩, v))
            ∧ (¬ stale → changeOk false st c.dst (v.rq j 54 1 % 8) c.hold (v.slotAfter c j) = true →
                v.rq j 6 1 < 64 → v.rq j 2 2 < 4096 →
                u.commit false c =
                  if c.ops.testBit 2 ∧ v.ringFree (v.rq j 6 1) < c.nent then (⟨2, false, 0⟩, v) else v.commitApply c))

/-- R258, R259: a write of ADM_CMD is ignored, and sets IGN, while a command runs (while DONE is 0); else the admission runs to its end.
That it does so in the writing command (log 35), so that DONE is 0 only of one that a tripped stack holds (log 73), is the model's choice. The millisecond adds RATE to the budget of every enabled tenant whose
budget is below BURST, up to BURST; a tenant whose record cannot be read is passed by (R413). -/
def Obligations.AdmissionsRunAndBudgetsRefill : Prop :=
  ∀ (req : Requester) (n : BitVec 21) (s : State),
    (s.answers req = true →
      (s.flag Rg.ADM_RES_DONE = true →
        exec (.decodeAdmission req n) s = .next (answered req ((s.setFld Rg.ADM_RES_IGN 0).admitOrHold 1 n.toNat))
        ∧ exec (.prefillAdmission req n) s = .next (answered req ((s.setFld Rg.ADM_RES_IGN 0).admitOrHold 0 n.toNat)))
      ∧ (s.flag Rg.ADM_RES_DONE = false →
        exec (.decodeAdmission req n) s = .next (answered req (s.setFld Rg.ADM_RES_IGN 1))
        ∧ exec (.prefillAdmission req n) s = .next (answered req (s.setFld Rg.ADM_RES_IGN 1))))
    ∧ exec .budgetRefill s = .next ((List.range 4096).foldl (fun t k =>
        let x := t.cmProbe 8 ((t.tnWords k).take 4)
        let u := x.2
        if x.1 = true ∧ u.tenantOn k = true ∧ u.budget k < (u.tn k 12 4 : Int) then
          u.setBudget k (min (u.tn k 12 4 : Int) (u.budget k + u.tn k 8 4))
        else u) s)

/-- R264 to R266, R269, R275: a feeder serves the row whose turn it is: in the first pass its declared records, in a later one the
FLOOR records of the pass before, once they have all arrived. The sampling unit takes a row once the records of every pass of
every position have arrived, decides it if it is a row of KIND 2 to 4, tests its drafts if it is one of KIND 5, and discards one
of KIND 0 or 1 (in a DRAFT segment those of every draft model); a queue that holds a bad record raises fault
0x0218 with reason 1 and the index of that record's row.
R413: what the queue's records, the row and its request say is read and checked first; what cannot be read ends the command with the fault
that its read has raised. Ties, the pace of feeding and the draft slots are the model's choices (logs 39, 40, 41, 106). -/
def Obligations.RowsAreFedAndDecided : Prop :=
  ∀ (r : Fin 96) (row : Fin 4096) (s : State), (s.region r).halted = false → s.reachable r = true → row.val < s.rowCount r →
    ((s.region r).feedSeq = s.rd (Rg.SEGSEQ r) → (s.region r).feedRow = row.val →
      let pass := (s.region r).feedPass
      let turn := if row.val + 1 < s.rowCount r then (pass, row.val + 1) else (pass + 1, 0)
      let served (u : State) : State := u.modRegion r fun g => { g with feedPass := turn.1, feedRow := turn.2 }
      let fed (u : State) : Prop := exec (.feed r row) s = .next (s.unlessHeld u)
      (∀ t, s.rowRead r 1 row = (none, t) → fed t)
      ∧ ∀ w t, s.rowRead r 1 row = (some w, t) →
        (pass = 0 → fed ((t.feedsFor r (s.segOf r).2).foldl (fun s d => s.feedDecl r w d) (served t)))
        ∧ (∀ ok u, (if w.kind = 4 then t.requestRead r 1 w else (true, t)) = (ok, u) → 0 < pass → pass < imgCandpass t.image t.place →
          let recs := (u.rowRecs (imgSampler u.image u.place (u.rowModel w)) row (u.rowModel w)).filter fun x => x.pass + 1 == pass
          (ok = false → fed u)
          ∧ (ok = true → w.positions ≤ recs.length →
              fed (((u.feedsFor r (s.segOf r).2).filter fun d => d.recs.testBit 3).foldl (fun s d => s.floorPush r d recs) (served u)))))
    ∧ (let words : List SmpRec := smpRecs (s.region r).smpq.length (s.region r).smpq
      let both (t : State) : Prop := ∀ i ∈ [Instr.sample r row, .verify r row], exec i s = .next (s.unlessHeld t)
      (∀ t, s.rowsRead r (s.namedRows r words) = (false, t) → both t)
      ∧ ∀ t, s.rowsRead r (s.namedRows r words) = (true, t) →
        let bad := State.badRec (t.rowCount r) (t.positionsOf r) [] words
        (∀ x, bad = some x → both (t.samplerFault r 0 1 (t.badIdx r x) 0))
        ∧ (∀ u, bad = none → t.rowRead r 0 row = (none, u) → both u)
        ∧ ∀ w t', bad = none → t.rowRead r 0 row = (some w, t') →
          let fit (i : Instr) : Prop := (i = .sample r row ∧ w.kind ≤ 4) ∨ (i = .verify r row ∧ w.kind = 5)
          (∀ u i, t'.requestRead r 0 w = (false, u) → fit i → exec i s = .next (s.unlessHeld u))
          ∧ ∀ u, t'.requestRead r 0 w = (true, u) →
            let mine := u.ofRow (u.segOf r).2 row w
            let recs := words.filter mine
            let v := u.modRegion r fun g => { g with smpq := smpDrop mine g.smpq.length g.smpq }
            (if (u.segOf r).2 = 2 then 1 else imgCandpass u.image u.place) * w.positions ≤ recs.length →
            (w.kind ≤ 1 → exec (.sample r row) s = .next (s.unlessHeld v))
            ∧ (2 ≤ w.kind → w.kind ≤ 4 → exec (.sample r row) s = .next (s.unlessHeld (v.sampleRow r w recs)))
            ∧ (w.kind = 5 → ∀ h x, v.ctxHeader r 0 w = (h, x) → exec (.verify r row) s =
                .next (s.unlessHeld (match h with
                  | some h => x.verifyFrom r w (SmpParams.ofHeader h) (imgCandpass x.image x.place) recs w.depth 0
                  | none => x))))

/-- R178, R183, R186, R196 to R198, R286, R416, R464: a load begins only in NOIMAGE. Its image is taken, then its header and sections
are checked, then the remaps the driver asks for; the first error refuses it. Else the placement is written, the progress starts at zero
and the models are taken up one by one in ascending m: one whose source is wrong fails the load, and a kept one is passed by. Once the
weights are written the checks of codes 0x0105 to 0x0117 run, in ascending code, then declaration, then region, cluster and word: the
first failure refuses the load, and where all pass the used clusters are enabled and the image is READY. A refusal makes one record and
leaves no image, every cluster disabled, IMG_STAT in NOIMAGE with the code, and the loader IDLE. That a load before bring-up is done is
refused with 0x0104 (log 48), the free cause of a source that R286 does not name (log 43), and which tiles are kept (log 44), is the
model's choice. -/
def Obligations.LoadsCheckThenWriteThePlacement : Prop :=
  ∀ (img : List Byte) (place : BitVec 4) (headers : List (Option (List Byte))) (s : State),
    (s.fld Rg.IMG_STAT_STATE ≠ 0 → exec (.load img place headers) s = .next s)
    ∧ (s.fld Rg.IMG_STAT_STATE = 0 →
      let u := if s.loader.job = .swap then s.loadFail 14 0 else s
      let same := match u.loader.prev with | some e => e.1 == img | none => false
      let t := State.setImgState { u.wr Rg.WLD_STAT 0 with
        image := img
        loader := { u.loader with job := .load, img := img, models := [], prev := if same then u.loader.prev else none } } 1
      exec (.load img place headers) s = .next
        (match t.headCheck img place.toNat with
         | .error x => t.refuseLoad x
         | .ok p => t.loadPlaced img p headers))
    ∧ (∀ (t : State) (p : Nat),
      let u := t.setImg (setBits (t.rd Rg.IMG_STAT) 27 24 p)
      (∀ r, u.remapWrong img p = some r → t.loadPlaced img p headers = u.refuseLoad { code := 0x116, region := r })
      ∧ (u.remapWrong img p = none →
        let w := u.writePlacement img p
        let tiles := (mappedTiles img p).filter (w.tileNeeded img p)
        let kept := (w.holders img p).filter fun e => !tiles.any fun t => 28 * t.1 + t.2.1 == e.2
        let w' : State := { w with loader :=
          { w.loader with place := p, form := w.weightForm, tiles := tiles, sources := w.sourceList headers, prev := some (img, p, kept) } }
        t.loadPlaced img p headers = (((w'.srcRead.setFld Rg.WLD_STAT_STATE 1).wr Rg.WLD_PROG 0).wr Rg.WLD_FAIL 0).loadAdvance))
    ∧ (∀ (t : State) (x : Source) (xs : List Source),
      let have_ := t.loader.tiles.any fun t => MappedTile.model t == x.m
      let job := t.sourceJob t.loader.img t.loader.place t.loader.tiles (mappedTiles t.loader.img t.loader.place) (!have_) x
      (∀ c, job = .error c → t.nextModels (x :: xs) = t.loadFail c x.m)
      ∧ (job = .ok none → t.nextModels (x :: xs) = t.nextModels xs)
      ∧ (∀ j, job = .ok (some j) → j.todo ≠ [] → t.nextModels (x :: xs) =
          { t with loader := { t.loader with models := t.loader.models ++ [j], sources := xs } }))
    ∧ (∀ (t : State) (want : Nat),
      let xs := imgSections img
      let bad := (xs.filter fun x => !entryOk img x) ++ clashes xs
      let lacks := (xs.filter fun x => x.flags % 2 == 1 && !sectionTypes.contains x.type).map (fun x =>
        ({ code := 0x103, region := x.region, cluster := x.cluster, sect := x.idx } : LoadRefusal)) ++ missing img
      let run := t.headCheck img want
      (t.flag Rg.BU_STAT_DONE = false → run = .error { code := 0x104 })
      ∧ (t.flag Rg.BU_STAT_DONE = true →
        (headerOk img = false → run = .error { code := 0x101 })
        ∧ (headerOk img = true →
          (∀ x ys, bad = x :: ys → run = .error { code := 0x101, sect := x.idx })
          ∧ (bad = [] → byteAt img 6 ≠ t.fuse.archrev → run = .error { code := 0x102 })
          ∧ (bad = [] → byteAt img 6 = t.fuse.archrev →
            (∀ x, firstItem lacks = some x → run = .error x)
            ∧ (lacks = [] → t.selectPlace img want = none → run = .error { code := 0x104 }))))
      ∧ ∀ p, run = .ok p → t.accepts img p = true ∧ (want = 15 ∨ want = p) ∧ ∀ r < 96, (placeFence img p).testBit r = true →
          ∀ c < 28, imgUsed img p r c = false)
    ∧ (∀ (t : State) (x : LoadRefusal), t.loadCheck = some x →
      ∃ code before_ after e, 0x105 ≤ code ∧ code ≤ 0x117 ∧ t.checked = before_ ++ e :: after
        ∧ x ∈ t.items e.1 e.2.1 e.2.2 code ∧ (∀ y ∈ t.items e.1 e.2.1 e.2.2 code, y.before x = false)
        ∧ (∀ d ∈ before_, t.items d.1 d.2.1 d.2.2 code = [])
        ∧ ∀ k, 0x105 ≤ k → k < code → ∀ d ∈ t.checked, t.items d.1 d.2.1 d.2.2 k = [])
    ∧ (∀ t : State, t.loadCheck = none ↔ ∀ k, 0x105 ≤ k → k ≤ 0x117 → ∀ d ∈ t.checked, t.items d.1 d.2.1 d.2.2 k = [])
    ∧ (∀ t : State, t.loader.job = .load → t.loader.sources = [] → (∀ j ∈ t.loader.models, j.todo = []) →
      let u := (t.reportRemaps.setImgState 2).wr Rg.WLD_STAT 0
      let v : State := { u with loader := { u.loader with
        job := .none, models := [], sources := [], prev := some (u.image, u.place, u.holders u.image u.place), swapped := [], broken := false
        inForce := u.loader.models.foldl (fun l (m : ModelJob) => Store.put l m.m m.digest) u.loader.inForce } }
      let used := imgUsedList v.image v.place
      let show_ (s : State) (k n : Nat) : State := s.setFld (Rg.CL_STAT_CHK (k / 28) (s.targetCluster (k / 28) (k % 28))) n
      (∀ x, v.loadCheck = some x → t.loadAdvance =
        (used.foldl (fun s k => show_ s k (if v.failedAt.contains k then 3 else 2)) v).refuseLoad x)
      ∧ (v.loadCheck = none →
        let w := used.foldl (fun s k => (show_ s k 2).setFld (Rg.CL_STAT_EN (k / 28) (s.targetCluster (k / 28) (k % 28))) 1) v
        t.loadAdvance = (w.setImg (setBits (setBits (w.rd Rg.IMG_STAT) 15 0 0) 31 28 3)).announceReady))
    ∧ ∀ (t : State) (x : LoadRefusal),
      let f : FaultRec := { code := x.code, region := x.region, cluster := x.cluster, segment := x.segment, bundle := x.word
                            flags := 1 + 16 * t.fld Rg.IMG_STAT_PLACE, aux := x.sect }
      let u := (t.record 96 (f.image t.ns)).disableClusters
      let v := u.setImg (setBits (setBits (u.rd Rg.IMG_STAT) 15 0 x.code) 31 28 0)
      t.refuseLoad x = State.setFld { v with
          image := [], loader := { v.loader with job := .none, models := [], sources := [], remaps := [] } } Rg.WLD_STAT_STATE 0
        ∧ (t.refuseLoad x).image = [] ∧ (t.refuseLoad x).loader.job = .none
        ∧ (t.refuseLoad x).fld Rg.WLD_STAT_STATE = 0 ∧ (t.refuseLoad x).fld Rg.IMG_STAT_STATE = 0

/-- R281, R284, R287, R288, R294: the next segment or record of the first model that has one to fetch; in a swap STATE shows it,
and it waits until the regions it feeds are IDLE. A read that failed ends the operation with cause 8. A sealed segment is written to
its tiles once it authenticates, and the third try that does not ends it with cause 5. A tile record is written when it names
its tile and tagged when its CRC is right, and the last one completes the model when LAYDIG is right too. -/
def Obligations.WeightSegmentsAreAuthenticated : Prop :=
  ∀ (j : ModelJob) (m : Fin 5) (s : State), (s.loader.models.filter fun j => !j.todo.isEmpty).head? = some j →
    (j.m ≠ m.val ∨ j.src ≠ 1 ∨ s.nextSegment j = none → ∀ data, exec (.loadSegment m data) s = .next s)
    ∧ ∀ k, j.m = m.val → j.src = 1 → s.nextSegment j = some k →
      let v := if s.loader.job = .swap then s.setFld Rg.WLD_STAT_STATE 3 else s
      exec (.loadSegment m none) s = .next (v.loadFail 8 k)
      ∧ (∀ d, j.form = 1 → exec (.loadSegment m (some d)) s = .next
          (match Config.gcmOpen j.key (j.nonce ++ leBytes 8 k) (leBytes 8 k) (d.take 1048576) (bytesAt d 1048576 16) with
           | some pt =>
             let t := v.writeSegment j.m pt fun t => if t.mtile / 64 = k then some (t.mtile % 64) else none
             (t.modJob j.m fun j => { j with todo := j.todo.erase k }).loadAdvance
           | none =>
             let n := Store.get 0 j.tries k + 1
             if n < 3 then v.modJob j.m fun j => { j with tries := Store.put j.tries k n } else v.loadFail 5 k))
      ∧ ∀ d, j.form ≠ 1 →
          let bs := bytesAt d 16 16384
          (v.recordTile j.m k = none → exec (.loadSegment m (some d)) s = .next (v.loadFail 7 k))
          ∧ ∀ t, v.recordTile j.m k = some t →
            let named := byteAt d 0 = t.1 ∧ byteAt d 1 = t.2.1 ∧ fieldAt d 2 2 = t.2.2.1
            let mapped := v.loader.tiles.contains t
            let u := if mapped then v.putTile t bs else v
            (¬ named → exec (.loadSegment m (some d)) s = .next (v.loadFail 7 k))
            ∧ (named → fieldAt d 4 4 ≠ crc32c bs → exec (.loadSegment m (some d)) s = .next (u.loadFail 6 k))
            ∧ (named → fieldAt d 4 4 = crc32c bs →
              let w := ((if mapped then u.tagTile t bs else u).modJob j.m fun j =>
                { j with todo := j.todo.drop 1, body := j.body ++ d }).countSeg
              exec (.loadSegment m (some d)) s = .next
                (if j.todo.length = 1 ∧ sha512 (j.body ++ d) ≠ j.laydig then w.loadFail 7 k else w.loadAdvance))

/-- R289, R293, R294, R299: WLD_CTL. A command while an operation runs sets cause 13, and so does one with no RUNNING image; a STOP
shows STOPPING until every region is IDLE. A SWAP needs a companion that is equal to the image but for the bytes it may change,
and jobs and identifiers that are right; it then shows BARRIER with every REMAIN set to the region's tiles. -/
def Obligations.SwapsAndStopsBeginAtTheirCommand : Prop :=
  ∀ (req : Requester) (resume : Bool) (comp : List Byte) (headers : List (Option (List Byte))) (s : State), s.answers req = true →
    let st := s.fld Rg.WLD_STAT_STATE
    let clear := ((List.range 3).foldl (fun s i => s.wr (Rg.WLD_RDONE i) 0) s).wr Rg.WLD_PROG 0
    let t : State := { clear with loader := { s.loader with job := .none, resume := resume, form := s.weightForm, models := [] } }
    let jobs := t.modelJobs comp t.place (mappedTiles comp t.place) (mappedTiles comp t.place) (t.sourceList headers)
    let u := t.srcRead
    (st ≠ 0 → st ≠ 5 → ∀ i ∈ [Instr.swap req resume (some comp) headers, .stop req resume],
        exec i s = .next (answered req (s.setFld Rg.WLD_STAT_CAUSE 13)))
    ∧ (st = 0 ∨ st = 5 → s.fld Rg.IMG_STAT_STATE ≠ 4 → ∀ i ∈ [Instr.swap req resume (some comp) headers, .stop req resume],
        exec i s = .next (answered req (s.wr Rg.WLD_STAT (5 * 2 ^ 28 + 13))))
    ∧ (st = 0 ∨ st = 5 → s.fld Rg.IMG_STAT_STATE = 4 →
      exec (.stop req resume) s = .next (answered req (State.holdFinish (State.wr { clear with
        loader := { s.loader with job := .stop, resume := if s.loader.broken then s.loader.resume else resume } } Rg.WLD_STAT (4 * 2 ^ 28))))
      ∧ exec (.swap req resume none headers) s = .next (answered req (t.loadFail 8 0))
      ∧ (State.companionEq s.image 0 s.image comp = false → exec (.swap req resume (some comp) headers) s = .next (answered req (t.loadFail 12 0)))
      ∧ (State.companionEq s.image 0 s.image comp = true →
          (∀ c m, jobs = .error (c, m) → exec (.swap req resume (some comp) headers) s = .next (answered req (u.loadFail c m)))
          ∧ (∀ js, jobs = .ok js → u.companionKeeps comp js = false →
              exec (.swap req resume (some comp) headers) s = .next (answered req (u.loadFail 12 0)))
          ∧ (∀ js, jobs = .ok js → u.companionKeeps comp js = true →
              exec (.swap req resume (some comp) headers) s = .next (answered req (u.swapBegin comp js)))))
    ∧ ∀ (t : State) (js : List ModelJob),
        let tiles := (mappedTiles comp t.place).filter fun t => js.any fun j => j.m == t.model
        let u : State := { t with loader :=
          { t.loader with job := .swap, img := comp, place := t.place, models := js, tiles := tiles, prev := none, swapped := [], broken := false } }
        let u := (List.range 96).foldl (fun s r => s.setFld (Rg.SWP_HOLD_REMAIN r) (tiles.filter fun t => t.1 == r).length) u
        t.swapBegin comp js = (u.wr Rg.WLD_STAT (2 * 2 ^ 28)).sendHello

/-- R290, R291: the transfer handshake, message by message. The source answers HELLO with its quote over Nr, and a verified quote
over Ns with the session key, its nonces and the identifier it holds, wrapped and signed; the receiver answers a verified quote with
its own over Ns, and an authentic session key with the request list sealed as segment 2^64 − 1. A failed check ends the session with
an abort message, and the receiver's loader fails with cause 9. That nonces and keys are free values (log 12), and the layout of the
session-key blob (log 55), is the model's choice. -/
def Obligations.TransferHandshakesCheckEachMessage : Prop :=
  ∀ (a b c : List Byte) (s : State),
    let rx := s.rxSession
    let tx := s.txSession
    let n := State.fresh s 256
    let own := n.2.quote a
    exec (.hello a b c) s = .next
      (if Config.chainOk b = true then
        State.emit { own.2 with txSession := { Session.idle with step := 2, nr := a, ns := leBytes 32 n.1, chain := b, wanted := c } }
          (.handshake 2 [own.1, Config.ownChain, leBytes 32 n.1])
       else State.emit { s with txSession := Session.idle } (.handshake 0 []))
    ∧ (tx.step ≠ 2 → rx.step = 1 → exec (.transferQuote a b c) s = .next
        (if Config.chainOk b && quoteOk a b rx.nr s.fuse.archrev then
          State.emit { (s.quote c).2 with rxSession := { rx with step := 3, ns := c, chain := b } } (.handshake 3 [(s.quote c).1] rx.path)
         else s.loadFail 9 rx.model))
    ∧ (tx.step = 2 → rx.step ≠ 1 →
        let k := s.fresh 256
        let n := k.2.fresh 32
        let m := n.2.heldModel tx.wanted
        let id := (Store.get [] n.2.loader.inForce m).take tx.wanted.length
        let blob := Config.oaepSeal (Config.chainModulus tx.chain) (leBytes 32 k.1 ++ leBytes 4 n.1 ++ tx.nr ++ tx.ns ++ id) n.2.free
        let g := State.signMsg { n.2 with free := n.2.free + 1 } blob
        exec (.transferQuote a b c) s = .next
          (if quoteOk a tx.chain tx.ns s.fuse.archrev = true then
            State.emit { g.2 with txSession := { tx with step := 4, model := m, sk := leBytes 32 k.1, snonce := leBytes 4 n.1 } }
              (.handshake 4 [blob, g.1])
           else State.emit { s with txSession := Session.idle } (.handshake 0 [])))
    ∧ (rx.step = 3 →
        let ts := (s.loader.tiles.filter fun t => MappedTile.model t == rx.model).map MappedTile.mtile
        let ts := ascending (ts.foldl Nat.max 0 + 1) ts
        exec (.sessionKey a b) s = .next
          (if Config.pssVerify rx.chain ([0x4C, 0x57, 0x48, 0x53] ++ a) b = true then
            (match Config.oaepOpen a with
             | none => s.loadFail 9 rx.model
             | some k =>
               if bytesAt k 36 32 = rx.nr ∧ bytesAt k 68 32 = rx.ns ∧ k.drop 100 = rx.wanted then
                let x := { rx with step := 5, sk := bytesAt k 0 32, snonce := bytesAt k 32 4, tiles := ts }
                State.emit { s with rxSession := x } (.handshake 5 [sealAs x (2 ^ 64 - 1) (listBytes (tileRuns ts))] rx.path)
               else s.loadFail 9 rx.model)
           else s.loadFail 9 rx.model))

/-- R290, R291, R288: the tiles of a transfer. The source sends the listed tiles as segments of 64, the last padded with zeros, or
an abort for a tile it does not hold; the receiver writes each authentic segment as it comes in order (in a swap, once the regions
it feeds are IDLE), and after the last sends DONE
and forgets the key; a third failed try is cause 5 and a lost path cause 10. DONE and an abort end the session; an abort fails the
receiver's load with cause 9, or 11 for a missing tile. How a list's runs are laid out and that all segments go out at once (log 55),
and that a missing tile is told by an abort of its own and a segment that must wait has no effect (log 56), is the model's choice. -/
def Obligations.TransferSegmentsDeliverTheTiles : Prop :=
  ∀ (d : List Byte) (j : ModelJob) (missing : Bool) (s : State),
    let rx := s.rxSession
    let tx := s.txSession
    (tx.step = 4 → exec (.requestList d) s = .next
      (match openAs tx (2 ^ 64 - 1) d with
       | none => State.emit { s with txSession := Session.idle } (.handshake 0 [])
       | some b =>
         let ts := listTiles b.length b
         let held := ts.map (s.holdsTile (mappedTiles s.image s.place) tx.model)
         if held.any Option.isNone then State.emit { s with txSession := Session.idle } (.handshake 0 [[11]])
         else
          let tiles := held.filterMap fun e => e.map fun e => s.tileBytes e.1 e.2.1 e.2.2
          (List.range (ceilDiv ts.length 64)).foldl (fun s k => s.emit (.handshake 6 [leBytes 8 k,
            sealAs tx k (padTo 1048576 ((tiles.drop (64 * k)).take 64).flatten)])) { s with txSession := { tx with step := 6, tiles := ts } }))
    ∧ (rx.step = 5 →
        exec (.transferSegment none) s = .next (s.loadFail 10 rx.next)
        ∧ ((s.loader.models.find? fun j => j.m == rx.model) = some j →
          let part := (rx.tiles.drop (64 * rx.next)).take 64
          let v := if s.loader.job = .swap then s.setFld Rg.WLD_STAT_STATE 3 else s
          (s.partWaits part = true → exec (.transferSegment (some d)) s = .next s)
          ∧ (s.partWaits part = false → exec (.transferSegment (some d)) s = .next
            (match openAs rx rx.next d with
             | none =>
               let n := Store.get 0 j.tries rx.next + 1
               if n < 3 then v.modJob j.m fun j => { j with tries := Store.put j.tries rx.next n } else v.loadFail 5 rx.next
             | some pt =>
               let t := v.writeSegment rx.model pt fun t => part.findIdx? fun u => u == MappedTile.mtile t
               let t := t.modJob rx.model fun j => { j with todo := j.todo.erase rx.next }
               if rx.next + 1 < ceilDiv rx.tiles.length 64 then { t with rxSession := { rx with next := rx.next + 1 } }
               else
                let t := t.emit (.handshake 7 [sealAs rx (2 ^ 64 - 2) []] rx.path)
                State.loadAdvance { t with rxSession := Session.idle }))))
    ∧ (tx.step = 6 → exec (.transferDone d) s = .next
        (if (openAs tx (2 ^ 64 - 2) d).isSome then { s with txSession := Session.idle }
         else State.emit { s with txSession := Session.idle } (.handshake 0 [])))
    ∧ (rx.step ≠ 0 → exec (.transferAbort missing) s =
        .next (State.loadFail { s with rxSession := Session.idle } (if missing then 11 else 9) rx.model))
    ∧ (rx.step = 0 → exec (.transferAbort missing) s = .next { s with txSession := Session.idle })

/-- R305 to R307, R310: training. Setting EN trains a port that was off and RETRAIN one that was on, which leaves its link; DETECT
with a signal goes to EQUALISE, or to LOCK on a fast retrain within its 5 ms; LOCK sends 16 capability words and EXCHANGE, whose
words are repeated, goes to CHECK once 16 identical copies have come if the two sides agree; CHECK with every lane of the deal good
makes the port UP with its version, lanes and FEC mode, else the port goes back to EQUALISE, as it does past a phase's limit or a fast
retrain's; a port with nothing to agree on, or whose three passes are spent, becomes FAILED. A port that no signal can reach stays in
DETECT (R482). That the two sides agree on the lower domain version (log 49), how many capability words EXCHANGE sends (log 50), and that
RETRAIN counts no loss (log 54), is the model's choice. -/
def Obligations.PortsTrainPhaseByPhase : Prop :=
  ∀ (p : Fin 32) (s : State),
    let x := s.port p
    let failed (t : State) := (t.modPort p fun y => { y with phase := .none }).setFld (Rg.VYB_STAT_STATE p) 3
    let again := if 3 ≤ x.passes then failed s
      else s.modPort p fun y => { y with phase := .equalise, since := s.time.cb, copies := 0, passes := y.passes + 1, fast := false }
    let spent := x.began + 5000 * 1500 < s.time.cb
    (∀ (req : Requester) (v : Word), s.answers req = true → v.toNat.testBit 31 = true →
      let t := s.wr (Rg.VYB_CTL p) (v.toNat &&& 0xBE000000)
      (s.flag (Rg.VYB_CTL_EN p) = false → exec (.portEn req p v) s = .next (answered req (t.train p false)))
      ∧ (s.flag (Rg.VYB_CTL_EN p) = true → v.toNat.testBit 30 = true →
          exec (.retrain req p v) s = .next (answered req ((t.portLeave p).train p false))))
    ∧ (x.phase = .detect → s.time.cb < x.since + 15000000 → ∀ b, exec (.detectRetry p b) s = .next s)
    ∧ (x.phase = .detect → x.since + 15000000 ≤ s.time.cb →
        exec (.detectRetry p false) s = .next (s.modPort p fun y => { y with since := s.time.cb })
        ∧ (s.portLit p = true → exec (.detectRetry p true) s = exec (.trainingPhaseComplete p 0 0) s)
        ∧ (s.portLit p = false → exec (.detectRetry p true) s = .next (s.modPort p fun y => { y with since := s.time.cb })))
    ∧ (∀ (lanes : Byte) (dom : BitVec 4),
        (x.phase = .detect → s.portLit p = false → exec (.trainingPhaseComplete p lanes dom) s = .next s)
        ∧ (x.phase = .detect → s.portLit p = true → exec (.trainingPhaseComplete p lanes dom) s = .next
          (if x.fast = true ∧ ¬ spent then s.modPort p fun y => { y with phase := .lock, since := s.time.cb, copies := 0 } else again))
        ∧ (x.phase = .equalise → exec (.trainingPhaseComplete p lanes dom) s =
            .next (s.modPort p fun y => { y with phase := .lock, since := s.time.cb, copies := 0 }))
        ∧ (x.phase = .lock → exec (.trainingPhaseComplete p lanes dom) s = .next ((List.range 16).foldl (fun t _ => t.sendCap p)
            ((s.modPort p fun y => { y with lanes := lanes.toNat }).modPort p fun y =>
              { y with phase := .exchange, since := s.time.cb, copies := 0, peer := [] })))
        ∧ (x.phase = .exchange → x.copies < 16 → exec (.trainingPhaseComplete p lanes dom) s = .next s)
        ∧ (x.phase = .exchange → 16 ≤ x.copies → s.agreed p dom.toNat = none →
            exec (.trainingPhaseComplete p lanes dom) s = .next (failed s))
        ∧ (∀ d, x.phase = .exchange → 16 ≤ x.copies → s.agreed p dom.toNat = some d →
            exec (.trainingPhaseComplete p lanes dom) s = .next ((s.modPort p fun y => { y with deal := d }).modPort p fun y =>
              { y with phase := .check, since := s.time.cb, copies := 0 }))
        ∧ (x.phase = .check → exec (.trainingPhaseComplete p lanes dom) s =
            .next (if lanes.toNat &&& x.deal.2.1 = x.deal.2.1 then s.portEnter p x.deal.1 x.deal.2.1 x.deal.2.2 else again)))
    ∧ (∀ us, (x.phase, us) ∈ [(Phase.equalise, 60000), (.lock, 20000), (.exchange, 1000), (.check, 2000)] →
        exec (.trainingPhaseLimit p) s =
          .next (if x.since + us * 1500 < s.time.cb ∨ (x.fast = true ∧ spent) then again else s))
    ∧ (∀ f fec, s.flag (Rg.VYB_CTL_LOOP p) = false → flitOk f = true → byteAt f 0 % 16 = 3 →
        let u := s.fecSeen p fec
        u.portUp p = false → (u.port p).phase = .exchange →
        let w := bytesAt f 8 64
        exec (.trainingFlit p f fec) s = .next ((u.modPort p fun y =>
          if y.peer = w then { y with copies := y.copies + 1 } else { y with peer := w, copies := 1 }).sendCap p))
    ∧ ∀ v mask fec,
        let t := s.modPort p fun y => { y with phase := .none, rxNext := 0, txNext := 0, replay := [], run := 3, ctl := []
                                               rxWords := [], freedD := 0, freedC := 0, peerD := 0, peerC := 0, sentD := 0
                                               sentC := 0, nak := false, nakDue := false, told := (0, 0, 0) }
        let t := ((t.setFld (Rg.VYB_STAT_STATE p) 2).setFld (Rg.VYB_STAT_VER p) v).setFld (Rg.VYB_STAT_LANES p) (popcount 8 mask)
        s.portEnter p v mask fec = (((t.setFld (Rg.VYB_STAT_FEC p) fec).takePeer p).peerCheck p).portRun p

/-- R302 to R304, R309 to R311: a flit of the peer at a port that is UP; near-end loopback cuts the peer off, and the codewords
that carried the flit are counted. One whose CRC fails is counted and answered with a NAK; a numbered one in sequence is
accepted and its beat or its packet words are taken, and the port sends what it now can, an acknowledgement among it; one out
of sequence is answered with one NAK, which the next flit that goes out carries. A training flit brings the peer's capability word. A port
that loses its link goes DOWN, is counted, has its queues fenced if an image runs, and trains again; a transfer whose path has no other
port UP fails with cause 10 (R288). That codewords are counted by the flit's row (log 51), and when an idle flit goes out (log 52), is
the model's choice. -/
def Obligations.FlitsAreTakenInOrder : Prop :=
  ∀ (p : Fin 32) (f : List Byte) (flip : BitVec 1096) (fec : Nat × Nat) (lost : Option (BitVec 16)) (s : State),
    let all := [Instr.linkDataFlit p f flip fec, .linkControlFlit p f fec lost, .idleFlit p f fec, .trainingFlit p f fec]
    let v := s.fecSeen p fec
    let ask (t : State) : State := t.modPort p fun x => { x with nak := true, nakDue := true }
    let nak (t : State) : State := if (t.port p).nak then t else ask t
    let rows : List (Nat × Instr × (State → State)) :=
      [(1, .linkDataFlit p f flip fec, fun t => t.inbound p (bytesAt f 8 128) flip),
       (2, .linkControlFlit p f fec lost, fun t => t.ctlWords p (bytesAt f 8 128) lost)]
    (s.flag (Rg.VYB_CTL_LOOP p) = true → ∀ i ∈ all, exec i s = .next s)
    ∧ (s.power.on = true → v.rd (Rg.VYB_FEC_CE p) = Nat.min (s.rd (Rg.VYB_FEC_CE p) + fec.1) 0xFFFFFFFF
        ∧ v.rd (Rg.VYB_FEC_UE p) = Nat.min (s.rd (Rg.VYB_FEC_UE p) + fec.2) 0xFFFFFFFF)
    ∧ (s.flag (Rg.VYB_CTL_LOOP p) = false → v.portUp p = true →
      (flitOk f = false → ∀ i ∈ all, exec i s = .next ((ask (v.count (Rg.VYB_CRC p) 1)).portRun p))
      ∧ (flitOk f = true →
        let u := v.takeCredits p f
        (u.portUp p = true →
          (∀ k i take, (k, i, take) ∈ rows → bits (byteAt f 0) 3 0 = k →
            let a := u.modPort p fun x => { x with rxNext := (x.rxNext + 1) % 4096, nak := false }
            exec i s = .next ((if bits (fieldAt f 1 2) 11 0 = (u.port p).rxNext then take a else nak u).portRun p))
          ∧ (bits (byteAt f 0) 3 0 = 3 → exec (.trainingFlit p f fec) s =
              .next ((((u.modPort p fun x => { x with peer := bytesAt f 8 64 }).takePeer p).peerCheck p).portRun p)))
        ∧ (bits (byteAt f 0) 3 0 = 0 → exec (.idleFlit p f fec) s = .next (u.portRun p))))
    ∧ (s.portUp p = true → ∀ i ∈ [Instr.linkLoss p, .peerSilent p],
        let t := (s.count (Rg.VYB_LOSS p) 1).pathLost p
        let t := if t.fld Rg.IMG_STAT_STATE = 4 then t.fencePort p else t
        let t := ((t.setFld (Rg.VYB_STAT_VER p) 0).setFld (Rg.VYB_STAT_LANES p) 0).setFld (Rg.VYB_STAT_FEC p) 0
        exec i s = .next ((t.setFld (Rg.VYB_PEER_MATCH p) 0).train p (decide (2 ≤ s.fld (Rg.VYB_STAT_VER p)))))
    ∧ (let x := s.rxSession
      let path := (List.range x.path.2).map fun i => x.path.1 + i
      s.pathLost p = if x.step ≠ 0 ∧ p.val ∈ path ∧ (∀ q ∈ path, q = p.val ∨ s.portUp q = false) then
          State.loadFail { s with rxSession := Session.idle } 10 (if x.step = 5 then x.next else x.model)
        else s)
    ∧ ∀ (type seq : Nat) (pay : List Byte), s.flag (Rg.VYB_CTL_LOOP p) = false →
        let x := s.port p
        s.sendFlit p type seq pay = (s.modPort p fun x => { x with told := (x.freedD, x.freedC, x.rxNext), nakDue := false }).emit
          (.flit p (flitBytes type seq ((x.rxNext + 4095) % 4096) x.freedD x.freedC x.nakDue pay))

/-- R322, R323, R320: a relay packet with hops left goes on by the edge's lowest-numbered port UP, X before Y. At its destination CRD
and CWR access a control register and answer with CRSP; HRD, HWR and IRQ act at the active bridge and are answered with status 3 at any
other module; a CRSP carries the data flit that its NDATA says; an HRD or an IRQ of a sender that is no member is discarded with an
entry; HRDD and CRSP complete their request. A packet reaches its port only over powered, unfenced regions (R174). Which status answers
an HRD that cannot be served, and which HWR and IRQ have no effect (log 87), and how the entry names the packet (log 88), is the
model's choice. -/
def Obligations.RelayPacketsGoOnOrAreServed : Prop :=
  ∀ (hdr addr : DWord) (data : List DWord) (v : Word) (host : List Byte) (s : State), s.power.on = true →
    let h := RelayHdr.ofNat hdr.toNat
    let flits := if bits hdr.toNat 26 24 = 0 then [] else [BitVec.ofNat 64 v.toNat]
    (∀ side h' p, h.hop = some (side, h') → s.edgePort side = some p →
      ∀ i ds, (i, ds) ∈ [(Instr.hrd hdr addr none, []), (.hrdd hdr addr data, data), (.hwr hdr addr data, data), (.crd hdr addr, []),
          (.cwr hdr addr v, [BitVec.ofNat 64 v.toNat]), (.crsp hdr addr v, flits), (.irq hdr addr, [])] →
        exec i s = .next (s.portSend p ⟨0xB, 0x8000, 0x8000, 0, 0, h'.flit ds.length :: addr :: ds, false⟩))
    ∧ (∀ p k, (s.portReach p = true → s.portSend p k = (s.modPort p fun x => { x with ctl := x.ctl ++ k.words }).portRun p)
        ∧ (s.portReach p = false → s.portSend p k = s))
    ∧ (h.hop = none →
      let a := bits addr.toNat 47 0
      let rd := s.sentRead false 0x8000 (State.relayReq h) a
      let wr := s.sentWrite false 0x8000 (State.relayReq h) a v none
      let k := h.len % 256
      exec (.crd hdr addr) s =
        .next (rd.2.2.relayReply (h.reply 6 rd.1 4) addr (if rd.1 = 0 then [BitVec.ofNat 64 rd.2.1] else []))
      ∧ exec (.cwr hdr addr v) s = .next (wr.2.relayReply (h.reply 6 wr.1 4) addr [])
      ∧ exec (.hrdd hdr addr data) s = .next (s.relayResponse h data)
      ∧ exec (.crsp hdr addr v) s = .next (s.relayResponse h flits)
      ∧ (s.flag Rg.HB_CFG_ACTIVE = false →
          exec (.hrd hdr addr (some host)) s = .next (s.relayReply (h.reply 2 3 0) addr [])
          ∧ exec (.hwr hdr addr data) s = .next (s.relayReply (h.reply 6 3 0) addr [])
          ∧ exec (.irq hdr addr) s = .next (s.relayReply (h.reply 6 3 0) addr []))
      ∧ (s.flag Rg.HB_CFG_ACTIVE = true → s.relaySender h = none →
          exec (.hrd hdr addr (some host)) s = .next (s.logEdge 0x403 0x8000 0xB 5)
          ∧ exec (.irq hdr addr) s = .next (s.logEdge 0x403 0x8000 0xB 5))
      ∧ (∀ m, s.flag Rg.HB_CFG_ACTIVE = true → s.fld Rg.HB_CFG_RATE ≠ 0 → s.relaySender h = some m →
          (1 ≤ h.len → h.len ≤ 4096 →
            exec (.hrd hdr addr (some host)) s = .next (s.sendHrdd h addr.toNat 86 (padTo h.len (host.take h.len)))
            ∧ exec (.hrd hdr addr none) s = .next (s.relayReply (h.reply 2 1 0) addr []))
          ∧ (h.len ≤ 48 → exec (.hwr hdr addr data) s = .next (s.emit (.hostWrite addr.toNat ((ofWords data).take h.len))))
          ∧ (k < 64 → exec (.irq hdr addr) s = .next (s.emit (.msix k)))
          ∧ (64 ≤ k → k < 68 → exec (.irq hdr addr) s = .next (s.emit (.msix (64 + 4 * m + (k - 64)))))))

/-- R170, R173, R318, R319, R321: accesses from the sideband and from the host. An RD or a WR at its destination is answered by RSP
with its status and the request's ORD, or not at all where nothing answers; one with an uncorrectable flit is lost. The host reads control addresses through BAR0 and through an open window of BAR2,
here or by relay; a closed window reads as zero, a window to a member that does not exist and a bus error complete with Completer
Abort, and a malformed request with Unsupported Request or, for a write, an AER report. That a failed read's RSP carries a free data
flit (log 81), how the host's accesses and their failures appear (log 86), and the source and ORD of an RSP (log 88), is the model's
choice. -/
def Obligations.RequestersAndTheHostAreAnswered : Prop :=
  ∀ (src : BitVec 16) (ord : Bool) (tag : Byte) (req : Requester) (a : BitVec 48) (v : Word) (s : State),
    let rd := s.sentRead ord src.toNat req a.toNat
    let wr := s.sentWrite ord src.toNat req a.toNat v none
    let host := s.sentRead false 0x8000 .host a.toNat
    let rsp (st : Nat) (pay : List DWord) : Output := .packet ⟨3, src.toNat, s.answerNode a.toNat, tag.toNat, st * 256, pay, ord⟩
    (s.power.on = true → req ≠ .host →
      (rd.1 = 0 → exec (.rd src tag req a ord none) s =
        .next (rd.2.2.emit (rsp 0 [BitVec.ofNat 64 rd.2.1])))
      ∧ (rd.1 = 1 → exec (.rd src tag req a ord none) s =
        .next ((rd.2.2.fresh 32).2.emit (rsp 1 [BitVec.ofNat 64 (rd.2.2.fresh 32).1])))
      ∧ (rd.1 = 2 → exec (.rd src tag req a ord none) s = .next rd.2.2)
      ∧ exec (.wr src tag req a v ord none) s = .next
          (if wr.1 = 2 then wr.2 else wr.2.emit (rsp wr.1 [])))
    ∧ (s.power.on = true → ∀ node : BitVec 16,
      (req ≠ .host → exec (.rd src tag req a ord (some node)) s = .next (s.flitLost node.toNat 1))
      ∧ exec (.wr src tag req a v ord (some node)) s = .next (s.flitLost node.toNat 2))
    ∧ (s.hostUp = true → a.toNat % 4 ≠ 0 → exec (.rd src tag .host a ord none) s = .next (s.emit (.hostDone 2 none))
      ∧ exec (.wr src tag .host a v ord none) s = .next (s.emit (.hostDone 3 none)))
    ∧ (s.hostUp = true → a.toNat % 4 = 0 → a.toNat < 0x10000000 →
      exec (.rd src tag .host a ord none) s = .next
        (host.2.2.emit (if host.1 = 0 then .hostDone 0 (some (BitVec.ofNat 32 host.2.1)) else .hostDone 1 none))
      ∧ exec (.wr src tag .host a v ord none) s = .next (s.sentWrite false 0x8000 .host a.toNat v none).2)
    ∧ (s.hostUp = true → a.toNat % 4 = 0 → a.toNat.testBit 47 = true →
      (s.hostWindow (a.toNat % 2 ^ 32) = none → exec (.rd src tag .host a ord none) s = .next (s.emit (.hostDone 0 (some 0)))
        ∧ exec (.wr src tag .host a v ord none) s = .next s)
      ∧ ∀ m b, s.hostWindow (a.toNat % 2 ^ 32) = some (m, b) →
          (s.flag (Rg.HB_MEMBER_EN m) = false → exec (.rd src tag .host a ord none) s = .next (s.emit (.hostDone 1 none))
            ∧ exec (.wr src tag .host a v ord none) s = .next s)
          ∧ (s.flag (Rg.HB_MEMBER_EN m) = true → s.memberRoute m ≠ (0, 0) →
            exec (.rd src tag .host a ord none) s = .next (s.hostRelay m 4 b [])
            ∧ exec (.wr src tag .host a v ord none) s = .next (s.hostRelay m 5 b [BitVec.ofNat 64 v.toNat]))
          ∧ (s.flag (Rg.HB_MEMBER_EN m) = true → s.memberRoute m = (0, 0) →
            exec (.rd src tag .host a ord none) s = .next (s.hostReadHere b)
            ∧ exec (.wr src tag .host a v ord none) s = .next (s.sentWrite false 0x8000 .host b v none).2))
    ∧ (∀ (w : Bool) (x : DWord) (n : Nat), s.hostUp = true → (n ≠ 4 ∨ x.toNat % 4 ≠ 0) →
        exec (.hostMalformedRequest w x n) s = .next (s.emit (.hostDone (if w then 3 else 2) none)))
    ∧ (∀ (rate : BitVec 4) (width : BitVec 5), s.power.on = true → s.flag Rg.HB_CFG_ACTIVE = true →
        exec (.hostLinkTrained rate width) s = .next ((s.setFld Rg.HB_CFG_RATE rate.toNat).setFld Rg.HB_CFG_WIDTH width.toNat)
        ∧ exec .hostLinkLost s = .next ((s.setFld Rg.HB_CFG_RATE 0).setFld Rg.HB_CFG_WIDTH 0))

/-- R335, R336, R338, R343 to R345: the regulators of a region that is ON. Every 10 µs the setpoint goes up 5 mV under too little
slack (never above 850), or TCAP down at 850 mV, down 5 mV after 10 calm samples, and TCAP up after 10,000 cool ones; the override holds the setpoint.
A bad sense point is marked and logged, and a stretched period counted. A short latches the region off with record 0x0220: the first
one for a retry 100 ms later, in which the region stays in RETRY until it is ON, a later one for good, fenced with cause 2. That the steps
of P3 which wait for neighbours go on at the commands that can let them, and when a fresh report of P3 is made after P3, is the model's
choice (log 131). -/
def Obligations.RegionsFollowTheirSupply : Prop :=
  ∀ (r : Fin 96) (s : State),
    (s.powered r = true →
      (∀ (a b c d : Byte) (ro : BitVec 16),
        let x := [a.toNat, b.toNat, c.toNat, d.toNat].foldl Nat.min 255
        let t := (s.wr (Rg.REPSLACK r) (leNat [a, b, c, d])).setFld (Rg.RMON_COUNT r) ro.toNat
        let v := t.fld (Rg.RPWR_VSET_MV r)
        let g := t.region r
        let hold (m : Nat) (u : State) : State := if t.flag (Rg.RPWR_VSET_OVR r) then u else u.setVset r m
        let calm (n : Nat) : State := t.setRegion r { g with calm := n }
        let u :=
          if x < 8 then
            if v < 850 then hold (Nat.min 850 (v + 5)) (calm 0)
            else if 1 < (calm 0).fld (Rg.CLKCAP_TCAP r) then
              (calm 0).setFld (Rg.CLKCAP_TCAP r) ((calm 0).fld (Rg.CLKCAP_TCAP r) - 1)
            else calm 0
          else if 24 < x then if 10 ≤ g.calm + 1 then hold (Nat.max (v - 5) 600) (calm 0) else calm (g.calm + 1)
          else calm 0
        let cool (n : Nat) : State := u.setRegion r { u.region r with cool := n }
        exec (.avsTick r a b c d ro) s = .next (State.tcapHeld
          (if u.fld (Rg.RPWR_VSET_MV r) ≤ 830 ∧ u.fld (Rg.CLKCAP_TCAP r) < 64 then
            if 10000 ≤ (u.region r).cool + 1 then (cool 0).setFld (Rg.CLKCAP_TCAP r) (u.fld (Rg.CLKCAP_TCAP r) + 1)
            else cool ((u.region r).cool + 1)
           else cool 0) r))
      ∧ (∀ (p : Fin 4) (mv : BitVec 10), (s.fld (Rg.RPWR_STAT_SENSE r)).testBit p = true →
          exec (.senseInvalid r p mv) s = .next (State.tcapHeld
            (((s.setFld (Rg.RPWR_STAT_SENSE r) (s.fld (Rg.RPWR_STAT_SENSE r) - 2 ^ p.val)).logPower r 0x408 p 0 mv.toNat).vcoreFollow
              r) r))
      ∧ (∀ firing, exec (.droop r firing) s = .next
          (if firing = true ∨ (s.region r).droop = true then
            (s.modRegion r fun g => { g with droop := firing }).count (Rg.DROOP_CNT r) 1
           else s)))
    ∧ (∀ (cause : Fin 4) (peak : BitVec 12),
        let st := s.fld (Rg.RPWR_STAT_STATE r)
        let last := ((s.regionOff r 6).shortRecord r (cause + 1) peak.toNat 1).yieldFence r 2
        let off := (s.regionOff r 4).shortRecord r (cause + 1) peak.toNat 0
        let done (z : State) : State :=
          if 3 < z.bring.stage then z.report 3 0 0 z.ns ((List.range 96).flatMap z.p3Record) else z.p3Go
        (st ∉ [1, 2, 3, 5] → exec (.regionShort r cause peak) s = .next s)
        ∧ (st ∈ [1, 2, 3, 5] → (s.region r).retried = false → exec (.regionShort r cause peak) s =
            .next (off.modRegion r fun g => { g with retryAt := off.time.cb + 150000000 }))
        ∧ (st ∈ [1, 2, 3, 5] → (s.region r).retried = true → exec (.regionShort r cause peak) s =
            .next (done (if st = 5 then last.logPower r 0x40C 1 0 0 else last))))
    ∧ (∀ find : RegionBist, find.r = r → s.power.on = true → s.power.down = none → s.mayRamp r = true → (s.fld (Rg.RPWR_STAT_STATE r) = 5 ∨
          (s.fld (Rg.RPWR_STAT_STATE r) = 4 ∧ (s.region r).retried = false ∧ (s.region r).retryAt ≤ s.time.cb)) →
        let t := ((s.modRegion r fun g => { g with retried := true }).setFld (Rg.RPWR_STAT_STATE r) 5).rampRegion 5 find
        let u := t.logPower r 0x40C 0 0 0
        let v := if t.powered r then (if find.locks then u.tryLock r else u).p3Region find else t
        exec (.shortRetry find) s = .next
          (if v.fencedOff r = true ∧ 3 < v.bring.stage then v.report 3 0 0 v.ns ((List.range 96).flatMap v.p3Record) else v.p3Go))

/-- R332, R333, R339, R341, R376, R377, R482: the module's power. PWR_EN powers up a module that is off and has been for 1 s, with the
input in range: the time base starts at zero, the lateral rails come up one after the other, and with the last of them PGOOD rises
and the P0 report is written. PWR_EN falling, its command of the firmware, the input out of range and a rail fault begin a
power-down, with PGOOD low and every region that is ON halted; one that runs is not restarted. Below 10.0 V all content but the fuses goes at once.
VCAB of a connector is on while an active cable is mated, VSD is in regulation and the connector is not latched; a removed cable, or 3.5 A for 1 ms, switches it
off, and the ports of its segment find no signal. When readings and steps of a power-down take effect is the model's choice (logs 6, 64, 65),
and so is what an interrupted P0 keeps and an entry about VAUX or VEDGE makes (log 132). -/
def Obligations.ModulePowerFollowsItsInput : Prop :=
  ∀ (s : State),
    (∀ (vin vaux vedge vsd075 vsd12 : BitVec 16) (rails : Fin 5), s.power.on = false → s.power.down = none →
      let s' : State := if s.power.began = true then s else { s with power := { s.power with began := true }, time := ⟨s.time.cb, 0⟩ }
      let up : State := { s' with power := { s'.power with rails := s'.power.rails.join (Rails.upTo rails) } }
      let u := (List.range 4).foldl (fun s g => s.vcabStep g s.power.rails.vsd) up
      (vin.toNat < 11400 ∨ 12600 < vin.toNat ∨ (∃ t, s.power.offAt = some t ∧ s.time.cb < t + 1500000000) →
          exec (.powerUp vin vaux vedge vsd075 vsd12 rails) s = .next s)
      ∧ (11400 ≤ vin.toNat → vin.toNat ≤ 12600 → (∀ t, s.power.offAt = some t → t + 1500000000 ≤ s.time.cb) →
          (rails.val < 4 → exec (.powerUp vin vaux vedge vsd075 vsd12 rails) s = .next u)
          ∧ (rails.val = 4 →
            let t : State := { u with power := { u.power with on := true, pgood := true }, cmem := []
                                      mg := { u.mg with pgoodAt := some u.time.cb } }
            let t := (t.emit (.pgood true)).setFld Rg.PM_IN_VIN vin.toNat
            let t := t.startPorts
            exec (.powerUp vin vaux vedge vsd075 vsd12 rails) s = .next ((t.report 0 0 0 0 (leBytes 2 vin.toNat ++ leBytes 2 vaux.toNat
              ++ leBytes 2 vedge.toNat ++ leBytes 2 vsd075.toNat ++ leBytes 2 vsd12.toNat ++ leBytes 4 t.power.rails.vstk
              ++ leBytes 4 (t.rd Rg.HB_CFG) ++ leBytes 46 0)).enterStage 1))))
    ∧ (let low := if s.power.pgood then ({ s with power := { s.power with pgood := false } } : State).emit (.pgood false) else s
      let falls := [Instr.pwrEnFall false, .pwrEnFall true, .inputUndervoltage, .inputOvervoltage]
      (s.power.began = false → ∀ i ∈ falls, exec i s = .next s)
      ∧ (s.power.down ≠ none → ∀ i ∈ falls, exec i s = .next s)
      ∧ (s.power.began = true → s.power.down = none → ∀ i ∈ falls,
        exec i s = .next { low.haltAll with power := { low.haltAll.power with down := some ⟨none, some low.haltAll.time.cb, 0⟩ } })
      ∧ (∀ (rail : Fin 4) (stack : Fin 24), s.power.rails.has rail stack = false → exec (.railFault rail stack) s = .next s)
      ∧ (∀ (rail : Fin 4) (stack : Fin 24), s.power.rails.has rail stack = true →
          let u : State := { s with power := { s.power with rails := s.power.rails.without rail stack } }
          let v := (List.range 4).foldl (fun s g => s.vcabStep g s.power.rails.vsd) u
          exec (.railFault rail stack) s = .next (v.logEdge 0x409 (rail + 1) (if rail.val = 3 then stack else 0) 0).powerDown)
      ∧ (s.power.began = false → exec .inputCollapse s = .next s)
      ∧ (s.power.began = true →
          let u : State := { low with power := { low.power with rails := Rails.off } }
          exec .inputCollapse s = .next (State.offState ((List.range 4).foldl (fun s g => s.vcabStep g s.power.rails.vsd) u))))
    ∧ (s.offState.regs = [] ∧ s.offState.cmem = [] ∧ s.offState.dram = [] ∧ s.offState.image = [] ∧ s.offState.regions = []
        ∧ s.offState.fuse = s.fuse ∧ s.offState.power.on = false)
    ∧ ∀ (g : Fin 4) (active : Bool),
      let c := s.cable g
      let mated := s.setCable g { c with mated := true, active := active }
      let removed := s.setCable g { c with mated := false, active := false }
      let on := active && s.power.rails.vsd && !c.latched
      exec (.cableMated g active) s = .next
        (if on = c.on then mated
         else (mated.setCable g { c with mated := true, active := active, on := on }).emit (.vcab g on))
      ∧ exec (.cableRemoved g) s = .next
        (if c.on = false then removed.segmentDark g
         else ((removed.setCable g { c with mated := false, active := false, on := false }).emit (.vcab g false)).segmentDark g)
      ∧ (c.on = true → exec (.vcabOvercurrent g) s = .next (State.segmentDark
          (((s.setCable g { c with latched := true }).setCable g { c with latched := true, on := false }).emit (.vcab g false)) g))

/-- R347 to R350: references. The entry uses the preferred input while it is valid, else the other, else holdover. A region that loses
the input it uses takes the one of lowest depth among those left, and counts it, or makes a clean hold: depth 31, halted with record
0x0221. An input that becomes valid and is enabled lets a region that holds relock, with a depth one more than the input's; one in use that
changes its depth changes the region's. A region whose depth changes tells its neighbours, and they theirs. When depths spread, and that
the steps of P3 go on at a relock, is the model's choice (logs 67, 131, 132). -/
def Obligations.ClocksFollowValidReferences : Prop :=
  ∀ (b : Bool) (r : Fin 96) (side : Side) (s : State),
    let n := b.toNat
    let valid := s.fld Rg.REF_STAT_VALID
    let k := inputCode side
    let mask := s.fld (Rg.CLKSRC_VALID r)
    (∀ t : State,
      let p := t.fld Rg.REF_CTL_PREF
      t.refSelect = t.setFld Rg.REF_STAT_STATE
        (if (t.fld Rg.REF_STAT_VALID).testBit p then p else if (t.fld Rg.REF_STAT_VALID).testBit (1 - p) then 1 - p else 2))
    ∧ (valid.testBit n = true →
        let t := s.setFld Rg.REF_STAT_VALID (valid - 2 ^ n)
        exec (.refLost b) s = .next (if t.fld Rg.REF_STAT_STATE = n then t.refSelect else t))
    ∧ (valid.testBit n = false →
        let t := s.setFld Rg.REF_STAT_VALID (valid + 2 ^ n)
        exec (.refValid b) s = .next
          (if t.fld Rg.REF_STAT_STATE = 2 ∨ (t.flag Rg.REF_CTL_REVERT = true ∧ t.fld Rg.REF_CTL_PREF = n) then t.refSelect else t))
    ∧ (s.powered r = true →
      (mask.testBit k = true →
        let t := (s.setFld (Rg.CLKSRC_VALID r) (mask - 2 ^ k)).modRegion r fun g => { g with depths := g.depths.set k 31 }
        (s.inputInUse r k = false → exec (.regionRefLost r side) s =
            .next (if t.fld (Rg.CLKSRC_STATE r) = 2 ∧ t.inputPick r 31 = none then
                (t.setFld (Rg.CLKSRC_STATE r) 1).modRegion r fun g => { g with holdAt := t.time.cb }
              else t))
        ∧ (s.inputInUse r k = true →
          (∀ j, t.inputPick r (t.fld (Rg.CLKSRC_DEPTH r)) = some j →
            exec (.regionRefLost r side) s = .next (((t.inputUse r j).count (Rg.REFSW_CNT r) 1).depthChanged r))
          ∧ (t.inputPick r (t.fld (Rg.CLKSRC_DEPTH r)) = none →
            let u := ((t.setFld (Rg.CLKSRC_STATE r) 1).setFld (Rg.CLKSRC_DEPTH r) 31).modRegion r fun g => { g with holdAt := t.time.cb }
            exec (.regionRefLost r side) s = .next (State.depthChanged (u.raise r
              { code := 0x221, detail := t.fld (Rg.CLKSRC_SEL r) * 256 + t.fld (Rg.CLKSRC_DEPTH r)
                aux := if u.fld Rg.REF_STAT_STATE = 2 then 1 else 0 }) r))))
      ∧ (∀ d : BitVec 5, d.toNat < 31 →
          let t := s.modRegion r fun g => { g with depths := g.depths.set k d.toNat }
          let t := if t.inputOk r k then t else t.setFld (Rg.CLKSRC_VALID r) (t.fld (Rg.CLKSRC_VALID r) + 2 ^ k)
          exec (.regionInputValid r side d) s =
            .next (if t.fld (Rg.CLKSRC_STATE r) = 1 ∧ t.inputOn r k = true then t.setFld (Rg.CLKSRC_STATE r) 2
              else if t.inputInUse r k = true then (t.inputUse r k).depthChanged r else t))
      ∧ (s.clockHold r = true → s.inputOn r k = true → s.inputOk r k = true →
          exec (.regionRelock r side) s = .next (State.depthChanged (((s.setFld (Rg.CLKSRC_STATE r) 0).setFld (Rg.CLKSRC_SEL r) k).setFld
            (Rg.CLKSRC_DEPTH r) (Nat.min 31 ((s.region r).depths.getD k 31 + 1))) r).p3Go))

/-- R330, R353, R355 to R357: EFF moves one step towards the least cap, at most once in 2 µs, and rises only once the setpoint has settled.
ILIM goes down above 300 A and up after 100 samples below 280 A. The power cap lowers PLIM of the fastest consumer above PCAP_EFF and
raises the lowest after 100 samples below 97 % of it; the brake engages once, for an input current above the part's maximum or power
above the cap for 10 ms, and is counted and logged, and releases below the cap. -/
def Obligations.RegionLimitsMoveStepByStep : Prop :=
  ∀ (r : Fin 96) (s : State),
    (s.powered r = true →
      let e := s.eff r
      let t := s.effTarget r
      let move (u : State) (n : Nat) : State :=
        (u.setFld (Rg.CLKTUNE_EFF r) n).modRegion r fun g => { g with effAt := u.time.cb }
      (e = t ∨ s.time.cb < (s.region r).effAt + 3000 → ∀ b, exec (.effStep r b) s = .next s)
      ∧ ((s.region r).effAt + 3000 ≤ s.time.cb →
        (t < e → ∀ b, exec (.effStep r b) s = .next (move s (e - 1)))
        ∧ (e < t →
          let u := if s.flag (Rg.RPWR_VSET_OVR r) = true ∨ s.vinit r (e + 1) ≤ s.fld (Rg.RPWR_VSET_MV r) then s
            else s.setVset r (s.vinit r (e + 1))
          exec (.effStep r true) s = .next (move u (e + 1)) ∧ exec (.effStep r false) s = .next u))
      ∧ (∀ mean,
        let l := s.fld (Rg.CLKTUNE_ILIM r)
        let run (n : Nat) (u : State) : State := u.modRegion r fun g => { g with ilimRun := n }
        exec (.ilimTick r mean) s = .next
          (if 300 < mean then run 0 (s.setFld (Rg.CLKTUNE_ILIM r) (Nat.max 1 (l - 1)))
           else if mean < 280 then
            if 100 ≤ (s.region r).ilimRun + 1 then run 0 (s.setFld (Rg.CLKTUNE_ILIM r) (Nat.min 64 (l + 1)))
            else run ((s.region r).ilimRun + 1) s
           else run 0 s)))
    ∧ (∀ (p : Nat) (iin : BitVec 16) (icore isram : List Nat) (vin : Option (BitVec 16)),
        let s₀ := s
        let s := match vin with | some v => s.setFld Rg.PM_IN_VIN v.toNat | none => s
        let t := (s.setFld Rg.PM_POWER_PIN p).setFld Rg.PM_IN_IIN iin.toNat
        let t := t.wr Rg.PM_CAPSRC t.capSrc
        let t := t.regionsOn.foldl (fun s r => (s.setFld (Rg.RPWR_STAT_ICORE r) (Nat.min 4095 (icore.getD r 0))).setFld
          (Rg.RPWR_MEAS_ISRAM r) (Nat.min 4095 (isram.getD r 0))) t
        let fast := t.regionsOn.filter fun r => decide (8 < t.eff r)
        let put (u : State) (above calm : Nat) : State := { u with power := { u.power with above := above, calm := calm } }
        (t.pcapEff < p → fast = [] → exec (.powerCapTick p icore iin isram vin) s₀ = .next (put t (t.power.above + 1) 0))
        ∧ (∀ q, t.pcapEff < p → fast ≠ [] →
            State.bestBy (fun a b => decide (b ≤ a)) (fun r => t.fld (Rg.RPWR_STAT_ICORE r)) fast = some q →
            exec (.powerCapTick p icore iin isram vin) s₀ = .next (put (t.setFld (Rg.CLKCAP_PLIM q) (t.eff q - 1)) 0 0))
        ∧ (p ≤ t.pcapEff → t.pcapEff * 97 ≤ p * 100 → exec (.powerCapTick p icore iin isram vin) s₀ = .next (put t 0 0))
        ∧ (p ≤ t.pcapEff → p * 100 < t.pcapEff * 97 → t.power.calm < 99 →
            exec (.powerCapTick p icore iin isram vin) s₀ = .next (put t 0 (t.power.calm + 1)))
        ∧ (∀ q, p ≤ t.pcapEff → p * 100 < t.pcapEff * 97 → 99 ≤ t.power.calm →
            State.bestBy (fun a b => decide (a < b)) (fun r => t.fld (Rg.CLKCAP_PLIM r))
              (t.regionsOn.filter fun r => decide (t.fld (Rg.CLKCAP_PLIM r) < 64)) = some q →
            exec (.powerCapTick p icore iin isram vin) s₀ = .next (put (t.setFld (Rg.CLKCAP_PLIM q) (t.fld (Rg.CLKCAP_PLIM q) + 1)) 0 0)))
    ∧ (∀ (power : Bool) (pin iin : BitVec 16), s.power.on = true →
        let u := s.setFld Rg.PM_IN_IIN iin.toNat
        let due := s.power.brake = false ∧ if power = true then 1000 ≤ s.power.above else s.fuse.variant.current < iin.toNat
        (due → exec (.currentBrake power pin iin) s = .next ((State.count { u with power := { u.power with brake := true } }
          Rg.PM_BRAKE_CNT 1).logEdge 0x40B (if power then 2 else 1) 0 pin.toNat))
        ∧ (¬ due → exec (.currentBrake power pin iin) s = .next u))
    ∧ (∀ p, s.power.brake = true → p < s.pcapEff →
        exec (.brakeRelease p) s = .next { s with power := { s.power with brake := false } })

/-- R361 to R373: temperatures. A sample of the plate gives its registers and status bits, and raises ALARM after 20 samples of low flow
or a steep outlet; the cooling cap follows flow, inlet temperature and carried heat. TLIM goes down at 95 °C and up after 100 cool steps;
three hot samples in a row trip a region or a stack, and a trip clears after a cool second. A module with VAUX that receives ALARM drives
it on, powers down, and, once VEDGE is up, records and signals it; it does so once. That a condition holds for a time when its samples span
it is the model's choice (log 62), and so are the means of R362 before there is a sample (log 72). -/
def Obligations.TemperaturesThrottleAndTrip : Prop :=
  ∀ (r : Fin 96) (n : Fin 24) (s : State),
    (s.power.rails.vaux = true →
      (s.power.began = false ∨ s.flag Rg.CP_STAT_ALARM = true ∨ s.fld Rg.MG_CHAIN_PHASE = 2 → exec .alarmReceived s = .next s)
      ∧ (s.power.began = true → s.flag Rg.CP_STAT_ALARM = false → s.fld Rg.MG_CHAIN_PHASE ≠ 2 →
          let t := ((s.setFld Rg.MG_CHAIN_PHASE 2).emit (.chain .alarm)).pgoodLow
          let x := (t.setFld Rg.CP_STAT_ALARM 1).setFld Rg.CP_STAT_ASRC 3
          let f : FaultRec :=
            { code := 0x222, flags := x.recFlags 0 0xFF, aux := x.thermalAux, detail := 5 * 2 ^ 24 + x.fld Rg.CP_TEMP_TOUT }
          let u := (if t.power.rails.vedge = true then (x.record 96 (f.image x.ns)).signal 0x3001 5 else t).haltAll
          let down := u.power.down.elim ⟨some u.time.cb, none, 0⟩ fun d => { d with alarm := some (d.alarm.getD u.time.cb) }
          exec .alarmReceived s = .next { u with power := { u.power with down := some down } }))
    ∧ (s.power.on = true →
      (∀ x : PlateSample,
        let p := State.plateNext s.plate x
        let t := ((State.plateRegs { s with plate := p } x).plateBits p)
        exec (.cpSample x) s = .next (if 20 ≤ t.plate.low then t.alarm 3 else if (50 : Int) < t.outletRise then t.alarm 4 else t)
        ∧ p.low = (if x.flow < 100 then s.plate.low + 1 else 0) ∧ p.flows = x.flow :: s.plate.flows.take 99
        ∧ p.inlets = State.plateIn x :: s.plate.inlets.take 99 ∧ p.outlet = State.plateOut x :: s.plate.outlet.take 100)
      ∧ (∀ (p flow₀ : Nat) (tin₀ tout₀ : Int),
        let n := if s.plate.flows = [] then 1 else s.plate.flows.length
        let flow := if s.plate.flows = [] then flow₀ else s.plate.flows.foldl (· + ·) 0
        let tin : Int := if s.plate.flows = [] then tin₀ else s.plate.inlets.foldl (· + ·) 0
        let tout : Int := if s.plate.flows = [] then tout₀ else (s.plate.outlet.take 100).foldl (· + ·) 0
        let rise := (tout - tin).toNat
        let k := if tin ≤ 3200 * n then 1600 * n else (4800 * n - tin).toNat
        let cap (c : Nat) (u : State) : State := u.setFld Rg.CP_CAP_PCOOL (Nat.min 0xFFFF c)
        ((p < 6000 ∨ rise < 100 * n) → exec (.pcoolTick flow₀ tin₀ tout₀ p) s =
          .next (cap (30 * flow * k / (1600 * n * n)) ((s.setFld Rg.CP_FLOW_FHEAT 0xFFFF).setFld Rg.CP_STAT_FLOWSUS 0)))
        ∧ (6000 ≤ p → 100 * n ≤ rise → exec (.pcoolTick flow₀ tin₀ tout₀ p) s =
          .next (cap (if 1000 * n * n * p < 77 * rise * flow then 30000 * p * k / (77 * rise * 1600) else 30 * flow * k / (1600 * n * n))
            ((s.setFld Rg.CP_FLOW_FHEAT (Nat.min 0xFFFE (1000 * n * p / (77 * rise)))).setFld Rg.CP_STAT_FLOWSUS
              (if 10000 * n * n * p < 616 * rise * flow then 1 else 0)))))
      ∧ (1000 < s.plate.above → exec .coolantOvertemp s =
          .next (State.powerDown (State.coolantEntry { s with plate := { s.plate with above := 0 } })))
      ∧ (s.plate.above ≤ 1000 → exec .coolantOvertemp s = .next s)
      ∧ (∀ (t0 t1 t2 t3 : Nat) (ecc : List (Nat × Nat)),
          let e := s.onDieEcc n ecc
          let runs := e.stackRuns n [t0, t1, t2, t3]
          let x := (e.stackSuspects n runs).stackTemp n [t0, t1, t2, t3]
          exec (.stackThermalSample n t0 t1 t2 t3 ecc) s = .next (x.2.stackAct n x.1 (e.validQuarters n).length runs))
      ∧ (let l := s.fld (Rg.STK_THERM_STLIM n)
         exec (.stlimStep n) s = .next
            (if (s.validQuarters n).length < 2 then s.setFld (Rg.STK_THERM_STLIM n) 16
             else if 680 ≤ s.fld (Rg.STK_THERM_TSTK n) then
              (if 4 < l then s.setFld (Rg.STK_THERM_STLIM n) (Nat.max 4 (l / 2)) else s)
             else if 100 < (s.stackHeat n).cool then s.setFld (Rg.STK_THERM_STLIM n) (Nat.min 64 (2 * l))
             else s))
      ∧ (s.stackHolds n = true → 1000 < (s.stackHeat n).clear → exec (.stackTripClear n) s =
          .next (((s.setFld (Rg.STK_THERM_TTRIP n) 0).setFld (Rg.STK_THERM_STLIM n)
            (if (s.validQuarters n).length < 2 then 16 else 4)).replay)))
    ∧ (s.powered r = true →
      (∀ h0 h1 h2 h3 : HotSpot,
        let temps := [s.spotTemp r 0 h0, s.spotTemp r 1 h1, s.spotTemp r 2 h2, s.spotTemp r 3 h3]
        let thot := temps.foldl Nat.max 0
        let t := (((s.pairSample r 0 h0).pairSample r 1 h1).pairSample r 2 h2).pairSample r 3 h3
        let u := t.regionTemps r thot ([h0.est, h1.est, h2.est, h3.est].foldl Nat.max 0)
        exec (.regionThermalSample r h0 h1 h2 h3) s = .next
          (if 3 ≤ (u.region r).tripRun then
            (u.setFld (Rg.THERM_STAT_TTRIP r) 1).raise r
              { code := 0x222, detail := 2 ^ 24 + temps.findIdx (· == thot) * 2 ^ 16 + thot % 65536, aux := u.thermalAux }
           else u))
      ∧ (let t := s.fld (Rg.THERM_STAT_THOT r)
         let l := s.fld (Rg.CLKCAP_TLIM r)
         let cool (k : Nat) (u : State) : State := u.modRegion r fun g => { g with coolRun := k }
         exec (.tlimStep r) s = .next
          (if 760 ≤ t then cool 0 (s.setFld (Rg.CLKCAP_TLIM r) (Nat.max 1 (l - 1)))
           else if t < 736 then
            if 100 ≤ (s.region r).coolRun + 1 then cool 0 (s.setFld (Rg.CLKCAP_TLIM r) (Nat.min 64 (l + 1)))
            else cool ((s.region r).coolRun + 1) s
           else cool 0 s))
      ∧ (s.tripped r = true → 50000 < (s.region r).clearRun →
          exec (.regionTripClear r) s = .next ((s.setFld (Rg.THERM_STAT_TTRIP r) 0).setFld (Rg.CLKCAP_TLIM r) 32)))

/-- R378 to R395: the stages of bring-up. P1 fetches the firmware image and the retirement list, and once every read
has completed runs the checks of R382; P2 waits for a valid reference; P3 brings up one column at a time, once the one before it is
settled and until none of its regions is left to ramp, and runs the steps of a region once it and the other ends of its crossings are
locked; P4 clears the stacks; P5 waits 300 ms for its ports; P6 takes out what failed its known answers; P7 sets DONE. Each stage ends with
its report. The model's choices in it are those of logs 61, 68, 69, 70, 126 and 131. -/
def Obligations.BringUpTakesItsStages : Prop :=
  ∀ (s : State), s.power.on = true → s.power.down = none →
    let stage := s.bring.stage
    (∀ (req : Requester) (f l : Option (List Byte)), s.answers req = true → stage = 1 →
      (s.fld Rg.BOOT_STAT_STATE = 0 ∨ s.fld Rg.BOOT_STAT_STATE = 4 →
        let t := ((s.setFld Rg.BOOT_STAT_CAUSE 0).setFld Rg.BOOT_STAT_STATE 1).bootSend f
        exec (.bootGo req f l) s = .next (answered req { t with bring := { t.bring with boot := some (f, l) } }))
      ∧ (s.fld Rg.BOOT_STAT_STATE ≠ 0 → s.fld Rg.BOOT_STAT_STATE ≠ 4 → exec (.bootGo req f l) s = .next (answered req s)))
    ∧ (∀ f l : Option (List Byte), stage = 1 → s.bring.boot = some (f, l) →
      let t : State := { s with bring := { s.bring with boot := none } }
      let relay := if t.flag Rg.HB_CFG_ACTIVE then 0 else 1
      let fw := f.getD []
      let rl := l.getD []
      let n := t.fld Rg.BOOT_RL_N_N
      let len := fieldAt fw 12 4
      let body := bytesAt fw 1088 len
      let digest := sha512 (fw.take 576 ++ body)
      let u := (t.cmSetWords (rlBase / 8) (toWords n (rl.take (8 * n)))).cmSetWords 0 (toWords (len / 8) body)
      let b : Bring :=
        { u.bring with fwdig := digest, keyslot := byteAt fw 7, svn := fieldAt fw 8 4, entry := some (fieldAt fw 16 8),
                       rl := (State.parseRl n rl).getD [], seedLate := false }
      let v := ({ u with bring := b } : State).setFld Rg.BOOT_STAT_STATE 3
      let good := padTo 64 digest ++ leBytes 1 (byteAt fw 7) ++ leBytes 1 relay ++ leBytes 2 0 ++ leBytes 4 (fieldAt fw 8 4)
        ++ leBytes 4 len ++ leBytes 4 n ++ leBytes 48 0
      (s.fld Rg.BOOT_STAT_STATE = 1 → s.bootStep =
        if s.bootPath = true ∧ f ≠ none ∧ l ≠ none then s.setFld Rg.BOOT_STAT_STATE 2 else State.bootFail t 1 [] relay)
      ∧ (s.fld Rg.BOOT_STAT_STATE ≠ 1 → s.bootStep =
        if t.bootCause fw rl n = 0 then (v.report 1 0 0 v.bring.start good).enterStage 2
        else t.bootFail (t.bootCause fw rl n) fw relay))
    ∧ (let x := s.p2Body
       (stage = 2 → s.refHeld = true → exec .clockSeed s = .next ((x.2.report 2 0 0 x.2.bring.start x.1).enterStage 3))
       ∧ (stage = 2 → s.refHeld = false → s.bring.seedLate = false → s.bring.stageAt + 1000 * msCb ≤ s.time.cb →
          let t := x.2.report 2 1 1 x.2.bring.start x.1
          exec .clockSeedTimeout s = .next { t with bring := { t.bring with seedLate := true } }))
    ∧ (∀ (x : Fin 12) (finds : List RegionBist), stage = 3 → s.bring.col = x.val → (x.val = 0 ∨ s.columnSettled (x.val - 1) = true) →
        let state (u : State) (r : Nat) : Nat := u.fld (Rg.RPWR_STAT_STATE r)
        let a := s.fresh 16
        let t := (List.range 8).foldl (fun u y => if u.fencedOff (12 * y + x.val) = true then u.listFence (12 * y + x.val) else u) a.2
        let fs := ((List.range 8).map fun y => State.findOf finds (12 * y + x.val) a.1).filter fun f => state t f.r == 0 || state t f.r == 1
        let t := fs.foldl (fun u f => if u.mayRamp f.r = true then u.rampRegion 1 f else u) t
        let lockers := fs.filter RegionBist.locks
        let lock (s : State) (f : RegionBist) : State := if s.powered f.r && !s.locked f.r then s.tryLock f.r else s
        let u := (List.range 8).foldl (fun s _ => lockers.foldl lock s) t
        let v := fs.foldl State.p3Region u
        exec (.regionWavefront x finds) s = .next (State.p3Go
          (if (List.range 8).any (fun y => decide (state v (12 * y + x.val) ≤ 1)) = true then v
           else { v with bring := { v.bring with col := x.val + 1 } })))
    ∧ (∀ (f : RegionBist) (n : Nat), (s.bring.pend.find? fun f => s.p3Ready f.r || s.fencedOff f.r) = some f →
        let t : State := { s with bring := { s.bring with pend := s.bring.pend.filter fun g => g.r != f.r } }
        s.p3Advance (n + 1) = (if t.fencedOff f.r = true then t.listFence f.r else t.p3Steps f).p3Advance n)
    ∧ (∀ r : Fin 96, 3 ≤ stage → stage ≤ 6 → s.powered r = true → s.fld (Rg.CLKSRC_STATE r) = 1 →
        (s.region r).holdAt + 1000 * msCb ≤ s.time.cb → exec (.clockHoldTimeout r) s = .next (s.fenceOff r 3).p3Go)
    ∧ (∀ finds : List StackBist, stage = 4 → ((List.range 24).all fun n => !s.flag (Rg.STK_THERM_TTRIP n)) = true →
        let t := (finds.foldl State.fenceChannels s).dramZero
        let u := t.report 4 0 0 t.bring.start ((List.range 24).flatMap (t.stackRecord finds))
        exec (.stackBringup finds) s = .next ((u.bring.rl.foldl State.retireEntry u).enterStage 5))
    ∧ (stage = 5 →
        let settled := (List.range 32).all fun p =>
          !s.flag (Rg.VYB_CTL_EN p) || s.fld (Rg.VYB_STAT_STATE p) == 2 || s.fld (Rg.VYB_STAT_STATE p) == 3
        (settled = true ∨ s.bring.stageAt + 300 * msCb ≤ s.time.cb → exec .linkStage s = .next
          ((s.report 5 0 0 s.bring.start ((List.range 32).flatMap fun p =>
            leBytes 4 (s.rd (Rg.VYB_STAT p)) ++ leBytes 4 (s.rd (Rg.VYB_PEER p)))).enterStage 6))
        ∧ (settled = false → s.time.cb < s.bring.stageAt + 300 * msCb → exec .linkStage s = .next s))
    ∧ (∀ (failed : List (Fin 8 × Site)) (regions : List (Fin 96)) (results spread : List Byte) (ok : Bool), stage = 6 →
        let drop (s : State) (e : Fin 8 × Site) : State :=
          if e.1.val = 5 ∨ e.1.val = 6 then s.fenceOff e.2.r 4
          else s.setUsable e.2.r (s.fld (Rg.YMAP_CL_USABLE e.2.r) &&& (0xFFFFFFF ^^^ 2 ^ e.2.c.val))
        let t := regions.foldl (fun s (r : Fin 96) => s.fenceOff r 4) (failed.foldl drop s)
        let count (k : Nat) : Nat := (failed.filter fun e => e.1.val == k).length
        let out (r : Fin 96) : Bool := regions.contains r || failed.any fun e => (e.1.val == 5 || e.1.val == 6) && e.2.r == r
        let results := if t.usableCount = 0 then results else Config.kaResults
        let spread := if ok = true then padTo 88 Config.kaSpread else spread
        exec (.knownAnswerRuns failed regions results spread ok) s = .next
          ((t.report 6 (if ok then 0 else 1) (if ok then 0 else 8) t.bring.start
            (padTo 64 (sha512 results) ++ padTo 64 (sha512 spread) ++ ((List.range 8).map count).flatMap (leBytes 2)
              ++ leBytes 2 ((List.finRange 96).filter out).length ++ leBytes 110 0)).enterStage 7))
    ∧ (stage = 7 → s.flag Rg.BU_STAT_DONE = false →
        let o := if s.outspec then 1 else 0
        let t := s.report 7 o 0 s.bring.start
          (leBytes 2 s.usableCount ++ leBytes 1 s.fencedCount ++ leBytes 1 o ++ leBytes 4 (72 * s.usableCount)
            ++ padTo 64 s.ymapDig ++ leBytes 56 0)
        exec .bringupReady s = .next ((t.setBu (setBits (setBits (t.rd Rg.BU_STAT) 26 26 o) 27 27 1)).receive (.event 3)))

/-- R427, R437 to R444, R451: Quivor. A frame that is no request for this module changes nothing; one with the SEQ kept for its
source is answered from what was kept; a READ answers its status and data. A WRITE, also of BOOTCLOSE and QUOTE_GO, has the lowest
status that fails, and one that is accepted is stored and journaled before its answer. The error log notifies again after 10 ms. Which
objects answer BUSY before their source has power is the model's choice (log 74). -/
def Obligations.QuivorRequestsAreServedOnce : Prop :=
  ∀ (f : List Byte) (mac : BitVec 48) (s : State),
    let src := byteAt f 2
    let seq := fieldAt f 4 2
    let idx := fieldAt f 6 2
    let sub := byteAt f 8
    let len := fieldAt f 10 2
    let off := fieldAt f 12 4
    let v := leNat (bytesAt f 16 len)
    let st := s.writeStatus idx sub len v
    let write (i : Instr) : Prop := i = .write f mac ∨ (i = .bootclose f mac ∧ idx = 0x18F0 ∧ sub = 1)
      ∨ (i = .quoteGo f mac ∧ idx = 0x1200 ∧ sub = 3)
    let kept := s.mg.kept.find? fun e => e.1 == src && e.2.1 == seq
    (s.quivorFor 1 f = false → exec (.read f mac) s = .next s)
    ∧ (s.quivorFor 1 f = true →
        (∀ e, kept = some e → exec (.read f mac) s = .next (s.frame mac.toNat 0x88B5 e.2.2))
        ∧ (kept = none →
          let x := s.quivorRead idx sub len off
          let domain := (dictObj idx sub).any fun o => o.size == 0
          exec (.read f mac) s = .next (s.respond mac.toNat src seq idx sub x.1 (if domain then off else 0) x.2)))
    ∧ (∀ i, write i →
        (s.quivorFor 2 f = false → exec i s = .next s)
        ∧ (s.quivorFor 2 f = true →
          (∀ e, kept = some e → exec i s = .next (s.frame mac.toNat 0x88B5 e.2.2))
          ∧ (kept = none → st ≠ 0 → exec i s = .next (s.respond mac.toNat src seq idx sub st 0 []))
          ∧ (kept = none → st = 0 →
              exec i s = .next ((s.writeAccept src mac.toNat seq idx sub v).respond mac.toNat src seq idx sub 0 0 []))))
    ∧ (dictObj idx sub = none → st = 1)
    ∧ (∀ o, dictObj idx sub = some o →
        (o.acc = 0 → st = 2)
        ∧ (o.acc ≠ 0 → len ≠ o.size → st = 3)
        ∧ (o.acc ≠ 0 → len = o.size → s.dictInRange idx sub v = false → st = 4)
        ∧ (o.acc ≠ 0 → len = o.size → s.dictInRange idx sub v = true → s.writeBusy idx sub o = true → st = 5)
        ∧ (o.acc ≠ 0 → len = o.size → s.dictInRange idx sub v = true → s.writeBusy idx sub o = false →
            st = if s.jmode = 1 ∧ s.jhead + 4080 ≤ s.mg.jseq ∧ ¬ (idx = 0x7000 ∧ sub = 3) then 7 else 0))
    ∧ ∀ t, s.mg.elogAt = some t → s.mg.elogDue = true → t + 10 * msCb ≤ s.time.cb →
        let u : State := { s with mg := { s.mg with elogDue := false } }
        exec .notifyTimer s = .next
          (if u.notifies = true then State.notify { u with mg := { u.mg with elogAt := some u.time.cb } } 0x5000 1 else u)

/-- R425 to R430, R434, R435: the chain and the time base. A module without VAUX passes each pattern on unchanged. With VAUX, an ADDRESS token numbers the module and goes on with
one more, and what was kept for requesters is discarded; a TIME pulse goes on and gives the phase; an unknown pattern sets BADPAT. The boot window closes 10 s after PGOOD. gPTP
messages give the seconds; the offset steps the time base at first and beyond 1 ms back, else it is corrected slowly, and 10 s
without messages is holdover. The node number that is not valid, the rounding to seconds and the pace of a correction are the model's
choices (logs 74, 75, 76). -/
def Obligations.TheChainNumbersAndAlignsTheModule : Prop :=
  ∀ (s : State),
    (s.vaux = false → (∀ n : BitVec 6, exec (.addressToken n) s = .next (s.emit (.chain (.token n.toNat))))
      ∧ exec .timePulse s = .next (s.emit (.chain .pulse)) ∧ exec .badpat s = .next (s.emit (.chain .unknown))
      ∧ exec .alarmReceived s = .next (s.emit (.chain .alarm)))
    ∧ (s.vaux = true →
    (∀ n : BitVec 6, s.fld Rg.MG_CHAIN_PHASE ≠ 2 →
      let k := n.toNat
      let valid := decide (1 ≤ k ∧ k ≤ 31)
      let x := if valid then (k, s) else s.fresh 6
      let t := ((x.2.setFld Rg.MG_NODE_VALID (if valid then 1 else 0)).setFld Rg.MG_NODE_OVF (if 32 ≤ k then 1 else 0)).setFld
        Rg.MG_NODE_NODE x.1
      let u : State := { t with mg := { t.mg with kept := [] } }
      exec (.addressToken n) s = .next ((u.emit (.chain (.token (if valid then k + 1 else k)))).setFld Rg.MG_CHAIN_PHASE 1))
    ∧ (s.fld Rg.MG_CHAIN_PHASE = 1 →
        let t := s.emit (.chain .pulse)
        let d := t.dict 0x4010 1 0
        let n := t.fld Rg.MG_NODE_NODE
        (d ≠ 0 → t.flag Rg.MG_NODE_VALID = true → exec .timePulse s = .next
          { t with mg := { t.mg with
              pulse := some ((t.ns : Int) - ((t.ns + 500000000) / 1000000000 * 1000000000 + n * d + (n - 1) * 1000 : Nat)) } })
        ∧ (d = 0 ∨ t.flag Rg.MG_NODE_VALID = false → exec .timePulse s = .next t))
    ∧ (s.fld Rg.MG_CHAIN_PHASE ≠ 2 → exec .badpat s = .next (s.setFld Rg.MG_CHAIN_BADPAT 1))
    ∧ (∀ t, s.mg.pgoodAt = some t → t + 10000 * msCb ≤ s.time.cb → s.flag Rg.MG_CHAIN_BOOTWIN = true →
        let b := s.dict 0x1810 1 0
        let u : State := { s with mg := { s.mg with hostbridge := b } }
        exec .bootWindowTimeout s = .next ((u.setFld Rg.MG_CHAIN_BOOTWIN 0).setFld Rg.HB_CFG_ACTIVE b))
    ∧ (∀ a : Nat, exec (.sync a) s = .next { s with mg := { s.mg with ptp := some ((s.ns : Int) - a) } })
    ∧ (∀ q : BitVec 16, exec (.peerDelayRequest q) s = .next (s.frame 0x0180C200000E 0x88F7 (Config.pdelayResp q.toNat s.ns)))
    ∧ (∀ off st, s.offsetNow = some (off, st) →
        let t := (s.wr Rg.TB_OFS (State.satI32 off)).setFld Rg.TB_STAT_STATE st
        let u : State := { t with mg := { t.mg with ptp := none, pulse := none, alignedAt := some t.time.cb } }
        (s.mg.alignedAt = none ∨ off < -1000000 → exec .offsetTick s = .next (u.stepTime off))
        ∧ (s.mg.alignedAt.isSome = true → -1000000 ≤ off →
            exec .offsetTick s = .next { u with mg := { u.mg with correct := -3 * off } }))
    ∧ (s.offsetNow = none → ∀ t, s.mg.alignedAt = some t →
        exec .offsetTick s = .next (if t + 10000 * msCb ≤ s.time.cb then s.setFld Rg.TB_STAT_STATE 3 else s))
    ∧ (s.mg.ptp = none → s.mg.alignedAt = none → s.offsetNow = none)
    ∧ (∀ o, s.mg.ptp = none → s.mg.pulse = some o → s.mg.alignedAt.isSome = true → s.offsetNow = some (o, 2))
    ∧ (∀ p, s.mg.ptp = some p → s.mg.pulse = none → s.offsetNow = some (p, 1))
    ∧ ∀ o p, s.mg.ptp = some p → s.mg.pulse = some o →
        s.offsetNow = some (o + (p - o + 500000000) / 1000000000 * 1000000000, 2))

/-- One step takes the command at the front of the queue and runs it with the queue's rest; on an empty queue the module's clock advances
by one CBCLK (the model's choice, log 4). -/
def Obligations.StepsRunTheFrontCommand : Prop :=
  (∀ (c : Instr) (rest : List Instr) (s : State), s.pending = c :: rest → step s = exec c { s with pending := rest })
  ∧ (∀ (c : Instr) (s : State), step { s with pending := c :: s.pending } = exec c s)
  ∧ ∀ s : State, s.pending = [] → step s = .next s.tick

/-- R462, R466, R358: at power-up every register takes its Reset value, so that the tunable clocks start at step 64, every queue has its 64
entries, request numbering is off and the boot window is open. A register whose Reset column is Fused or Fused cap reads what the fuses
give: the fuse registers, PM_POWER.CAPEFF and PM_CREDCAP, at power-up and later. Nothing is loaded, nothing is waiting, and the fuses
hold what was fused at manufacture. -/
def Obligations.PowerUpLeavesTheResetValues : Prop :=
  (∀ a : Nat, State.reset.reg a = resetReg a ∧ State.reset.rd a = (resetReg a).toNat)
  ∧ ([Rg.BU_STAT, Rg.IMG_STAT, Rg.ELOG_TAIL, Rg.BOOT_STAT, Rg.FUSE_STAT, Rg.EDGE_CFGIGN, Rg.GP_LAPSE].all fun a =>
      State.reset.rd a == 0) = true
  ∧ State.reset.rd Rg.SEQBASE = 0xFFFFFFFF ∧ State.reset.rd Rg.ADM_RES = 0x80000000 ∧ State.reset.rd Rg.REF_STAT = 0x20000000
  ∧ State.reset.rd Rg.MG_CHAIN = 0x8000000 ∧ State.reset.rd (Rg.CLKTUNE 95) = 0x400040 ∧ State.reset.rd (Rg.CLKCAP 95) = 0x40404040
  ∧ State.reset.rd (Rg.VYB_CTL 31) = 0x9C000000 ∧ State.reset.rd (Rg.STK_THERM 23) = 0x400000
  ∧ (∀ (req : Requester) (s : State),
      (∀ o ∈ State.fuseOffsets, s.busRead req (0x70000 + o) = (0, s.fuseReg o, s))
      ∧ s.busRead req Rg.PM_POWER = (0, setBits (s.rd Rg.PM_POWER) 31 16 (Nat.min s.fuse.pcap (Nat.min s.pcapSet (s.fld Rg.CP_CAP_PCOOL))), s)
      ∧ s.busRead req Rg.PM_CREDCAP =
          (0, (match s.fuse.variant with | .s => 230400000 | .m => 172800000 | .e => 115200000), s))
  ∧ State.reset.pending = [] ∧ State.reset.image = [] ∧ State.reset.power.on = false ∧ FusesFrom Config.fuses.ofPart State.reset

/-- A command changes everything but the queue: what waits behind it still waits. So does what waits while a step of the clock runs.
And every step keeps the memories of the module in canonical form, which they have at power-up. -/
def Obligations.CommandsLeaveTheQueue : Prop :=
  (∀ (c : Instr) (s t : State), exec c s = .next t → t.pending = s.pending)
  ∧ (∀ s : State, s.tick.pending = s.pending)
  ∧ (∀ (c : Instr) (rest : List Instr) (s t : State), s.pending = c :: rest → step s = .next t → t.pending = rest)
  ∧ State.reset.memWf = true
  ∧ ∀ s t : State, s.memWf = true → step s = .next t → t.memWf = true

/-- R466, R467: the fuses never regress. Whatever the module does, from a state that came from fuses `f` by permitted programming, a
programmed owner slot stays programmed and a revoked one revoked, SVNMIN does not fall, and everything else that was fused at
manufacture stays; and what is being programmed is again permitted. -/
def Obligations.FusesNeverRegress : Prop :=
  ∀ (f : Fuses) (s t : State), FusesFrom f s → step s = .next t → FusesFrom f t
end

