-- ==== Sys2Proof/Laws/State.lean ====
section
/-!
SUPPORT. What each named update of the state leaves alone: one lemma for each field and update.
-/
namespace Sys2Proof.Machine.State

@[simp] theorem setReg_pending (s : State) (a : Nat) (v : Word) : (s.setReg a v).pending = s.pending := rfl
@[simp] theorem setReg_sent (s : State) (a : Nat) (v : Word) : (s.setReg a v).sent = s.sent := rfl
@[simp] theorem setReg_free (s : State) (a : Nat) (v : Word) : (s.setReg a v).free = s.free := rfl
@[simp] theorem setReg_time (s : State) (a : Nat) (v : Word) : (s.setReg a v).time = s.time := rfl
@[simp] theorem setReg_fuse (s : State) (a : Nat) (v : Word) : (s.setReg a v).fuse = s.fuse := rfl
@[simp] theorem setReg_regions (s : State) (a : Nat) (v : Word) : (s.setReg a v).regions = s.regions := rfl
@[simp] theorem setReg_clusters (s : State) (a : Nat) (v : Word) : (s.setReg a v).clusters = s.clusters := rfl
@[simp] theorem setReg_queues (s : State) (a : Nat) (v : Word) : (s.setReg a v).queues = s.queues := rfl
@[simp] theorem setReg_image (s : State) (a : Nat) (v : Word) : (s.setReg a v).image = s.image := rfl
@[simp] theorem setReg_cmem (s : State) (a : Nat) (v : Word) : (s.setReg a v).cmem = s.cmem := rfl
@[simp] theorem setReg_dram (s : State) (a : Nat) (v : Word) : (s.setReg a v).dram = s.dram := rfl
@[simp] theorem setReg_salt (s : State) (a : Nat) (v : Word) : (s.setReg a v).salt = s.salt := rfl
@[simp] theorem setReg_inbox (s : State) (a : Nat) (v : Word) : (s.setReg a v).inbox = s.inbox := rfl
@[simp] theorem setReg_lookups (s : State) (a : Nat) (v : Word) : (s.setReg a v).lookups = s.lookups := rfl
@[simp] theorem setReg_recent (s : State) (a : Nat) (v : Word) : (s.setReg a v).recent = s.recent := rfl
@[simp] theorem setReg_waiting (s : State) (a : Nat) (v : Word) : (s.setReg a v).waiting = s.waiting := rfl
@[simp] theorem setReg_serve (s : State) (a : Nat) (v : Word) : (s.setReg a v).serve = s.serve := rfl
@[simp] theorem setReg_loader (s : State) (a : Nat) (v : Word) : (s.setReg a v).loader = s.loader := rfl
@[simp] theorem setReg_mg (s : State) (a : Nat) (v : Word) : (s.setReg a v).mg = s.mg := rfl
@[simp] theorem setReg_armed (s : State) (a : Nat) (v : Word) : (s.setReg a v).armed = s.armed := rfl
@[simp] theorem setReg_ports (s : State) (a : Nat) (v : Word) : (s.setReg a v).ports = s.ports := rfl
@[simp] theorem setReg_bridge (s : State) (a : Nat) (v : Word) : (s.setReg a v).bridge = s.bridge := rfl
@[simp] theorem setReg_gop (s : State) (a : Nat) (v : Word) : (s.setReg a v).gop = s.gop := rfl
@[simp] theorem setReg_power (s : State) (a : Nat) (v : Word) : (s.setReg a v).power = s.power := rfl
@[simp] theorem setReg_plate (s : State) (a : Nat) (v : Word) : (s.setReg a v).plate = s.plate := rfl
@[simp] theorem setReg_heat (s : State) (a : Nat) (v : Word) : (s.setReg a v).heat = s.heat := rfl
@[simp] theorem setReg_bring (s : State) (a : Nat) (v : Word) : (s.setReg a v).bring = s.bring := rfl
@[simp] theorem setReg_crypto (s : State) (a : Nat) (v : Word) : (s.setReg a v).crypto = s.crypto := rfl
@[simp] theorem setReg_held (s : State) (a : Nat) (v : Word) : (s.setReg a v).held = s.held := rfl
@[simp] theorem setReg_blocked (s : State) (a : Nat) (v : Word) : (s.setReg a v).blocked = s.blocked := rfl
@[simp] theorem setReg_rxSession (s : State) (a : Nat) (v : Word) : (s.setReg a v).rxSession = s.rxSession := rfl
@[simp] theorem setReg_txSession (s : State) (a : Nat) (v : Word) : (s.setReg a v).txSession = s.txSession := rfl

@[simp] theorem wr_pending (s : State) (a v : Nat) : (s.wr a v).pending = s.pending := rfl
@[simp] theorem wr_sent (s : State) (a v : Nat) : (s.wr a v).sent = s.sent := rfl
@[simp] theorem wr_free (s : State) (a v : Nat) : (s.wr a v).free = s.free := rfl
@[simp] theorem wr_time (s : State) (a v : Nat) : (s.wr a v).time = s.time := rfl
@[simp] theorem wr_fuse (s : State) (a v : Nat) : (s.wr a v).fuse = s.fuse := rfl
@[simp] theorem wr_regions (s : State) (a v : Nat) : (s.wr a v).regions = s.regions := rfl
@[simp] theorem wr_clusters (s : State) (a v : Nat) : (s.wr a v).clusters = s.clusters := rfl
@[simp] theorem wr_queues (s : State) (a v : Nat) : (s.wr a v).queues = s.queues := rfl
@[simp] theorem wr_image (s : State) (a v : Nat) : (s.wr a v).image = s.image := rfl
@[simp] theorem wr_cmem (s : State) (a v : Nat) : (s.wr a v).cmem = s.cmem := rfl
@[simp] theorem wr_dram (s : State) (a v : Nat) : (s.wr a v).dram = s.dram := rfl
@[simp] theorem wr_salt (s : State) (a v : Nat) : (s.wr a v).salt = s.salt := rfl
@[simp] theorem wr_inbox (s : State) (a v : Nat) : (s.wr a v).inbox = s.inbox := rfl
@[simp] theorem wr_lookups (s : State) (a v : Nat) : (s.wr a v).lookups = s.lookups := rfl
@[simp] theorem wr_recent (s : State) (a v : Nat) : (s.wr a v).recent = s.recent := rfl
@[simp] theorem wr_waiting (s : State) (a v : Nat) : (s.wr a v).waiting = s.waiting := rfl
@[simp] theorem wr_serve (s : State) (a v : Nat) : (s.wr a v).serve = s.serve := rfl
@[simp] theorem wr_loader (s : State) (a v : Nat) : (s.wr a v).loader = s.loader := rfl
@[simp] theorem wr_mg (s : State) (a v : Nat) : (s.wr a v).mg = s.mg := rfl
@[simp] theorem wr_armed (s : State) (a v : Nat) : (s.wr a v).armed = s.armed := rfl
@[simp] theorem wr_ports (s : State) (a v : Nat) : (s.wr a v).ports = s.ports := rfl
@[simp] theorem wr_bridge (s : State) (a v : Nat) : (s.wr a v).bridge = s.bridge := rfl
@[simp] theorem wr_gop (s : State) (a v : Nat) : (s.wr a v).gop = s.gop := rfl
@[simp] theorem wr_power (s : State) (a v : Nat) : (s.wr a v).power = s.power := rfl
@[simp] theorem wr_plate (s : State) (a v : Nat) : (s.wr a v).plate = s.plate := rfl
@[simp] theorem wr_heat (s : State) (a v : Nat) : (s.wr a v).heat = s.heat := rfl
@[simp] theorem wr_bring (s : State) (a v : Nat) : (s.wr a v).bring = s.bring := rfl
@[simp] theorem wr_crypto (s : State) (a v : Nat) : (s.wr a v).crypto = s.crypto := rfl
@[simp] theorem wr_held (s : State) (a v : Nat) : (s.wr a v).held = s.held := rfl
@[simp] theorem wr_blocked (s : State) (a v : Nat) : (s.wr a v).blocked = s.blocked := rfl
@[simp] theorem wr_rxSession (s : State) (a v : Nat) : (s.wr a v).rxSession = s.rxSession := rfl
@[simp] theorem wr_txSession (s : State) (a v : Nat) : (s.wr a v).txSession = s.txSession := rfl

@[simp] theorem setFld_pending (s : State) (f : Fld) (v : Nat) : (s.setFld f v).pending = s.pending := rfl
@[simp] theorem setFld_sent (s : State) (f : Fld) (v : Nat) : (s.setFld f v).sent = s.sent := rfl
@[simp] theorem setFld_free (s : State) (f : Fld) (v : Nat) : (s.setFld f v).free = s.free := rfl
@[simp] theorem setFld_time (s : State) (f : Fld) (v : Nat) : (s.setFld f v).time = s.time := rfl
@[simp] theorem setFld_fuse (s : State) (f : Fld) (v : Nat) : (s.setFld f v).fuse = s.fuse := rfl
@[simp] theorem setFld_regions (s : State) (f : Fld) (v : Nat) : (s.setFld f v).regions = s.regions := rfl
@[simp] theorem setFld_clusters (s : State) (f : Fld) (v : Nat) : (s.setFld f v).clusters = s.clusters := rfl
@[simp] theorem setFld_queues (s : State) (f : Fld) (v : Nat) : (s.setFld f v).queues = s.queues := rfl
@[simp] theorem setFld_image (s : State) (f : Fld) (v : Nat) : (s.setFld f v).image = s.image := rfl
@[simp] theorem setFld_cmem (s : State) (f : Fld) (v : Nat) : (s.setFld f v).cmem = s.cmem := rfl
@[simp] theorem setFld_dram (s : State) (f : Fld) (v : Nat) : (s.setFld f v).dram = s.dram := rfl
@[simp] theorem setFld_salt (s : State) (f : Fld) (v : Nat) : (s.setFld f v).salt = s.salt := rfl
@[simp] theorem setFld_inbox (s : State) (f : Fld) (v : Nat) : (s.setFld f v).inbox = s.inbox := rfl
@[simp] theorem setFld_lookups (s : State) (f : Fld) (v : Nat) : (s.setFld f v).lookups = s.lookups := rfl
@[simp] theorem setFld_recent (s : State) (f : Fld) (v : Nat) : (s.setFld f v).recent = s.recent := rfl
@[simp] theorem setFld_waiting (s : State) (f : Fld) (v : Nat) : (s.setFld f v).waiting = s.waiting := rfl
@[simp] theorem setFld_serve (s : State) (f : Fld) (v : Nat) : (s.setFld f v).serve = s.serve := rfl
@[simp] theorem setFld_loader (s : State) (f : Fld) (v : Nat) : (s.setFld f v).loader = s.loader := rfl
@[simp] theorem setFld_mg (s : State) (f : Fld) (v : Nat) : (s.setFld f v).mg = s.mg := rfl
@[simp] theorem setFld_armed (s : State) (f : Fld) (v : Nat) : (s.setFld f v).armed = s.armed := rfl
@[simp] theorem setFld_ports (s : State) (f : Fld) (v : Nat) : (s.setFld f v).ports = s.ports := rfl
@[simp] theorem setFld_bridge (s : State) (f : Fld) (v : Nat) : (s.setFld f v).bridge = s.bridge := rfl
@[simp] theorem setFld_gop (s : State) (f : Fld) (v : Nat) : (s.setFld f v).gop = s.gop := rfl
@[simp] theorem setFld_power (s : State) (f : Fld) (v : Nat) : (s.setFld f v).power = s.power := rfl
@[simp] theorem setFld_plate (s : State) (f : Fld) (v : Nat) : (s.setFld f v).plate = s.plate := rfl
@[simp] theorem setFld_heat (s : State) (f : Fld) (v : Nat) : (s.setFld f v).heat = s.heat := rfl
@[simp] theorem setFld_bring (s : State) (f : Fld) (v : Nat) : (s.setFld f v).bring = s.bring := rfl
@[simp] theorem setFld_crypto (s : State) (f : Fld) (v : Nat) : (s.setFld f v).crypto = s.crypto := rfl
@[simp] theorem setFld_held (s : State) (f : Fld) (v : Nat) : (s.setFld f v).held = s.held := rfl
@[simp] theorem setFld_blocked (s : State) (f : Fld) (v : Nat) : (s.setFld f v).blocked = s.blocked := rfl
@[simp] theorem setFld_rxSession (s : State) (f : Fld) (v : Nat) : (s.setFld f v).rxSession = s.rxSession := rfl
@[simp] theorem setFld_txSession (s : State) (f : Fld) (v : Nat) : (s.setFld f v).txSession = s.txSession := rfl

@[simp] theorem count_pending (s : State) (a n : Nat) : (s.count a n).pending = s.pending := rfl
@[simp] theorem count_sent (s : State) (a n : Nat) : (s.count a n).sent = s.sent := rfl
@[simp] theorem count_free (s : State) (a n : Nat) : (s.count a n).free = s.free := rfl
@[simp] theorem count_time (s : State) (a n : Nat) : (s.count a n).time = s.time := rfl
@[simp] theorem count_fuse (s : State) (a n : Nat) : (s.count a n).fuse = s.fuse := rfl
@[simp] theorem count_regions (s : State) (a n : Nat) : (s.count a n).regions = s.regions := rfl
@[simp] theorem count_clusters (s : State) (a n : Nat) : (s.count a n).clusters = s.clusters := rfl
@[simp] theorem count_queues (s : State) (a n : Nat) : (s.count a n).queues = s.queues := rfl
@[simp] theorem count_image (s : State) (a n : Nat) : (s.count a n).image = s.image := rfl
@[simp] theorem count_cmem (s : State) (a n : Nat) : (s.count a n).cmem = s.cmem := rfl
@[simp] theorem count_dram (s : State) (a n : Nat) : (s.count a n).dram = s.dram := rfl
@[simp] theorem count_salt (s : State) (a n : Nat) : (s.count a n).salt = s.salt := rfl
@[simp] theorem count_inbox (s : State) (a n : Nat) : (s.count a n).inbox = s.inbox := rfl
@[simp] theorem count_lookups (s : State) (a n : Nat) : (s.count a n).lookups = s.lookups := rfl
@[simp] theorem count_recent (s : State) (a n : Nat) : (s.count a n).recent = s.recent := rfl
@[simp] theorem count_waiting (s : State) (a n : Nat) : (s.count a n).waiting = s.waiting := rfl
@[simp] theorem count_serve (s : State) (a n : Nat) : (s.count a n).serve = s.serve := rfl
@[simp] theorem count_loader (s : State) (a n : Nat) : (s.count a n).loader = s.loader := rfl
@[simp] theorem count_mg (s : State) (a n : Nat) : (s.count a n).mg = s.mg := rfl
@[simp] theorem count_armed (s : State) (a n : Nat) : (s.count a n).armed = s.armed := rfl
@[simp] theorem count_ports (s : State) (a n : Nat) : (s.count a n).ports = s.ports := rfl
@[simp] theorem count_bridge (s : State) (a n : Nat) : (s.count a n).bridge = s.bridge := rfl
@[simp] theorem count_gop (s : State) (a n : Nat) : (s.count a n).gop = s.gop := rfl
@[simp] theorem count_power (s : State) (a n : Nat) : (s.count a n).power = s.power := rfl
@[simp] theorem count_plate (s : State) (a n : Nat) : (s.count a n).plate = s.plate := rfl
@[simp] theorem count_heat (s : State) (a n : Nat) : (s.count a n).heat = s.heat := rfl
@[simp] theorem count_bring (s : State) (a n : Nat) : (s.count a n).bring = s.bring := rfl
@[simp] theorem count_crypto (s : State) (a n : Nat) : (s.count a n).crypto = s.crypto := rfl
@[simp] theorem count_held (s : State) (a n : Nat) : (s.count a n).held = s.held := rfl
@[simp] theorem count_blocked (s : State) (a n : Nat) : (s.count a n).blocked = s.blocked := rfl
@[simp] theorem count_rxSession (s : State) (a n : Nat) : (s.count a n).rxSession = s.rxSession := rfl
@[simp] theorem count_txSession (s : State) (a n : Nat) : (s.count a n).txSession = s.txSession := rfl

@[simp] theorem setRegion_pending (s : State) (r : Nat) (x : Region) : (s.setRegion r x).pending = s.pending := rfl
@[simp] theorem setRegion_sent (s : State) (r : Nat) (x : Region) : (s.setRegion r x).sent = s.sent := rfl
@[simp] theorem setRegion_free (s : State) (r : Nat) (x : Region) : (s.setRegion r x).free = s.free := rfl
@[simp] theorem setRegion_time (s : State) (r : Nat) (x : Region) : (s.setRegion r x).time = s.time := rfl
@[simp] theorem setRegion_fuse (s : State) (r : Nat) (x : Region) : (s.setRegion r x).fuse = s.fuse := rfl
@[simp] theorem setRegion_regs (s : State) (r : Nat) (x : Region) : (s.setRegion r x).regs = s.regs := rfl
@[simp] theorem setRegion_clusters (s : State) (r : Nat) (x : Region) : (s.setRegion r x).clusters = s.clusters := rfl
@[simp] theorem setRegion_queues (s : State) (r : Nat) (x : Region) : (s.setRegion r x).queues = s.queues := rfl
@[simp] theorem setRegion_image (s : State) (r : Nat) (x : Region) : (s.setRegion r x).image = s.image := rfl
@[simp] theorem setRegion_cmem (s : State) (r : Nat) (x : Region) : (s.setRegion r x).cmem = s.cmem := rfl
@[simp] theorem setRegion_dram (s : State) (r : Nat) (x : Region) : (s.setRegion r x).dram = s.dram := rfl
@[simp] theorem setRegion_salt (s : State) (r : Nat) (x : Region) : (s.setRegion r x).salt = s.salt := rfl
@[simp] theorem setRegion_inbox (s : State) (r : Nat) (x : Region) : (s.setRegion r x).inbox = s.inbox := rfl
@[simp] theorem setRegion_lookups (s : State) (r : Nat) (x : Region) : (s.setRegion r x).lookups = s.lookups := rfl
@[simp] theorem setRegion_recent (s : State) (r : Nat) (x : Region) : (s.setRegion r x).recent = s.recent := rfl
@[simp] theorem setRegion_waiting (s : State) (r : Nat) (x : Region) : (s.setRegion r x).waiting = s.waiting := rfl
@[simp] theorem setRegion_serve (s : State) (r : Nat) (x : Region) : (s.setRegion r x).serve = s.serve := rfl
@[simp] theorem setRegion_loader (s : State) (r : Nat) (x : Region) : (s.setRegion r x).loader = s.loader := rfl
@[simp] theorem setRegion_mg (s : State) (r : Nat) (x : Region) : (s.setRegion r x).mg = s.mg := rfl
@[simp] theorem setRegion_armed (s : State) (r : Nat) (x : Region) : (s.setRegion r x).armed = s.armed := rfl
@[simp] theorem setRegion_ports (s : State) (r : Nat) (x : Region) : (s.setRegion r x).ports = s.ports := rfl
@[simp] theorem setRegion_bridge (s : State) (r : Nat) (x : Region) : (s.setRegion r x).bridge = s.bridge := rfl
@[simp] theorem setRegion_gop (s : State) (r : Nat) (x : Region) : (s.setRegion r x).gop = s.gop := rfl
@[simp] theorem setRegion_power (s : State) (r : Nat) (x : Region) : (s.setRegion r x).power = s.power := rfl
@[simp] theorem setRegion_plate (s : State) (r : Nat) (x : Region) : (s.setRegion r x).plate = s.plate := rfl
@[simp] theorem setRegion_heat (s : State) (r : Nat) (x : Region) : (s.setRegion r x).heat = s.heat := rfl
@[simp] theorem setRegion_bring (s : State) (r : Nat) (x : Region) : (s.setRegion r x).bring = s.bring := rfl
@[simp] theorem setRegion_crypto (s : State) (r : Nat) (x : Region) : (s.setRegion r x).crypto = s.crypto := rfl
@[simp] theorem setRegion_held (s : State) (r : Nat) (x : Region) : (s.setRegion r x).held = s.held := rfl
@[simp] theorem setRegion_blocked (s : State) (r : Nat) (x : Region) : (s.setRegion r x).blocked = s.blocked := rfl
@[simp] theorem setRegion_rxSession (s : State) (r : Nat) (x : Region) : (s.setRegion r x).rxSession = s.rxSession := rfl
@[simp] theorem setRegion_txSession (s : State) (r : Nat) (x : Region) : (s.setRegion r x).txSession = s.txSession := rfl

@[simp] theorem modRegion_pending (s : State) (r : Nat) (f : Region → Region) : (s.modRegion r f).pending = s.pending := rfl
@[simp] theorem modRegion_sent (s : State) (r : Nat) (f : Region → Region) : (s.modRegion r f).sent = s.sent := rfl
@[simp] theorem modRegion_free (s : State) (r : Nat) (f : Region → Region) : (s.modRegion r f).free = s.free := rfl
@[simp] theorem modRegion_time (s : State) (r : Nat) (f : Region → Region) : (s.modRegion r f).time = s.time := rfl
@[simp] theorem modRegion_fuse (s : State) (r : Nat) (f : Region → Region) : (s.modRegion r f).fuse = s.fuse := rfl
@[simp] theorem modRegion_regs (s : State) (r : Nat) (f : Region → Region) : (s.modRegion r f).regs = s.regs := rfl
@[simp] theorem modRegion_clusters (s : State) (r : Nat) (f : Region → Region) : (s.modRegion r f).clusters = s.clusters := rfl
@[simp] theorem modRegion_queues (s : State) (r : Nat) (f : Region → Region) : (s.modRegion r f).queues = s.queues := rfl
@[simp] theorem modRegion_image (s : State) (r : Nat) (f : Region → Region) : (s.modRegion r f).image = s.image := rfl
@[simp] theorem modRegion_cmem (s : State) (r : Nat) (f : Region → Region) : (s.modRegion r f).cmem = s.cmem := rfl
@[simp] theorem modRegion_dram (s : State) (r : Nat) (f : Region → Region) : (s.modRegion r f).dram = s.dram := rfl
@[simp] theorem modRegion_salt (s : State) (r : Nat) (f : Region → Region) : (s.modRegion r f).salt = s.salt := rfl
@[simp] theorem modRegion_inbox (s : State) (r : Nat) (f : Region → Region) : (s.modRegion r f).inbox = s.inbox := rfl
@[simp] theorem modRegion_lookups (s : State) (r : Nat) (f : Region → Region) : (s.modRegion r f).lookups = s.lookups := rfl
@[simp] theorem modRegion_recent (s : State) (r : Nat) (f : Region → Region) : (s.modRegion r f).recent = s.recent := rfl
@[simp] theorem modRegion_waiting (s : State) (r : Nat) (f : Region → Region) : (s.modRegion r f).waiting = s.waiting := rfl
@[simp] theorem modRegion_serve (s : State) (r : Nat) (f : Region → Region) : (s.modRegion r f).serve = s.serve := rfl
@[simp] theorem modRegion_loader (s : State) (r : Nat) (f : Region → Region) : (s.modRegion r f).loader = s.loader := rfl
@[simp] theorem modRegion_mg (s : State) (r : Nat) (f : Region → Region) : (s.modRegion r f).mg = s.mg := rfl
@[simp] theorem modRegion_armed (s : State) (r : Nat) (f : Region → Region) : (s.modRegion r f).armed = s.armed := rfl
@[simp] theorem modRegion_ports (s : State) (r : Nat) (f : Region → Region) : (s.modRegion r f).ports = s.ports := rfl
@[simp] theorem modRegion_bridge (s : State) (r : Nat) (f : Region → Region) : (s.modRegion r f).bridge = s.bridge := rfl
@[simp] theorem modRegion_gop (s : State) (r : Nat) (f : Region → Region) : (s.modRegion r f).gop = s.gop := rfl
@[simp] theorem modRegion_power (s : State) (r : Nat) (f : Region → Region) : (s.modRegion r f).power = s.power := rfl
@[simp] theorem modRegion_plate (s : State) (r : Nat) (f : Region → Region) : (s.modRegion r f).plate = s.plate := rfl
@[simp] theorem modRegion_heat (s : State) (r : Nat) (f : Region → Region) : (s.modRegion r f).heat = s.heat := rfl
@[simp] theorem modRegion_bring (s : State) (r : Nat) (f : Region → Region) : (s.modRegion r f).bring = s.bring := rfl
@[simp] theorem modRegion_crypto (s : State) (r : Nat) (f : Region → Region) : (s.modRegion r f).crypto = s.crypto := rfl
@[simp] theorem modRegion_held (s : State) (r : Nat) (f : Region → Region) : (s.modRegion r f).held = s.held := rfl
@[simp] theorem modRegion_blocked (s : State) (r : Nat) (f : Region → Region) : (s.modRegion r f).blocked = s.blocked := rfl
@[simp] theorem modRegion_rxSession (s : State) (r : Nat) (f : Region → Region) : (s.modRegion r f).rxSession = s.rxSession := rfl
@[simp] theorem modRegion_txSession (s : State) (r : Nat) (f : Region → Region) : (s.modRegion r f).txSession = s.txSession := rfl

@[simp] theorem setCluster_pending (s : State) (r c : Nat) (x : Cluster) : (s.setCluster r c x).pending = s.pending := rfl
@[simp] theorem setCluster_sent (s : State) (r c : Nat) (x : Cluster) : (s.setCluster r c x).sent = s.sent := rfl
@[simp] theorem setCluster_free (s : State) (r c : Nat) (x : Cluster) : (s.setCluster r c x).free = s.free := rfl
@[simp] theorem setCluster_time (s : State) (r c : Nat) (x : Cluster) : (s.setCluster r c x).time = s.time := rfl
@[simp] theorem setCluster_fuse (s : State) (r c : Nat) (x : Cluster) : (s.setCluster r c x).fuse = s.fuse := rfl
@[simp] theorem setCluster_regs (s : State) (r c : Nat) (x : Cluster) : (s.setCluster r c x).regs = s.regs := rfl
@[simp] theorem setCluster_regions (s : State) (r c : Nat) (x : Cluster) : (s.setCluster r c x).regions = s.regions := rfl
@[simp] theorem setCluster_queues (s : State) (r c : Nat) (x : Cluster) : (s.setCluster r c x).queues = s.queues := rfl
@[simp] theorem setCluster_image (s : State) (r c : Nat) (x : Cluster) : (s.setCluster r c x).image = s.image := rfl
@[simp] theorem setCluster_cmem (s : State) (r c : Nat) (x : Cluster) : (s.setCluster r c x).cmem = s.cmem := rfl
@[simp] theorem setCluster_dram (s : State) (r c : Nat) (x : Cluster) : (s.setCluster r c x).dram = s.dram := rfl
@[simp] theorem setCluster_salt (s : State) (r c : Nat) (x : Cluster) : (s.setCluster r c x).salt = s.salt := rfl
@[simp] theorem setCluster_inbox (s : State) (r c : Nat) (x : Cluster) : (s.setCluster r c x).inbox = s.inbox := rfl
@[simp] theorem setCluster_lookups (s : State) (r c : Nat) (x : Cluster) : (s.setCluster r c x).lookups = s.lookups := rfl
@[simp] theorem setCluster_recent (s : State) (r c : Nat) (x : Cluster) : (s.setCluster r c x).recent = s.recent := rfl
@[simp] theorem setCluster_waiting (s : State) (r c : Nat) (x : Cluster) : (s.setCluster r c x).waiting = s.waiting := rfl
@[simp] theorem setCluster_serve (s : State) (r c : Nat) (x : Cluster) : (s.setCluster r c x).serve = s.serve := rfl
@[simp] theorem setCluster_loader (s : State) (r c : Nat) (x : Cluster) : (s.setCluster r c x).loader = s.loader := rfl
@[simp] theorem setCluster_mg (s : State) (r c : Nat) (x : Cluster) : (s.setCluster r c x).mg = s.mg := rfl
@[simp] theorem setCluster_armed (s : State) (r c : Nat) (x : Cluster) : (s.setCluster r c x).armed = s.armed := rfl
@[simp] theorem setCluster_ports (s : State) (r c : Nat) (x : Cluster) : (s.setCluster r c x).ports = s.ports := rfl
@[simp] theorem setCluster_bridge (s : State) (r c : Nat) (x : Cluster) : (s.setCluster r c x).bridge = s.bridge := rfl
@[simp] theorem setCluster_gop (s : State) (r c : Nat) (x : Cluster) : (s.setCluster r c x).gop = s.gop := rfl
@[simp] theorem setCluster_power (s : State) (r c : Nat) (x : Cluster) : (s.setCluster r c x).power = s.power := rfl
@[simp] theorem setCluster_plate (s : State) (r c : Nat) (x : Cluster) : (s.setCluster r c x).plate = s.plate := rfl
@[simp] theorem setCluster_heat (s : State) (r c : Nat) (x : Cluster) : (s.setCluster r c x).heat = s.heat := rfl
@[simp] theorem setCluster_bring (s : State) (r c : Nat) (x : Cluster) : (s.setCluster r c x).bring = s.bring := rfl
@[simp] theorem setCluster_crypto (s : State) (r c : Nat) (x : Cluster) : (s.setCluster r c x).crypto = s.crypto := rfl
@[simp] theorem setCluster_held (s : State) (r c : Nat) (x : Cluster) : (s.setCluster r c x).held = s.held := rfl
@[simp] theorem setCluster_blocked (s : State) (r c : Nat) (x : Cluster) : (s.setCluster r c x).blocked = s.blocked := rfl
@[simp] theorem setCluster_rxSession (s : State) (r c : Nat) (x : Cluster) : (s.setCluster r c x).rxSession = s.rxSession := rfl
@[simp] theorem setCluster_txSession (s : State) (r c : Nat) (x : Cluster) : (s.setCluster r c x).txSession = s.txSession := rfl

@[simp] theorem modCluster_pending (s : State) (r c : Nat) (f : Cluster → Cluster) : (s.modCluster r c f).pending = s.pending := rfl
@[simp] theorem modCluster_sent (s : State) (r c : Nat) (f : Cluster → Cluster) : (s.modCluster r c f).sent = s.sent := rfl
@[simp] theorem modCluster_free (s : State) (r c : Nat) (f : Cluster → Cluster) : (s.modCluster r c f).free = s.free := rfl
@[simp] theorem modCluster_time (s : State) (r c : Nat) (f : Cluster → Cluster) : (s.modCluster r c f).time = s.time := rfl
@[simp] theorem modCluster_fuse (s : State) (r c : Nat) (f : Cluster → Cluster) : (s.modCluster r c f).fuse = s.fuse := rfl
@[simp] theorem modCluster_regs (s : State) (r c : Nat) (f : Cluster → Cluster) : (s.modCluster r c f).regs = s.regs := rfl
@[simp] theorem modCluster_regions (s : State) (r c : Nat) (f : Cluster → Cluster) : (s.modCluster r c f).regions = s.regions := rfl
@[simp] theorem modCluster_queues (s : State) (r c : Nat) (f : Cluster → Cluster) : (s.modCluster r c f).queues = s.queues := rfl
@[simp] theorem modCluster_image (s : State) (r c : Nat) (f : Cluster → Cluster) : (s.modCluster r c f).image = s.image := rfl
@[simp] theorem modCluster_cmem (s : State) (r c : Nat) (f : Cluster → Cluster) : (s.modCluster r c f).cmem = s.cmem := rfl
@[simp] theorem modCluster_dram (s : State) (r c : Nat) (f : Cluster → Cluster) : (s.modCluster r c f).dram = s.dram := rfl
@[simp] theorem modCluster_salt (s : State) (r c : Nat) (f : Cluster → Cluster) : (s.modCluster r c f).salt = s.salt := rfl
@[simp] theorem modCluster_inbox (s : State) (r c : Nat) (f : Cluster → Cluster) : (s.modCluster r c f).inbox = s.inbox := rfl
@[simp] theorem modCluster_lookups (s : State) (r c : Nat) (f : Cluster → Cluster) : (s.modCluster r c f).lookups = s.lookups := rfl
@[simp] theorem modCluster_recent (s : State) (r c : Nat) (f : Cluster → Cluster) : (s.modCluster r c f).recent = s.recent := rfl
@[simp] theorem modCluster_waiting (s : State) (r c : Nat) (f : Cluster → Cluster) : (s.modCluster r c f).waiting = s.waiting := rfl
@[simp] theorem modCluster_serve (s : State) (r c : Nat) (f : Cluster → Cluster) : (s.modCluster r c f).serve = s.serve := rfl
@[simp] theorem modCluster_loader (s : State) (r c : Nat) (f : Cluster → Cluster) : (s.modCluster r c f).loader = s.loader := rfl
@[simp] theorem modCluster_mg (s : State) (r c : Nat) (f : Cluster → Cluster) : (s.modCluster r c f).mg = s.mg := rfl
@[simp] theorem modCluster_armed (s : State) (r c : Nat) (f : Cluster → Cluster) : (s.modCluster r c f).armed = s.armed := rfl
@[simp] theorem modCluster_ports (s : State) (r c : Nat) (f : Cluster → Cluster) : (s.modCluster r c f).ports = s.ports := rfl
@[simp] theorem modCluster_bridge (s : State) (r c : Nat) (f : Cluster → Cluster) : (s.modCluster r c f).bridge = s.bridge := rfl
@[simp] theorem modCluster_gop (s : State) (r c : Nat) (f : Cluster → Cluster) : (s.modCluster r c f).gop = s.gop := rfl
@[simp] theorem modCluster_power (s : State) (r c : Nat) (f : Cluster → Cluster) : (s.modCluster r c f).power = s.power := rfl
@[simp] theorem modCluster_plate (s : State) (r c : Nat) (f : Cluster → Cluster) : (s.modCluster r c f).plate = s.plate := rfl
@[simp] theorem modCluster_heat (s : State) (r c : Nat) (f : Cluster → Cluster) : (s.modCluster r c f).heat = s.heat := rfl
@[simp] theorem modCluster_bring (s : State) (r c : Nat) (f : Cluster → Cluster) : (s.modCluster r c f).bring = s.bring := rfl
@[simp] theorem modCluster_crypto (s : State) (r c : Nat) (f : Cluster → Cluster) : (s.modCluster r c f).crypto = s.crypto := rfl
@[simp] theorem modCluster_held (s : State) (r c : Nat) (f : Cluster → Cluster) : (s.modCluster r c f).held = s.held := rfl
@[simp] theorem modCluster_blocked (s : State) (r c : Nat) (f : Cluster → Cluster) : (s.modCluster r c f).blocked = s.blocked := rfl
@[simp] theorem modCluster_rxSession (s : State) (r c : Nat) (f : Cluster → Cluster) : (s.modCluster r c f).rxSession = s.rxSession := rfl
@[simp] theorem modCluster_txSession (s : State) (r c : Nat) (f : Cluster → Cluster) : (s.modCluster r c f).txSession = s.txSession := rfl

@[simp] theorem setQueue_pending (s : State) (k : Nat) (x : Queue) : (s.setQueue k x).pending = s.pending := rfl
@[simp] theorem setQueue_sent (s : State) (k : Nat) (x : Queue) : (s.setQueue k x).sent = s.sent := rfl
@[simp] theorem setQueue_free (s : State) (k : Nat) (x : Queue) : (s.setQueue k x).free = s.free := rfl
@[simp] theorem setQueue_time (s : State) (k : Nat) (x : Queue) : (s.setQueue k x).time = s.time := rfl
@[simp] theorem setQueue_fuse (s : State) (k : Nat) (x : Queue) : (s.setQueue k x).fuse = s.fuse := rfl
@[simp] theorem setQueue_regs (s : State) (k : Nat) (x : Queue) : (s.setQueue k x).regs = s.regs := rfl
@[simp] theorem setQueue_regions (s : State) (k : Nat) (x : Queue) : (s.setQueue k x).regions = s.regions := rfl
@[simp] theorem setQueue_clusters (s : State) (k : Nat) (x : Queue) : (s.setQueue k x).clusters = s.clusters := rfl
@[simp] theorem setQueue_image (s : State) (k : Nat) (x : Queue) : (s.setQueue k x).image = s.image := rfl
@[simp] theorem setQueue_cmem (s : State) (k : Nat) (x : Queue) : (s.setQueue k x).cmem = s.cmem := rfl
@[simp] theorem setQueue_dram (s : State) (k : Nat) (x : Queue) : (s.setQueue k x).dram = s.dram := rfl
@[simp] theorem setQueue_salt (s : State) (k : Nat) (x : Queue) : (s.setQueue k x).salt = s.salt := rfl
@[simp] theorem setQueue_inbox (s : State) (k : Nat) (x : Queue) : (s.setQueue k x).inbox = s.inbox := rfl
@[simp] theorem setQueue_lookups (s : State) (k : Nat) (x : Queue) : (s.setQueue k x).lookups = s.lookups := rfl
@[simp] theorem setQueue_recent (s : State) (k : Nat) (x : Queue) : (s.setQueue k x).recent = s.recent := rfl
@[simp] theorem setQueue_waiting (s : State) (k : Nat) (x : Queue) : (s.setQueue k x).waiting = s.waiting := rfl
@[simp] theorem setQueue_serve (s : State) (k : Nat) (x : Queue) : (s.setQueue k x).serve = s.serve := rfl
@[simp] theorem setQueue_loader (s : State) (k : Nat) (x : Queue) : (s.setQueue k x).loader = s.loader := rfl
@[simp] theorem setQueue_mg (s : State) (k : Nat) (x : Queue) : (s.setQueue k x).mg = s.mg := rfl
@[simp] theorem setQueue_armed (s : State) (k : Nat) (x : Queue) : (s.setQueue k x).armed = s.armed := rfl
@[simp] theorem setQueue_ports (s : State) (k : Nat) (x : Queue) : (s.setQueue k x).ports = s.ports := rfl
@[simp] theorem setQueue_bridge (s : State) (k : Nat) (x : Queue) : (s.setQueue k x).bridge = s.bridge := rfl
@[simp] theorem setQueue_gop (s : State) (k : Nat) (x : Queue) : (s.setQueue k x).gop = s.gop := rfl
@[simp] theorem setQueue_power (s : State) (k : Nat) (x : Queue) : (s.setQueue k x).power = s.power := rfl
@[simp] theorem setQueue_plate (s : State) (k : Nat) (x : Queue) : (s.setQueue k x).plate = s.plate := rfl
@[simp] theorem setQueue_heat (s : State) (k : Nat) (x : Queue) : (s.setQueue k x).heat = s.heat := rfl
@[simp] theorem setQueue_bring (s : State) (k : Nat) (x : Queue) : (s.setQueue k x).bring = s.bring := rfl
@[simp] theorem setQueue_crypto (s : State) (k : Nat) (x : Queue) : (s.setQueue k x).crypto = s.crypto := rfl
@[simp] theorem setQueue_held (s : State) (k : Nat) (x : Queue) : (s.setQueue k x).held = s.held := rfl
@[simp] theorem setQueue_blocked (s : State) (k : Nat) (x : Queue) : (s.setQueue k x).blocked = s.blocked := rfl
@[simp] theorem setQueue_rxSession (s : State) (k : Nat) (x : Queue) : (s.setQueue k x).rxSession = s.rxSession := rfl
@[simp] theorem setQueue_txSession (s : State) (k : Nat) (x : Queue) : (s.setQueue k x).txSession = s.txSession := rfl

@[simp] theorem emit_pending (s : State) (o : Output) : (s.emit o).pending = s.pending := rfl
@[simp] theorem emit_free (s : State) (o : Output) : (s.emit o).free = s.free := rfl
@[simp] theorem emit_time (s : State) (o : Output) : (s.emit o).time = s.time := rfl
@[simp] theorem emit_fuse (s : State) (o : Output) : (s.emit o).fuse = s.fuse := rfl
@[simp] theorem emit_regs (s : State) (o : Output) : (s.emit o).regs = s.regs := rfl
@[simp] theorem emit_regions (s : State) (o : Output) : (s.emit o).regions = s.regions := rfl
@[simp] theorem emit_clusters (s : State) (o : Output) : (s.emit o).clusters = s.clusters := rfl
@[simp] theorem emit_queues (s : State) (o : Output) : (s.emit o).queues = s.queues := rfl
@[simp] theorem emit_image (s : State) (o : Output) : (s.emit o).image = s.image := rfl
@[simp] theorem emit_cmem (s : State) (o : Output) : (s.emit o).cmem = s.cmem := rfl
@[simp] theorem emit_dram (s : State) (o : Output) : (s.emit o).dram = s.dram := rfl
@[simp] theorem emit_salt (s : State) (o : Output) : (s.emit o).salt = s.salt := rfl
@[simp] theorem emit_inbox (s : State) (o : Output) : (s.emit o).inbox = s.inbox := rfl
@[simp] theorem emit_lookups (s : State) (o : Output) : (s.emit o).lookups = s.lookups := rfl
@[simp] theorem emit_recent (s : State) (o : Output) : (s.emit o).recent = s.recent := rfl
@[simp] theorem emit_waiting (s : State) (o : Output) : (s.emit o).waiting = s.waiting := rfl
@[simp] theorem emit_serve (s : State) (o : Output) : (s.emit o).serve = s.serve := rfl
@[simp] theorem emit_loader (s : State) (o : Output) : (s.emit o).loader = s.loader := rfl
@[simp] theorem emit_mg (s : State) (o : Output) : (s.emit o).mg = s.mg := rfl
@[simp] theorem emit_armed (s : State) (o : Output) : (s.emit o).armed = s.armed := rfl
@[simp] theorem emit_ports (s : State) (o : Output) : (s.emit o).ports = s.ports := rfl
@[simp] theorem emit_bridge (s : State) (o : Output) : (s.emit o).bridge = s.bridge := rfl
@[simp] theorem emit_gop (s : State) (o : Output) : (s.emit o).gop = s.gop := rfl
@[simp] theorem emit_power (s : State) (o : Output) : (s.emit o).power = s.power := rfl
@[simp] theorem emit_plate (s : State) (o : Output) : (s.emit o).plate = s.plate := rfl
@[simp] theorem emit_heat (s : State) (o : Output) : (s.emit o).heat = s.heat := rfl
@[simp] theorem emit_bring (s : State) (o : Output) : (s.emit o).bring = s.bring := rfl
@[simp] theorem emit_crypto (s : State) (o : Output) : (s.emit o).crypto = s.crypto := rfl
@[simp] theorem emit_held (s : State) (o : Output) : (s.emit o).held = s.held := rfl
@[simp] theorem emit_blocked (s : State) (o : Output) : (s.emit o).blocked = s.blocked := rfl
@[simp] theorem emit_rxSession (s : State) (o : Output) : (s.emit o).rxSession = s.rxSession := rfl
@[simp] theorem emit_txSession (s : State) (o : Output) : (s.emit o).txSession = s.txSession := rfl

@[simp] theorem packet_pending (s : State) (type dest src tag arg : Nat) (pay : List DWord) : (s.packet type dest src tag arg pay).pending = s.pending := rfl
@[simp] theorem packet_free (s : State) (type dest src tag arg : Nat) (pay : List DWord) : (s.packet type dest src tag arg pay).free = s.free := rfl
@[simp] theorem packet_time (s : State) (type dest src tag arg : Nat) (pay : List DWord) : (s.packet type dest src tag arg pay).time = s.time := rfl
@[simp] theorem packet_fuse (s : State) (type dest src tag arg : Nat) (pay : List DWord) : (s.packet type dest src tag arg pay).fuse = s.fuse := rfl
@[simp] theorem packet_regs (s : State) (type dest src tag arg : Nat) (pay : List DWord) : (s.packet type dest src tag arg pay).regs = s.regs := rfl
@[simp] theorem packet_regions (s : State) (type dest src tag arg : Nat) (pay : List DWord) : (s.packet type dest src tag arg pay).regions = s.regions := rfl
@[simp] theorem packet_clusters (s : State) (type dest src tag arg : Nat) (pay : List DWord) : (s.packet type dest src tag arg pay).clusters = s.clusters := rfl
@[simp] theorem packet_queues (s : State) (type dest src tag arg : Nat) (pay : List DWord) : (s.packet type dest src tag arg pay).queues = s.queues := rfl
@[simp] theorem packet_image (s : State) (type dest src tag arg : Nat) (pay : List DWord) : (s.packet type dest src tag arg pay).image = s.image := rfl
@[simp] theorem packet_cmem (s : State) (type dest src tag arg : Nat) (pay : List DWord) : (s.packet type dest src tag arg pay).cmem = s.cmem := rfl
@[simp] theorem packet_dram (s : State) (type dest src tag arg : Nat) (pay : List DWord) : (s.packet type dest src tag arg pay).dram = s.dram := rfl
@[simp] theorem packet_salt (s : State) (type dest src tag arg : Nat) (pay : List DWord) : (s.packet type dest src tag arg pay).salt = s.salt := rfl
@[simp] theorem packet_inbox (s : State) (type dest src tag arg : Nat) (pay : List DWord) : (s.packet type dest src tag arg pay).inbox = s.inbox := rfl
@[simp] theorem packet_lookups (s : State) (type dest src tag arg : Nat) (pay : List DWord) : (s.packet type dest src tag arg pay).lookups = s.lookups := rfl
@[simp] theorem packet_recent (s : State) (type dest src tag arg : Nat) (pay : List DWord) : (s.packet type dest src tag arg pay).recent = s.recent := rfl
@[simp] theorem packet_waiting (s : State) (type dest src tag arg : Nat) (pay : List DWord) : (s.packet type dest src tag arg pay).waiting = s.waiting := rfl
@[simp] theorem packet_serve (s : State) (type dest src tag arg : Nat) (pay : List DWord) : (s.packet type dest src tag arg pay).serve = s.serve := rfl
@[simp] theorem packet_loader (s : State) (type dest src tag arg : Nat) (pay : List DWord) : (s.packet type dest src tag arg pay).loader = s.loader := rfl
@[simp] theorem packet_mg (s : State) (type dest src tag arg : Nat) (pay : List DWord) : (s.packet type dest src tag arg pay).mg = s.mg := rfl
@[simp] theorem packet_armed (s : State) (type dest src tag arg : Nat) (pay : List DWord) : (s.packet type dest src tag arg pay).armed = s.armed := rfl
@[simp] theorem packet_ports (s : State) (type dest src tag arg : Nat) (pay : List DWord) : (s.packet type dest src tag arg pay).ports = s.ports := rfl
@[simp] theorem packet_bridge (s : State) (type dest src tag arg : Nat) (pay : List DWord) : (s.packet type dest src tag arg pay).bridge = s.bridge := rfl
@[simp] theorem packet_gop (s : State) (type dest src tag arg : Nat) (pay : List DWord) : (s.packet type dest src tag arg pay).gop = s.gop := rfl
@[simp] theorem packet_power (s : State) (type dest src tag arg : Nat) (pay : List DWord) : (s.packet type dest src tag arg pay).power = s.power := rfl
@[simp] theorem packet_plate (s : State) (type dest src tag arg : Nat) (pay : List DWord) : (s.packet type dest src tag arg pay).plate = s.plate := rfl
@[simp] theorem packet_heat (s : State) (type dest src tag arg : Nat) (pay : List DWord) : (s.packet type dest src tag arg pay).heat = s.heat := rfl
@[simp] theorem packet_bring (s : State) (type dest src tag arg : Nat) (pay : List DWord) : (s.packet type dest src tag arg pay).bring = s.bring := rfl
@[simp] theorem packet_crypto (s : State) (type dest src tag arg : Nat) (pay : List DWord) : (s.packet type dest src tag arg pay).crypto = s.crypto := rfl
@[simp] theorem packet_held (s : State) (type dest src tag arg : Nat) (pay : List DWord) : (s.packet type dest src tag arg pay).held = s.held := rfl
@[simp] theorem packet_blocked (s : State) (type dest src tag arg : Nat) (pay : List DWord) : (s.packet type dest src tag arg pay).blocked = s.blocked := rfl
@[simp] theorem packet_rxSession (s : State) (type dest src tag arg : Nat) (pay : List DWord) : (s.packet type dest src tag arg pay).rxSession = s.rxSession := rfl
@[simp] theorem packet_txSession (s : State) (type dest src tag arg : Nat) (pay : List DWord) : (s.packet type dest src tag arg pay).txSession = s.txSession := rfl

@[simp] theorem receive_pending (s : State) (x : Arrival) : (s.receive x).pending = s.pending := rfl
@[simp] theorem receive_sent (s : State) (x : Arrival) : (s.receive x).sent = s.sent := rfl
@[simp] theorem receive_free (s : State) (x : Arrival) : (s.receive x).free = s.free := rfl
@[simp] theorem receive_time (s : State) (x : Arrival) : (s.receive x).time = s.time := rfl
@[simp] theorem receive_fuse (s : State) (x : Arrival) : (s.receive x).fuse = s.fuse := rfl
@[simp] theorem receive_regs (s : State) (x : Arrival) : (s.receive x).regs = s.regs := rfl
@[simp] theorem receive_regions (s : State) (x : Arrival) : (s.receive x).regions = s.regions := rfl
@[simp] theorem receive_clusters (s : State) (x : Arrival) : (s.receive x).clusters = s.clusters := rfl
@[simp] theorem receive_queues (s : State) (x : Arrival) : (s.receive x).queues = s.queues := rfl
@[simp] theorem receive_image (s : State) (x : Arrival) : (s.receive x).image = s.image := rfl
@[simp] theorem receive_cmem (s : State) (x : Arrival) : (s.receive x).cmem = s.cmem := rfl
@[simp] theorem receive_dram (s : State) (x : Arrival) : (s.receive x).dram = s.dram := rfl
@[simp] theorem receive_salt (s : State) (x : Arrival) : (s.receive x).salt = s.salt := rfl
@[simp] theorem receive_lookups (s : State) (x : Arrival) : (s.receive x).lookups = s.lookups := rfl
@[simp] theorem receive_recent (s : State) (x : Arrival) : (s.receive x).recent = s.recent := rfl
@[simp] theorem receive_waiting (s : State) (x : Arrival) : (s.receive x).waiting = s.waiting := rfl
@[simp] theorem receive_serve (s : State) (x : Arrival) : (s.receive x).serve = s.serve := rfl
@[simp] theorem receive_loader (s : State) (x : Arrival) : (s.receive x).loader = s.loader := rfl
@[simp] theorem receive_mg (s : State) (x : Arrival) : (s.receive x).mg = s.mg := rfl
@[simp] theorem receive_armed (s : State) (x : Arrival) : (s.receive x).armed = s.armed := rfl
@[simp] theorem receive_ports (s : State) (x : Arrival) : (s.receive x).ports = s.ports := rfl
@[simp] theorem receive_bridge (s : State) (x : Arrival) : (s.receive x).bridge = s.bridge := rfl
@[simp] theorem receive_gop (s : State) (x : Arrival) : (s.receive x).gop = s.gop := rfl
@[simp] theorem receive_power (s : State) (x : Arrival) : (s.receive x).power = s.power := rfl
@[simp] theorem receive_plate (s : State) (x : Arrival) : (s.receive x).plate = s.plate := rfl
@[simp] theorem receive_heat (s : State) (x : Arrival) : (s.receive x).heat = s.heat := rfl
@[simp] theorem receive_bring (s : State) (x : Arrival) : (s.receive x).bring = s.bring := rfl
@[simp] theorem receive_crypto (s : State) (x : Arrival) : (s.receive x).crypto = s.crypto := rfl
@[simp] theorem receive_held (s : State) (x : Arrival) : (s.receive x).held = s.held := rfl
@[simp] theorem receive_blocked (s : State) (x : Arrival) : (s.receive x).blocked = s.blocked := rfl
@[simp] theorem receive_rxSession (s : State) (x : Arrival) : (s.receive x).rxSession = s.rxSession := rfl
@[simp] theorem receive_txSession (s : State) (x : Arrival) : (s.receive x).txSession = s.txSession := rfl

@[simp] theorem fresh_pending (s : State) (w : Nat) : (s.fresh w).2.pending = s.pending := rfl
@[simp] theorem fresh_sent (s : State) (w : Nat) : (s.fresh w).2.sent = s.sent := rfl
@[simp] theorem fresh_time (s : State) (w : Nat) : (s.fresh w).2.time = s.time := rfl
@[simp] theorem fresh_fuse (s : State) (w : Nat) : (s.fresh w).2.fuse = s.fuse := rfl
@[simp] theorem fresh_regs (s : State) (w : Nat) : (s.fresh w).2.regs = s.regs := rfl
@[simp] theorem fresh_regions (s : State) (w : Nat) : (s.fresh w).2.regions = s.regions := rfl
@[simp] theorem fresh_clusters (s : State) (w : Nat) : (s.fresh w).2.clusters = s.clusters := rfl
@[simp] theorem fresh_queues (s : State) (w : Nat) : (s.fresh w).2.queues = s.queues := rfl
@[simp] theorem fresh_image (s : State) (w : Nat) : (s.fresh w).2.image = s.image := rfl
@[simp] theorem fresh_cmem (s : State) (w : Nat) : (s.fresh w).2.cmem = s.cmem := rfl
@[simp] theorem fresh_dram (s : State) (w : Nat) : (s.fresh w).2.dram = s.dram := rfl
@[simp] theorem fresh_salt (s : State) (w : Nat) : (s.fresh w).2.salt = s.salt := rfl
@[simp] theorem fresh_inbox (s : State) (w : Nat) : (s.fresh w).2.inbox = s.inbox := rfl
@[simp] theorem fresh_lookups (s : State) (w : Nat) : (s.fresh w).2.lookups = s.lookups := rfl
@[simp] theorem fresh_recent (s : State) (w : Nat) : (s.fresh w).2.recent = s.recent := rfl
@[simp] theorem fresh_waiting (s : State) (w : Nat) : (s.fresh w).2.waiting = s.waiting := rfl
@[simp] theorem fresh_serve (s : State) (w : Nat) : (s.fresh w).2.serve = s.serve := rfl
@[simp] theorem fresh_loader (s : State) (w : Nat) : (s.fresh w).2.loader = s.loader := rfl
@[simp] theorem fresh_mg (s : State) (w : Nat) : (s.fresh w).2.mg = s.mg := rfl
@[simp] theorem fresh_armed (s : State) (w : Nat) : (s.fresh w).2.armed = s.armed := rfl
@[simp] theorem fresh_ports (s : State) (w : Nat) : (s.fresh w).2.ports = s.ports := rfl
@[simp] theorem fresh_bridge (s : State) (w : Nat) : (s.fresh w).2.bridge = s.bridge := rfl
@[simp] theorem fresh_gop (s : State) (w : Nat) : (s.fresh w).2.gop = s.gop := rfl
@[simp] theorem fresh_power (s : State) (w : Nat) : (s.fresh w).2.power = s.power := rfl
@[simp] theorem fresh_plate (s : State) (w : Nat) : (s.fresh w).2.plate = s.plate := rfl
@[simp] theorem fresh_heat (s : State) (w : Nat) : (s.fresh w).2.heat = s.heat := rfl
@[simp] theorem fresh_bring (s : State) (w : Nat) : (s.fresh w).2.bring = s.bring := rfl
@[simp] theorem fresh_crypto (s : State) (w : Nat) : (s.fresh w).2.crypto = s.crypto := rfl
@[simp] theorem fresh_held (s : State) (w : Nat) : (s.fresh w).2.held = s.held := rfl
@[simp] theorem fresh_blocked (s : State) (w : Nat) : (s.fresh w).2.blocked = s.blocked := rfl
@[simp] theorem fresh_rxSession (s : State) (w : Nat) : (s.fresh w).2.rxSession = s.rxSession := rfl
@[simp] theorem fresh_txSession (s : State) (w : Nat) : (s.fresh w).2.txSession = s.txSession := rfl

@[simp] theorem fresh_free (s : State) (w : Nat) : (s.fresh w).2.free = s.free + 1 := rfl
@[simp] theorem emit_sent (s : State) (o : Output) : (s.emit o).sent = s.sent ++ [o] := rfl
@[simp] theorem receive_inbox (s : State) (x : Arrival) : (s.receive x).inbox = s.inbox ++ [x] := rfl

end Sys2Proof.Machine.State
end

