-- ==== Sys2Proof/Laws/Store.lean ====
section
/-!
SUPPORT. The laws of sparse memories: what a read gives after a write, and that every operation keeps the canonical form.
-/
namespace Sys2Proof.Store

variable {α : Type}

/-- Every listed address is above `b`. -/
def above (b : Nat) : List (Nat × α) → Bool
  | [] => true
  | (k, _) :: m => decide (b < k) && above b m

theorem get_of_above (d : α) (b : Nat) : ∀ (m : List (Nat × α)) (a : Nat), above b m = true → a ≤ b → get d m a = d
  | [], _, _, _ => rfl
  | (k, v) :: m, a, h, hab => by
    simp only [above, Bool.and_eq_true, decide_eq_true_eq] at h
    have : k ≠ a := by omega
    simp [get, this, get_of_above d b m a h.2 hab]

theorem above_mono {b b' : Nat} (hb : b' ≤ b) : ∀ (m : List (Nat × α)), above b m = true → above b' m = true
  | [], _ => rfl
  | (k, v) :: m, h => by
    simp only [above, Bool.and_eq_true, decide_eq_true_eq] at h ⊢
    exact ⟨by omega, above_mono hb m h.2⟩

/-- The order half of the form, one entry at a time. -/
theorem sorted_cons (k : Nat) (v : α) : ∀ (m : List (Nat × α)), sorted ((k, v) :: m) = (above k m && sorted m)
  | [] => rfl
  | (k', v') :: m => by
    have ih := sorted_cons k' v' m
    simp only [sorted, ih, above]
    by_cases h : k < k'
    · by_cases h' : above k' m = true
      · simp [h, h', above_mono (Nat.le_of_lt h) m h']
      · simp [h, h']
    · simp [h]

/-- The canonical form, one entry at a time. -/
theorem wf_cons [DecidableEq α] (d : α) (k : Nat) (v : α) :
    ∀ (m : List (Nat × α)), wf d ((k, v) :: m) = ((v != d) && above k m && wf d m)
  | [] => by simp [wf, above]
  | (k', v') :: m => by
    have ih := wf_cons d k' v' m
    simp only [wf, ih, above]
    by_cases h : k < k'
    · by_cases h' : above k' m = true
      · simp [h, h', above_mono (Nat.le_of_lt h) m h']
      · simp [h, h']
    · simp [h]

theorem above_erase (b a : Nat) : ∀ (m : List (Nat × α)), above b m = true → above b (erase m a) = true
  | [], _ => rfl
  | (k, v) :: m, h => by
    simp only [above, Bool.and_eq_true, decide_eq_true_eq] at h
    have ih := above_erase b a m h.2
    unfold erase at ih ⊢
    by_cases hk : k = a
    · simp [hk, ih]
    · simp [hk, above, h.1, ih]

theorem above_put (b a : Nat) (v : α) (hb : b < a) : ∀ (m : List (Nat × α)), above b m = true → above b (put m a v) = true
  | [], _ => by simp [put, above, hb]
  | (k, w) :: m, h => by
    simp only [above, Bool.and_eq_true, decide_eq_true_eq] at h
    unfold put
    split
    · simp [above, hb, h.1, h.2]
    · split
      · simp [above, hb, h.2]
      · simp [above, h.1, above_put b a v hb m h.2]

/-- Erasing keeps the canonical form. -/
theorem wf_erase [DecidableEq α] (d : α) (a : Nat) : ∀ (m : List (Nat × α)), wf d m = true → wf d (erase m a) = true
  | [], _ => rfl
  | (k, v) :: m, h => by
    rw [wf_cons, Bool.and_eq_true, Bool.and_eq_true] at h
    have ih := wf_erase d a m h.2
    have hab := above_erase k a m h.1.2
    unfold erase at ih hab ⊢
    by_cases hk : k = a
    · simp [hk, ih]
    · have e : List.filter (fun e => e.1 != a) ((k, v) :: m) = (k, v) :: List.filter (fun e => e.1 != a) m := by simp [hk]
      rw [e, wf_cons, h.1.1, hab, ih]
      rfl

/-- Listing a content that is not the default keeps the canonical form. -/
theorem wf_put [DecidableEq α] (d : α) (a : Nat) (v : α) (hv : v ≠ d) :
    ∀ (m : List (Nat × α)), wf d m = true → wf d (put m a v) = true
  | [], _ => by simp [put, wf, hv]
  | (k, w) :: m, h => by
    have h0 := h
    rw [wf_cons, Bool.and_eq_true, Bool.and_eq_true] at h
    unfold put
    split
    · rename_i hak
      rw [wf_cons, h0]
      simp [hv, above, hak, above_mono (Nat.le_of_lt hak) m h.1.2]
    · split
      · rename_i hak
        subst hak
        rw [wf_cons, h.1.2, h.2]
        simp [hv]
      · rename_i h1 h2
        rw [wf_cons, wf_put d a v hv m h.2, above_put k a v (by omega) m h.1.2, h.1.1]
        rfl

/-- A write keeps the canonical form. -/
theorem wf_set [DecidableEq α] (d : α) (m : List (Nat × α)) (a : Nat) (v : α) (h : wf d m = true) : wf d (set d m a v) = true := by
  unfold set
  split
  · exact wf_erase d a m h
  · exact wf_put d a v ‹_› m h

/-- Writes of consecutive contents keep the canonical form. -/
theorem wf_setMany [DecidableEq α] (d : α) :
    ∀ (vs : List α) (m : List (Nat × α)) (a : Nat), wf d m = true → wf d (setMany d m a vs) = true
  | [], _, _, h => h
  | v :: vs, m, a, h => wf_setMany d vs _ _ (wf_set d m a v h)

theorem above_filter (p : Nat × α → Bool) (b : Nat) :
    ∀ (m : List (Nat × α)), above b m = true → above b (m.filter p) = true
  | [], _ => rfl
  | (k, v) :: m, h => by
    simp only [above, Bool.and_eq_true, decide_eq_true_eq] at h
    have ih := above_filter p b m h.2
    by_cases hp : p (k, v) = true
    · simp [hp, above, h.1, ih]
    · simp [hp, ih]

/-- Removing entries keeps the canonical form. -/
theorem wf_filter [DecidableEq α] (d : α) (p : Nat × α → Bool) :
    ∀ (m : List (Nat × α)), wf d m = true → wf d (m.filter p) = true
  | [], _ => rfl
  | (k, v) :: m, h => by
    rw [wf_cons, Bool.and_eq_true, Bool.and_eq_true] at h
    have ih := wf_filter d p m h.2
    by_cases hp : p (k, v) = true
    · rw [List.filter_cons_of_pos hp, wf_cons, h.1.1, above_filter p k m h.1.2, ih]
      rfl
    · rw [List.filter_cons_of_neg hp]
      exact ih

/-- Removing a range keeps the canonical form. -/
theorem wf_eraseRange [DecidableEq α] (d : α) (m : List (Nat × α)) (a n : Nat) (h : wf d m = true) :
    wf d (eraseRange m a n) = true := wf_filter d _ m h

theorem get_erase (d : α) (a b : Nat) : ∀ (m : List (Nat × α)), get d (erase m a) b = if b = a then d else get d m b
  | [] => by simp [erase, get]
  | (k, v) :: m => by
    have ih := get_erase d a b m
    unfold erase at ih ⊢
    by_cases hk : k = a
    · subst hk
      simp only [List.filter, bne_self_eq_false, ih, get]
      by_cases hb : b = k
      · simp [hb]
      · simp [hb, Ne.symm hb]
    · have e : List.filter (fun e => e.1 != a) ((k, v) :: m) = (k, v) :: List.filter (fun e => e.1 != a) m := by simp [hk]
      rw [e]
      simp only [get, ih]
      by_cases hb : k = b
      · have : b ≠ a := by omega
        simp [hb, this]
      · simp [hb]

theorem get_put (d : α) (a b : Nat) (v : α) : ∀ (m : List (Nat × α)),
    get d (put m a v) b = if b = a then v else get d m b
  | [] => by
    by_cases h : b = a
    · simp [put, get, h]
    · simp [put, get, h, Ne.symm h]
  | (k, w) :: m => by
    unfold put
    split
    · by_cases h : b = a
      · simp [get, h]
      · simp [get, h, Ne.symm h]
    · split
      · rename_i _ hak
        subst hak
        by_cases h : b = a
        · simp [get, h]
        · simp [get, h, Ne.symm h]
      · rename_i h1 h2
        simp only [get, get_put d a b v m]
        by_cases hb : k = b
        · have : b ≠ a := by omega
          simp [hb, this]
        · simp [hb]

/-- A memory in canonical form is in order. -/
theorem sorted_of_wf [DecidableEq α] (d : α) : ∀ (m : List (Nat × α)), wf d m = true → sorted m = true
  | [], _ => rfl
  | (k, v) :: m, h => by
    rw [wf_cons, Bool.and_eq_true, Bool.and_eq_true] at h
    rw [sorted_cons, h.1.2, sorted_of_wf d m h.2]
    rfl

/-- A read after a write: the content written at its address, and every other address as before. -/
theorem get_set [DecidableEq α] (d : α) (m : List (Nat × α)) (a b : Nat) (v : α) :
    get d (set d m a v) b = if b = a then v else get d m b := by
  unfold set
  split
  · rename_i hv
    rw [get_erase, hv]
  · exact get_put d a b v m

end Sys2Proof.Store
end

