-- ==== Sys2Proof/Laws/Ops.lean ====
section
/-!
SUPPORT. What the named operations of Machine/Ops.lean read back: a register, a field, a region, a cluster or a queue after
a write of the same or of another one.
-/
namespace Sys2Proof.Machine

theorem bits_lt (x hi lo : Nat) : bits x hi lo < 2 ^ (hi + 1 - lo) := Nat.mod_lt _ (Nat.two_pow_pos _)

/-- A field is part of its number. -/
theorem bits_mul_le (x hi lo : Nat) : bits x hi lo * 2 ^ lo ≤ x := by
  have h1 : bits x hi lo ≤ x / 2 ^ lo := by
    rw [bits, Nat.shiftRight_eq_div_pow]
    exact Nat.mod_le _ _
  exact Nat.le_trans (Nat.mul_le_mul_right _ h1) (Nat.div_mul_le_self _ _)

theorem setBits_eq (x hi lo v : Nat) (h : lo ≤ hi) :
    setBits x hi lo v = x % 2 ^ lo + (v % 2 ^ (hi + 1 - lo)) * 2 ^ lo + x / 2 ^ (hi + 1) * 2 ^ (hi + 1) := by
  have hx : x = x % 2 ^ lo + bits x hi lo * 2 ^ lo + x / 2 ^ (hi + 1) * 2 ^ (hi + 1) := by
    have e : 2 ^ (hi + 1) = 2 ^ lo * 2 ^ (hi + 1 - lo) := by rw [← Nat.pow_add]; congr 1; omega
    have h1 := Nat.div_add_mod x (2 ^ lo)
    have h2 := Nat.div_add_mod (x / 2 ^ lo) (2 ^ (hi + 1 - lo))
    have h3 : x / 2 ^ lo / 2 ^ (hi + 1 - lo) = x / 2 ^ (hi + 1) := by rw [Nat.div_div_eq_div_mul, ← e]
    rw [bits, Nat.shiftRight_eq_div_pow, e]
    rw [h3, e] at h2
    calc x = 2 ^ lo * (x / 2 ^ lo) + x % 2 ^ lo := h1.symm
      _ = 2 ^ lo * (2 ^ (hi + 1 - lo) * (x / (2 ^ lo * 2 ^ (hi + 1 - lo))) + x / 2 ^ lo % 2 ^ (hi + 1 - lo)) + x % 2 ^ lo := by rw [h2]
      _ = _ := by grind
  have h4 := bits_mul_le x hi lo
  unfold setBits
  omega

/-- A field reads what was written to it. -/
theorem bits_setBits (x hi lo v : Nat) (h : lo ≤ hi) : bits (setBits x hi lo v) hi lo = v % 2 ^ (hi + 1 - lo) := by
  have e : 2 ^ (hi + 1) = 2 ^ lo * 2 ^ (hi + 1 - lo) := by rw [← Nat.pow_add]; congr 1; omega
  rw [setBits_eq x hi lo v h, bits, Nat.shiftRight_eq_div_pow]
  have e2 : x % 2 ^ lo + v % 2 ^ (hi + 1 - lo) * 2 ^ lo + x / 2 ^ (hi + 1) * 2 ^ (hi + 1)
      = x % 2 ^ lo + 2 ^ lo * (v % 2 ^ (hi + 1 - lo) + 2 ^ (hi + 1 - lo) * (x / 2 ^ (hi + 1))) := by rw [e]; grind
  rw [e2, Nat.add_mul_div_left _ _ (Nat.two_pow_pos lo), Nat.div_eq_of_lt (Nat.mod_lt _ (Nat.two_pow_pos lo)), Nat.zero_add,
    Nat.add_mul_mod_self_left, Nat.mod_mod]

/-- A field below or above the one written keeps its value. -/
theorem bits_setBits_ne (x hi lo hi' lo' v : Nat) (h : lo ≤ hi) (h' : lo' ≤ hi') (hd : hi < lo' ∨ hi' < lo) :
    bits (setBits x hi lo v) hi' lo' = bits x hi' lo' := by
  rw [setBits_eq x hi lo v h, bits, bits, Nat.shiftRight_eq_div_pow, Nat.shiftRight_eq_div_pow]
  rcases hd with hd | hd
  · have e : 2 ^ lo' = 2 ^ (hi + 1) * 2 ^ (lo' - (hi + 1)) := by rw [← Nat.pow_add]; congr 1; omega
    have h1 : x % 2 ^ lo + v % 2 ^ (hi + 1 - lo) * 2 ^ lo < 2 ^ (hi + 1) := by
      have e1 : 2 ^ (hi + 1) = 2 ^ lo * 2 ^ (hi + 1 - lo) := by rw [← Nat.pow_add]; congr 1; omega
      have a1 : x % 2 ^ lo < 2 ^ lo := Nat.mod_lt _ (Nat.two_pow_pos lo)
      have a2 : v % 2 ^ (hi + 1 - lo) + 1 ≤ 2 ^ (hi + 1 - lo) := Nat.mod_lt _ (Nat.two_pow_pos _)
      have a3 := Nat.mul_le_mul_right (2 ^ lo) a2
      rw [Nat.add_mul, Nat.mul_comm (2 ^ (hi + 1 - lo)), ← e1] at a3
      omega
    rw [e, ← Nat.div_div_eq_div_mul, ← Nat.div_div_eq_div_mul, Nat.add_mul_div_right _ _ (Nat.two_pow_pos _),
      Nat.div_eq_of_lt h1, Nat.zero_add]
  · have key : ∀ z : Nat, z / 2 ^ lo' % 2 ^ (hi' + 1 - lo') = z % 2 ^ lo / 2 ^ lo' % 2 ^ (hi' + 1 - lo') := by
      intro z
      have e : 2 ^ lo = 2 ^ lo' * 2 ^ (lo - lo') := by rw [← Nat.pow_add]; congr 1; omega
      have e2 : 2 ^ (lo - lo') = 2 ^ (hi' + 1 - lo') * 2 ^ (lo - (hi' + 1)) := by rw [← Nat.pow_add]; congr 1; omega
      rw [e, Nat.mod_mul_right_div_self, e2, Nat.mod_mul_right_mod]
    rw [key, key x]
    congr 2
    have e3 : 2 ^ (hi + 1) = 2 ^ (hi + 1 - lo) * 2 ^ lo := by rw [← Nat.pow_add]; congr 1; omega
    rw [e3, ← Nat.mul_assoc, Nat.add_mul_mod_self_right, Nat.add_mul_mod_self_right, Nat.mod_mod]

/-- A write of a field keeps a register's width. -/
theorem setBits_lt (x hi lo v n : Nat) (h : lo ≤ hi) (hn : hi < n) (hx : x < 2 ^ n) : setBits x hi lo v < 2 ^ n := by
  rw [setBits_eq x hi lo v h]
  have e1 : 2 ^ (hi + 1) = 2 ^ lo * 2 ^ (hi + 1 - lo) := by rw [← Nat.pow_add]; congr 1; omega
  have e2 : 2 ^ n = 2 ^ (hi + 1) * 2 ^ (n - (hi + 1)) := by rw [← Nat.pow_add]; congr 1; omega
  have h1 : x % 2 ^ lo < 2 ^ lo := Nat.mod_lt _ (Nat.two_pow_pos lo)
  have h2 : v % 2 ^ (hi + 1 - lo) + 1 ≤ 2 ^ (hi + 1 - lo) := Nat.mod_lt _ (Nat.two_pow_pos _)
  have h3 : x / 2 ^ (hi + 1) + 1 ≤ 2 ^ (n - (hi + 1)) := by
    apply Nat.succ_le_of_lt
    apply Nat.div_lt_of_lt_mul
    rwa [← e2]
  have h4 := Nat.mul_le_mul_right (2 ^ lo) h2
  have h5 := Nat.mul_le_mul_right (2 ^ (hi + 1)) h3
  rw [Nat.add_mul] at h4 h5
  rw [Nat.mul_comm (2 ^ (hi + 1 - lo)), ← e1] at h4
  rw [Nat.mul_comm (2 ^ (n - (hi + 1))), ← e2] at h5
  omega

namespace State

theorem rd_lt (s : State) (a : Nat) : s.rd a < 2 ^ 32 := (s.reg a).isLt

theorem reg_setReg (s : State) (a b : Nat) (v : Word) : (s.setReg a v).reg b = if b = a then v else s.reg b := by
  by_cases h : b = a
  · subst h; simp [reg, setReg, Store.get_set]
  · simp only [reg, setReg, h, if_false]
    unfold Store.set
    split
    · rw [Store.get_erase, if_neg h]
    · rw [Store.get_put, if_neg h]

/-- A register reads what was written to it; every other one is as before. -/
theorem rd_wr (s : State) (a b v : Nat) : (s.wr a v).rd b = if b = a then v % 2 ^ 32 else s.rd b := by
  simp only [rd, wr, reg_setReg]
  split <;> simp

theorem rd_setFld_ne (s : State) (f : Fld) (v b : Nat) (h : b ≠ f.addr) : (s.setFld f v).rd b = s.rd b := by
  simp [setFld, rd_wr, h]

theorem fld_setFld_ne (s : State) (f g : Fld) (v : Nat) (h : g.addr ≠ f.addr) : (s.setFld f v).fld g = s.fld g := by
  simp [fld, rd_setFld_ne s f v g.addr h]

/-- Another field of the same register keeps its value. -/
theorem fld_setFld_field (s : State) (f g : Fld) (v : Nat) (hf : f.lo ≤ f.hi) (hg : g.lo ≤ g.hi) (h32 : f.hi < 32)
    (hd : f.hi < g.lo ∨ g.hi < f.lo) : (s.setFld f v).fld g = s.fld g := by
  by_cases ha : g.addr = f.addr
  · rw [fld, setFld, rd_wr, if_pos ha, Nat.mod_eq_of_lt (setBits_lt _ _ _ _ 32 hf h32 (rd_lt _ _)), bits_setBits_ne _ _ _ _ _ _ hf hg hd,
      fld, ha]
  · exact fld_setFld_ne s f g v ha

/-- A field reads what was written to it. -/
theorem fld_setFld (s : State) (f : Fld) (v : Nat) (h : f.lo ≤ f.hi) (h' : f.hi < 32) :
    (s.setFld f v).fld f = v % 2 ^ (f.hi + 1 - f.lo) := by
  simp only [fld, setFld, rd_wr, if_true]
  rw [Nat.mod_eq_of_lt (setBits_lt _ _ _ _ 32 h h' (s.rd_lt _)), bits_setBits _ _ _ _ h]

theorem rd_count (s : State) (a b n : Nat) : (s.count a n).rd b = if b = a then Nat.min (s.rd a + n) 0xFFFFFFFF else s.rd b := by
  simp only [count, rd_wr, sat32]
  split
  · have : Nat.min (s.rd a + n) 0xFFFFFFFF ≤ 0xFFFFFFFF := Nat.min_le_right _ _
    exact Nat.mod_eq_of_lt (by omega)
  · rfl

theorem region_setRegion (s : State) (r q : Nat) (x : Region) : (s.setRegion r x).region q = if q = r then x else s.region q := by
  simp [setRegion, region, Store.get_set]

theorem region_modRegion (s : State) (r q : Nat) (f : Region → Region) :
    (s.modRegion r f).region q = if q = r then f (s.region r) else s.region q := region_setRegion _ _ _ _

theorem cluster_modCluster (s : State) (r c r' c' : Nat) (f : Cluster → Cluster) :
    (s.modCluster r c f).cluster r' c' = if 28 * r' + c' = 28 * r + c then f (s.cluster r c) else s.cluster r' c' := by
  simp [modCluster, setCluster, cluster, Store.get_set]

theorem queue_setQueue (s : State) (k j : Nat) (x : Queue) : (s.setQueue k x).queue j = if j = k then x else s.queue j := by
  simp [setQueue, queue, Store.get_set]

/-- A fault halts its region (R199). -/
theorem raise_halted (s : State) (r : Nat) (f : FaultRec) : ((s.raise r f).region r).halted = true := by
  simp [raise, raiseAt, halt, region_modRegion]

/-- A program word without error passes its check (R145). -/
theorem progPart_clean (x : PCell) (h : x.flip = 0) (i : Nat) : eccOf 72 (progFlip x i) = .clean := by
  have e : eccOf 72 0 = .clean := by decide
  have z : x.flip.toNat = 0 := by rw [h]; exact BitVec.toNat_zero
  rw [progFlip, z, bits, Nat.zero_shiftRight, Nat.zero_mod, e]

theorem progBad_clean (x : PCell) (h : x.flip = 0) : progBad x = none := by
    rw [progBad, List.find?_eq_none]
    intro i _
    rw [progPart_clean _ h i]
    decide

theorem progFixed_clean (x : PCell) (h : x.flip = 0) : progFixed x = [] := by
    rw [progFixed, List.filter_eq_nil_iff]
    intro i _
    rw [progPart_clean _ h i]
    decide

/-- A fetch of a program word without error (R145). -/
theorem progFetch_clean (s : State) (r c a slot : Nat) (h : (Store.get PCell.zero (s.cluster r c).prog a).flip = 0) :
    s.progFetch r c a slot = (some (s.progPeek r c a), s) := by
  unfold progFetch
  extract_lets x
  rw [progBad_clean x h]
  simp only
  rw [progFixed_clean x h]
  rfl

end State
end Sys2Proof.Machine
end

