-- ==== Sys2Proof/Laws/Regs.lean ====
section
/-!
SUPPORT. Where control addresses lead (R17, R18, R456): the windows of a region and of a cluster, and the registers that
have rows of their own.
-/
namespace Sys2Proof.Machine

/-- An address of a region's own registers (R18, R465). -/
theorem placeOf_region (r o : Nat) (hr : r < 96) (h1 : 0x1C0000000 ≤ o) (h2 : o < 0x200000000) (w : RegRow) (i : Nat)
    (h : findRow o regionRows = some (w, i)) : placeOf (regionBase r + o) = .regionReg r w i := by
  have e1 : (regionBase r + o - 0x200000000000) / 0x200000000 = r := by unfold regionBase; omega
  have e2 : (regionBase r + o - 0x200000000000) % 0x200000000 = o := by unfold regionBase; omega
  have a1 : ¬ regionBase r + o < 0x1000000000 := by unfold regionBase; omega
  have a2 : ¬ (0x100000000000 ≤ regionBase r + o ∧ regionBase r + o < 0x130000000000) := by unfold regionBase; omega
  have a3 : 0x200000000000 ≤ regionBase r + o ∧ regionBase r + o < 0x200000000000 + 96 * 0x200000000 := by
    unfold regionBase; omega
  rw [placeOf, if_neg a1, if_neg a2, if_pos a3, e1, e2, regionPlace, if_neg (by omega), h]

/-- An address of a cluster's window (R18, R464). -/
theorem placeOf_cluster (r c o : Nat) (hr : r < 96) (hc : c < 28) (ho : o < 0x10000000) :
    placeOf (clusterBase r c + o) = clusterPlace r c o := by
  have e1 : (clusterBase r c + o - 0x200000000000) / 0x200000000 = r := by unfold clusterBase regionBase; omega
  have e2 : (clusterBase r c + o - 0x200000000000) % 0x200000000 = c * 0x10000000 + o := by unfold clusterBase regionBase; omega
  have a1 : ¬ clusterBase r c + o < 0x1000000000 := by unfold clusterBase regionBase; omega
  have a2 : ¬ (0x100000000000 ≤ clusterBase r c + o ∧ clusterBase r c + o < 0x130000000000) := by
    unfold clusterBase regionBase; omega
  have a3 : 0x200000000000 ≤ clusterBase r c + o ∧ clusterBase r c + o < 0x200000000000 + 96 * 0x200000000 := by
    unfold clusterBase regionBase; omega
  rw [placeOf, if_neg a1, if_neg a2, if_pos a3, e1, e2, regionPlace, if_pos (by omega),
    (by omega : (c * 0x10000000 + o) / 0x10000000 = c), (by omega : (c * 0x10000000 + o) % 0x10000000 = o)]

/-- An address of a register of the edge window (R456). -/
theorem placeOf_edge (a : Nat) (h : a < cmemBase) (w : RegRow) (i : Nat) (hw : findRow a edgeRows = some (w, i)) :
    placeOf a = .edgeReg w i := by
  have h' : a < 0x800000000 := h
  rw [placeOf, if_pos (by omega), if_neg (by intro x; have : cmemBase ≤ a := x.1; omega), hw]

end Sys2Proof.Machine
end

