-- ==== Sys2Proof/Laws/Bus.lean ====
section
/-!
SUPPORT. What an access on the control channel does once its address is known (R454, R455, R459): a register of the edge
window, of a region and of a cluster, a memory window of a cluster, and the two addresses of a guarded register.
-/
namespace Sys2Proof.Machine

/-- The registers of the edge window lie below those of the regions. -/
theorem placeOf_edge_lt (a : Nat) (w : RegRow) (i : Nat) (hw : placeOf a = .edgeReg w i) : a < 0x1000000000 := by
  refine Decidable.byContradiction fun hn => ?_
  rw [placeOf, if_neg hn] at hw
  split at hw
  · cases hw
  · split at hw
    · unfold regionPlace at hw
      split at hw
      · unfold clusterPlace at hw
        split at hw
        · cases hw
        · split at hw
          · cases hw
          · split at hw
            · cases hw
            · split at hw
              · cases hw
              · split at hw <;> cases hw
      · split at hw <;> cases hw
    · cases hw

/-- A guarded register lies in the edge window (R458). -/
theorem guardedFirst_lt (a : Nat) (h : 0x1000000000 ≤ a) : guardedFirst a = false := by
  unfold guardedFirst guardedMask
  split
  · rename_i w i hw
    exact absurd (placeOf_edge_lt a w i hw) (by omega)
  · rfl

/-- No second address of a guarded register lies above the edge window. -/
theorem guardedSecond_lt (a : Nat) (h : 0x1000000004 ≤ a) : guardedSecond a = false := by
  rw [guardedSecond, guardedFirst_lt (a - 4) (by omega), Bool.and_false]

/-- The control complex and the edge ring are one node: nothing lies between them (R172, R174). -/
theorem State.pathOpen_edge (s : State) (ord : Bool) : s.pathOpen ord 0x8000 0x8000 = true := rfl

/-- An access of an address that the edge ring answers crosses no region. -/
theorem State.routed_edge (s : State) (a : Nat) (h : s.answerNode a = 0x8000) : s.routed a = true := by
  rw [State.routed, h, State.pathOpen_edge]; rfl

/-- The edge ring answers below the regions' windows. -/
theorem State.answerNode_low (s : State) (a : Nat) (h : a < 0x1000000000) : s.answerNode a = 0x8000 := by
  unfold State.answerNode
  split
  · rfl
  · rw [if_neg (by unfold regionBase; omega), if_neg (by omega)]

/-- A register of the edge window is answered by the edge ring. -/
theorem State.answerNode_edge (s : State) (a : Nat) (w : RegRow) (i : Nat) (h : placeOf a = .edgeReg w i) : s.answerNode a = 0x8000 :=
  s.answerNode_low a (placeOf_edge_lt a w i h)

/-- A guarded register is answered by the edge ring. -/
theorem State.answerNode_guarded (s : State) (a : Nat) (h : guardedFirst a = true) : s.answerNode a = 0x8000 := by
  unfold guardedFirst guardedMask at h
  split at h
  · exact s.answerNode_edge a _ _ ‹_›
  · cases h

/-- Every address below control memory is one of the edge window. -/
theorem State.routed_low (s : State) (a : Nat) (h : a < cmemBase) : s.routed a = true :=
  s.routed_edge a (s.answerNode_low a (by unfold cmemBase at h; omega))

/-- An aligned write whose request and response get through (R174, R454). -/
theorem State.accessWrite_routed (s : State) (req : Requester) (a : Nat) (v : Word) (h : Option HostAns)
    (hon : s.answers req = true) (h4 : a % 4 = 0) (hp : s.routed a = true) :
    s.accessWrite req a v h = (s.busWrite req a v h).2.emit (.access req (s.busWrite req a v h).1 none) := by
  have hp := Bool.and_eq_true _ _ ▸ hp
  rw [State.accessWrite, if_neg (fun x => x.2 h4), if_pos hon, State.sentWrite, if_pos hp.1]
  simp only [if_pos hp.2]

/-- An aligned read whose request and response get through (R174, R454). -/
theorem State.accessRead_routed (s : State) (req : Requester) (a : Nat) (hon : s.answers req = true) (h4 : a % 4 = 0)
    (hp : s.routed a = true) :
    s.accessRead req a = (s.busRead req a).2.2.emit (.access req (s.busRead req a).1
      (if (s.busRead req a).1 = 0 then some (BitVec.ofNat 32 (s.busRead req a).2.1) else none)) := by
  have hp := Bool.and_eq_true _ _ ▸ hp
  rw [State.accessRead, if_neg (fun x => x.2 h4), if_pos hon, State.sentRead, if_pos hp.1]
  simp only [if_pos hp.2]

/-- A write of a register of the edge window that is not guarded. -/
theorem State.accessWrite_edge (s : State) (req : Requester) (a : Nat) (v : Word) (h : Option HostAns) (w : RegRow) (i : Nat)
    (hon : s.answers req = true) (h4 : a % 4 = 0) (hf : guardedFirst a = false) (hs : guardedSecond a = false)
    (hp : placeOf a = .edgeReg w i) :
    s.accessWrite req a v h = (s.edgeWrite w i req a v.toNat h).emit (.access req 0 none) := by
  rw [s.accessWrite_routed req a v h hon h4 (s.routed_edge a (s.answerNode_edge a w i hp)), State.busWrite, if_neg (by omega), hf, hs, hp]
  rfl

/-- A write of a register of a region whose controller answers. -/
theorem State.accessWrite_region (s : State) (req : Requester) (r o : Nat) (v : Word) (h : Option HostAns) (w : RegRow) (i : Nat)
    (hon : s.answers req = true) (hr : r < 96) (h1 : 0x1C0000000 ≤ o) (h2 : o < 0x200000000) (h4 : o % 4 = 0)
    (hw : findRow o regionRows = some (w, i)) (hp : s.reachable r = true) (ho : s.routed (regionBase r + o) = true) :
    s.accessWrite req (regionBase r + o) v h =
      (s.regionWrite r w i req (regionBase r + o) v.toNat).emit (.access req 0 none) := by
  rw [s.accessWrite_routed req _ v h hon (by unfold regionBase; omega) ho, State.busWrite, if_neg (by unfold regionBase; omega),
    guardedFirst_lt _ (by unfold regionBase; omega), guardedSecond_lt _ (by unfold regionBase; omega),
    placeOf_region r o hr h1 h2 w i hw]
  simp only [hp]
  rfl

/-- A write of a register of a cluster in a region whose controller answers. -/
theorem State.accessWrite_cluster (s : State) (req : Requester) (r c o : Nat) (v : Word) (h : Option HostAns) (w : RegRow)
    (i : Nat) (hon : s.answers req = true) (hr : r < 96) (hc : c < 28) (h1 : 0xA004800 ≤ o) (h2 : o < 0x10000000) (h4 : o % 4 = 0)
    (hw : findRow o clusterRows = some (w, i)) (hp : s.reachable r = true) (ho : s.routed (clusterBase r c + o) = true) :
    s.accessWrite req (clusterBase r c + o) v h =
      (s.regWrite (.clusterReg r c w i) w req (clusterBase r c + o) v.toNat).emit (.access req 0 none) := by
  have hp' : clusterPlace r c o = .clusterReg r c w i := by
    rw [clusterPlace, if_neg (by omega), if_neg (by omega), if_neg (by omega), if_neg (by omega), hw]
  rw [s.accessWrite_routed req _ v h hon (by unfold clusterBase regionBase; omega) ho, State.busWrite, if_neg (by unfold clusterBase regionBase; omega),
    guardedFirst_lt _ (by unfold clusterBase regionBase; omega), guardedSecond_lt _ (by unfold clusterBase regionBase; omega),
    placeOf_cluster r c o hr hc h2, hp']
  simp only [hp]
  rfl

/-- The first address of a guarded register. -/
theorem State.accessWrite_first (s : State) (req : Requester) (a : Nat) (v : Word) (h : Option HostAns)
    (hon : s.answers req = true) (h4 : a % 4 = 0) (hf : guardedFirst a = true) :
    s.accessWrite req a v h = (s.firstHalf req a v).2.emit (.access req (s.firstHalf req a v).1 none) := by
  rw [s.accessWrite_routed req a v h hon h4 (s.routed_edge a (s.answerNode_guarded a hf)), State.busWrite, if_neg (by omega), hf]
  rfl

/-- The second address of a guarded register. -/
theorem State.accessWrite_second (s : State) (req : Requester) (a : Nat) (v : Word) (h : Option HostAns)
    (hon : s.answers req = true) (h4 : a % 4 = 0) (hf : guardedFirst a = false) (hs : guardedSecond a = true)
    (hp : s.routed a = true) :
    s.accessWrite req a v h = (s.secondHalf req a v).2.emit (.access req (s.secondHalf req a v).1 none) := by
  rw [s.accessWrite_routed req a v h hon h4 hp, State.busWrite, if_neg (by omega), hf, hs]
  rfl

/-- The second half of a pair armed with the complement, by its requester and before its deadline: the register is applied. -/
theorem State.secondHalf_applied (s : State) (req : Requester) (a : Nat) (v : Word) (x : Armed)
    (hx : Store.find s.armed a = some x) (hr : x.req = req) (hv : v = ~~~ x.value) (hd : s.time.cb ≤ x.deadline) :
    s.secondHalf req (a + 4) v = (0, (s.disarmPair a).guardedApply a x.value.toNat) := by
  have hl : s.lapse (a + 4 - 4) = s := by
    rw [State.lapse, Nat.add_sub_cancel, hx]
    exact if_neg (by omega)
  rw [State.secondHalf, hl, Nat.add_sub_cancel, hx]
  exact if_pos ⟨hr, hv⟩

/-- A row found by a check that the kernel evaluates. -/
theorem findRow_at (o : Nat) (rows : List RegRow) (hb : (match findRow o rows with
      | some (w, _) => decide (w.off = o) | none => false) = true) : ∃ w i, findRow o rows = some (w, i) ∧ w.off = o := by
  cases hf : findRow o rows with
  | none => rw [hf] at hb; simp at hb
  | some x =>
    rw [hf] at hb
    exact ⟨x.1, x.2, rfl, by simpa using hb⟩

/-- The place of a register of the edge window that is alone in its row. -/
theorem placeOf_edge_at (o : Nat) (hl : o < 0x800000000) (hb : (match findRow o edgeRows with
      | some (w, _) => decide (w.off = o) | none => false) = true) : ∃ w i, placeOf o = .edgeReg w i ∧ w.off = o := by
  obtain ⟨w, i, h1, h2⟩ := findRow_at o edgeRows hb
  exact ⟨w, i, placeOf_edge o hl w i h1, h2⟩

end Sys2Proof.Machine
end

