-- ==== Sys2Proof/Laws/Kept.lean ====
section
/-!
SUPPORT. Every operation of the machine leaves the queue of waiting commands, the fuses and the fuse programming in progress
as they are, but for those of Laws/Steady.lean: one lemma per operation.
-/
set_option linter.unusedSimpArgs false
set_option linter.unusedVariables false

namespace Sys2Proof.Machine
/-- The parts of the state that almost no command touches: the queue, the fuses and the fuse programming in progress. -/
def State.kept (s : State) : List Instr × Fuses × Option (Nat × List Word) := (s.pending, s.fuse, s.crypto.fuse)
theorem kept_foldl {α : Type} (f : State → α → State) (h : ∀ s x, (f s x).kept = s.kept) (l : List α) (s : State) :
    (l.foldl f s).kept = s.kept := by
  induction l generalizing s with
  | nil => rfl
  | cons x l ih => rw [List.foldl_cons, ih, h]
theorem kept_mk (s : State) (c : Crypto) sent' free' time' regs' regions' clusters' queues' image' cmem' dram' salt' inbox' lookups' recent' waiting' serve' loader' mg' armed' ports' bridge' gop' power' plate' heat' bring' held' blocked' rxSession' txSession' (h : c.fuse = s.crypto.fuse) :
    (State.mk s.pending sent' free' time' s.fuse regs' regions' clusters' queues' image' cmem' dram' salt' inbox' lookups' recent' waiting' serve' loader' mg' armed' ports' bridge' gop' power' plate' heat' bring' c held' blocked' rxSession' txSession').kept = s.kept := by
  simp [State.kept, h]
theorem kept_ite (c : Prop) [Decidable c] (a b : State) : (if c then a else b).kept = if c then a.kept else b.kept := by
  split <;> rfl
theorem kept_ite2 {α : Type} (c : Prop) [Decidable c] (a b : α × State) : (if c then a else b).2.kept = if c then a.2.kept else b.2.kept := by
  split <;> rfl
theorem kept_foldl2 {α β : Type} (f : β × State → α → β × State) (h : ∀ a x, (f a x).2.kept = a.2.kept) (l : List α)
    (a : β × State) : (l.foldl f a).2.kept = a.2.kept := by
  induction l generalizing a with
  | nil => rfl
  | cons x l ih => rw [List.foldl_cons, ih, h]
theorem kept_pair {α : Type} (a : α) (s : State) : (a, s).2.kept = s.kept := rfl


theorem kept_setReg (x0 : State) (x1 x2) : (State.setReg x0 x1 x2).kept = x0.kept := by
  simp only [State.setReg, kept_foldl, kept_mk]

theorem kept_wr (x0 : State) (x1 x2) : (State.wr x0 x1 x2).kept = x0.kept := by
  simp only [State.wr, kept_setReg, kept_foldl, kept_mk]

theorem kept_setFld (x0 : State) (x1 x2) : (State.setFld x0 x1 x2).kept = x0.kept := by
  simp only [State.setFld, kept_wr, kept_foldl, kept_mk]

theorem kept_count (x0 : State) (x1 x2) : (State.count x0 x1 x2).kept = x0.kept := by
  simp only [State.count, kept_wr, kept_foldl, kept_mk]

theorem kept_setRegion (x0 : State) (x1 x2) : (State.setRegion x0 x1 x2).kept = x0.kept := by
  simp only [State.setRegion, kept_foldl, kept_mk]

theorem kept_modRegion (x0 : State) (x1 x2) : (State.modRegion x0 x1 x2).kept = x0.kept := by
  simp only [State.modRegion, kept_setRegion, kept_foldl, kept_mk]

theorem kept_setCluster (x0 : State) (x1 x2 x3) : (State.setCluster x0 x1 x2 x3).kept = x0.kept := by
  simp only [State.setCluster, kept_foldl, kept_mk]

theorem kept_modCluster (x0 : State) (x1 x2 x3) : (State.modCluster x0 x1 x2 x3).kept = x0.kept := by
  simp only [State.modCluster, kept_setCluster, kept_foldl, kept_mk]

theorem kept_setQueue (x0 : State) (x1 x2) : (State.setQueue x0 x1 x2).kept = x0.kept := by
  simp only [State.setQueue, kept_foldl, kept_mk]

theorem kept_emit (x0 : State) (x1) : (State.emit x0 x1).kept = x0.kept := by
  simp only [State.emit, kept_foldl, kept_mk]

theorem kept_receive (x0 : State) (x1) : (State.receive x0 x1).kept = x0.kept := by
  simp only [State.receive, kept_foldl, kept_mk]

theorem kept_packet (x0 : State) (x1 x2 x3 x4 x5 x6) : (State.packet x0 x1 x2 x3 x4 x5 x6).kept = x0.kept := by
  simp only [State.packet, kept_emit, kept_foldl, kept_mk]

theorem kept_fresh (x0 : State) (x1) : (State.fresh x0 x1).2.kept = x0.kept := by
  simp only [State.fresh, kept_foldl, kept_mk]

theorem kept_frame (s : State) (dst etype bytes) : (State.frame s dst etype bytes).kept = s.kept := by
  unfold State.frame
  split
  · exact kept_emit _ _
  · rfl

theorem kept_notify (x0 : State) (x1 x2) : (State.notify x0 x1 x2).kept = x0.kept := by
  unfold State.notify
  dsimp only
  (repeat' split) <;> simp_all [kept_frame, kept_foldl, kept_mk]

theorem kept_signal (x0 : State) (x1 x2) : (State.signal x0 x1 x2).kept = x0.kept := by
  simp only [State.signal, kept_receive, kept_notify, kept_foldl, kept_mk]

theorem kept_setImg (x0 : State) (x1) : (State.setImg x0 x1).kept = x0.kept := by
  unfold State.setImg
  dsimp only
  (repeat' split) <;> simp_all [kept_wr, kept_signal, kept_foldl, kept_mk]

theorem kept_setImgState (x0 : State) (x1) : (State.setImgState x0 x1).kept = x0.kept := by
  simp only [State.setImgState, kept_setImg, kept_foldl, kept_mk]

theorem kept_setBu (x0 : State) (x1) : (State.setBu x0 x1).kept = x0.kept := by
  unfold State.setBu
  dsimp only
  (repeat' split) <;> simp_all [kept_wr, kept_signal, kept_foldl, kept_mk]

theorem kept_record (x0 : State) (x1 x2) : (State.record x0 x1 x2).kept = x0.kept := by
  unfold State.record
  (repeat' split) <;> simp [kept_packet, kept_modRegion, kept_setFld, kept_foldl, kept_mk]

theorem kept_halt (x0 : State) (x1) : (State.halt x0 x1).kept = x0.kept := by
  simp only [State.halt, kept_modRegion, kept_foldl, kept_mk]

theorem kept_raiseAt (x0 : State) (x1 x2 x3 x4) : (State.raiseAt x0 x1 x2 x3 x4).kept = x0.kept := by
  unfold State.raiseAt
  dsimp only
  (repeat' split) <;> simp_all [kept_halt, kept_record, kept_modRegion, kept_foldl, kept_mk]

theorem kept_raise (x0 : State) (x1 x2) : (State.raise x0 x1 x2).kept = x0.kept := by
  simp only [State.raise, kept_raiseAt, kept_foldl, kept_mk]

theorem kept_log (x0 : State) (x1 x2) : (State.log x0 x1 x2).kept = x0.kept := by
  unfold State.log
  (repeat' split) <;> simp [kept_modRegion, kept_packet, kept_foldl, kept_mk]

theorem kept_logEdge (x0 : State) (x1 x2 x3 x4) : (State.logEdge x0 x1 x2 x3 x4).kept = x0.kept := by
  simp only [State.logEdge, kept_log, kept_foldl, kept_mk]

theorem kept_logRegion (x0 : State) (x1 x2 x3 x4 x5) : (State.logRegion x0 x1 x2 x3 x4 x5).kept = x0.kept := by
  simp only [State.logRegion, kept_log, kept_foldl, kept_mk]

theorem kept_disableClusters (x0 : State) : (State.disableClusters x0).kept = x0.kept := by
  unfold State.disableClusters
  simp [kept_setFld, kept_foldl, kept_mk, kept_ite, kept_ite2]

theorem kept_disarm (x0 : State) : (State.disarm x0).kept = x0.kept := by
  unfold State.disarm
  simp [kept_setFld, kept_foldl, kept_mk]

theorem kept_markDone (s : State) : s.markDone.kept = s.kept := by
  unfold State.markDone
  refine kept_foldl _ (fun s r => ?_) _ _
  split
  · exact kept_wr _ _ _
  · rfl

theorem kept_holdFinish (s : State) : s.holdFinish.kept = s.kept := by
  unfold State.holdFinish
  split
  · dsimp only
    split
    · rw [kept_setFld]
      simp only [kept_mk, kept_disarm, kept_markDone]
    · exact kept_markDone _
  · split
    · simp only [kept_mk, kept_setFld, kept_setImgState, kept_disableClusters, kept_disarm]
    · rfl
  · rfl

theorem kept_addPend (x0 : State) (x1 x2 x3) : (State.addPend x0 x1 x2 x3).kept = x0.kept := by
  simp only [State.addPend, kept_modCluster, kept_foldl, kept_mk]

theorem kept_spRead (x0 : State) (x1 x2 x3 x4 x5 x6 x7) : (State.spRead x0 x1 x2 x3 x4 x5 x6 x7).2.kept = x0.kept := by
  unfold State.spRead
  dsimp only
  (repeat' split) <;> simp_all [kept_addPend, kept_foldl, kept_mk]

theorem kept_spReads (x0 : State) (x1 x2 x3 x4 x5 x6 x7) : (State.spReads x0 x1 x2 x3 x4 x5 x6 x7).2.kept = x0.kept := by
  induction x7 generalizing x0 with
  | nil => rfl
  | cons y ys ih =>
    unfold State.spReads
    grind [kept_spRead, State.kept]

theorem kept_spCell (x0 : State) (x1 x2 x3 x4) : (State.spCell x0 x1 x2 x3 x4).2.kept = x0.kept := by
  unfold State.spCell
  (repeat' split) <;> simp [kept_setFld, kept_foldl, kept_mk]

theorem kept_spPut (x0 : State) (x1 x2 x3 x4) : (State.spPut x0 x1 x2 x3 x4).kept = x0.kept := by
  simp only [State.spPut, kept_modCluster, kept_foldl, kept_mk]

theorem kept_progFetch (x0 : State) (x1 x2 x3 x4) : (State.progFetch x0 x1 x2 x3 x4).2.kept = x0.kept := by
  unfold State.progFetch
  dsimp only
  (repeat' split) <;> simp_all [kept_raise, kept_count, kept_log, kept_foldl, kept_mk]

theorem kept_tileWrite (x0 : State) (x1 x2 x3 x4 x5) : (State.tileWrite x0 x1 x2 x3 x4 x5).kept = x0.kept := by
  simp only [State.tileWrite, kept_modCluster, kept_foldl, kept_mk]

theorem kept_tileTag (x0 : State) (x1 x2 x3 x4) : (State.tileTag x0 x1 x2 x3 x4).kept = x0.kept := by
  simp only [State.tileTag, kept_modCluster, kept_foldl, kept_mk]

theorem kept_tagWrite (x0 : State) (x1 x2 x3 x4) : (State.tagWrite x0 x1 x2 x3 x4).kept = x0.kept := by
  simp only [State.tagWrite, kept_modCluster, kept_foldl, kept_mk]

theorem kept_tilesLost (x0 : State) (x1 x2) : (State.tilesLost x0 x1 x2).kept = x0.kept := by
  simp only [State.tilesLost, kept_modCluster, kept_foldl, kept_mk]

theorem kept_cmRead (x0 : State) (x1 x2) : (State.cmRead x0 x1 x2).2.kept = x0.kept := by
  unfold State.cmRead
  (repeat' split) <;> simp [kept_log, kept_foldl, kept_mk]

theorem kept_cmWrite (x0 : State) (x1 x2) : (State.cmWrite x0 x1 x2).kept = x0.kept := by
  simp only [State.cmWrite, kept_foldl, kept_mk]

theorem kept_cmPut (x0 : State) (x1) : (State.cmPut x0 x1).kept = x0.kept := by
  simp only [State.cmPut, kept_mk]

theorem kept_cmSetBytes (x0 : State) (x1 x2) : (State.cmSetBytes x0 x1 x2).kept = x0.kept := kept_foldl _ kept_cmPut _ _

theorem kept_cmSetNum (x0 : State) (x1 x2 x3) : (State.cmSetNum x0 x1 x2 x3).kept = x0.kept := by
  simp only [State.cmSetNum, kept_cmSetBytes, kept_foldl, kept_mk]

theorem kept_cmClear (x0 : State) (x1 x2) : (State.cmClear x0 x1 x2).kept = x0.kept := by
  simp only [State.cmClear, kept_foldl, kept_mk]

theorem kept_push (x0 : State) (x1 x2) : (State.push x0 x1 x2).kept = x0.kept := by
  simp only [State.push, kept_setQueue, kept_foldl, kept_mk]

theorem kept_pop (x0 : State) (x1) : (State.pop x0 x1).2.kept = x0.kept := by
  unfold State.pop
  dsimp only
  (repeat' split) <;> simp_all [kept_setQueue, kept_foldl, kept_mk]

theorem kept_fenceQueue (x0 : State) (x1) : (State.fenceQueue x0 x1).kept = x0.kept := by
  simp only [State.fenceQueue, kept_setQueue, kept_foldl, kept_mk]

theorem kept_fenceRegion (x0 : State) (x1) : (State.fenceRegion x0 x1).kept = x0.kept := by
  unfold State.fenceRegion
  simp [kept_fenceQueue, kept_foldl, kept_mk]

theorem kept_linkCheck (x0 : State) (x1 x2 x3 x4 x5) : (State.linkCheck x0 x1 x2 x3 x4 x5).2.kept = x0.kept := by
  unfold State.linkCheck
  (repeat' split) <;> simp [kept_raise, kept_count, kept_log, kept_foldl, kept_mk]

theorem kept_entryCheck (x0 : State) (x1 x2 x3 x4 x5) : (State.entryCheck x0 x1 x2 x3 x4 x5).2.kept = x0.kept := by
  unfold State.entryCheck
  (repeat' split) <;> simp [kept_raise, kept_count, kept_log, kept_foldl, kept_mk]

theorem kept_askStall (x0 : State) (x1 x2) : (State.askStall x0 x1 x2).kept = x0.kept := by
  unfold State.askStall
  grind [kept_modRegion, State.kept]

theorem kept_frameRead (x0 : State) (x1 x2 x3 x4) : (State.frameRead x0 x1 x2 x3 x4).2.kept = x0.kept := by
  unfold State.frameRead
  grind [kept_spReads, kept_addPend, State.kept]

theorem kept_localBeat (x0 : State) (x1 x2 x3 x4 x5) : (State.localBeat x0 x1 x2 x3 x4 x5).2.kept = x0.kept := by
  unfold State.localBeat
  grind [kept_spReads, State.kept]

theorem kept_streamRead (x0 : State) (x1 x2 x3 x4) : (State.streamRead x0 x1 x2 x3 x4).2.kept = x0.kept := by
  unfold State.streamRead
  dsimp only
  (repeat' split) <;> simp_all [kept_frameRead, kept_localBeat, kept_foldl, kept_mk]

theorem kept_excessRead (x0 : State) (x1 x2 x3 x4 x5) : (State.excessRead x0 x1 x2 x3 x4 x5).2.kept = x0.kept := by
  simp only [State.excessRead, kept_localBeat, kept_count, kept_foldl, kept_mk]

theorem kept_linkBeat (x0 : State) (x1 x2 x3 x4 x5) : (State.linkBeat x0 x1 x2 x3 x4 x5).2.kept = x0.kept := by
  unfold State.linkBeat
  split
  · dsimp only
    rw [kept_modCluster, kept_linkCheck]
  · split
    · rfl
    · dsimp only
      rw [kept_fresh]

theorem kept_takeFrom (x0 : State) (x1 x2 x3 x4 x5 x6) : (State.takeFrom x0 x1 x2 x3 x4 x5 x6).2.kept = x0.kept := by
  unfold State.takeFrom
  dsimp only
  (repeat' split) <;> simp_all [kept_excessRead, kept_linkBeat, kept_foldl, kept_mk]

theorem kept_excessWrite (x0 : State) (x1 x2 x3 x4 x5 x6) : (State.excessWrite x0 x1 x2 x3 x4 x5 x6).kept = x0.kept := by
  unfold State.excessWrite
  dsimp only
  (repeat' split) <;> simp_all [kept_spCell, kept_addPend, kept_count, kept_foldl, kept_mk]

theorem kept_sendOn (x0 : State) (x1 x2 x3 x4 x5 x6 x7) : (State.sendOn x0 x1 x2 x3 x4 x5 x6 x7).kept = x0.kept := by
  unfold State.sendOn
  grind [kept_addPend, kept_excessWrite, State.kept]

theorem kept_topkStep (x0 : State) (x1 x2 x3 x4 x5 x6 x7) : (State.topkStep x0 x1 x2 x3 x4 x5 x6 x7).2.kept = x0.kept := by
  unfold State.topkStep
  dsimp only
  (repeat' split) <;> simp_all [kept_sendOn, kept_foldl, kept_mk]

theorem kept_excessAsk (x0 : State) (x1 x2 x3 x4 x5 x6) : (State.excessAsk x0 x1 x2 x3 x4 x5 x6).kept = x0.kept := by
  unfold State.excessAsk
  grind [kept_askStall, State.kept]

theorem kept_excessCount (x0 : State) (x1 x2 x3 x4) : (State.excessCount x0 x1 x2 x3 x4).kept = x0.kept := by
  unfold State.excessCount
  grind [kept_count, State.kept]

theorem kept_frameSink (x0 : State) (x1 x2 x3 x4 x5) : (State.frameSink x0 x1 x2 x3 x4 x5).kept = x0.kept := by
  unfold State.frameSink
  dsimp only
  (repeat' split) <;> simp_all [kept_addPend, kept_raise, kept_foldl, kept_mk]

theorem kept_frameStep (x0 : State) (x1 x2 x3 x4 x5 x6) : (State.frameStep x0 x1 x2 x3 x4 x5 x6).2.kept = x0.kept := by
  unfold State.frameStep
  dsimp only
  (repeat' split) <;> simp_all [kept_excessAsk, kept_excessCount, kept_frameSink, kept_sendOn, kept_foldl, kept_mk]

theorem kept_streamMake (x0 : State) (x1 x2 x3 x4 x5 x6 x7) : (State.streamMake x0 x1 x2 x3 x4 x5 x6 x7).2.kept = x0.kept := by
  unfold State.streamMake
  dsimp only
  (repeat' split) <;> simp_all [kept_frameStep, kept_sendOn, kept_topkStep, kept_foldl, kept_mk]

theorem kept_memReadRow (x0 : State) (x1 x2 x3 x4 x5) : (State.memReadRow x0 x1 x2 x3 x4 x5).2.kept = x0.kept := by
  unfold State.memReadRow
  grind [kept_spReads, kept_addPend, State.kept]

theorem kept_portRow (x0 : State) (x1 x2 x3 x4 x5) : (State.portRow x0 x1 x2 x3 x4 x5).2.kept = x0.kept := by
  unfold State.portRow
  dsimp only
  (repeat' split) <;> simp_all [kept_fresh, kept_foldl, kept_mk]

theorem kept_memWriteRow (x0 : State) (x1 x2 x3 x4 x5) : (State.memWriteRow x0 x1 x2 x3 x4 x5).2.kept = x0.kept := by
  unfold State.memWriteRow
  dsimp only
  (repeat' split) <;> simp_all [kept_addPend, kept_raise, kept_modCluster, kept_modRegion, kept_portRow, kept_foldl, kept_mk]

theorem kept_argRead (x0 : State) (x1 x2 x3 x4) : (State.argRead x0 x1 x2 x3 x4).2.kept = x0.kept := by
  unfold State.argRead
  grind [kept_spReads, State.kept]

theorem kept_pushWords (x0 : State) (x1 x2 x3 x4) : (State.pushWords x0 x1 x2 x3 x4).2.kept = x0.kept := by
  unfold State.pushWords
  dsimp only
  (repeat' split) <;> simp_all [kept_modCluster, kept_modRegion, kept_foldl, kept_mk]

theorem kept_memStep (x0 : State) (x1 x2 x3 x4) : (State.memStep x0 x1 x2 x3 x4).2.kept = x0.kept := by
  unfold State.memStep
  dsimp only
  (repeat' split) <;> simp_all [kept_argRead, kept_memReadRow, kept_memWriteRow, kept_pushWords, kept_foldl, kept_mk]

theorem kept_memCycle (x0 : State) (x1 x2 x3) : (State.memCycle x0 x1 x2 x3).kept = x0.kept := by
  unfold State.memCycle
  simp [kept_memStep, kept_modCluster, kept_foldl, kept_foldl2, kept_mk, kept_ite, kept_ite2]

theorem kept_tileCompare (x0 : State) (x1 x2 x3 x4 x5 x6 x7) : (State.tileCompare x0 x1 x2 x3 x4 x5 x6 x7).kept = x0.kept := by
  unfold State.tileCompare
  dsimp only
  (repeat' split) <;> simp_all [kept_setFld, kept_raiseAt, kept_count, kept_foldl, kept_mk]

theorem kept_portLand (x0 : State) (x1 x2 x3 x4 x5 x6 x7) : (State.portLand x0 x1 x2 x3 x4 x5 x6 x7).kept = x0.kept := by
  unfold State.portLand
  dsimp only
  (repeat' split) <;> simp_all [kept_modCluster, kept_foldl, kept_mk]

theorem kept_landEff (x0 : State) (x1 x2 x3 x4) : (State.landEff x0 x1 x2 x3 x4).kept = x0.kept := by
  unfold State.landEff
  dsimp only
  (repeat' split) <;> simp_all [kept_modCluster, kept_raise, kept_portLand, kept_count, kept_log, kept_spCell, kept_addPend, kept_spPut, kept_raiseAt, kept_tileCompare, kept_push, kept_foldl, kept_mk]

theorem kept_landSel (x0 : State) (x1 x2 x3 x4) : (State.landSel x0 x1 x2 x3 x4).kept = x0.kept := by
  unfold State.landSel
  simp [kept_landEff, kept_modCluster, kept_foldl, kept_mk]

theorem kept_land (x0 : State) (x1 x2 x3) : (State.land x0 x1 x2 x3).kept = x0.kept := by
  simp only [State.land, kept_landSel, kept_foldl, kept_mk]

theorem kept_originQh (x0 : State) (x1 x2 x3) : (State.originQh x0 x1 x2 x3).2.kept = x0.kept := by
  unfold State.originQh
  dsimp only
  (repeat' split) <;> simp_all [kept_fresh, kept_foldl, kept_mk]

theorem kept_vecIssue (x0 : State) (x1 x2 x3 x4 x5) : (State.vecIssue x0 x1 x2 x3 x4 x5).kept = x0.kept := by
  unfold State.vecIssue
  dsimp only
  (repeat' split) <;> simp_all [kept_originQh, kept_raise, kept_addPend, kept_modCluster, kept_count, kept_foldl, kept_mk]

theorem kept_engineFault (x0 : State) (x1 x2 x3 x4 x5 x6 x7) : (State.engineFault x0 x1 x2 x3 x4 x5 x6 x7).kept = x0.kept := by
  simp only [State.engineFault, kept_raise, kept_foldl, kept_mk]

theorem kept_engineIssue (x0 : State) (x1 x2 x3 x4 x5 x6) : (State.engineIssue x0 x1 x2 x3 x4 x5 x6).kept = x0.kept := by
  unfold State.engineIssue
  grind [kept_progFetch, kept_engineFault, kept_modCluster, kept_addPend, State.kept]

theorem kept_cbIssue (x0 : State) (x1 x2 x3 x4 x5 x6) : (State.cbIssue x0 x1 x2 x3 x4 x5 x6).kept = x0.kept := by
  simp only [State.cbIssue, kept_addPend, kept_modCluster, kept_foldl, kept_mk]

theorem kept_xferIssue (x0 : State) (x1 x2 x3 x4 x5 x6) : (State.xferIssue x0 x1 x2 x3 x4 x5 x6).kept = x0.kept := by
  unfold State.xferIssue
  grind [kept_progFetch, kept_modCluster, State.kept]

theorem kept_relIssue (x0 : State) (x1 x2 x3 x4 x5) : (State.relIssue x0 x1 x2 x3 x4 x5).kept = x0.kept := by
  simp only [State.relIssue, kept_modCluster, kept_foldl, kept_mk]

theorem kept_routeIssue (x0 : State) (x1 x2 x3 x4 x5 x6) : (State.routeIssue x0 x1 x2 x3 x4 x5 x6).kept = x0.kept := by
  unfold State.routeIssue
  grind [kept_progFetch, kept_modCluster, State.kept]

theorem kept_ctlMark (x0 : State) (x1 x2 x3) : (State.ctlMark x0 x1 x2 x3).kept = x0.kept := by
  simp only [State.ctlMark, kept_wr, kept_setFld, kept_foldl, kept_mk]

theorem kept_ctlSegend (x0 : State) (x1) : (State.ctlSegend x0 x1).kept = x0.kept := by
  simp only [State.ctlSegend, kept_holdFinish, kept_modRegion, kept_foldl, kept_mk]

theorem kept_auCheck (x0 : State) (x1 x2) : (State.auCheck x0 x1 x2).kept = x0.kept := by
  unfold State.auCheck
  dsimp only
  (repeat' split) <;> simp_all [kept_raise, kept_setFld, kept_foldl, kept_mk]

theorem kept_allClusters (f : State → Nat → State) (hf : ∀ s c, (f s c).kept = s.kept) (cs : List Nat) (s : State) :
    (State.allClusters f cs s).kept = s.kept := kept_foldl f hf cs s

theorem kept_issueSlots (x0 : State) (x1 x2 x3) : (State.issueSlots x0 x1 x2 x3).kept = x0.kept := by
  unfold State.issueSlots
  grind [kept_progFetch, kept_routeIssue, kept_xferIssue, kept_relIssue, kept_vecIssue, kept_engineIssue, kept_cbIssue, State.kept]

theorem kept_ctlStep (x0 : State) (x1 x2) : (State.ctlStep x0 x1 x2).kept = x0.kept := by
  unfold State.ctlStep
  dsimp only
  (repeat' split) <;> simp_all [kept_setCluster, kept_ctlSegend, kept_modCluster, kept_ctlMark, kept_foldl, kept_mk]

theorem kept_popBeat (x0 : State) (x1 x2 x3 x4 x5) : (State.popBeat x0 x1 x2 x3 x4 x5).kept = x0.kept := by
  unfold State.popBeat
  grind [kept_pop, kept_entryCheck, kept_modCluster, State.kept]

theorem kept_popSides (x0 : State) (x1 x2 x3 x4) : (State.popSides x0 x1 x2 x3 x4).kept = x0.kept := by
  unfold State.popSides
  refine kept_foldl _ (fun s x => ?_) _ _
  split
  · rfl
  · exact kept_popBeat ..

theorem kept_xsTake (x0 : State) (x1 x2 x3 x4 x5) : (State.xsTake x0 x1 x2 x3 x4 x5).2.kept = x0.kept := by
  unfold State.xsTake
  grind [kept_takeFrom, kept_excessAsk, kept_excessCount, State.kept]

theorem kept_xsSend (x0 : State) (x1 x2 x3) : (State.xsSend x0 x1 x2 x3).2.kept = x0.kept := by
  unfold State.xsSend
  dsimp only
  (repeat' split) <;> simp_all [kept_raise, kept_sendOn, kept_askStall, kept_foldl, kept_mk]

theorem kept_xsExcessOut (x0 : State) (x1 x2 x3 x4) : (State.xsExcessOut x0 x1 x2 x3 x4).2.kept = x0.kept := by
  unfold State.xsExcessOut
  split
  · rfl
  · rw [kept_sendOn, kept_excessCount]

theorem kept_streamMove (x0 : State) (x1 x2 x3 x4 x5 x6 x7) : (State.streamMove x0 x1 x2 x3 x4 x5 x6 x7).2.kept = x0.kept := by
  unfold State.streamMove
  grind [kept_xsTake, kept_xsSend, kept_xsExcessOut, kept_takeFrom, kept_streamMake, State.kept]

theorem kept_streamsMove (x0 : State) (x1 x2 x3 x4) : (State.streamsMove x0 x1 x2 x3 x4).kept = x0.kept := by
  unfold State.streamsMove
  simp [kept_streamMove, kept_modCluster, kept_foldl, kept_foldl2, kept_mk, kept_ite, kept_ite2]

theorem kept_streamsCycle (x0 : State) (x1 x2 x3) : (State.streamsCycle x0 x1 x2 x3).kept = x0.kept := by
  unfold State.streamsCycle
  simp [kept_streamRead, kept_streamsMove, kept_modCluster, kept_foldl, kept_foldl2, kept_mk, kept_ite, kept_ite2]

theorem kept_sampleSlots (x0 : State) (x1 x2 x3) : (State.sampleSlots x0 x1 x2 x3).2.kept = x0.kept := by
  unfold State.sampleSlots
  dsimp only
  (repeat' split) <;> simp_all [kept_fresh, kept_foldl, kept_mk]

theorem kept_engineStep (x0 : State) (x1 x2 x3 x4) : (State.engineStep x0 x1 x2 x3 x4).2.kept = x0.kept := by
  unfold State.engineStep
  dsimp only
  (repeat' split) <;> simp_all [kept_sampleSlots, kept_originQh, kept_engineFault, kept_count, kept_askStall, kept_foldl, kept_mk]

theorem kept_engineSteps (x0 : State) (x1 x2 x3 x4 x5) : (State.engineSteps x0 x1 x2 x3 x4 x5).2.kept = x0.kept := by
  induction x4 generalizing x0 x5 with
  | zero => rfl
  | succ n ih =>
    unfold State.engineSteps
    grind [kept_engineStep, State.kept]

theorem kept_engineFinish (x0 : State) (x1 x2 x3) : (State.engineFinish x0 x1 x2 x3).kept = x0.kept := by
  simp only [State.engineFinish, kept_addPend, kept_foldl, kept_mk]

theorem kept_engineRun (x0 : State) (x1 x2 x3 x4) : (State.engineRun x0 x1 x2 x3 x4).2.kept = x0.kept := by
  unfold State.engineRun
  dsimp only
  (repeat' split) <;> grind [kept_spReads, kept_engineSteps, kept_engineFinish, State.kept]

theorem kept_enginesCycle (x0 : State) (x1 x2 x3) : (State.enginesCycle x0 x1 x2 x3).kept = x0.kept := by
  unfold State.enginesCycle
  simp [kept_engineRun, kept_modCluster, kept_foldl, kept_foldl2, kept_mk, kept_ite, kept_ite2]

theorem kept_moveCluster (x0 : State) (x1 x2 x3) : (State.moveCluster x0 x1 x2 x3).kept = x0.kept := by
  simp only [State.moveCluster, kept_popSides, kept_streamsCycle, kept_enginesCycle, kept_memCycle, kept_landSel, kept_foldl, kept_mk]

theorem kept_setWaits (x0 : State) (x1 x2) : (State.setWaits x0 x1 x2).kept = x0.kept := by
  unfold State.setWaits
  simp [kept_setFld, kept_foldl, kept_mk, kept_ite, kept_ite2]

theorem kept_openBatch (x0 : State) (x1) : (State.openBatch x0 x1).kept = x0.kept := by
  simp only [State.openBatch, kept_modRegion, kept_foldl, kept_mk]

theorem kept_opening (x0 : State) (x1 x2) : (State.opening x0 x1 x2).kept = x0.kept := by
  unfold State.opening
  grind [kept_auCheck, kept_allClusters, kept_land, State.kept]

theorem kept_assertFault (x0 : State) (x1 x2) : (State.assertFault x0 x1 x2).kept = x0.kept := by
  simp only [State.assertFault, kept_raise, kept_mk]

theorem kept_flush (x0 : State) (x1) : (State.flush x0 x1).kept = x0.kept := by
  unfold State.flush
  (repeat' split) <;> simp [kept_record, kept_modRegion, kept_foldl, kept_mk]

theorem kept_fenceFaults (x0 : State) (x1 x2) : (State.fenceFaults x0 x1 x2).kept = x0.kept := by
  unfold State.fenceFaults
  (repeat' split) <;> simp [kept_raise, kept_foldl, kept_mk]

theorem kept_faultsAt (x0 : State) (x1 x2 x3 x4) : (State.faultsAt x0 x1 x2 x3 x4).kept = x0.kept := by
  unfold State.faultsAt
  dsimp only
  (repeat' split) <;> simp [kept_raise, kept_modRegion, kept_assertFault, kept_fenceFaults, kept_opening, kept_openBatch, kept_foldl]

theorem kept_executeCycle (x0 : State) (x1 x2) : (State.executeCycle x0 x1 x2).kept = x0.kept := by
  unfold State.executeCycle
  dsimp only
  (repeat' split) <;> simp_all [kept_setWaits, kept_modRegion, kept_allClusters, kept_landSel, kept_issueSlots, kept_moveCluster, kept_modCluster, kept_flush, kept_ctlStep, kept_foldl, kept_mk]

theorem kept_readyHop (x0 : State) (x1 x2 x3 x4 x5) : (State.readyHop x0 x1 x2 x3 x4 x5).kept = x0.kept := by
  unfold State.readyHop
  grind [kept_modCluster, State.kept]

theorem kept_flowNext (x0 : State) (x1 x2 x3) : (State.flowNext x0 x1 x2 x3).2.kept = x0.kept := by
  unfold State.flowNext
  dsimp only
  (repeat' split) <;> simp_all [kept_readyHop, kept_foldl, kept_mk]

theorem kept_flowPath (x0 : State) (x1 x2 x3 x4) : (State.flowPath x0 x1 x2 x3 x4).2.kept = x0.kept := by
  induction x3 generalizing x0 x4 with
  | zero => rfl
  | succ n ih =>
    unfold State.flowPath
    split
    · rfl
    · dsimp only
      rw [ih, kept_foldl2]
      intro a x
      exact kept_flowNext ..

theorem kept_stallPath (x0 : State) (x1 x2 x3) : (State.stallPath x0 x1 x2 x3).2.kept = x0.kept := by
  simp only [State.stallPath, kept_flowPath, kept_foldl, kept_mk]

theorem kept_flowsStep (x0 : State) (x1 x2 x3) : (State.flowsStep x0 x1 x2 x3).kept = x0.kept := by
  simp only [State.flowsStep, kept_modCluster, kept_foldl, kept_mk]

theorem kept_beatsStep (x0 : State) (x1 x2 x3 x4) : (State.beatsStep x0 x1 x2 x3 x4).kept = x0.kept := by
  simp only [State.beatsStep, kept_modCluster, kept_foldl, kept_mk]

theorem kept_stallMove (x0 : State) (x1 x2 x3) : (State.stallMove x0 x1 x2 x3).kept = x0.kept := by
  unfold State.stallMove
  dsimp only
  (repeat' split) <;> simp_all [kept_flowsStep, kept_beatsStep, kept_landSel, kept_streamsMove, kept_popSides, kept_modCluster, kept_foldl, kept_mk]

theorem kept_stallStep (x0 : State) (x1 x2 x3 x4 x5) : (State.stallStep x0 x1 x2 x3 x4 x5).kept = x0.kept := by
  unfold State.stallStep
  dsimp only
  (repeat' split) <;> simp_all [kept_modRegion, kept_count, kept_assertFault, kept_openBatch, kept_flush, kept_stallMove, kept_foldl, kept_mk]

theorem kept_wideStall (x0 : State) (x1 x2) : (State.wideStall x0 x1 x2).kept = x0.kept := by
  unfold State.wideStall
  dsimp only
  (repeat' split) <;> simp_all [kept_stallPath, kept_flush, kept_fenceFaults, kept_openBatch, kept_stallStep, kept_setWaits, kept_count, kept_modRegion, kept_foldl, kept_mk]

theorem kept_queueStall (x0 : State) (x1 x2) : (State.queueStall x0 x1 x2).kept = x0.kept := by
  simp only [State.queueStall, kept_setWaits, kept_count, kept_modRegion, kept_foldl, kept_mk]

theorem kept_aclk (x0 : State) (x1) : (State.aclk x0 x1).kept = x0.kept := by
  unfold State.aclk
  dsimp only
  (repeat' split) <;> simp_all [kept_raise, kept_modRegion, kept_flush, kept_faultsAt, kept_setWaits, kept_wideStall, kept_executeCycle, kept_queueStall, kept_foldl, kept_mk]

theorem kept_queueTimeout (x0 : State) (x1) : (State.queueTimeout x0 x1).kept = x0.kept := by
  unfold State.queueTimeout
  dsimp only
  (repeat' split) <;> simp_all [kept_raise, kept_foldl, kept_mk]

theorem kept_enterCluster (x0 : State) (x1 x2 x3) : (State.enterCluster x0 x1 x2 x3).kept = x0.kept := by
  simp only [State.enterCluster, kept_modCluster, kept_foldl, kept_mk]

theorem kept_beginSegment (s : State) (r) : (State.beginSegment s r).kept = s.kept := by
  have ite : ∀ (c : Prop) [Decidable c] (t : State), t.kept = s.kept → (if c then t.setImgState 4 else t).kept = s.kept := by
    intro c _ t h
    split
    · rw [kept_setImgState, h]
    · exact h
  unfold State.beginSegment
  split
  · rfl
  · split
    · rfl
    · dsimp only
      refine ite _ _ ?_
      rw [kept_wr, kept_modRegion, kept_allClusters _ (fun s c => kept_enterCluster _ _ _ _),
        kept_allClusters _ (fun s c => kept_landSel _ _ _ _ _),
        kept_allClusters _ (fun s c => kept_landSel _ _ _ _ _)]

theorem kept_setPort (x0 : State) (x1 x2) : (State.setPort x0 x1 x2).kept = x0.kept := by
  simp only [State.setPort, kept_foldl, kept_mk]

theorem kept_modPort (x0 : State) (x1 x2) : (State.modPort x0 x1 x2).kept = x0.kept := by
  simp only [State.modPort, kept_setPort, kept_foldl, kept_mk]

theorem kept_sendFlit (x0 : State) (x1 x2 x3 x4) : (State.sendFlit x0 x1 x2 x3 x4).kept = x0.kept := by
  unfold State.sendFlit
  dsimp only
  (repeat' split) <;> simp_all [kept_modPort, kept_emit, kept_foldl, kept_mk]

theorem kept_sendIdle (x0 : State) (x1) : (State.sendIdle x0 x1).kept = x0.kept := by
  simp only [State.sendIdle, kept_sendFlit, kept_foldl, kept_mk]

theorem kept_sendCap (x0 : State) (x1) : (State.sendCap x0 x1).kept = x0.kept := by
  simp only [State.sendCap, kept_sendFlit, kept_foldl, kept_mk]

theorem kept_sendNumbered (x0 : State) (x1 x2 x3) : (State.sendNumbered x0 x1 x2 x3).kept = x0.kept := by
  simp only [State.sendNumbered, kept_modPort, kept_sendFlit, kept_foldl, kept_mk]

theorem kept_train (x0 : State) (x1 x2) : (State.train x0 x1 x2).kept = x0.kept := by
  simp only [State.train, kept_setPort, kept_setFld, kept_foldl, kept_mk]

theorem kept_portFail (x0 : State) (x1) : (State.portFail x0 x1).kept = x0.kept := by
  simp only [State.portFail, kept_setFld, kept_modPort, kept_foldl, kept_mk]

theorem kept_enterPhase (x0 : State) (x1 x2) : (State.enterPhase x0 x1 x2).kept = x0.kept := by
  unfold State.enterPhase
  (repeat' split) <;> simp [kept_portFail, kept_modPort, kept_foldl, kept_mk]

theorem kept_emptyPort (x0 : State) (x1) : (State.emptyPort x0 x1).kept = x0.kept := kept_modPort _ _ _

theorem kept_fencePort (x0 : State) (x1) : (State.fencePort x0 x1).kept = x0.kept :=
  (kept_setFld _ _ _).trans (kept_emptyPort _ _)

theorem kept_takePeer (x0 : State) (x1) : (State.takePeer x0 x1).kept = x0.kept := by
  simp only [State.takePeer, kept_setFld, kept_foldl, kept_mk]

theorem kept_peerCheck (x0 : State) (x1) : (State.peerCheck x0 x1).kept = x0.kept := by
  unfold State.peerCheck
  dsimp only
  (repeat' split) <;> simp_all [kept_setFld, kept_logEdge, kept_fencePort, kept_foldl, kept_mk]

theorem kept_ringOut (x0 : State) (x1 x2) : (State.ringOut x0 x1 x2).kept = x0.kept := by
  induction x2 generalizing x0 with
  | zero => rfl
  | succ n ih =>
    unfold State.ringOut
    have hp := kept_pop x0 (keyOfQh (x0.fld (Rg.VYB_BIND_OUTQ x1)))
    dsimp only
    split
    · rfl
    · split
      · rename_i e
        rw [e] at hp
        split
        · rw [kept_logEdge, kept_fencePort]
          exact hp
        · rw [ih, kept_modPort]
          split
          · exact hp
          · exact (kept_logEdge ..).trans hp
      · rename_i e
        rw [e] at hp
        exact hp

theorem kept_ringIn (x0 : State) (x1 x2) : (State.ringIn x0 x1 x2).kept = x0.kept := by
  induction x2 generalizing x0 x1 with
  | zero => first | rfl | (unfold State.ringIn; rfl) | (unfold State.ringIn; split <;> rfl)
  | succ n ih =>
    unfold State.ringIn
    dsimp only
    (repeat' split) <;> simp [ih, kept_modPort, kept_push, kept_logEdge, kept_fencePort, kept_foldl, kept_mk, kept_ite, kept_ite2]

theorem kept_pumpOne (s : State) (p) : ∀ t, State.pumpOne s p = some t → t.kept = s.kept := by
  intro t
  unfold State.pumpOne
  dsimp only
  split
  · intro h
    cases h
    rw [kept_modPort, kept_sendNumbered]
  · split
    · split
      · intro h
        cases h
        rw [kept_modPort, kept_sendNumbered]
      · intro h
        cases h
    · intro h
      cases h

theorem kept_pump (s : State) (p n) : (State.pump s p n).kept = s.kept := by
  induction n generalizing s with
  | zero => rfl
  | succ n ih =>
    unfold State.pump
    split
    · rename_i t h
      rw [ih, kept_pumpOne s p t h]
    · rfl

theorem kept_tell (x0 : State) (x1) : (State.tell x0 x1).kept = x0.kept := by
  unfold State.tell
  dsimp only
  (repeat' split) <;> simp_all [kept_sendIdle, kept_foldl, kept_mk]

theorem kept_portRun (x0 : State) (x1) : (State.portRun x0 x1).kept = x0.kept := by
  unfold State.portRun
  dsimp only
  (repeat' split) <;> simp_all [kept_ringOut, kept_ringIn, kept_pump, kept_tell, kept_foldl, kept_mk]

theorem kept_portsRun (x0 : State) : (State.portsRun x0).kept = x0.kept := by
  unfold State.portsRun
  simp [kept_portRun, kept_foldl, kept_mk, kept_ite, kept_ite2]

theorem kept_portSend (x0 : State) (x1 x2) : (State.portSend x0 x1 x2).kept = x0.kept := by
  simp only [State.portSend, kept_ite, kept_portRun, kept_modPort, ite_self]

theorem kept_rxAbort (x0 : State) : (State.rxAbort x0).kept = x0.kept := by
  unfold State.rxAbort
  (repeat' split) <;> simp [kept_emit, kept_foldl, kept_mk]

theorem kept_loadFail (x0 : State) (x1 x2) : (State.loadFail x0 x1 x2).kept = x0.kept := by
  unfold State.loadFail
  grind [kept_rxAbort, kept_setImgState, kept_disableClusters, kept_wr, State.kept]

theorem kept_pathLost (x0 : State) (x1) : (State.pathLost x0 x1).kept = x0.kept := by
  unfold State.pathLost
  dsimp only
  split <;> simp [kept_loadFail, kept_mk]

theorem kept_portLeave (x0 : State) (x1) : (State.portLeave x0 x1).kept = x0.kept := by
  unfold State.portLeave
  dsimp only
  (repeat' split) <;> simp_all [kept_pathLost, kept_fencePort, kept_setFld, kept_foldl, kept_mk]

theorem kept_portDown (x0 : State) (x1) : (State.portDown x0 x1).kept = x0.kept := by
  unfold State.portDown
  grind [kept_train, kept_portLeave, kept_count, State.kept]

theorem kept_portOff (x0 : State) (x1) : (State.portOff x0 x1).kept = x0.kept := by
  simp only [State.portOff, kept_setFld, kept_modPort, kept_portLeave, kept_foldl, kept_mk]

theorem kept_portEnter (x0 : State) (x1 x2 x3 x4) : (State.portEnter x0 x1 x2 x3 x4).kept = x0.kept := by
  simp only [State.portEnter, kept_modPort, kept_setFld, kept_portRun, kept_peerCheck, kept_takePeer, kept_foldl, kept_mk]

theorem kept_phaseDone (x0 : State) (x1 x2 x3) : (State.phaseDone x0 x1 x2 x3).kept = x0.kept := by
  unfold State.phaseDone
  dsimp only
  (repeat' split) <;> simp_all [kept_enterPhase, kept_sendCap, kept_modPort, kept_portFail, kept_portEnter, kept_foldl, kept_mk]

theorem kept_phaseLate (x0 : State) (x1) : (State.phaseLate x0 x1).kept = x0.kept := by
  unfold State.phaseLate
  dsimp only
  (repeat' split) <;> simp_all [kept_enterPhase, kept_foldl, kept_mk]

theorem kept_detectAgain (x0 : State) (x1 x2) : (State.detectAgain x0 x1 x2).kept = x0.kept := by
  unfold State.detectAgain
  dsimp only
  (repeat' split) <;> simp_all [kept_phaseDone, kept_modPort, kept_foldl, kept_mk]

theorem kept_vybCtl (x0 : State) (x1 x2) : (State.vybCtl x0 x1 x2).kept = x0.kept := by
  unfold State.vybCtl
  dsimp only
  (repeat' split) <;> simp_all [kept_wr, kept_portOff, kept_train, kept_portLeave, kept_foldl, kept_mk]

theorem kept_takeAck (x0 : State) (x1 x2) : (State.takeAck x0 x1 x2).kept = x0.kept := by
  simp only [State.takeAck, kept_modPort, kept_foldl, kept_mk]

theorem kept_resendAll (x0 : State) (x1) : (State.resendAll x0 x1).kept = x0.kept := by
  unfold State.resendAll
  dsimp only
  (repeat' split) <;> simp_all [kept_portDown, kept_count, kept_sendFlit, kept_modPort, kept_foldl, kept_mk]

theorem kept_takeCredits (x0 : State) (x1 x2) : (State.takeCredits x0 x1 x2).kept = x0.kept := by
  unfold State.takeCredits
  (repeat' split) <;> simp [kept_takeAck, kept_resendAll, kept_foldl, kept_mk]

theorem kept_askAgain (x0 : State) (x1) : (State.askAgain x0 x1).kept = x0.kept := kept_modPort _ _ _

theorem kept_badFlit (x0 : State) (x1) : (State.badFlit x0 x1).kept = x0.kept := by
  simp only [State.badFlit, kept_askAgain, kept_count, kept_foldl, kept_mk]

theorem kept_outOfOrder (x0 : State) (x1) : (State.outOfOrder x0 x1).kept = x0.kept := by
  unfold State.outOfOrder
  grind [kept_askAgain, State.kept]

theorem kept_accept (x0 : State) (x1) : (State.accept x0 x1).kept = x0.kept := by
  simp only [State.accept, kept_modPort, kept_foldl, kept_mk]

theorem kept_inbound (x0 : State) (x1 x2 x3) : (State.inbound x0 x1 x2 x3).kept = x0.kept := by
  unfold State.inbound
  dsimp only
  (repeat' split) <;> simp_all [kept_modPort, kept_foldl, kept_mk]

theorem kept_flitLost (x0 : State) (x1 x2) : (State.flitLost x0 x1 x2).kept = x0.kept := kept_log _ _ _

theorem kept_carried (s : State) (ord src dest type node f) (hf : ∀ s, (f s).kept = s.kept) :
    (State.carried s ord src dest type node f).kept = s.kept := by
  unfold State.carried
  split <;> simp only [kept_ite, kept_flitLost, hf, ite_self]

theorem kept_linkPacket (x0 : State) (x1 x2 x3) : (State.linkPacket x0 x1 x2 x3).kept = x0.kept := by
  unfold State.linkPacket
  dsimp only
  (repeat' split) <;> simp_all [kept_flitLost, kept_emit, kept_logEdge, kept_foldl, kept_mk]

theorem kept_ctlWords (x0 : State) (x1 x2 x3) : (State.ctlWords x0 x1 x2 x3).kept = x0.kept := by
  unfold State.ctlWords
  simp [kept_modPort, kept_linkPacket, kept_foldl, kept_mk]

theorem kept_numbered (s : State) (p type flit f) (hf : ∀ s, (f s).kept = s.kept) : (State.numbered s p type flit f).kept = s.kept := by
  unfold State.numbered
  dsimp only
  split
  · rfl
  · split
    · exact (kept_portRun _ _).trans (kept_badFlit _ _)
    · split
      · rfl
      · split
        · exact kept_takeCredits ..
        · split
          · rw [kept_portRun, hf, kept_accept, kept_takeCredits]
          · rw [kept_portRun, kept_outOfOrder, kept_takeCredits]

theorem kept_training (x0 : State) (x1 x2) : (State.training x0 x1 x2).kept = x0.kept := by
  unfold State.training
  dsimp only
  (repeat' split) <;> simp_all [kept_badFlit, kept_count, kept_takeCredits, kept_portRun, kept_peerCheck, kept_takePeer, kept_modPort, kept_sendCap, kept_foldl, kept_mk]

theorem kept_announceReady (x0 : State) : (State.announceReady x0).kept = x0.kept := by
  unfold State.announceReady
  simp [kept_portRun, kept_peerCheck, kept_sendCap, kept_foldl, kept_mk, kept_ite, kept_ite2]

theorem kept_bindPorts (x0 : State) (x1 x2) : (State.bindPorts x0 x1 x2).kept = x0.kept := by
  unfold State.bindPorts
  simp [kept_wr, kept_setFld, kept_foldl, kept_mk, kept_ite, kept_ite2]

theorem kept_setCable (x0 : State) (x1 x2) : (State.setCable x0 x1 x2).kept = x0.kept := by
  simp only [State.setCable, kept_foldl, kept_mk]

theorem kept_vcabStep (x0 : State) (x1 x2) : (State.vcabStep x0 x1 x2).kept = x0.kept := by
  unfold State.vcabStep
  dsimp only
  (repeat' split) <;> simp_all [kept_emit, kept_setCable, kept_foldl, kept_mk]

theorem kept_vcabAll (x0 : State) : (State.vcabAll x0).kept = x0.kept := by
  unfold State.vcabAll
  simp [kept_foldl, kept_vcabStep]

theorem kept_segmentDark (x0 : State) (x1) : (State.segmentDark x0 x1).kept = x0.kept := by
  unfold State.segmentDark
  simp [kept_portDown, kept_modPort, kept_foldl, kept_mk, kept_ite, kept_ite2]

theorem kept_quote (x0 : State) (x1) : (State.quote x0 x1).2.kept = x0.kept := by
  simp only [State.quote, kept_foldl, kept_mk]

theorem kept_signMsg (x0 : State) (x1) : (State.signMsg x0 x1).2.kept = x0.kept := by
  simp only [State.signMsg, kept_foldl, kept_mk]

theorem kept_unlessHeld (s t : State) (h : t.kept = s.kept) : (State.unlessHeld s t).kept = s.kept := by
  unfold State.unlessHeld
  split
  · rfl
  · exact h

theorem kept_setDramCell (x0 : State) (x1 x2 x3 x4) : (State.setDramCell x0 x1 x2 x3 x4).kept = x0.kept := by
  simp only [State.setDramCell, kept_foldl, kept_mk]

theorem kept_burstFlip (x0 : State) (x1 x2 x3) : (State.burstFlip x0 x1 x2 x3).kept = x0.kept := by
  unfold State.burstFlip
  dsimp only
  (repeat' split) <;> simp_all [kept_setFld, kept_setDramCell, kept_foldl, kept_mk]

theorem kept_dramFound (x0 : State) (x1 x2 x3 x4 x5 x6) : (State.dramFound x0 x1 x2 x3 x4 x5 x6).2.kept = x0.kept := by
  unfold State.dramFound
  dsimp only
  (repeat' split) <;> simp_all [kept_burstFlip, kept_setDramCell, kept_count, kept_log, kept_foldl, kept_mk]

theorem kept_dramWord (s : State) (n a) : (State.dramWord s n a).2.kept = s.kept := by
  unfold State.dramWord
  split
  · rfl
  · split
    · rfl
    · split
      · rfl
      · rw [kept_dramFound]

theorem kept_dramJoin (ws y) : (State.dramJoin ws y).2.kept = y.2.kept := by
  obtain ⟨y, s⟩ := y
  cases y <;> rfl

theorem kept_dramMore (n a x i) : (State.dramMore n a x i).2.kept = x.2.kept := by
  obtain ⟨y, s⟩ := x
  cases y with
  | error e => rfl
  | ok ws =>
    unfold State.dramMore
    rw [kept_dramJoin, kept_dramWord]

theorem kept_dramWords (s : State) (n a m) : (State.dramWords s n a m).2.kept = s.kept := by
  unfold State.dramWords
  exact kept_foldl2 _ (fun x i => kept_dramMore n a x i) _ _

theorem kept_countTxn (s : State) (n a len) : (State.countTxn s n a len).kept = s.kept := by
  unfold State.countTxn
  refine kept_foldl _ (fun s i => ?_) _ _
  split
  · exact kept_count _ _ _
  · rfl

theorem kept_dramRead (x0 : State) (x1 x2 x3) : (State.dramRead x0 x1 x2 x3).2.kept = x0.kept := by
  unfold State.dramRead
  grind [kept_dramWords, kept_countTxn, State.kept]

theorem kept_dramPut (x0 : State) (x1 x2 x3 x4 x5) : (State.dramPut x0 x1 x2 x3 x4 x5).kept = x0.kept := by
  simp only [State.dramPut, kept_setDramCell, kept_foldl, kept_mk]

theorem kept_dramWriteAt (s : State) (n ch b e w) : (State.dramWriteAt s n ch b e w).kept = s.kept := by
  unfold State.dramWriteAt
  dsimp only
  split
  · rw [kept_burstFlip, kept_dramPut]
  · rw [kept_dramPut]

theorem kept_dramWriteMore (n e x w) : (State.dramWriteMore n e x w).2.kept = x.2.kept := by
  obtain ⟨y, s⟩ := x
  cases y with
  | error e => rfl
  | ok u =>
    unfold State.dramWriteMore
    dsimp only
    split
    · rfl
    · split
      · rfl
      · split
        · rfl
        · rw [kept_dramWriteAt]

theorem kept_dramWriteWords (s : State) (n a bs) : (State.dramWriteWords s n a bs).2.kept = s.kept := by
  unfold State.dramWriteWords
  exact kept_foldl2 _ (fun x w => kept_dramWriteMore n _ x w) _ _

theorem kept_dramWrite (x0 : State) (x1 x2 x3) : (State.dramWrite x0 x1 x2 x3).2.kept = x0.kept := by
  unfold State.dramWrite
  grind [kept_dramWriteWords, kept_countTxn, State.kept]

theorem kept_pageRead (x0 : State) (x1 x2 x3 x4) : (State.pageRead x0 x1 x2 x3 x4).2.kept = x0.kept := by
  unfold State.pageRead
  grind [kept_dramRead, State.kept]

theorem kept_pageWrite (x0 : State) (x1 x2 x3 x4) : (State.pageWrite x0 x1 x2 x3 x4).2.kept = x0.kept := by
  unfold State.pageWrite
  grind [kept_dramWrite, State.kept]

theorem kept_refuseLoad (x0 : State) (x1) : (State.refuseLoad x0 x1).kept = x0.kept := by
  simp only [State.refuseLoad, kept_record, kept_disableClusters, kept_setImg, kept_setFld, kept_foldl, kept_mk]

theorem kept_applyRemap (x0 : State) (x1) : (State.applyRemap x0 x1).kept = x0.kept := by
  unfold State.applyRemap
  dsimp only
  (repeat' split) <;> simp_all [kept_setFld, kept_foldl, kept_mk]

theorem kept_applyRemaps (s : State) (img p) : (State.applyRemaps s img p).kept = s.kept := by
  unfold State.applyRemaps
  dsimp only
  refine (kept_foldl _ (fun s k => ?_) _ _).trans ?_
  · split
    · rfl
    · split
      · exact kept_applyRemap _ _
      · rfl
  · simp only [kept_mk]
    refine kept_foldl _ (fun s r => ?_) _ _
    split
    · rfl
    · exact kept_wr _ _ _

theorem kept_reportRemaps (x0 : State) : (State.reportRemaps x0).kept = x0.kept := by
  unfold State.reportRemaps
  simp [kept_logRegion, kept_foldl, kept_mk]

theorem kept_loadCluster (x0 : State) (x1 x2 x3 x4) : (State.loadCluster x0 x1 x2 x3 x4).kept = x0.kept := by
  unfold State.loadCluster
  dsimp only
  (repeat' split) <;> simp_all [kept_modCluster, kept_wr, kept_setFld, kept_foldl, kept_mk]

theorem kept_dramLost (x0 : State) (x1) : (State.dramLost x0 x1).kept = x0.kept := by
  simp only [State.dramLost, kept_foldl, kept_mk]

theorem kept_loadStacks (x0 : State) : (State.loadStacks x0).kept = x0.kept := by
  unfold State.loadStacks
  dsimp only
  (repeat' split) <;> simp_all [kept_dramLost, kept_foldl, kept_mk]

theorem kept_clearFences (x0 : State) : (State.clearFences x0).kept = x0.kept := by
  simp only [State.clearFences, kept_foldl, kept_mk]

theorem kept_loadRegion (x0 : State) (x1) : (State.loadRegion x0 x1).kept = x0.kept := by
  simp only [State.loadRegion, kept_modRegion, kept_wr, kept_foldl, kept_mk]

theorem kept_wipeClusters (x0 : State) : (State.wipeClusters x0).kept = x0.kept := by
  unfold State.wipeClusters
  simp [kept_modCluster, kept_setFld, kept_foldl, kept_foldl2, kept_mk, kept_ite, kept_ite2]

theorem kept_writePlacement (x0 : State) (x1 x2) : (State.writePlacement x0 x1 x2).kept = x0.kept := by
  unfold State.writePlacement
  dsimp only
  (repeat' split) <;> simp_all [kept_wipeClusters, kept_applyRemaps, kept_loadCluster, kept_loadRegion, kept_bindPorts, kept_clearFences, kept_loadStacks, kept_foldl, kept_mk]

theorem kept_showCheck (x0 : State) (x1 x2) : (State.showCheck x0 x1 x2).kept = x0.kept := by
  simp only [State.showCheck, kept_setFld]

theorem kept_checkFailed (x0 : State) (x1) : (State.checkFailed x0 x1).kept = x0.kept := by
  unfold State.checkFailed
  simp [kept_showCheck, kept_refuseLoad, kept_foldl]

theorem kept_enableImage (x0 : State) : (State.enableImage x0).kept = x0.kept := by
  unfold State.enableImage
  simp [kept_showCheck, kept_setFld, kept_setImg, kept_announceReady, kept_foldl, kept_mk]

theorem kept_runChecks (x0 : State) : (State.runChecks x0).kept = x0.kept := by
  unfold State.runChecks
  dsimp only
  (repeat' split) <;> simp_all [kept_reportRemaps, kept_wr, kept_setImgState, kept_checkFailed, kept_enableImage, kept_foldl, kept_mk]

theorem kept_sendHello (x0 : State) : (State.sendHello x0).kept = x0.kept := by
  unfold State.sendHello
  (repeat' split) <;> simp [kept_fresh, kept_emit, kept_foldl, kept_mk]

theorem kept_nextModels (s : State) (l) : (State.nextModels s l).kept = s.kept := by
  induction l generalizing s with
  | nil => simp only [State.nextModels, kept_mk]
  | cons x xs ih =>
    unfold State.nextModels
    dsimp only
    split
    · exact kept_loadFail ..
    · exact ih _
    · split
      · rw [ih]
        simp only [kept_mk]
      · simp only [kept_mk]

theorem kept_loadAdvance (x0 : State) : (State.loadAdvance x0).kept = x0.kept := by
  unfold State.loadAdvance
  dsimp only
  (repeat' split) <;> simp_all [kept_nextModels, kept_runChecks, kept_holdFinish, kept_sendHello, kept_foldl, kept_mk]

theorem kept_tagTile (x0 : State) (x1 x2) : (State.tagTile x0 x1 x2).kept = x0.kept := by
  unfold State.tagTile
  dsimp only
  (repeat' split) <;> simp_all [kept_tileTag, kept_markDone, kept_setFld, kept_foldl, kept_mk]

theorem kept_putTile (x0 : State) (x1 x2) : (State.putTile x0 x1 x2).kept = x0.kept := by
  simp only [State.putTile, kept_tileWrite, kept_foldl, kept_mk]

theorem kept_loadTile (x0 : State) (x1 x2) : (State.loadTile x0 x1 x2).kept = x0.kept := by
  simp only [State.loadTile, kept_tagTile, kept_putTile, kept_foldl, kept_mk]

theorem kept_modJob (x0 : State) (x1 x2) : (State.modJob x0 x1 x2).kept = x0.kept := by
  simp only [State.modJob, kept_foldl, kept_mk]

theorem kept_countSeg (x0 : State) : (State.countSeg x0).kept = x0.kept := by
  simp only [State.countSeg, kept_wr, kept_foldl, kept_mk]

theorem kept_writeSegment (x0 : State) (x1 x2 x3) : (State.writeSegment x0 x1 x2 x3).kept = x0.kept := by
  unfold State.writeSegment
  refine kept_foldl _ (fun s x => ?_) _ _
  grind [kept_loadTile, kept_countSeg, State.kept]

theorem kept_segmentRetry (x0 : State) (x1 x2) : (State.segmentRetry x0 x1 x2).kept = x0.kept := by
  unfold State.segmentRetry
  dsimp only
  split <;> simp [kept_modJob, kept_loadFail]

theorem kept_sealedSegment (x0 : State) (x1 x2 x3) : (State.sealedSegment x0 x1 x2 x3).kept = x0.kept := by
  unfold State.sealedSegment
  (repeat' split) <;> simp [kept_writeSegment, kept_loadAdvance, kept_modJob, kept_segmentRetry, kept_foldl, kept_mk]

theorem kept_layoutTile (x0 : State) (x1 x2 x3 x4) : (State.layoutTile x0 x1 x2 x3 x4).kept = x0.kept := by
  unfold State.layoutTile
  dsimp only
  (repeat' split) <;> simp_all [kept_loadFail, kept_putTile, kept_tagTile, kept_countSeg, kept_modJob, kept_loadAdvance, kept_foldl, kept_mk]

theorem kept_layoutRecord (x0 : State) (x1 x2 x3) : (State.layoutRecord x0 x1 x2 x3).kept = x0.kept := by
  unfold State.layoutRecord
  split
  · rw [kept_loadFail]
  · rw [kept_layoutTile]

theorem kept_loadSegment (x0 : State) (x1 x2) : (State.loadSegment x0 x1 x2).kept = x0.kept := by
  unfold State.loadSegment
  (repeat' split) <;> simp [kept_setFld, kept_loadFail, kept_sealedSegment, kept_layoutRecord, kept_foldl, kept_mk]

theorem kept_cmProbe (x0 : State) (x1 x2) : (State.cmProbe x0 x1 x2).2.kept = x0.kept := by
  induction x2 generalizing x0 with
  | nil => rfl
  | cons y ys ih =>
    unfold State.cmProbe
    grind [kept_cmRead, State.kept]

theorem kept_srcRead (x0 : State) : (State.srcRead x0).kept = x0.kept := by
  unfold State.srcRead
  (repeat' split) <;> simp [kept_cmProbe, kept_foldl, kept_mk]

theorem kept_loadWeights (x0 : State) (x1 x2 x3) : (State.loadWeights x0 x1 x2 x3).kept = x0.kept := by
  simp only [State.loadWeights, kept_loadAdvance, kept_wr, kept_setFld, kept_srcRead, kept_foldl, kept_mk]

theorem kept_loadPlaced (s : State) (img p headers) : (State.loadPlaced s img p headers).kept = s.kept := by
  unfold State.loadPlaced
  dsimp only
  split
  · rw [kept_refuseLoad, kept_setImg]
  · rw [kept_loadWeights, kept_writePlacement, kept_setImg]

theorem kept_loadImage (s : State) (img want headers) : (State.loadImage s img want headers).kept = s.kept := by
  unfold State.loadImage
  dsimp only
  split
  · rw [kept_refuseLoad, kept_setImgState]
    simp only [kept_mk, kept_wr]
  · rw [kept_loadPlaced, kept_setImgState]
    simp only [kept_mk, kept_wr]

theorem kept_swapBegin (x0 : State) (x1 x2) : (State.swapBegin x0 x1 x2).kept = x0.kept := by
  unfold State.swapBegin
  simp [kept_setFld, kept_wr, kept_sendHello, kept_foldl, kept_mk]

theorem kept_swapJobs (x0 : State) (x1 x2) : (State.swapJobs x0 x1 x2).kept = x0.kept := by
  unfold State.swapJobs
  (repeat' split) <;> simp only [kept_loadFail, kept_swapBegin]

theorem kept_swapCheck (x0 : State) (x1 x2) : (State.swapCheck x0 x1 x2).kept = x0.kept := by
  unfold State.swapCheck
  dsimp only
  (repeat' split) <;> simp_all [kept_loadFail, kept_swapJobs, kept_srcRead, kept_foldl, kept_mk]

theorem kept_clearProgress (x0 : State) : (State.clearProgress x0).kept = x0.kept := by
  unfold State.clearProgress
  simp [kept_wr, kept_foldl]

theorem kept_swapStart (x0 : State) (x1 x2 x3) : (State.swapStart x0 x1 x2 x3).kept = x0.kept := by
  unfold State.swapStart
  dsimp only
  (repeat' split) <;> simp only [kept_setFld, kept_wr, kept_swapCheck, kept_clearProgress, kept_mk]

theorem kept_stopStart (x0 : State) (x1) : (State.stopStart x0 x1).kept = x0.kept := by
  unfold State.stopStart
  dsimp only
  (repeat' split) <;> simp_all [kept_setFld, kept_wr, kept_holdFinish, kept_clearProgress, kept_foldl, kept_mk]

theorem kept_swpHoldWrite (x0 : State) (x1 x2) : (State.swpHoldWrite x0 x1 x2).kept = x0.kept := by
  simp only [State.swpHoldWrite, kept_holdFinish, kept_setFld, kept_foldl, kept_mk]

theorem kept_logPower (x0 : State) (x1 x2 x3 x4 x5) : (State.logPower x0 x1 x2 x3 x4 x5).kept = x0.kept := by
  simp only [State.logPower, kept_log, kept_foldl, kept_mk]

theorem kept_queuesOff (x0 : State) (x1) : (State.queuesOff x0 x1).kept = x0.kept := rfl

theorem kept_regionOff (x0 : State) (x1 x2) : (State.regionOff x0 x1 x2).kept = x0.kept := by
  simp only [State.regionOff, kept_queuesOff, kept_setRegion, kept_dramLost, kept_wr, kept_foldl, kept_mk]

theorem kept_regionOn (x0 : State) (x1) : (State.regionOn x0 x1).kept = x0.kept := by
  simp only [State.regionOn, kept_setFld, kept_foldl, kept_mk]

theorem kept_yieldFence (x0 : State) (x1 x2) : (State.yieldFence x0 x1 x2).kept = x0.kept := by
  simp only [State.yieldFence, kept_wr, kept_setFld, kept_foldl, kept_mk]

theorem kept_shortRecord (x0 : State) (x1 x2 x3 x4) : (State.shortRecord x0 x1 x2 x3 x4).kept = x0.kept := by
  simp only [State.shortRecord, kept_record, kept_foldl, kept_mk]

theorem kept_latch (x0 : State) (x1 x2 x3) : (State.latch x0 x1 x2 x3).kept = x0.kept := by
  unfold State.latch
  dsimp only
  (repeat' split) <;> simp_all [kept_yieldFence, kept_shortRecord, kept_regionOff, kept_logPower, kept_modRegion, kept_foldl, kept_mk]

theorem kept_short (x0 : State) (x1 x2 x3) : (State.short x0 x1 x2 x3).kept = x0.kept := by
  unfold State.short
  dsimp only
  (repeat' split) <;> simp_all [kept_latch, kept_foldl, kept_mk]

theorem kept_fenceDown (x0 : State) (x1) : (State.fenceDown x0 x1).kept = x0.kept := by
  simp only [State.fenceDown, kept_fresh, kept_halt, kept_setFld, kept_foldl, kept_mk]

theorem kept_driverFence (x0 : State) (x1 x2) : (State.driverFence x0 x1 x2).kept = x0.kept := by
  unfold State.driverFence
  dsimp only
  (repeat' split) <;> simp_all [kept_yieldFence, kept_regionOff, kept_halt, kept_fenceDown, kept_loadFail, kept_foldl, kept_mk]

theorem kept_vcoreFollow (x0 : State) (x1) : (State.vcoreFollow x0 x1).kept = x0.kept := by
  unfold State.vcoreFollow
  dsimp only
  (repeat' split) <;> simp_all [kept_fresh, kept_setFld, kept_foldl, kept_mk]

theorem kept_setVset (x0 : State) (x1 x2) : (State.setVset x0 x1 x2).kept = x0.kept := by
  simp only [State.setVset, kept_ite, kept_vcoreFollow, kept_setFld, ite_self]

theorem kept_vsetWrite (x0 : State) (x1 x2) : (State.vsetWrite x0 x1 x2).kept = x0.kept := by
  unfold State.vsetWrite
  dsimp only
  (repeat' split) <;> simp_all [kept_setVset, kept_setFld, kept_foldl, kept_mk]

theorem kept_tcapHeld (x0 : State) (x1) : (State.tcapHeld x0 x1).kept = x0.kept := by
  unfold State.tcapHeld
  (repeat' split) <;> simp [kept_setFld, kept_foldl, kept_mk]

theorem kept_avs (x0 : State) (x1 x2 x3) : (State.avs x0 x1 x2 x3).kept = x0.kept := by
  unfold State.avs
  simp [kept_setFld, kept_wr, kept_setVset, kept_setRegion, kept_tcapHeld, kept_foldl, kept_foldl2, kept_mk, kept_ite, kept_ite2]

theorem kept_senseBad (x0 : State) (x1 x2 x3) : (State.senseBad x0 x1 x2 x3).kept = x0.kept := by
  unfold State.senseBad
  dsimp only
  (repeat' split) <;> simp_all [kept_tcapHeld, kept_vcoreFollow, kept_logPower, kept_setFld, kept_foldl, kept_mk]

theorem kept_droop (x0 : State) (x1 x2) : (State.droop x0 x1 x2).kept = x0.kept := by
  unfold State.droop
  (repeat' split) <;> simp [kept_count, kept_modRegion, kept_foldl, kept_mk]

theorem kept_effMove (x0 : State) (x1 x2) : (State.effMove x0 x1 x2).kept = x0.kept := by
  unfold State.effMove
  dsimp only
  (repeat' split) <;> simp_all [kept_modRegion, kept_setFld, kept_setVset, kept_foldl, kept_mk]

theorem kept_ilim (x0 : State) (x1 x2) : (State.ilim x0 x1 x2).kept = x0.kept := by
  unfold State.ilim
  (repeat' split) <;> simp [kept_modRegion, kept_setFld, kept_foldl, kept_mk]

theorem kept_setPlim (x0 : State) (x1 x2) : (State.setPlim x0 x1 x2).kept = x0.kept := by
  simp only [State.setPlim, kept_setFld, kept_foldl, kept_mk]

theorem kept_capRead (x0 : State) (x1 x2 x3 x4) : (State.capRead x0 x1 x2 x3 x4).kept = x0.kept := by
  unfold State.capRead
  dsimp only
  (repeat' split) <;> simp_all [kept_setFld, kept_wr, kept_foldl, kept_mk]

theorem kept_capPut (s : State) (above calm) : (State.capPut s above calm).kept = s.kept := by
  simp only [State.capPut, kept_mk]

theorem kept_capLower (x0 : State) : (State.capLower x0).kept = x0.kept := by
  unfold State.capLower
  grind [kept_capPut, kept_setPlim, State.kept]

theorem kept_capRaise (x0 : State) : (State.capRaise x0).kept = x0.kept := by
  unfold State.capRaise
  grind [kept_capPut, kept_setPlim, State.kept]

theorem kept_capStep (s : State) (p) : (State.capStep s p).kept = s.kept := by
  unfold State.capStep State.capLower State.capRaise State.setPlim
  (repeat' split) <;> simp only [kept_capPut, kept_setFld]

theorem kept_powerCap (x0 : State) (x1 x2 x3 x4) : (State.powerCap x0 x1 x2 x3 x4).kept = x0.kept := by
  simp only [State.powerCap, kept_capStep, kept_capRead, kept_foldl, kept_mk]

theorem kept_brakeOn (x0 : State) (x1 x2 x3) : (State.brakeOn x0 x1 x2 x3).kept = x0.kept := by
  unfold State.brakeOn
  dsimp only
  (repeat' split) <;> simp_all [kept_setFld, kept_logEdge, kept_count, kept_foldl, kept_mk]

theorem kept_brakeOff (x0 : State) (x1) : (State.brakeOff x0 x1).kept = x0.kept := by
  unfold State.brakeOff
  (repeat' split) <;> simp [kept_foldl, kept_mk]

theorem kept_pgoodLow (x0 : State) : (State.pgoodLow x0).kept = x0.kept := by
  unfold State.pgoodLow
  (repeat' split) <;> simp [kept_emit, kept_foldl, kept_mk]

theorem kept_haltAll (x0 : State) : (State.haltAll x0).kept = x0.kept := by
  unfold State.haltAll
  simp [kept_halt, kept_foldl, kept_mk]

theorem kept_powerDown (x0 : State) : (State.powerDown x0).kept = x0.kept := by
  unfold State.powerDown
  (repeat' split) <;> simp [kept_haltAll, kept_pgoodLow, kept_foldl, kept_mk]

theorem kept_vinRead (x0 : State) (x1) : (State.vinRead x0 x1).kept = x0.kept := by
  unfold State.vinRead
  split
  · exact kept_setFld _ _ _
  · rfl

theorem kept_retain (x0 : State) (x1) : (State.retain x0 x1).kept = x0.kept := by
  unfold State.retain
  simp [kept_setFld, kept_wr, kept_foldl, kept_mk, kept_ite, kept_ite2]

theorem kept_refSelect (x0 : State) : (State.refSelect x0).kept = x0.kept := by
  simp only [State.refSelect, kept_setFld, kept_foldl, kept_mk]

theorem kept_refDrop (x0 : State) (x1) : (State.refDrop x0 x1).kept = x0.kept := by
  unfold State.refDrop
  dsimp only
  (repeat' split) <;> simp_all [kept_setFld, kept_refSelect, kept_foldl, kept_mk]

theorem kept_refGain (x0 : State) (x1) : (State.refGain x0 x1).kept = x0.kept := by
  unfold State.refGain
  dsimp only
  (repeat' split) <;> simp_all [kept_setFld, kept_refSelect, kept_foldl, kept_mk]

theorem kept_refCtl (x0 : State) (x1) : (State.refCtl x0 x1).kept = x0.kept := by
  unfold State.refCtl
  dsimp only
  (repeat' split) <;> simp_all [kept_wr, kept_refSelect, kept_foldl, kept_mk]

theorem kept_inputUse (x0 : State) (x1 x2) : (State.inputUse x0 x1 x2).kept = x0.kept := by
  simp only [State.inputUse, kept_setFld, kept_foldl, kept_mk]

theorem kept_cleanHold (x0 : State) (x1) : (State.cleanHold x0 x1).kept = x0.kept := by
  simp only [State.cleanHold, kept_setFld, kept_modRegion, kept_raise, kept_foldl, kept_mk]

theorem kept_inputLeave (x0 : State) (x1) : (State.inputLeave x0 x1).kept = x0.kept := by
  unfold State.inputLeave
  (repeat' split) <;> simp [kept_count, kept_inputUse, kept_cleanHold, kept_foldl, kept_mk]

theorem kept_inputGone (x0 : State) (x1 x2) : (State.inputGone x0 x1 x2).kept = x0.kept := by
  unfold State.inputGone
  (repeat' split) <;> simp [kept_inputLeave, kept_setFld, kept_modRegion]

theorem kept_depthHeard (x0 : State) (x1 x2 x3) : (State.depthHeard x0 x1 x2 x3).2.kept = x0.kept := by
  unfold State.depthHeard
  dsimp only
  (repeat' split) <;> simp_all [kept_modRegion, kept_inputUse, kept_setFld, kept_inputGone, kept_foldl, kept_mk]

theorem kept_depthSent (s : State) (r) : (State.depthSent s r).2.kept = s.kept := by
  unfold State.depthSent
  refine kept_foldl2 _ (fun a x => ?_) _ _
  split
  · exact kept_depthHeard ..
  · rfl

theorem kept_depthSpread (x0 : State) (x1 x2) : (State.depthSpread x0 x1 x2).kept = x0.kept := by
  induction x1 generalizing x0 x2 with
  | zero => rfl
  | succ n ih =>
    cases x2 with
    | nil => rfl
    | cons r rs =>
      unfold State.depthSpread
      exact (ih _ _).trans (kept_depthSent ..)

theorem kept_depthChanged (x0 : State) (x1) : (State.depthChanged x0 x1).kept = x0.kept := by
  simp only [State.depthChanged, kept_depthSpread, kept_foldl, kept_mk]

theorem kept_inputDrop (x0 : State) (x1 x2) : (State.inputDrop x0 x1 x2).kept = x0.kept := by
  unfold State.inputDrop
  dsimp only
  (repeat' split) <;> simp_all [kept_setFld, kept_modRegion, kept_depthChanged, kept_inputGone, kept_foldl, kept_mk]

theorem kept_inputGain (x0 : State) (x1 x2 x3) : (State.inputGain x0 x1 x2 x3).kept = x0.kept := by
  unfold State.inputGain
  dsimp only
  (repeat' split) <;> simp_all [kept_modRegion, kept_setFld, kept_depthChanged, kept_inputUse, kept_foldl, kept_mk]

theorem kept_relock (x0 : State) (x1 x2) : (State.relock x0 x1 x2).kept = x0.kept := by
  unfold State.relock
  grind [kept_depthChanged, kept_inputUse, kept_setFld, State.kept]

theorem kept_clksrcWrite (x0 : State) (x1 x2) : (State.clksrcWrite x0 x1 x2).kept = x0.kept := by
  unfold State.clksrcWrite
  dsimp only
  (repeat' split) <;> simp_all [kept_setFld, kept_depthChanged, kept_inputGone, kept_foldl, kept_mk]

theorem kept_ceilWrite (x0 : State) (x1 x2) : (State.ceilWrite x0 x1 x2).kept = x0.kept := by
  unfold State.ceilWrite
  dsimp only
  (repeat' split) <;> simp_all [kept_logRegion, kept_setFld, kept_foldl, kept_mk]

theorem kept_netRead (x0 : State) (x1 x2 x3 x4 x5) : (State.netRead x0 x1 x2 x3 x4 x5).2.2.kept = x0.kept := by
  unfold State.netRead
  dsimp only
  (repeat' split) <;> simp_all [kept_pageRead, kept_foldl, kept_mk]

theorem kept_pageHeader (x0 : State) (x1 x2 x3) : (State.pageHeader x0 x1 x2 x3).2.2.kept = x0.kept := by
  simp only [State.pageHeader, kept_netRead, kept_foldl, kept_mk]

theorem kept_walkRoot (x0 : State) (x1 x2) : (State.walkRoot x0 x1 x2).2.2.kept = x0.kept := by
  unfold State.walkRoot
  grind [kept_netRead, State.kept]

theorem kept_listPages (x0 : State) (x1 x2 x3) : (State.listPages x0 x1 x2 x3).2.2.kept = x0.kept := by
  induction x3 generalizing x0 x2 with
  | nil => rfl
  | cons y ys ih =>
    unfold State.listPages
    grind [kept_pageHeader, State.kept]

theorem kept_walkEntry (x0 : State) (x1 x2 x3 x4 x5) : (State.walkEntry x0 x1 x2 x3 x4 x5).2.2.kept = x0.kept := by
  unfold State.walkEntry
  grind [kept_netRead, kept_pageHeader, kept_listPages, State.kept]

theorem kept_netWrite (x0 : State) (x1 x2 x3 x4 x5) : (State.netWrite x0 x1 x2 x3 x4 x5).2.2.kept = x0.kept := by
  unfold State.netWrite
  dsimp only
  (repeat' split) <;> simp_all [kept_pageWrite, kept_foldl, kept_mk]

theorem kept_walkPieces (x0 : State) (x1 x2 x3 x4 x5 x6 x7 x8) : (State.walkPieces x0 x1 x2 x3 x4 x5 x6 x7 x8).2.2.kept = x0.kept := by
  induction x5 generalizing x0 x4 x6 x7 x8 with
  | nil => rfl
  | cons y ys ih =>
    unfold State.walkPieces
    grind [kept_netRead, kept_netWrite, kept_walkEntry, State.kept]

theorem kept_dmaRun (x0 : State) (x1 x2) : (State.dmaRun x0 x1 x2).2.kept = x0.kept := by
  unfold State.dmaRun
  grind [kept_walkRoot, kept_walkPieces, State.kept]

theorem kept_dmaDeliver (x0 : State) (x1 x2 x3) : (State.dmaDeliver x0 x1 x2 x3).kept = x0.kept := by
  simp only [State.dmaDeliver, kept_modCluster, kept_foldl, kept_mk]

theorem kept_dmaNext (x0 : State) (x1 x2 x3 x4) : (State.dmaNext x0 x1 x2 x3 x4).kept = x0.kept := by
  unfold State.dmaNext
  dsimp only
  (repeat' split) <;> simp_all [kept_dmaRun, kept_modCluster, kept_dmaDeliver, kept_foldl, kept_mk]

theorem kept_cmGather (x0 : State) (x1 x2 x3) : (State.cmGather x0 x1 x2 x3).2.kept = x0.kept := by
  induction x3 generalizing x0 x1 x2 with
  | zero => first | rfl | (unfold State.cmGather; rfl) | (unfold State.cmGather; split <;> rfl)
  | succ n ih =>
    unfold State.cmGather
    grind [kept_cmRead, State.kept]

theorem kept_cmTake (x0 : State) (x1 x2 x3) : (State.cmTake x0 x1 x2 x3).2.kept = x0.kept := by
  simp only [State.cmTake, kept_cmGather, kept_foldl, kept_mk]

theorem kept_cmSetWords (x0 : State) (x1 x2) : (State.cmSetWords x0 x1 x2).kept = x0.kept := by
  induction x2 generalizing x0 x1 with
  | nil => first | rfl | (unfold State.cmSetWords; rfl) | (unfold State.cmSetWords; split <;> rfl)
  | cons y ys ih =>
    unfold State.cmSetWords
    simp [ih, kept_cmWrite, kept_foldl, kept_mk, kept_ite, kept_ite2]

theorem kept_ctlDma (s : State) (addr peer len inward zero host) : (State.ctlDma s addr peer len inward zero host).2.kept = s.kept := by
  unfold State.ctlDma
  generalize (addr - 0x100000000000) / 0x2000000000 = n
  generalize (addr - 0x100000000000) % 0x2000000000 = a
  generalize decide (cmemBase ≤ peer ∧ peer < cmemBase + 0x10000000) = cm
  generalize decide (0x100000000000 ≤ addr ∧ addr < 0x130000000000 ∧ a + len ≤ s.stackSize n) = okStack
  generalize decide (peer + len ≤ cmemBase + 0x10000000) = okp
  dsimp only
  split
  · rfl
  · split
    · generalize hx : (if zero = true then _ else _ : Option (List Byte) × State) = x
      have hk : x.2.kept = s.kept := by
        rw [← hx]
        split
        · rfl
        · split
          · exact kept_cmTake ..
          · rfl
      split
      · exact hk
      · rename_i bs s1
        have h2 := kept_dramWrite s1 n a bs
        split
        · rename_i e1
          rw [e1] at h2
          exact h2.trans hk
        · rename_i e1
          rw [e1] at h2
          exact h2.trans hk
    · have h2 := kept_dramRead s n a len
      split
      · rename_i e1
        rw [e1] at h2
        exact h2
      · rename_i e1
        rw [e1] at h2
        exact h2
      · rename_i bs s1 e1
        rw [e1] at h2
        split
        · exact (kept_cmSetBytes ..).trans h2
        · exact (kept_emit ..).trans h2

theorem kept_report (x0 : State) (x1 x2 x3 x4 x5) : (State.report x0 x1 x2 x3 x4 x5).kept = x0.kept := by
  simp only [State.report, kept_cmSetWords, kept_setBu, kept_foldl, kept_mk]

theorem kept_enterStage (x0 : State) (x1) : (State.enterStage x0 x1).kept = x0.kept := by
  simp only [State.enterStage, kept_setBu, kept_foldl, kept_mk]

theorem kept_startPorts (x0 : State) : (State.startPorts x0).kept = x0.kept := by
  unfold State.startPorts
  simp [kept_train, kept_foldl, kept_mk, kept_ite, kept_ite2]

theorem kept_poweredUp (x0 : State) (x1 x2 x3 x4 x5) : (State.poweredUp x0 x1 x2 x3 x4 x5).kept = x0.kept := by
  unfold State.poweredUp
  dsimp only
  (repeat' split) <;> simp_all [kept_setFld, kept_emit, kept_startPorts, kept_report, kept_enterStage, kept_foldl, kept_mk]

theorem kept_powerBegin (x0 : State) : (State.powerBegin x0).kept = x0.kept := by
  unfold State.powerBegin
  split <;> rfl

theorem kept_powerUp (x0 : State) (x1 x2 x3 x4 x5 x6) : (State.powerUp x0 x1 x2 x3 x4 x5 x6).kept = x0.kept := by
  unfold State.powerUp
  dsimp only
  (repeat' split) <;> simp_all [kept_poweredUp, kept_vcabAll, kept_powerBegin, kept_foldl, kept_mk]

theorem kept_bootFail (x0 : State) (x1 x2 x3) : (State.bootFail x0 x1 x2 x3).kept = x0.kept := by
  simp only [State.bootFail, kept_setFld, kept_fresh, kept_report, kept_foldl, kept_mk]

theorem kept_bootLoad (x0 : State) (x1 x2) : (State.bootLoad x0 x1 x2).kept = x0.kept := by
  unfold State.bootLoad
  grind [kept_setFld, kept_cmSetWords, kept_report, kept_enterStage, State.kept]

theorem kept_bootImage (x0 : State) (x1 x2) : (State.bootImage x0 x1 x2).kept = x0.kept := by
  unfold State.bootImage
  dsimp only
  (repeat' split) <;> simp_all [kept_bootLoad, kept_bootFail]

theorem kept_relayOut (x0 : State) (x1 x2 x3 x4) : (State.relayOut x0 x1 x2 x3 x4).kept = x0.kept := by
  unfold State.relayOut
  (repeat' split) <;> simp [kept_logEdge, kept_portSend, kept_foldl, kept_mk]

theorem kept_bootAsk (x0 : State) (x1 x2 x3 x4) : (State.bootAsk x0 x1 x2 x3 x4).kept = x0.kept := by
  induction x3 generalizing x0 x1 x2 x4 with
  | zero => rfl
  | succ n ih =>
    unfold State.bootAsk
    dsimp only
    split
    · rfl
    · rw [ih]
      split
      · exact kept_relayOut ..
      · rfl

theorem kept_bootSend (x0 : State) (x1) : (State.bootSend x0 x1).kept = x0.kept := by
  unfold State.bootSend
  dsimp only
  (repeat' split) <;> simp_all [kept_bootAsk, kept_foldl, kept_mk]

theorem kept_bootGo (x0 : State) (x1 x2) : (State.bootGo x0 x1 x2).kept = x0.kept := by
  unfold State.bootGo
  dsimp only
  (repeat' split) <;> simp_all [kept_bootSend, kept_setFld, kept_foldl, kept_mk]

theorem kept_p2Body (x0 : State) : (State.p2Body x0).2.kept = x0.kept := by
  simp only [State.p2Body, kept_fresh, kept_foldl, kept_mk]

theorem kept_clockSeed (x0 : State) : (State.clockSeed x0).kept = x0.kept := by
  unfold State.clockSeed
  dsimp only
  (repeat' split) <;> simp_all [kept_p2Body, kept_enterStage, kept_report, kept_foldl, kept_mk]

theorem kept_seedMissed (x0 : State) : (State.seedMissed x0).kept = x0.kept := rfl

theorem kept_columnDone (x0 : State) (x1) : (State.columnDone x0 x1).kept = x0.kept := by
  unfold State.columnDone
  dsimp only
  (repeat' split) <;> simp_all [kept_foldl, kept_mk]

theorem kept_clockSeedLate (x0 : State) : (State.clockSeedLate x0).kept = x0.kept := by
  unfold State.clockSeedLate
  dsimp only
  (repeat' split) <;> simp_all [kept_p2Body, kept_report, kept_seedMissed, kept_foldl, kept_mk]

theorem kept_writeRepair (s : State) (find c) : (State.writeRepair s find c).kept = s.kept := by
  unfold State.writeRepair
  dsimp only
  rw [kept_setFld]
  refine kept_foldl _ (fun s m => ?_) _ _
  split
  · exact kept_setFld _ _ _
  · rfl

theorem kept_writeQret (x0 : State) (x1) : (State.writeQret x0 x1).kept = x0.kept := by
  unfold State.writeQret
  simp [kept_wr, kept_foldl, kept_mk]

theorem kept_fenceOff (x0 : State) (x1 x2) : (State.fenceOff x0 x1 x2).kept = x0.kept := by
  unfold State.fenceOff
  dsimp only
  (repeat' split) <;> simp_all [kept_yieldFence, kept_fenceDown, kept_foldl, kept_mk]

theorem kept_setUsable (x0 : State) (x1 x2) : (State.setUsable x0 x1 x2).kept = x0.kept := by
  unfold State.setUsable
  (repeat' split) <;> simp [kept_setFld, kept_fenceOff, kept_foldl, kept_mk]

theorem kept_listFence (x0 : State) (x1) : (State.listFence x0 x1).kept = x0.kept := by
  simp only [State.listFence, kept_ite, kept_fenceOff, ite_self]

theorem kept_p3Steps (x0 : State) (x1) : (State.p3Steps x0 x1).kept = x0.kept := by
  unfold State.p3Steps
  dsimp only
  (repeat' split) <;> simp_all [kept_writeQret, kept_writeRepair, kept_setFld, kept_setUsable, kept_listFence, kept_fenceOff, kept_foldl, kept_mk]

theorem kept_takeInputs (x0 : State) (x1) : (State.takeInputs x0 x1).kept = x0.kept := by
  unfold State.takeInputs
  simp [kept_inputGain, kept_foldl, kept_mk, kept_ite, kept_ite2]

theorem kept_feedNeighbours (s : State) (r) : (State.feedNeighbours s r).kept = s.kept := by
  unfold State.feedNeighbours
  refine kept_foldl _ (fun t x => ?_) _ _
  split
  · exact kept_takeInputs ..
  · rfl

theorem kept_tryLock (x0 : State) (x1) : (State.tryLock x0 x1).kept = x0.kept := by
  unfold State.tryLock
  dsimp only
  (repeat' split) <;> simp_all [kept_takeInputs, kept_feedNeighbours, kept_depthChanged, kept_inputUse, kept_foldl, kept_mk]

theorem kept_regionRamp (x0 : State) (x1 x2 x3 x4) : (State.regionRamp x0 x1 x2 x3 x4).kept = x0.kept := by
  unfold State.regionRamp
  dsimp only
  (repeat' split) <;> simp_all [kept_setFld, kept_wr, kept_setVset, kept_foldl, kept_mk]

theorem kept_rampRegion (x0 : State) (x1 x2) : (State.rampRegion x0 x1 x2).kept = x0.kept := by
  unfold State.rampRegion
  dsimp only
  (repeat' split) <;> simp_all [kept_regionRamp, kept_modRegion, kept_setFld, kept_latch, kept_regionOn, kept_foldl, kept_mk]

theorem kept_p3Wait (x0 : State) (x1) : (State.p3Wait x0 x1).kept = x0.kept := by
  simp only [State.p3Wait, kept_setFld, kept_mk]

theorem kept_p3One (x0 : State) (x1) : (State.p3One x0 x1).kept = x0.kept := by
  simp only [State.p3One, kept_ite, kept_listFence, kept_p3Steps, kept_mk, ite_self]

theorem kept_p3Advance (x0 : State) (n) : (State.p3Advance x0 n).kept = x0.kept := by
  induction n generalizing x0 with
  | zero => rfl
  | succ n ih =>
    unfold State.p3Advance
    split
    · exact (ih _).trans (kept_p3One _ _)
    · rfl

theorem kept_p3Report (x0 : State) (x1) : (State.p3Report x0 x1).kept = x0.kept := kept_report _ _ _ _ _ _

theorem kept_p3Region (x0 : State) (x1) : (State.p3Region x0 x1).kept = x0.kept := by
  unfold State.p3Region
  dsimp only
  (repeat' split) <;> simp_all [kept_p3Wait, kept_fenceOff, kept_foldl, kept_mk]

theorem kept_p3Finish (x0 : State) : (State.p3Finish x0).kept = x0.kept := by
  unfold State.p3Finish
  (repeat' split) <;> simp [kept_enterStage, kept_p3Report, kept_foldl, kept_mk]

theorem kept_p3Go (x0 : State) : (State.p3Go x0).kept = x0.kept := by
  simp only [State.p3Go, kept_ite, kept_p3Finish, kept_p3Report, kept_p3Advance, ite_self]

theorem kept_p3Retried (x0 : State) (x1) : (State.p3Retried x0 x1).kept = x0.kept := by
  simp only [State.p3Retried, kept_ite, kept_p3Report, kept_p3Go, ite_self]

theorem kept_shortTake (x0 : State) (x1 x2 x3) : (State.shortTake x0 x1 x2 x3).kept = x0.kept := by
  simp only [State.shortTake, kept_ite, kept_p3Retried, kept_short, ite_self]

theorem kept_listFenced (x0 : State) (x1) : (State.listFenced x0 x1).kept = x0.kept := by
  unfold State.listFenced
  simp [kept_listFence, kept_foldl, kept_ite]

theorem kept_wavefront (x0 : State) (x1 x2) : (State.wavefront x0 x1 x2).kept = x0.kept := by
  unfold State.wavefront
  simp [kept_fresh, kept_rampRegion, kept_listFenced, kept_tryLock, kept_p3Region, kept_p3Go, kept_columnDone, kept_foldl, kept_foldl2, kept_mk, kept_ite, kept_ite2]

theorem kept_shortRetry (x0 : State) (x1) : (State.shortRetry x0 x1).kept = x0.kept := by
  unfold State.shortRetry
  dsimp only
  (repeat' split) <;> simp_all [kept_setFld, kept_modRegion, kept_rampRegion, kept_logPower, kept_p3Region, kept_tryLock, kept_p3Retried, kept_foldl, kept_mk]

theorem kept_clockHoldLate (x0 : State) (x1) : (State.clockHoldLate x0 x1).kept = x0.kept := by
  unfold State.clockHoldLate
  (repeat' split) <;> simp [kept_p3Go, kept_fenceOff, kept_foldl, kept_mk]

theorem kept_dramZero (x0 : State) : (State.dramZero x0).kept = x0.kept := by
  unfold State.dramZero
  dsimp only
  (repeat' split) <;> simp_all [kept_burstFlip, kept_foldl, kept_mk]

theorem kept_fenceChannels (x0 : State) (x1) : (State.fenceChannels x0 x1).kept = x0.kept := by
  unfold State.fenceChannels
  simp [kept_fenceOff, kept_foldl]

theorem kept_retireEntry (x0 : State) (x1) : (State.retireEntry x0 x1).kept = x0.kept := by
  unfold State.retireEntry
  dsimp only
  (repeat' split) <;> simp [kept_wr]

theorem kept_stacksUp (x0 : State) (x1) : (State.stacksUp x0 x1).kept = x0.kept := by
  unfold State.stacksUp
  dsimp only
  split
  · rw [kept_enterStage, kept_foldl _ kept_retireEntry, kept_report, kept_dramZero, kept_foldl _ kept_fenceChannels]
  · rfl

theorem kept_linksUp (x0 : State) : (State.linksUp x0).kept = x0.kept := by
  unfold State.linksUp
  dsimp only
  (repeat' split) <;> simp_all [kept_enterStage, kept_report, kept_foldl, kept_mk]

theorem kept_runFailed (x0 : State) (x1) : (State.runFailed x0 x1).kept = x0.kept := by
  simp only [State.runFailed, kept_ite, kept_fenceOff, kept_setUsable, ite_self]

theorem kept_knownAnswers (x0 : State) (x1 x2 x3 x4 x5) : (State.knownAnswers x0 x1 x2 x3 x4 x5).kept = x0.kept := by
  unfold State.knownAnswers
  (repeat' split) <;> simp [kept_runFailed, kept_fenceOff, kept_enterStage, kept_report, kept_foldl, kept_mk]

theorem kept_ready (x0 : State) : (State.ready x0).kept = x0.kept := by
  unfold State.ready
  (repeat' split) <;> simp [kept_report, kept_setBu, kept_receive, kept_foldl, kept_mk]

theorem kept_gopShow (x0 : State) : (State.gopShow x0).kept = x0.kept := by
  simp only [State.gopShow, kept_setFld, kept_foldl, kept_mk]

theorem kept_setGop (x0 : State) (x1) : (State.setGop x0 x1).kept = x0.kept := by
  simp only [State.setGop, kept_gopShow, kept_foldl, kept_mk]

theorem kept_mark (x0 : State) (x1 x2 x3 x4 x5) : (State.mark x0 x1 x2 x3 x4 x5).kept = x0.kept := by
  unfold State.mark
  (repeat' split) <;> simp [kept_portSend, kept_foldl, kept_mk]

theorem kept_marks (x0 : State) (x1 x2 x3 x4 x5) : (State.marks x0 x1 x2 x3 x4 x5).kept = x0.kept := by
  unfold State.marks
  simp [kept_mark, kept_foldl, kept_mk]

theorem kept_gopRelease (x0 : State) (x1) : (State.gopRelease x0 x1).kept = x0.kept := by
  simp only [State.gopRelease, kept_setGop, kept_receive, kept_marks, kept_setFld, kept_foldl, kept_mk]

theorem kept_gopTry (x0 : State) : (State.gopTry x0).kept = x0.kept := by
  unfold State.gopTry
  dsimp only
  (repeat' split) <;> simp_all [kept_gopRelease, kept_mark, kept_setGop, kept_foldl, kept_mk]

theorem kept_arrive (x0 : State) (x1) : (State.arrive x0 x1).kept = x0.kept := by
  unfold State.arrive
  (repeat' split) <;> simp [kept_gopTry, kept_setGop, kept_foldl, kept_mk]

theorem kept_holdStart (x0 : State) (x1 x2 x3) : (State.holdStart x0 x1 x2 x3).kept = x0.kept := by
  simp only [State.holdStart, kept_setGop, kept_foldl, kept_mk]

theorem kept_holdEnd (x0 : State) : (State.holdEnd x0).kept = x0.kept := by
  simp only [State.holdEnd, kept_setGop, kept_foldl, kept_mk]

theorem kept_bcastAct (x0 : State) (x1 x2 x3) : (State.bcastAct x0 x1 x2 x3).kept = x0.kept := by
  unfold State.bcastAct
  (repeat' split) <;> simp [kept_holdStart, kept_holdEnd, kept_foldl, kept_mk]

theorem kept_bcast (x0 : State) (x1 x2) : (State.bcast x0 x1 x2).kept = x0.kept := by
  simp only [State.bcast, kept_setGop, kept_marks, kept_bcastAct, kept_foldl, kept_mk]

theorem kept_gopCmd (x0 : State) (x1) : (State.gopCmd x0 x1).kept = x0.kept := by
  unfold State.gopCmd
  (repeat' split) <;> simp [kept_arrive, kept_bcast, kept_foldl, kept_mk]

theorem kept_bcastTake (x0 : State) (x1 x2 x3 x4 x5) : (State.bcastTake x0 x1 x2 x3 x4 x5).kept = x0.kept := by
  unfold State.bcastTake
  (repeat' split) <;> simp [kept_setGop, kept_wr, kept_setFld, kept_marks, kept_bcastAct, kept_foldl, kept_mk]

theorem kept_arriveTake (x0 : State) (x1 x2) : (State.arriveTake x0 x1 x2).kept = x0.kept := by
  unfold State.arriveTake
  (repeat' split) <;> simp [kept_gopTry, kept_setGop, kept_foldl, kept_mk]

theorem kept_releaseTake (x0 : State) (x1 x2) : (State.releaseTake x0 x1 x2).kept = x0.kept := by
  unfold State.releaseTake
  (repeat' split) <;> simp [kept_gopRelease, kept_foldl, kept_mk]

theorem kept_becomeHeld (x0 : State) : (State.becomeHeld x0).kept = x0.kept := by
  unfold State.becomeHeld
  (repeat' split) <;> simp [kept_setGop, kept_foldl, kept_mk]

theorem kept_barrierLate (x0 : State) : (State.barrierLate x0).kept = x0.kept := by
  unfold State.barrierLate
  (repeat' split) <;> simp [kept_logEdge, kept_setGop, kept_foldl, kept_mk]

theorem kept_holdLate (x0 : State) : (State.holdLate x0).kept = x0.kept := by
  unfold State.holdLate
  dsimp only
  (repeat' split) <;> simp_all [kept_logEdge, kept_setGop, kept_foldl, kept_mk]

theorem kept_gopLate (x0 : State) : (State.gopLate x0).kept = x0.kept := by
  simp only [State.gopLate, kept_holdLate, kept_barrierLate, kept_foldl, kept_mk]

theorem kept_emptyQueue (x0 : State) (x1) : (State.emptyQueue x0 x1).kept = x0.kept := by
  simp only [State.emptyQueue, kept_setQueue, kept_foldl, kept_mk]

theorem kept_regionReset (x0 : State) (x1) : (State.regionReset x0 x1).kept = x0.kept := by
  unfold State.regionReset
  simp [kept_modRegion, kept_modCluster, kept_setFld, kept_emptyQueue, kept_foldl, kept_mk, kept_ite, kept_ite2]

theorem kept_resetRegions (x0 : State) : (State.resetRegions x0).kept = x0.kept :=
  kept_foldl _ (fun s r => by simp only [kept_ite, kept_regionReset, ite_self]) _ _

theorem kept_domainReset (x0 : State) : (State.domainReset x0).kept = x0.kept := by
  unfold State.domainReset
  dsimp only
  split
  · generalize hp : State.portsRun _ = u
    have hu : u.kept = x0.kept := by rw [← hp, kept_portsRun, kept_foldl _ kept_emptyPort, kept_resetRegions]
    rw [kept_holdFinish]
    split
    · exact (kept_loadFail _ _ _).trans hu
    · exact hu
  · rfl

theorem kept_domainResetEnd (x0 : State) : (State.domainResetEnd x0).kept = x0.kept := by
  unfold State.domainResetEnd
  (repeat' split) <;> simp [kept_setImgState, kept_setGop, kept_foldl, kept_mk]

theorem kept_pageTake (x0 : State) (x1 x2 x3) : (State.pageTake x0 x1 x2 x3).2.kept = x0.kept := by
  unfold State.pageTake
  grind [kept_pageRead, State.kept]

theorem kept_pfxChain (x0 : State) (x1 x2 x3 x4 x5 x6) : (State.pfxChain x0 x1 x2 x3 x4 x5 x6).2.kept = x0.kept := by
  induction x5 generalizing x0 x1 x2 x3 x4 x6 with
  | zero => first | rfl | (unfold State.pfxChain; rfl) | (unfold State.pfxChain; split <;> rfl)
  | succ n ih =>
    unfold State.pfxChain
    grind [kept_pageTake, State.kept]

theorem kept_pfxBlocks (x0 : State) (x1 x2 x3 x4 x5 x6 x7 x8) : (State.pfxBlocks x0 x1 x2 x3 x4 x5 x6 x7 x8).2.2.kept = x0.kept := by
  induction x5 generalizing x0 x1 x2 x3 x4 x6 x7 x8 with
  | zero => first | rfl | (unfold State.pfxBlocks; rfl) | (unfold State.pfxBlocks; split <;> rfl)
  | succ n ih =>
    unfold State.pfxBlocks
    grind [kept_pfxChain, kept_pageTake, kept_cmTake, State.kept]

theorem kept_pfxStart (x0 : State) (x1) : (State.pfxStart x0 x1).kept = x0.kept := by
  unfold State.pfxStart
  (repeat' split) <;> simp [kept_cmSetNum, kept_foldl, kept_mk]

theorem kept_pfxEnd (x0 : State) (x1 x2) : (State.pfxEnd x0 x1 x2).kept = x0.kept := by
  unfold State.pfxEnd
  grind [kept_cmTake, kept_cmSetNum, kept_pfxBlocks, kept_cmSetBytes, State.kept]

theorem kept_setRing (x0 : State) (x1 x2) : (State.setRing x0 x1 x2).kept = x0.kept := by
  simp only [State.setRing, kept_foldl, kept_mk]

theorem kept_ringReserve (x0 : State) (x1 x2) : (State.ringReserve x0 x1 x2).2.kept = x0.kept := by
  simp only [State.ringReserve, kept_setRing, kept_foldl, kept_mk]

theorem kept_ringWritten (x0 : State) (x1 x2) : (State.ringWritten x0 x1 x2).kept = x0.kept := by
  simp only [State.ringWritten, kept_setFld, kept_setRing, kept_foldl, kept_mk]

theorem kept_cqWrite (x0 : State) (x1 x2 x3) : (State.cqWrite x0 x1 x2 x3).kept = x0.kept := by
  simp only [State.cqWrite, kept_ite, kept_ringWritten, kept_emit, ite_self]

theorem kept_ackWrite (x0 : State) (x1 x2 x3 x4 x5 x6) : (State.ackWrite x0 x1 x2 x3 x4 x5 x6).kept = x0.kept := by
  simp only [State.ackWrite, kept_cqWrite, kept_foldl, kept_mk]

theorem kept_hostWritten (s : State) (addr len) : (State.hostWritten s addr len).kept = s.kept := by
  unfold State.hostWritten
  refine kept_foldl _ (fun s r => ?_) _ _
  dsimp only
  split
  · refine kept_foldl _ (fun s k => ?_) _ _
    split
    · exact kept_ringWritten _ _ _
    · rfl
  · rfl

theorem kept_consume (x0 : State) (x1) : (State.consume x0 x1).2.kept = x0.kept := by
  simp only [State.consume, kept_ringReserve, kept_setFld, kept_foldl, kept_mk]

theorem kept_setRq (x0 : State) (x1 x2 x3 x4) : (State.setRq x0 x1 x2 x3 x4).kept = x0.kept := by
  simp only [State.setRq, kept_cmSetNum, kept_foldl, kept_mk]

theorem kept_setTn (x0 : State) (x1 x2 x3 x4) : (State.setTn x0 x1 x2 x3 x4).kept = x0.kept := by
  simp only [State.setTn, kept_cmSetNum, kept_foldl, kept_mk]

theorem kept_setBudget (x0 : State) (x1 x2) : (State.setBudget x0 x1 x2).kept = x0.kept := by
  simp only [State.setBudget, kept_setTn, kept_foldl, kept_mk]

theorem kept_waitPush (x0 : State) (x1 x2 x3) : (State.waitPush x0 x1 x2 x3).kept = x0.kept := by
  unfold State.waitPush
  dsimp only
  (repeat' split) <;> simp_all [kept_setRq, kept_setTn, kept_foldl, kept_mk]

theorem kept_waitDrop (x0 : State) (x1 x2 x3) : (State.waitDrop x0 x1 x2 x3).kept = x0.kept := by
  unfold State.waitDrop
  dsimp only
  (repeat' split) <;> simp_all [kept_setTn, kept_setRq, kept_foldl, kept_mk]

theorem kept_relist (x0 : State) (x1 x2 x3 x4) : (State.relist x0 x1 x2 x3 x4).kept = x0.kept := by
  unfold State.relist
  (repeat' split) <;> simp [kept_waitDrop, kept_waitPush, kept_foldl, kept_mk]

theorem kept_countTokens (x0 : State) (x1 x2) : (State.countTokens x0 x1 x2).kept = x0.kept := by
  simp only [State.countTokens, kept_foldl, kept_mk]

theorem kept_commitApply (x0 : State) (x1) : (State.commitApply x0 x1).2.kept = x0.kept := by
  simp only [State.commitApply, kept_ite, kept_ite2, kept_ringReserve, kept_countTokens, kept_setRq, kept_setBudget, kept_setTn,
    kept_relist, ite_self]

theorem kept_commitReads (x0 : State) (x1) : (State.commitReads x0 x1).2.kept = x0.kept := by
  unfold State.commitReads
  grind [kept_cmProbe, State.kept]

theorem kept_commitUnread (x0 : State) : (State.commitUnread x0).2.kept = x0.kept := by
  simp only [State.commitUnread, kept_fresh, kept_foldl, kept_mk]

theorem kept_commitRun (x0 : State) (x1 x2) : (State.commitRun x0 x1 x2).2.kept = x0.kept := by
  unfold State.commitRun
  dsimp only
  (repeat' split) <;> simp_all [kept_commitApply, kept_foldl, kept_mk]

theorem kept_commit (x0 : State) (x1 x2) : (State.commit x0 x1 x2).2.kept = x0.kept := by
  unfold State.commit
  grind [kept_commitReads, kept_commitUnread, kept_commitRun, State.kept]

theorem kept_failover (x0 : State) (x1 x2) : (State.failover x0 x1 x2).kept = x0.kept := by
  unfold State.failover
  grind [kept_loadFail, State.kept]

theorem kept_commitWindow (x0 : State) (x1) : (State.commitWindow x0 x1).kept = x0.kept := by
  simp only [State.commitWindow, kept_commit, kept_failover, kept_wr, kept_foldl, kept_mk]

theorem kept_commitFrom (x0 : State) (x1 x2) : (State.commitFrom x0 x1 x2).kept = x0.kept := by
  unfold State.commitFrom
  simp [kept_commitWindow, kept_wr, kept_foldl, kept_mk]

theorem kept_endWrite (x0 : State) (x1 x2 x3) : (State.endWrite x0 x1 x2 x3).kept = x0.kept := by
  simp only [State.endWrite, kept_cqWrite, kept_foldl, kept_mk]

theorem kept_abortRun (x0 : State) (x1) : (State.abortRun x0 x1).kept = x0.kept := by
  unfold State.abortRun
  dsimp only
  (repeat' split) <;> simp_all [kept_commit, kept_ackWrite, kept_endWrite, kept_fresh, kept_foldl, kept_mk]

theorem kept_retryAborts (x0 : State) : (State.retryAborts x0).kept = x0.kept := by
  unfold State.retryAborts
  simp [kept_abortRun, kept_foldl, kept_mk]

theorem kept_fillRequest (x0 : State) (x1 x2 x3 x4 x5) : (State.fillRequest x0 x1 x2 x3 x4 x5).kept = x0.kept := by
  simp only [State.fillRequest, kept_setRq, kept_cmSetBytes, kept_foldl, kept_mk]

theorem kept_promptPage (s : State) (bs n p t) (h : State.promptPage s bs n p = some t) : t.kept = s.kept := by
  induction n generalizing p with
  | zero => cases h
  | succ n ih =>
    unfold State.promptPage at h
    have hw := kept_pageWrite s (p % State.pageCount) 0 bs ⟨0, 0, 0⟩
    split at h
    · rename_i e
      rw [e] at hw
      cases h
      exact hw
    · rename_i e
      rw [e] at hw
      split at h
      · cases h
        exact hw
      · exact ih _ h

theorem kept_promptCopy (s : State) (bs n t) (h : State.promptCopy s bs n = some t) : t.kept = s.kept := by
  induction n generalizing s bs with
  | zero => cases h; rfl
  | succ n ih =>
    unfold State.promptCopy at h
    dsimp only at h
    split at h
    · rename_i e
      exact (ih _ _ h).trans ((kept_promptPage _ _ _ _ _ e).trans (kept_fresh _ _))
    · cases h

theorem kept_firstFree (x0 : State) (n j) : (State.firstFree x0 n j).2.kept = x0.kept := by
  induction n generalizing x0 j with
  | zero => rfl
  | succ n ih =>
    unfold State.firstFree
    have h := kept_cmRead x0 (x0.rqAt j / 8) 8
    split
    · rename_i e
      rw [e] at h
      split
      · exact h
      · exact (ih _ _).trans h
    · rename_i e
      rw [e] at h
      exact (ih _ _).trans h

theorem kept_submitReads (x0 : State) (x1) : (State.submitReads x0 x1).2.kept = x0.kept := by
  unfold State.submitReads
  split
  · exact kept_cmProbe ..
  · rfl

theorem kept_submitFree (x0 : State) (x1 x2 x3) : (State.submitFree x0 x1 x2 x3).kept = x0.kept := by
  simp only [State.submitFree, kept_ackWrite, kept_fresh]

theorem kept_submitAccept (x0 : State) (x1 x2 x3 x4 x5) : (State.submitAccept x0 x1 x2 x3 x4 x5).2.2.kept = x0.kept := by
  unfold State.submitAccept
  dsimp only
  (repeat' split) <;> simp_all [kept_fillRequest, kept_commit, kept_setBudget, kept_foldl, kept_mk]

theorem kept_submitMake (x0 : State) (x1 x2 x3 x4 x5 x6) : (State.submitMake x0 x1 x2 x3 x4 x5 x6).kept = x0.kept := by
  unfold State.submitMake
  split
  · exact kept_submitFree ..
  · rename_i e
    have h := kept_promptCopy _ _ _ _ e
    dsimp only
    split
    · rw [kept_ackWrite, kept_submitAccept, h]
    · rw [kept_submitFree, kept_submitAccept, h]

theorem kept_submit (x0 : State) (x1 x2 x3 x4 x5) : (State.submit x0 x1 x2 x3 x4 x5).kept = x0.kept := by
  unfold State.submit
  have h := kept_submitReads x0 (fieldAt x3 2 2)
  split
  · rename_i e
    rw [e] at h
    exact (kept_submitFree ..).trans h
  · rename_i s1 e
    rw [e] at h
    split
    · have h2 := kept_firstFree s1 1048576 0
      split
      · rename_i e2
        rw [e2] at h2
        exact (kept_submitMake ..).trans (h2.trans h)
      · rename_i e2
        rw [e2] at h2
        exact (kept_ackWrite ..).trans (h2.trans h)
    · exact (kept_ackWrite ..).trans h

theorem kept_listInit (x0 : State) (x1 x2) : (State.listInit x0 x1 x2).kept = x0.kept := by
  unfold State.listInit
  dsimp only
  (repeat' split) <;> simp_all [kept_setTn, kept_foldl, kept_mk]

theorem kept_tenantWrite (x0 : State) (x1) : (State.tenantWrite x0 x1).kept = x0.kept := by
  unfold State.tenantWrite
  dsimp only
  (repeat' split) <;> simp_all [kept_listInit, kept_setTn, kept_setBudget, kept_foldl, kept_mk]

theorem kept_admFloor (x0 : State) (x1) : (State.admFloor x0 x1).2.kept = x0.kept := by
  unfold State.admFloor
  grind [kept_pageTake, State.kept]

theorem kept_tenantReads (x0 : State) (x1) : (State.tenantReads x0 x1).2.kept = x0.kept := by
  unfold State.tenantReads
  have h := kept_cmProbe x0 8 (x0.tnWords x1)
  split
  · rename_i e
    rw [e] at h
    exact h
  · rename_i e
    rw [e] at h
    exact (kept_cmProbe ..).trans h

theorem kept_tenant (x0 : State) (x1 x2 x3) : (State.tenant x0 x1 x2 x3).kept = x0.kept := by
  unfold State.tenant
  split
  · have h := kept_tenantReads x0 (fieldAt x3 2 2)
    split
    · rename_i e
      rw [e] at h
      exact (kept_ackWrite ..).trans ((kept_tenantWrite ..).trans h)
    · rename_i e
      rw [e] at h
      exact (kept_ackWrite ..).trans ((kept_fresh ..).trans h)
  · exact kept_ackWrite ..

theorem kept_grammar (x0 : State) (x1 x2 x3 x4) : (State.grammar x0 x1 x2 x3 x4).kept = x0.kept := by
  unfold State.grammar
  have h := kept_cmProbe x0 8 (if fieldAt x3 2 2 = 0 then [] else x0.grammarWords)
  split
  · rename_i e
    rw [e] at h
    exact (kept_ackWrite ..).trans ((kept_fresh ..).trans h)
  · rename_i e
    rw [e] at h
    dsimp only
    rw [kept_ackWrite]
    split
    · exact h
    · exact h

theorem kept_admLook (x0 : State) (x1 x2 x3) : (State.admLook x0 x1 x2 x3).2.kept = x0.kept := by
  unfold State.admLook
  split
  · rfl
  · have h := kept_cmProbe x0 8 (x0.headWords x1 x2 x3)
    split
    · rename_i e
      rw [e] at h
      exact h
    · rename_i e
      rw [e] at h
      dsimp only
      split
      · exact h
      · split
        · exact h
        · exact (kept_admFloor ..).trans h

theorem kept_admLooks (x0 : State) (x1 x2 x3) : (State.admLooks x0 x1 x2 x3).2.kept = x0.kept := by
  induction x3 generalizing x0 x2 with
  | nil => rfl
  | cons t ts ih =>
    unfold State.admLooks
    exact (ih _ _).trans (kept_admLook ..)

theorem kept_admitHead (x0 : State) (x1 x2 x3 x4) : (State.admitHead x0 x1 x2 x3 x4).2.kept = x0.kept := by
  unfold State.admitHead
  dsimp only
  (repeat' split) <;> simp_all [kept_admLook, kept_commit, kept_setTn, kept_foldl, kept_mk]

theorem kept_admReserved (x0 : State) (x1 x2 x3) : (State.admReserved x0 x1 x2 x3).2.kept = x0.kept := by
  induction x3 generalizing x0 x2 with
  | zero => rfl
  | succ n ih =>
    unfold State.admReserved
    split
    · exact (ih _ _).trans (kept_admitHead ..)
    · rfl

theorem kept_admTurn (x0 : State) (x1 x2 x3 x4) : (State.admTurn x0 x1 x2 x3 x4).2.kept = x0.kept := by
  induction x4 generalizing x0 x3 with
  | zero => rfl
  | succ n ih =>
    unfold State.admTurn
    split
    · exact (ih _ _).trans (kept_admitHead ..)
    · rfl

theorem kept_admRounds (x0 : State) (x1 x2 x3) : (State.admRounds x0 x1 x2 x3).2.kept = x0.kept := by
  induction x3 generalizing x0 x1 x2 with
  | zero => first | rfl | (unfold State.admRounds; rfl) | (unfold State.admRounds; split <;> rfl)
  | succ n ih =>
    unfold State.admRounds
    simp [ih, kept_setTn, kept_admTurn, kept_foldl, kept_mk, kept_ite, kept_ite2]

theorem kept_admOne (x t) : (State.admOne x t).2.kept = x.2.kept := kept_admReserved ..

theorem kept_admAll (ts x) : (State.admAll ts x).2.kept = x.2.kept := kept_foldl2 _ kept_admOne _ _

theorem kept_admLess (x) : (State.admLess x).2.kept = x.2.kept := by
  unfold State.admLess
  exact kept_pair _ _

theorem kept_admFirst (s : State) (kind a) : (State.admFirst s kind a).2.kept = s.kept := by
  unfold State.admFirst
  split
  · rw [kept_admLess, kept_admAll]
  · rfl

theorem kept_admLost (x0 : State) (x1) : (State.admLost x0 x1).2.kept = x0.kept := by
  induction x1 generalizing x0 with
  | nil => rfl
  | cons t ts ih =>
    unfold State.admLost
    exact (ih _).trans (kept_cmProbe ..)

theorem kept_admission (x0 : State) (x1 x2) : (State.admission x0 x1 x2).kept = x0.kept := by
  unfold State.admission
  dsimp only
  (repeat' split) <;> simp_all [kept_cmTake, kept_admLost, kept_admLooks, kept_admFirst, kept_admRounds, kept_cmSetBytes, kept_wr, kept_foldl, kept_mk]

theorem kept_refillOne (x0 : State) (x1) : (State.refillOne x0 x1).kept = x0.kept := by
  unfold State.refillOne
  dsimp only
  (repeat' split) <;> simp_all [kept_cmProbe, kept_setBudget, kept_foldl, kept_mk]

theorem kept_refill (x0 : State) : (State.refill x0).kept = x0.kept := by
  unfold State.refill
  (repeat' split) <;> simp [kept_refillOne, kept_foldl, kept_mk]

theorem kept_hold (x0 : State) (x1) : (State.hold x0 x1).kept = x0.kept := by
  simp only [State.hold, kept_foldl, kept_mk]

theorem kept_dmaServe (x0 : State) (x1 x2 x3 x4 x5 x6) : (State.dmaServe x0 x1 x2 x3 x4 x5 x6).kept = x0.kept := by
  unfold State.dmaServe
  dsimp only
  (repeat' split) <;> simp_all [kept_ctlDma, kept_hold, kept_hostWritten, kept_packet, kept_foldl, kept_mk]

theorem kept_stackPut (s : State) (n o a v) : (State.stackPut s n o a v).2.kept = s.kept := by
  unfold State.stackPut
  have h := kept_dramWrite s n o (leBytes 4 v.toNat)
  generalize s.dramWrite n o (leBytes 4 v.toNat) = x at *
  obtain ⟨e, t⟩ := x
  cases e with
  | ok u => exact h
  | error e =>
    cases e with
    | absent =>
      dsimp only
      split
      · exact kept_hold _ _
      · exact h
    | fenced p => exact h
    | poison p => exact h

theorem kept_stackWrite (s : State) (a v) : (State.stackWrite s a v).2.kept = s.kept := kept_stackPut _ _ _ _ _

theorem kept_admitOrHold (x0 : State) (x1 x2) : (State.admitOrHold x0 x1 x2).kept = x0.kept := by
  unfold State.admitOrHold
  dsimp only
  (repeat' split) <;> simp_all [kept_admission, kept_setFld, kept_hold, kept_foldl, kept_mk]

theorem kept_replayOne (x0 : State) (x1) : (State.replayOne x0 x1).kept = x0.kept := by
  unfold State.replayOne
  grind [kept_dmaServe, kept_stackWrite, kept_admitOrHold, State.kept]

theorem kept_replay (x0 : State) : (State.replay x0).kept = x0.kept := by
  unfold State.replay
  simp [kept_replayOne, kept_foldl, kept_mk]

theorem kept_cryBegin (x0 : State) : (State.cryBegin x0).kept = x0.kept := by
  unfold State.cryBegin
  dsimp only
  (repeat' split) <;> simp_all [kept_cmTake, kept_foldl, kept_mk]

theorem kept_cryPush (x0 : State) (x1) : (State.cryPush x0 x1).kept = x0.kept := by
  unfold State.cryPush
  dsimp only
  (repeat' split) <;> simp_all [kept_cryBegin, kept_foldl, kept_mk]

theorem kept_cryNext (x0 : State) : (State.cryNext x0).kept = x0.kept := by
  simp only [State.cryNext, kept_cryBegin, kept_foldl, kept_mk]

theorem kept_cryStat (x0 : State) (x1 x2) : (State.cryStat x0 x1 x2).kept = x0.kept := by
  simp only [State.cryStat, kept_setFld, kept_foldl, kept_mk]

theorem kept_cryUnread (x0 : State) : (State.cryUnread x0).kept = x0.kept := by
  simp only [State.cryUnread, kept_fresh, kept_cryStat, kept_foldl, kept_mk]

theorem kept_quoteEnd (x0 : State) : (State.quoteEnd x0).kept = x0.kept := by
  unfold State.quoteEnd
  dsimp only
  (repeat' split) <;> simp_all [kept_cryNext, kept_cryUnread, kept_cryStat, kept_cmSetBytes, kept_foldl, kept_mk]

theorem kept_setSlot (x0 : State) (x1 x2) : (State.setSlot x0 x1 x2).kept = x0.kept := by
  simp only [State.setSlot, kept_foldl, kept_mk]

theorem kept_cmdSign (x0 : State) (x1) : (State.cmdSign x0 x1).kept = x0.kept := by
  unfold State.cmdSign
  grind [kept_cmTake, kept_cryUnread, kept_cryStat, kept_signMsg, kept_cmSetBytes, State.kept]

theorem kept_cmdUnwrap (x0 : State) (x1 x2) : (State.cmdUnwrap x0 x1 x2).kept = x0.kept := by
  unfold State.cmdUnwrap
  grind [kept_cryStat, kept_cmTake, kept_cryUnread, kept_cmSetBytes, kept_setSlot, State.kept]

theorem kept_cmdWrap (x0 : State) (x1 x2) : (State.cmdWrap x0 x1 x2).kept = x0.kept := by
  unfold State.cmdWrap
  grind [kept_cryStat, kept_cmTake, kept_cryUnread, kept_fresh, kept_signMsg, kept_setSlot, kept_cmSetBytes, State.kept]

theorem kept_cmdErase (x0 : State) (x1) : (State.cmdErase x0 x1).kept = x0.kept := by
  unfold State.cmdErase
  (repeat' split) <;> simp [kept_cryStat, kept_foldl, kept_mk]

theorem kept_cryEnd (x0 : State) : (State.cryEnd x0).kept = x0.kept := by
  unfold State.cryEnd
  (repeat' split) <;> simp [kept_cryNext, kept_cmdSign, kept_cmdUnwrap, kept_cmdWrap, kept_cmdErase, kept_foldl, kept_mk]

theorem kept_cryApply (x0 : State) (x1) : (State.cryApply x0 x1).kept = x0.kept := by
  unfold State.cryApply
  dsimp only
  (repeat' split) <;> simp_all [kept_setFld, kept_cryPush, kept_cryStat, kept_foldl, kept_mk]

theorem kept_fuseRefuse (x0 : State) (x1) : (State.fuseRefuse x0 x1).kept = x0.kept := by
  simp only [State.fuseRefuse, kept_setFld, kept_foldl, kept_mk]

theorem kept_clearGo (x0 : State) (x1) : (State.clearGo x0 x1).kept = x0.kept := by
  unfold State.clearGo
  grind [kept_setFld, State.kept]

theorem kept_clearEnd (x0 : State) : (State.clearEnd x0).kept = x0.kept := by
  unfold State.clearEnd
  (repeat' split) <;> simp [kept_setFld, kept_foldl, kept_mk]

theorem kept_queueShow (x0 : State) (x1 x2) : (State.queueShow x0 x1 x2).kept = x0.kept := by
  unfold State.queueShow
  dsimp only
  (repeat' split) <;> simp_all [kept_setQueue, kept_foldl, kept_mk]

theorem kept_queueFree (x0 : State) (x1) : (State.queueFree x0 x1).kept = x0.kept := by
  simp only [State.queueFree, kept_setQueue, kept_foldl, kept_mk]

theorem kept_segPush (x0 : State) (x1 x2) : (State.segPush x0 x1 x2).kept = x0.kept := by
  unfold State.segPush
  (repeat' split) <;> simp [kept_modRegion, kept_logRegion, kept_foldl, kept_mk]

theorem kept_haltPacket (x0 : State) (x1 x2) : (State.haltPacket x0 x1 x2).kept = x0.kept := by
  unfold State.haltPacket
  (repeat' split) <;> simp [kept_modRegion, kept_raise, kept_foldl, kept_mk]

theorem kept_discardPacket (x0 : State) (x1 x2 x3) : (State.discardPacket x0 x1 x2 x3).kept = x0.kept := by
  simp only [State.discardPacket, kept_log, kept_foldl, kept_mk]

theorem kept_elogNotify (x0 : State) : (State.elogNotify x0).kept = x0.kept := by
  unfold State.elogNotify
  dsimp only
  split
  · exact (kept_notify ..).trans rfl
  · rfl

theorem kept_elogSignal (x0 : State) : (State.elogSignal x0).kept = x0.kept := by
  unfold State.elogSignal
  dsimp only
  split
  · exact kept_receive x0 (.event 3)
  · exact (kept_elogNotify _).trans (kept_receive ..)

theorem kept_elogWrite (x0 : State) (x1) : (State.elogWrite x0 x1).kept = x0.kept := by
  simp only [State.elogWrite, kept_cmSetWords, kept_wr, kept_elogSignal, kept_foldl, kept_mk]

theorem kept_release (x0 : State) (x1 x2) : (State.release x0 x1 x2).kept = x0.kept := by
  simp only [State.release, kept_modRegion, kept_foldl, kept_mk]

theorem kept_takeFault (x0 : State) (x1 x2) : (State.takeFault x0 x1 x2).kept = x0.kept := by
  unfold State.takeFault
  (repeat' split) <;> simp [kept_release, kept_elogWrite, kept_foldl, kept_mk]

theorem kept_takeEntry (x0 : State) (x1) : (State.takeEntry x0 x1).kept = x0.kept := by
  unfold State.takeEntry
  (repeat' split) <;> simp [kept_count, kept_elogWrite, kept_foldl, kept_mk]

theorem kept_drainBuf (x0 : State) (x1 x2) : (State.drainBuf x0 x1 x2).kept = x0.kept := by
  induction x2 generalizing x0 x1 with
  | zero => first | rfl | (unfold State.drainBuf; rfl) | (unfold State.drainBuf; split <;> rfl)
  | succ n ih =>
    unfold State.drainBuf
    dsimp only
    (repeat' split) <;> simp [ih, kept_release, kept_elogWrite, kept_foldl, kept_mk, kept_ite, kept_ite2]

theorem kept_elogAdvance (x0 : State) (x1) : (State.elogAdvance x0 x1).kept = x0.kept := by
  unfold State.elogAdvance
  dsimp only
  (repeat' split) <;> simp_all [kept_wr, kept_drainBuf, kept_foldl, kept_mk]

theorem kept_resend (x0 : State) (x1) : (State.resend x0 x1).kept = x0.kept := by
  unfold State.resend
  simp [kept_modRegion, kept_packet, kept_foldl, kept_mk]

theorem kept_holdExpire (x0 : State) (x1) : (State.holdExpire x0 x1).kept = x0.kept := by
  unfold State.holdExpire
  simp [kept_modRegion, kept_packet, kept_foldl, kept_mk]

theorem kept_alarmDrive (x0 : State) : (State.alarmDrive x0).kept = x0.kept := by
  simp only [State.alarmDrive, kept_ite, kept_emit, kept_setFld, ite_self]

theorem kept_alarmRecord (x0 : State) (x1) : (State.alarmRecord x0 x1).kept = x0.kept := by
  simp only [State.alarmRecord, kept_ite, kept_signal, kept_record, kept_setFld, ite_self]

theorem kept_alarm (x0 : State) (x1) : (State.alarm x0 x1).kept = x0.kept := by
  unfold State.alarm
  (repeat' split) <;> simp [kept_alarmDrive, kept_pgoodLow, kept_alarmRecord, kept_haltAll, kept_foldl, kept_mk]

theorem kept_coolantEntry (x0 : State) : (State.coolantEntry x0).kept = x0.kept := by
  simp only [State.coolantEntry, kept_logEdge, kept_foldl, kept_mk]

theorem kept_plateBit (x0 : State) (x1 x2) : (State.plateBit x0 x1 x2).kept = x0.kept := by
  unfold State.plateBit
  dsimp only
  (repeat' split) <;> simp_all [kept_coolantEntry, kept_wr, kept_foldl, kept_mk]

theorem kept_plateAlarm (x0 : State) : (State.plateAlarm x0).kept = x0.kept := by
  unfold State.plateAlarm
  grind [kept_alarm, State.kept]

theorem kept_plateBits (x0 : State) (x1) : (State.plateBits x0 x1).kept = x0.kept := by
  simp only [State.plateBits, kept_plateBit, kept_foldl, kept_mk]

theorem kept_plateRegs (x0 : State) (x1) : (State.plateRegs x0 x1).kept = x0.kept := by
  simp only [State.plateRegs, kept_setFld, kept_foldl, kept_mk]

theorem kept_plateSample (x0 : State) (x1) : (State.plateSample x0 x1).kept = x0.kept := by
  unfold State.plateSample State.plateAlarm State.plateBits State.plateRegs
  dsimp only
  (repeat' split) <;> simp only [kept_setFld, kept_plateBit, kept_alarm, kept_mk]

theorem kept_pcool (x0 : State) (x1 x2 x3 x4) : (State.pcool x0 x1 x2 x3 x4).kept = x0.kept := by
  unfold State.pcool
  dsimp only
  (repeat' split) <;> simp_all [kept_setFld, kept_foldl, kept_mk]

theorem kept_overtemp (x0 : State) : (State.overtemp x0).kept = x0.kept := by
  unfold State.overtemp
  (repeat' split) <;> simp [kept_powerDown, kept_coolantEntry, kept_foldl, kept_mk]

theorem kept_diodeEntry (x0 : State) (x1 x2 x3 x4) : (State.diodeEntry x0 x1 x2 x3 x4).kept = x0.kept := by
  simp only [State.diodeEntry, kept_logRegion, kept_foldl, kept_mk]

theorem kept_pairSample (x0 : State) (x1 x2 x3) : (State.pairSample x0 x1 x2 x3).kept = x0.kept := by
  unfold State.pairSample
  simp [kept_modRegion, kept_setFld, kept_diodeEntry, kept_foldl, kept_mk, kept_ite, kept_ite2]

theorem kept_trip (x0 : State) (x1 x2 x3) : (State.trip x0 x1 x2 x3).kept = x0.kept := by
  simp only [State.trip, kept_raise, kept_setFld, kept_foldl, kept_mk]

theorem kept_regionTemps (x0 : State) (x1 x2 x3) : (State.regionTemps x0 x1 x2 x3).kept = x0.kept := by
  unfold State.regionTemps
  simp only [kept_setFld, kept_modRegion]

theorem kept_regionSample (x0 : State) (x1 x2) : (State.regionSample x0 x1 x2).kept = x0.kept := by
  unfold State.regionSample
  dsimp only
  (repeat' split) <;> simp [kept_pairSample, kept_regionTemps, kept_trip, kept_foldl]

theorem kept_tlim (x0 : State) (x1) : (State.tlim x0 x1).kept = x0.kept := by
  unfold State.tlim
  dsimp only
  (repeat' split) <;> simp_all [kept_modRegion, kept_setFld, kept_foldl, kept_mk]

theorem kept_tripClear (x0 : State) (x1) : (State.tripClear x0 x1).kept = x0.kept := by
  unfold State.tripClear
  (repeat' split) <;> simp [kept_setFld, kept_foldl, kept_mk]

theorem kept_setHeat (x0 : State) (x1 x2) : (State.setHeat x0 x1 x2).kept = x0.kept := by
  simp only [State.setHeat, kept_foldl, kept_mk]

theorem kept_stackTrip (x0 : State) (x1 x2) : (State.stackTrip x0 x1 x2).kept = x0.kept := by
  unfold State.stackTrip
  dsimp only
  (repeat' split) <;> simp_all [kept_setFld, kept_record, kept_packet, kept_foldl, kept_mk]

theorem kept_suspectQuarter (x0 : State) (x1 x2) : (State.suspectQuarter x0 x1 x2).kept = x0.kept := by
  simp only [State.suspectQuarter, kept_logEdge, kept_setFld, kept_foldl, kept_mk]

theorem kept_stackSuspects (x0 : State) (x1 x2) : (State.stackSuspects x0 x1 x2).kept = x0.kept := by
  unfold State.stackSuspects
  simp [kept_suspectQuarter, kept_foldl, kept_ite]

theorem kept_stackTemp (x0 : State) (x1 x2) : (State.stackTemp x0 x1 x2).2.kept = x0.kept := by
  unfold State.stackTemp
  dsimp only
  split
  · rw [kept_fresh]
  · rfl

theorem kept_stackAct (x0 : State) (x1 x2 x3 x4) : (State.stackAct x0 x1 x2 x3 x4).kept = x0.kept := by
  unfold State.stackAct
  simp [kept_setFld, kept_logEdge, kept_setHeat, kept_stackTrip, kept_mk, kept_ite]

theorem kept_stackSample (x0 : State) (x1 x2) : (State.stackSample x0 x1 x2).kept = x0.kept := by
  unfold State.stackSample
  dsimp only
  split
  · rfl
  · rw [kept_stackAct, kept_stackTemp, kept_stackSuspects]

theorem kept_stlim (x0 : State) (x1) : (State.stlim x0 x1).kept = x0.kept := by
  unfold State.stlim
  dsimp only
  (repeat' split) <;> simp_all [kept_setFld, kept_foldl, kept_mk]

theorem kept_stackClear (x0 : State) (x1) : (State.stackClear x0 x1).kept = x0.kept := by
  unfold State.stackClear
  (repeat' split) <;> simp [kept_replay, kept_setFld, kept_foldl, kept_mk]

theorem kept_journal (x0 : State) (x1 x2 x3 x4 x5 x6 x7 x8 x9) : (State.journal x0 x1 x2 x3 x4 x5 x6 x7 x8 x9).kept = x0.kept := by
  simp only [State.journal, kept_signal, kept_foldl, kept_mk]

theorem kept_refCtlWrite (x0 : State) (x1) : (State.refCtlWrite x0 x1).kept = x0.kept := by
  simp only [State.refCtlWrite, kept_refCtl, kept_journal, kept_foldl, kept_mk]

theorem kept_closeWindow (x0 : State) : (State.closeWindow x0).kept = x0.kept := by
  unfold State.closeWindow
  (repeat' split) <;> simp [kept_setFld, kept_foldl, kept_mk]

theorem kept_windowTimeout (x0 : State) : (State.windowTimeout x0).kept = x0.kept := by
  unfold State.windowTimeout
  (repeat' split) <;> simp [kept_closeWindow, kept_foldl, kept_mk]

theorem kept_writeEffect (x0 : State) (x1 x2 x3) : (State.writeEffect x0 x1 x2 x3).kept = x0.kept := by
  unfold State.writeEffect
  (repeat' split) <;> simp [kept_cryPush, kept_closeWindow, kept_refCtl, kept_foldl, kept_mk]

theorem kept_writeAccept (x0 : State) (x1 x2 x3 x4 x5 x6) : (State.writeAccept x0 x1 x2 x3 x4 x5 x6).kept = x0.kept := by
  unfold State.writeAccept
  (repeat' split) <;> simp [kept_journal, kept_writeEffect, kept_foldl, kept_mk]

theorem kept_respond (x0 : State) (x1 x2 x3 x4 x5 x6 x7 x8) : (State.respond x0 x1 x2 x3 x4 x5 x6 x7 x8).kept = x0.kept := by
  simp only [State.respond, kept_frame, kept_foldl, kept_mk]

theorem kept_quivorRequest (x0 : State) (x1 x2 x3) : (State.quivorRequest x0 x1 x2 x3).kept = x0.kept := by
  unfold State.quivorRequest
  dsimp only
  (repeat' split) <;> simp_all [kept_frame, kept_respond, kept_writeAccept, kept_foldl, kept_mk]

theorem kept_notifyTick (x0 : State) : (State.notifyTick x0).kept = x0.kept := by
  unfold State.notifyTick
  (repeat' split) <;> simp [kept_elogNotify, kept_foldl, kept_mk]

theorem kept_addressTake (x0 : State) (x1) : (State.addressTake x0 x1).kept = x0.kept := by
  unfold State.addressTake
  grind [kept_fresh, kept_setFld, kept_emit, State.kept]

theorem kept_pulseTake (x0 : State) : (State.pulseTake x0).kept = x0.kept := by
  unfold State.pulseTake
  dsimp only
  (repeat' split) <;> simp_all [kept_emit, kept_foldl, kept_mk]

theorem kept_badPattern (x0 : State) : (State.badPattern x0).kept = x0.kept := by
  unfold State.badPattern
  (repeat' split) <;> simp [kept_setFld, kept_foldl, kept_mk]

theorem kept_syncTake (x0 : State) (x1) : (State.syncTake x0 x1).kept = x0.kept := by
  unfold State.syncTake
  (repeat' split) <;> simp [kept_foldl, kept_mk]

theorem kept_peerDelay (x0 : State) (x1) : (State.peerDelay x0 x1).kept = x0.kept := by
  unfold State.peerDelay
  (repeat' split) <;> simp [kept_frame, kept_foldl, kept_mk]

theorem kept_stepTime (x0 : State) (x1) : (State.stepTime x0 x1).kept = x0.kept := by
  simp only [State.stepTime, kept_setFld, kept_journal, kept_foldl, kept_mk]

theorem kept_offsetStep (s : State) : s.offsetStep.kept = s.kept := by
  unfold State.offsetStep
  dsimp only
  split
  · rfl
  · split
    · split
      · simp only [kept_mk, kept_stepTime, kept_setFld, kept_wr]
      · simp only [kept_mk, kept_setFld, kept_wr]
    · split
      · split
        · rw [kept_setFld]
        · rfl
      · rfl

theorem kept_samplerFault (x0 : State) (x1 x2 x3 x4 x5) : (State.samplerFault x0 x1 x2 x3 x4 x5).kept = x0.kept := by
  simp only [State.samplerFault, kept_raise, kept_foldl, kept_mk]

theorem kept_rowRead (x0 : State) (x1 x2 x3) : (State.rowRead x0 x1 x2 x3).2.kept = x0.kept := by
  unfold State.rowRead
  grind [kept_cmTake, kept_samplerFault, State.kept]

theorem kept_ctxRead (x0 : State) (x1 x2 x3 x4 x5) : (State.ctxRead x0 x1 x2 x3 x4 x5).2.kept = x0.kept := by
  unfold State.ctxRead
  grind [kept_pageTake, kept_samplerFault, State.kept]

theorem kept_ctxHeader (x0 : State) (x1 x2 x3) : (State.ctxHeader x0 x1 x2 x3).2.kept = x0.kept := by
  unfold State.ctxHeader
  grind [kept_ctxRead, kept_samplerFault, State.kept]

theorem kept_ctxWrite (x0 : State) (x1 x2 x3 x4) : (State.ctxWrite x0 x1 x2 x3 x4).kept = x0.kept := by
  unfold State.ctxWrite
  grind [kept_pageWrite, kept_samplerFault, State.kept]

theorem kept_smprPush (x0 : State) (x1 x2 x3) : (State.smprPush x0 x1 x2 x3).kept = x0.kept := by
  simp only [State.smprPush, kept_modRegion, kept_foldl, kept_mk]

theorem kept_tokensRecord (x0 : State) (x1 x2) : (State.tokensRecord x0 x1 x2).2.kept = x0.kept := by
  unfold State.tokensRecord
  grind [kept_pageTake, kept_samplerFault, kept_ctxHeader, kept_ctxRead, State.kept]

theorem kept_adjRecords (s : State) (r w d h n j) : (State.adjRecords s r w d h n j).2.kept = s.kept := by
  induction n generalizing s j with
  | zero => rfl
  | succ n ih =>
    unfold State.adjRecords
    have h1 := kept_ctxRead s r 1 w 64 1024
    split
    · simp_all
    · rename_i pen s1 e1
      have h2 := kept_ctxRead s1 r 1 w (65536 + 32768 * j + d.vlo / 8) (d.vn / 8)
      split
      · simp_all
      · rename_i mask s2 e2
        have h3 := ih s2 (j + 1)
        split <;> simp_all

theorem kept_feedDecl (x0 : State) (x1 x2 x3) : (State.feedDecl x0 x1 x2 x3).kept = x0.kept := by
  unfold State.feedDecl
  grind [kept_tokensRecord, kept_ctxHeader, kept_adjRecords, kept_smprPush, State.kept]

theorem kept_floorPush (x0 : State) (x1 x2 x3) : (State.floorPush x0 x1 x2 x3).kept = x0.kept := by
  simp only [State.floorPush, kept_smprPush, kept_foldl, kept_mk]

theorem kept_requestRead (x0 : State) (x1 x2 x3) : (State.requestRead x0 x1 x2 x3).2.kept = x0.kept := by
  unfold State.requestRead
  grind [kept_cmTake, kept_samplerFault, State.kept]

theorem kept_rowsRead (x0 : State) (x1 x2) : (State.rowsRead x0 x1 x2).2.kept = x0.kept := by
  induction x2 generalizing x0 with
  | nil => rfl
  | cons y ys ih =>
    unfold State.rowsRead
    have h := kept_cmTake x0 9 (x0.rowAt x1 y) 32
    split
    · rename_i e
      rw [e] at h
      exact (kept_samplerFault ..).trans h
    · rename_i e
      rw [e] at h
      exact (ih _).trans h

theorem kept_feed (s : State) (r row) : (State.feed s r row).kept = s.kept := by
  unfold State.feed
  dsimp only
  generalize hs : (if (s.region r).feedSeq = s.rd (Rg.SEGSEQ r) then s
    else s.modRegion r fun g => { g with feedSeq := s.rd (Rg.SEGSEQ r), feedPass := 0, feedRow := 0 }) = s1
  have e1 : s1.kept = s.kept := by
    rw [← hs]
    split
    · rfl
    · exact kept_modRegion _ _ _
  rw [← e1]
  have h1 := kept_rowRead s1 r 1 row
  split
  · rfl
  · split
    · simp_all
    · rename_i w s2 e2
      rw [e2] at h1
      split
      · exact (kept_foldl _ (fun s d => kept_feedDecl _ _ _ _) _ _).trans ((kept_modRegion _ _ _).trans h1)
      · split
        · exact h1
        · generalize hx : (if w.kind = 4 then s2.requestRead r 1 w else (true, s2)) = x
          have h3 : x.2.kept = s2.kept := by
            rw [← hx]
            split
            · exact kept_requestRead ..
            · rfl
          split
          · exact h3.trans h1
          · split
            · exact h3.trans h1
            · exact (kept_foldl _ (fun s d => kept_floorPush _ _ _ _) _ _).trans
                ((kept_modRegion _ _ _).trans (h3.trans h1))

theorem kept_sendToken (x0 : State) (x1 x2 x3 x4 x5 x6 x7 x8) : (State.sendToken x0 x1 x2 x3 x4 x5 x6 x7 x8).kept = x0.kept := by
  simp only [State.sendToken, kept_packet, kept_foldl, kept_mk]

theorem kept_sendReport (x0 : State) (x1 x2 x3 x4) : (State.sendReport x0 x1 x2 x3 x4).kept = x0.kept := by
  simp only [State.sendReport, kept_sendToken, kept_count, kept_foldl, kept_mk]

theorem kept_decide1 (x0 : State) (x1 x2 x3 x4 x5 x6 x7 x8 x9 x10) : (State.decide1 x0 x1 x2 x3 x4 x5 x6 x7 x8 x9 x10).kept = x0.kept := by
  unfold State.decide1
  dsimp only
  (repeat' split) <;> simp_all [kept_ctxWrite, kept_sendToken, kept_count, kept_foldl, kept_mk]

theorem kept_decideDraft (x0 : State) (x1 x2 x3 x4 x5 x6) : (State.decideDraft x0 x1 x2 x3 x4 x5 x6).kept = x0.kept := by
  unfold State.decideDraft
  dsimp only
  (repeat' split) <;> simp_all [kept_ctxWrite, kept_sendToken, kept_count, kept_foldl, kept_mk]

theorem kept_sampleRow (s : State) (r w recs) : (State.sampleRow s r w recs).kept = s.kept := by
  unfold State.sampleRow
  dsimp only
  have h := kept_ctxHeader s r 0 w
  split
  · rfl
  · split
    · simp_all
    · rename_i hd s1 e1
      have h1 : s1.kept = s.kept := by simp_all
      split
      · exact (kept_sendReport _ _ _ _ _).trans h1
      · exact (kept_sendReport _ _ _ _ _).trans h1
      · split
        · exact (kept_sendReport _ _ _ _ _).trans h1
        · split
          · exact (kept_decideDraft ..).trans h1
          · exact (kept_decide1 ..).trans h1

theorem kept_verifyFrom (s : State) (r w q passes recs n j) : (State.verifyFrom s r w q passes recs n j).kept = s.kept := by
  induction n generalizing s j with
  | zero =>
    unfold State.verifyFrom
    split
    · rfl
    · split
      · rfl
      · split
        · exact kept_sendReport ..
        · exact kept_sendReport ..
        · dsimp only
          split
          · exact kept_sendReport ..
          · exact kept_decide1 ..
  | succ n ih =>
    unfold State.verifyFrom
    split
    · rfl
    · split
      · rfl
      · split
        · exact kept_sendReport ..
        · exact kept_sendReport ..
        · dsimp only
          have h1 := kept_ctxRead s r 0 w (8192 + 4 * j) 4
          split
          · simp_all
          · rename_i tb s1 e1
            have h1' : s1.kept = s.kept := by simp_all
            have h2 := kept_ctxRead s1 r 0 w (4096 + 512 * j) 512
            split
            · simp_all
            · rename_i dq s2 e2
              have h2' : s2.kept = s.kept := by simp_all
              split
              · exact (ih _ _).trans ((kept_decide1 ..).trans ((kept_count ..).trans h2'))
              · split
                · exact (kept_sendReport ..).trans ((kept_count ..).trans h2')
                · exact (kept_decide1 ..).trans ((kept_count ..).trans h2')

theorem kept_takeRow (s : State) (r row : Nat) (want : Nat → Bool) (f : State → RowEntry → List SmpRec → State)
    (hf : ∀ s w l, (f s w l).kept = s.kept) : (State.takeRow s r row want f).kept = s.kept := by
  unfold State.takeRow
  dsimp only
  split
  · rfl
  · have h0 := kept_rowsRead s r (s.namedRows r (smpRecs (s.region r).smpq.length (s.region r).smpq))
    split
    · rename_i e0
      rw [e0] at h0
      exact h0
    · rename_i s0 e0
      rw [e0] at h0
      split
      · exact (kept_samplerFault ..).trans h0
      have h := (kept_rowRead s0 r 0 row).trans h0
      split
      · rename_i e1
        rw [e1] at h
        exact h
      · rename_i w s1 e1
        have h1 : s1.kept = s.kept := by
          rw [e1] at h
          exact h
        split
        · exact h1
        · have h2 := kept_requestRead s1 r 0 w
          split
          · rename_i e2
            rw [e2] at h2
            exact h2.trans h1
          · rename_i s2 e2
            have h3 : s2.kept = s.kept := by
              rw [e2] at h2
              exact h2.trans h1
            (repeat' split) <;> first | exact h3 | exact (hf _ _ _).trans ((kept_modRegion ..).trans h3)

theorem kept_disarmPair (x0 : State) (x1) : (State.disarmPair x0 x1).kept = x0.kept := by
  simp only [State.disarmPair, kept_foldl, kept_mk]

theorem kept_lapse (x0 : State) (x1) : (State.lapse x0 x1).kept = x0.kept := by
  unfold State.lapse
  (repeat' split) <;> simp [kept_count, kept_disarmPair, kept_foldl, kept_mk]

theorem kept_firstHalf (x0 : State) (x1 x2 x3) : (State.firstHalf x0 x1 x2 x3).2.kept = x0.kept := by
  unfold State.firstHalf
  dsimp only
  (repeat' split) <;> simp_all [kept_lapse, kept_foldl, kept_mk]

theorem kept_cmReader (x0 : State) (x1) : (State.cmReader x0 x1).2.kept = x0.kept := by
  unfold State.cmReader
  (repeat' split) <;> simp [kept_fresh, kept_foldl, kept_mk]

theorem kept_cmHalf (x0 : State) (x1 x2) : (State.cmHalf x0 x1 x2).2.2.kept = x0.kept := by
  unfold State.cmHalf
  dsimp only
  (repeat' split) <;> simp_all [kept_cmReader, kept_cmRead, kept_fresh, kept_foldl, kept_mk]

theorem kept_cmHalfWrite (x0 : State) (x1 x2) : (State.cmHalfWrite x0 x1 x2).kept = x0.kept := by
  unfold State.cmHalfWrite
  dsimp only
  (repeat' split) <;> simp_all [kept_cmPut, kept_cmWrite, kept_fresh, kept_foldl, kept_mk]

theorem kept_rawBad (x0 : State) (x1 x2 x3) : (State.rawBad x0 x1 x2 x3).2.2.kept = x0.kept := by
  simp only [State.rawBad, kept_log, kept_foldl, kept_mk]

theorem kept_spRawRead (x0 : State) (x1 x2 x3 x4) : (State.spRawRead x0 x1 x2 x3 x4).2.2.kept = x0.kept := by
  unfold State.spRawRead
  dsimp only
  (repeat' split) <;> simp_all [kept_rawBad, kept_count, kept_log, kept_foldl, kept_mk]

theorem kept_spRawWrite (x0 : State) (x1 x2 x3 x4) : (State.spRawWrite x0 x1 x2 x3 x4).kept = x0.kept := by
  simp only [State.spRawWrite, kept_spCell, kept_spPut, kept_foldl, kept_mk]

theorem kept_progRawRead (x0 : State) (x1 x2 x3 x4) : (State.progRawRead x0 x1 x2 x3 x4).2.2.kept = x0.kept := by
  unfold State.progRawRead
  dsimp only
  (repeat' split) <;> simp_all [kept_count, kept_log, kept_rawBad, kept_foldl, kept_mk]

theorem kept_progRawWrite (x0 : State) (x1 x2 x3 x4) : (State.progRawWrite x0 x1 x2 x3 x4).kept = x0.kept := by
  simp only [State.progRawWrite, kept_modCluster, kept_foldl, kept_mk]

theorem kept_stackRead (x0 : State) (x1 x2) : (State.stackRead x0 x1 x2).2.2.kept = x0.kept := by
  unfold State.stackRead
  grind [kept_dramRead, kept_fresh, State.kept]

theorem kept_busRead (x0 : State) (x1 x2) : (State.busRead x0 x1 x2).2.2.kept = x0.kept := by
  unfold State.busRead
  (repeat' split) <;> simp [kept_wr, kept_cmHalf, kept_stackRead, kept_spRawRead, kept_progRawRead, kept_foldl, kept_mk]

theorem kept_cfgIgn (x0 : State) (x1 x2 x3) : (State.cfgIgn x0 x1 x2 x3).kept = x0.kept := by
  unfold State.cfgIgn
  dsimp only
  (repeat' split) <;> simp_all [kept_wr, kept_setFld, kept_foldl, kept_mk]

theorem kept_regWrite (x0 : State) (x1 x2 x3 x4 x5) : (State.regWrite x0 x1 x2 x3 x4 x5).kept = x0.kept := by
  unfold State.regWrite
  dsimp only
  (repeat' split) <;> simp_all [kept_wr, kept_cfgIgn, kept_foldl, kept_mk]

theorem kept_hostAns (x0 : State) (x1) : (State.hostAns x0 x1).2.kept = x0.kept := by
  unfold State.hostAns
  (repeat' split) <;> simp [kept_foldl, kept_mk]

theorem kept_admCmd (x0 : State) (x1) : (State.admCmd x0 x1).kept = x0.kept := by
  unfold State.admCmd
  (repeat' split) <;> simp [kept_admitOrHold, kept_setFld, kept_foldl, kept_mk]

theorem kept_wldCtl (x0 : State) (x1 x2) : (State.wldCtl x0 x1 x2).kept = x0.kept := by
  unfold State.wldCtl
  (repeat' split) <;> simp [kept_hostAns, kept_swapStart, kept_stopStart, kept_foldl, kept_mk]

theorem kept_bootCtl (x0 : State) (x1 x2) : (State.bootCtl x0 x1 x2).kept = x0.kept := by
  unfold State.bootCtl
  (repeat' split) <;> simp [kept_hostAns, kept_bootGo, kept_foldl, kept_mk]

theorem kept_edgeWrite (x0 : State) (x1 x2 x3 x4 x5 x6) : (State.edgeWrite x0 x1 x2 x3 x4 x5 x6).kept = x0.kept := by
  unfold State.edgeWrite
  (repeat' split) <;> simp [kept_regWrite, kept_pfxStart, kept_admCmd, kept_wldCtl, kept_vybCtl, kept_gopCmd, kept_refCtlWrite, kept_bootCtl, kept_elogAdvance, kept_release, kept_clearGo, kept_commitWindow, kept_retryAborts, kept_foldl, kept_mk]

theorem kept_clktuneWrite (x0 : State) (x1 x2) : (State.clktuneWrite x0 x1 x2).kept = x0.kept := by
  unfold State.clktuneWrite
  (repeat' split) <;> simp [kept_ceilWrite, kept_setFld, kept_foldl, kept_mk]

theorem kept_remapWrite (x0 : State) (x1 x2 x3 x4 x5) : (State.remapWrite x0 x1 x2 x3 x4 x5).kept = x0.kept := by
  unfold State.remapWrite
  dsimp only
  (repeat' split) <;> simp_all [kept_regWrite, kept_foldl, kept_mk]

theorem kept_regionWrite (x0 : State) (x1 x2 x3 x4 x5 x6) : (State.regionWrite x0 x1 x2 x3 x4 x5 x6).kept = x0.kept := by
  unfold State.regionWrite
  (repeat' split) <;> simp [kept_setFld, kept_remapWrite, kept_swpHoldWrite, kept_clktuneWrite, kept_clksrcWrite, kept_release, kept_regWrite, kept_foldl, kept_mk]

theorem kept_sentRead (x0 : State) (x1 x2 x3 x4) : (State.sentRead x0 x1 x2 x3 x4).2.2.kept = x0.kept := by
  unfold State.sentRead
  dsimp only
  (repeat' split) <;> simp_all [kept_busRead, kept_foldl, kept_mk]

theorem kept_accessRead (x0 : State) (x1 x2) : (State.accessRead x0 x1 x2).kept = x0.kept := by
  unfold State.accessRead
  dsimp only
  (repeat' split) <;> simp_all [kept_emit, kept_sentRead, kept_foldl, kept_mk]

theorem kept_relayResponse (x0 : State) (x1 x2) : (State.relayResponse x0 x1 x2).kept = x0.kept := by
  unfold State.relayResponse
  (repeat' split) <;> simp [kept_emit, kept_receive, kept_foldl, kept_mk]

theorem kept_relayReply (x0 : State) (x1 x2 x3) : (State.relayReply x0 x1 x2 x3).kept = x0.kept := by
  unfold State.relayReply
  (repeat' split) <;> simp [kept_relayOut, kept_relayResponse, kept_foldl, kept_mk]

theorem kept_relayUnknown (x0 : State) : (State.relayUnknown x0).kept = x0.kept := by
  simp only [State.relayUnknown, kept_logEdge, kept_foldl, kept_mk]

theorem kept_sendHrdd (x0 : State) (x1 x2 x3 x4) : (State.sendHrdd x0 x1 x2 x3 x4).kept = x0.kept := by
  induction x3 generalizing x0 x1 x2 x4 with
  | zero => first | rfl | (unfold State.sendHrdd; rfl) | (unfold State.sendHrdd; split <;> rfl)
  | succ n ih =>
    unfold State.sendHrdd
    simp [ih, kept_relayReply, kept_foldl, kept_mk, kept_ite, kept_ite2]

theorem kept_hrdServe (x0 : State) (x1 x2 x3) : (State.hrdServe x0 x1 x2 x3).kept = x0.kept := by
  unfold State.hrdServe
  (repeat' split) <;> simp [kept_relayReply, kept_relayUnknown, kept_sendHrdd, kept_foldl, kept_mk]

theorem kept_hwrServe (x0 : State) (x1 x2 x3) : (State.hwrServe x0 x1 x2 x3).kept = x0.kept := by
  unfold State.hwrServe
  (repeat' split) <;> simp [kept_relayReply, kept_emit, kept_foldl, kept_mk]

theorem kept_crdServe (x0 : State) (x1 x2) : (State.crdServe x0 x1 x2).kept = x0.kept := by
  simp only [State.crdServe, kept_sentRead, kept_relayReply, kept_foldl, kept_mk]

theorem kept_irqServe (x0 : State) (x1 x2) : (State.irqServe x0 x1 x2).kept = x0.kept := by
  unfold State.irqServe
  dsimp only
  (repeat' split) <;> simp_all [kept_relayReply, kept_relayUnknown, kept_emit, kept_foldl, kept_mk]

theorem kept_hostRelay (x0 : State) (x1 x2 x3 x4) : (State.hostRelay x0 x1 x2 x3 x4).kept = x0.kept := by
  unfold State.hostRelay
  dsimp only
  (repeat' split) <;> simp_all [kept_relayOut, kept_foldl, kept_mk]

theorem kept_hostReadHere (x0 : State) (x1) : (State.hostReadHere x0 x1).kept = x0.kept := by
  unfold State.hostReadHere
  dsimp only
  (repeat' split) <;> simp_all [kept_sentRead, kept_emit, kept_foldl, kept_mk]

theorem kept_hostRead (x0 : State) (x1) : (State.hostRead x0 x1).kept = x0.kept := by
  unfold State.hostRead
  (repeat' split) <;> simp [kept_emit, kept_hostReadHere, kept_hostRelay, kept_foldl, kept_mk]

theorem kept_rdTake (x0 : State) (x1 x2 x3 x4 x5) : (State.rdTake x0 x1 x2 x3 x4 x5).kept = x0.kept := by
  unfold State.rdTake
  dsimp only
  (repeat' split) <;> simp_all [kept_sentRead, kept_fresh, kept_emit, kept_foldl, kept_mk]

theorem kept_timedOut (x0 : State) (x1 x2) : (State.timedOut x0 x1 x2).kept = x0.kept := by
  unfold State.timedOut
  (repeat' split) <;> simp [kept_emit, kept_receive, kept_foldl, kept_mk]

theorem kept_rxFail (x0 : State) : (State.rxFail x0).kept = x0.kept := by
  simp only [State.rxFail, kept_loadFail, kept_foldl, kept_mk]

theorem kept_txFail (x0 : State) (x1) : (State.txFail x0 x1).kept = x0.kept := by
  simp only [State.txFail, kept_emit, kept_foldl, kept_mk]

theorem kept_helloTake (x0 : State) (x1 x2 x3) : (State.helloTake x0 x1 x2 x3).kept = x0.kept := by
  unfold State.helloTake
  (repeat' split) <;> simp [kept_fresh, kept_quote, kept_emit, kept_txFail, kept_foldl, kept_mk]

theorem kept_quoteAtReceiver (x0 : State) (x1 x2 x3) : (State.quoteAtReceiver x0 x1 x2 x3).kept = x0.kept := by
  unfold State.quoteAtReceiver
  dsimp only
  (repeat' split) <;> simp_all [kept_quote, kept_emit, kept_rxFail, kept_foldl, kept_mk]

theorem kept_quoteAtSource (x0 : State) (x1) : (State.quoteAtSource x0 x1).kept = x0.kept := by
  unfold State.quoteAtSource
  dsimp only
  (repeat' split) <;> simp_all [kept_fresh, kept_signMsg, kept_emit, kept_txFail, kept_foldl, kept_mk]

theorem kept_keyTake (x0 : State) (x1 x2) : (State.keyTake x0 x1 x2).kept = x0.kept := by
  unfold State.keyTake
  dsimp only
  (repeat' split) <;> simp_all [kept_rxFail, kept_emit, kept_foldl, kept_mk]

theorem kept_listTake (x0 : State) (x1) : (State.listTake x0 x1).kept = x0.kept := by
  unfold State.listTake
  dsimp only
  (repeat' split) <;> simp_all [kept_txFail, kept_emit, kept_foldl, kept_mk]

theorem kept_segmentWrite (x0 : State) (x1) : (State.segmentWrite x0 x1).kept = x0.kept := by
  unfold State.segmentWrite
  dsimp only
  (repeat' split) <;> simp only [kept_modJob, kept_writeSegment, kept_emit, kept_loadAdvance, kept_mk]

theorem kept_segmentOpen (x0 : State) (x1 x2) : (State.segmentOpen x0 x1 x2).kept = x0.kept := by
  unfold State.segmentOpen
  dsimp only
  (repeat' split) <;> simp [kept_loadFail, kept_setFld, kept_modJob, kept_segmentWrite, kept_segmentRetry]

theorem kept_segmentTake (x0 : State) (x1) : (State.segmentTake x0 x1).kept = x0.kept := by
  unfold State.segmentTake
  dsimp only
  (repeat' split) <;> simp only [kept_loadFail, kept_segmentOpen]

theorem kept_doneTake (x0 : State) (x1) : (State.doneTake x0 x1).kept = x0.kept := by
  unfold State.doneTake
  dsimp only
  (repeat' split) <;> simp_all [kept_txFail, kept_foldl, kept_mk]

theorem kept_abortTake (x0 : State) (x1) : (State.abortTake x0 x1).kept = x0.kept := by
  unfold State.abortTake
  (repeat' split) <;> simp [kept_loadFail, kept_foldl, kept_mk]

theorem kept_fecSeen (x0 : State) (x1 x2) : (State.fecSeen x0 x1 x2).kept = x0.kept := by
  unfold State.fecSeen
  dsimp only
  (repeat' split) <;> simp_all [kept_count, kept_foldl, kept_mk]

theorem kept_fromPeer (s : State) (p fec f) (hf : ∀ s, (f s).kept = s.kept) : (State.fromPeer s p fec f).kept = s.kept := by
  unfold State.fromPeer
  split
  · rfl
  · exact (hf _).trans (kept_fecSeen ..)

theorem kept_chainIn (s : State) (p f) (hf : ∀ s, (f s).kept = s.kept) : (State.chainIn s p f).kept = s.kept := by
  unfold State.chainIn
  split
  · exact hf s
  · exact kept_emit ..

theorem kept_requestLost (x0 : State) (x1 x2 x3) : (State.requestLost x0 x1 x2 x3).kept = x0.kept := by
  unfold State.requestLost
  dsimp only
  (repeat' split) <;> simp_all [kept_flitLost, kept_emit, kept_foldl, kept_mk]

theorem kept_idleTake (x0 : State) (x1 x2) : (State.idleTake x0 x1 x2).kept = x0.kept := by
  unfold State.idleTake
  grind [kept_badFlit, kept_portRun, kept_takeCredits, State.kept]

theorem kept_receiveFlit (x0 : State) (x1 x2) : (State.receiveFlit x0 x1 x2).kept = x0.kept := by
  unfold State.receiveFlit
  grind [kept_numbered, kept_inbound, kept_ctlWords, kept_training, kept_idleTake, State.kept]

theorem kept_rampsEnd (x0 : State) : (State.rampsEnd x0).kept = x0.kept := by
  unfold State.rampsEnd
  dsimp only
  (repeat' split) <;> simp_all [kept_regionOff, kept_foldl, kept_mk]

theorem kept_loopsStep (x0 : State) : (State.loopsStep x0).kept = x0.kept := by
  unfold State.loopsStep
  simp [kept_receiveFlit, kept_modPort, kept_foldl, kept_foldl2, kept_mk, kept_ite, kept_ite2]

theorem kept_bootStep (x0 : State) : (State.bootStep x0).kept = x0.kept := by
  unfold State.bootStep
  dsimp only
  (repeat' split) <;> simp_all [kept_setFld, kept_bootFail, kept_bootImage, kept_foldl, kept_mk]

theorem kept_badAck (x0 : State) (x1 x2 x3) : (State.badAck x0 x1 x2 x3).kept = x0.kept := by
  simp only [State.badAck, kept_ackWrite, kept_foldl, kept_mk]

theorem kept_onDieEcc (x0 : State) (x1 x2) : (State.onDieEcc x0 x1 x2).kept = x0.kept := by
  unfold State.onDieEcc
  simp [kept_count, kept_foldl, kept_foldl2, kept_mk, kept_ite, kept_ite2]

end Sys2Proof.Machine
end

