-- ==== Sys2Proof/Laws/Log.lean ====
section
/-!
SUPPORT. Error-log entries: the code that an entry carries, and what making one does (R398, R400, R401).
-/
namespace Sys2Proof.Machine

theorem leNat_append (a b : List Byte) : leNat (a ++ b) = leNat a + 256 ^ a.length * leNat b := by
  induction a with
  | nil => simp [leNat]
  | cons x a ih => simp only [List.cons_append, leNat, ih, List.length_cons, Nat.pow_succ]; grind

theorem leNat_leBytes2 (x : Nat) : leNat (leBytes 2 x) = x % 65536 := by
  simp only [leBytes, leNat, BitVec.toNat_ofNat]
  omega

namespace State

/-- The first two bytes of an entry are its code (R398). -/
theorem LogRec.image_code (f : LogRec) (t : Nat) : (f.image t).toNat % 65536 = f.code % 65536 := by
  simp only [LogRec.image, List.append_assoc]
  rw [leNat_append, leNat_leBytes2, BitVec.toNat_ofNat]
  have h : (leBytes 2 f.code).length = 2 := rfl
  rw [h, Nat.mod_mod_of_dvd _ (by decide : (65536 : Nat) ∣ 2 ^ 256)]
  omega

/-- An entry that is no DRAM entry is sent by the node of its source (R401). -/
theorem entryNode_image (b : Nat) (f : LogRec) (t : Nat) (h : f.code % 65536 ≠ 0x305) : entryNode b (f.image t) = bufNode b := by
  simp [entryNode, LogRec.image_code, h]

/-- An entry of a code that is not merged is sent at once (R400, R401). -/
theorem log_sent (s : State) (b : Nat) (f : LogRec) (h : mergeCode f.code = false) (h' : f.code % 65536 ≠ 0x305) :
    s.log b f = s.packet 7 0x8000 (bufNode b) 0 0 (recFlits (f.image s.ns)) := by
  simp only [log, h, entryNode_image b f s.ns h']
  rfl

end State
end Sys2Proof.Machine
end

