-- ==== Sys2Proof/Laws/Memory.lean ====
section
/-!
SUPPORT. The memories of the module keep their canonical form: every operation that writes one of them keeps it, one lemma per
operation, and it holds at power-up.
-/
namespace Sys2Proof.Store

variable {α : Type}

/-- Listing a content keeps the order. -/
theorem sorted_put (a : Nat) (v : α) : ∀ (m : List (Nat × α)), sorted m = true → sorted (put m a v) = true
  | [], _ => rfl
  | (k, w) :: m, h => by
    have h0 := h
    rw [sorted_cons, Bool.and_eq_true] at h
    unfold put
    split
    · rename_i hak
      rw [sorted_cons, h0]
      simp [above, hak, above_mono (Nat.le_of_lt hak) m h.1]
    · split
      · rename_i _ hak
        subst hak
        rw [sorted_cons, h.1, h.2]
        rfl
      · rename_i h1 h2
        rw [sorted_cons, sorted_put a v m h.2, above_put k a v (by omega) m h.1]
        rfl

/-- Removing entries keeps the order. -/
theorem sorted_filter (p : Nat × α → Bool) : ∀ (m : List (Nat × α)), sorted m = true → sorted (m.filter p) = true
  | [], _ => rfl
  | (k, v) :: m, h => by
    rw [sorted_cons, Bool.and_eq_true] at h
    by_cases hp : p (k, v) = true
    · rw [List.filter_cons_of_pos hp, sorted_cons, above_filter p k m h.1, sorted_filter p m h.2]
      rfl
    · rw [List.filter_cons_of_neg hp]
      exact sorted_filter p m h.2

/-- Removing an address keeps the order. -/
theorem sorted_erase (a : Nat) (m : List (Nat × α)) (h : sorted m = true) : sorted (erase m a) = true := sorted_filter _ m h

/-- What holds of every listed content and of the default holds of what is read. -/
theorem get_all (d : α) (p : α → Bool) (hd : p d = true) (a : Nat) :
    ∀ (m : List (Nat × α)), (m.all fun e => p e.2) = true → p (get d m a) = true
  | [], _ => hd
  | (k, v) :: m, h => by
    simp only [List.all_cons, Bool.and_eq_true] at h
    unfold get
    split
    · exact h.1
    · exact get_all d p hd a m h.2

/-- What holds of every listed content holds of every one that is left. -/
theorem all_filter (p : α → Bool) (q : Nat × α → Bool) (m : List (Nat × α)) (h : (m.all fun e => p e.2) = true) :
    ((m.filter q).all fun e => p e.2) = true := by
  rw [List.all_eq_true] at *
  intro e he
  exact h e (List.mem_filter.mp he).1

/-- What holds of every listed content, and of one that is written, holds of every one after the write. -/
theorem all_put (p : α → Bool) (a : Nat) (v : α) (hv : p v = true) :
    ∀ (m : List (Nat × α)), (m.all fun e => p e.2) = true → ((put m a v).all fun e => p e.2) = true
  | [], _ => by simp [put, hv]
  | (k, w) :: m, h => by
    simp only [List.all_cons, Bool.and_eq_true] at h
    unfold put
    split
    · simp only [List.all_cons, hv, h.1, h.2, Bool.and_self]
    · split
      · simp only [List.all_cons, hv, h.2, Bool.and_self]
      · simp only [List.all_cons, h.1, all_put p a v hv m h.2, Bool.and_self]

theorem all_set [DecidableEq α] (d : α) (p : α → Bool) (a : Nat) (v : α) (hv : p v = true) (m : List (Nat × α))
    (h : (m.all fun e => p e.2) = true) : ((set d m a v).all fun e => p e.2) = true := by
  unfold set
  split
  · exact all_filter p _ m h
  · exact all_put p a v hv m h

end Sys2Proof.Store

namespace Sys2Proof.Machine

/-! ### The form, and the memories of one cluster -/

theorem memWf_reset : State.reset.memWf = true := by decide

theorem memWf_iff (s : State) : s.memWf = true ↔
    Store.sorted s.cmem = true ∧ Store.wf DCell.zero s.dram = true ∧ (s.clusters.all fun e => e.2.memWf) = true := by
  unfold State.memWf
  rw [Bool.and_eq_true, Bool.and_eq_true, and_assoc]

theorem Cluster.memWf_iff (k : Cluster) : k.memWf = true ↔
    Store.sorted k.sp = true ∧ Store.wf 0 k.wt = true ∧ Store.wf 0 k.tags = true ∧ Store.wf false k.proven = true
      ∧ Store.wf PCell.zero k.prog = true := by
  unfold Cluster.memWf
  simp only [Bool.and_eq_true, and_assoc]

/-- What a state leaves of another's memories is in canonical form, if it was. -/
theorem memWf_mems {s t : State} (h : s.memWf = true) (h1 : t.cmem = s.cmem) (h2 : t.dram = s.dram) (h3 : t.clusters = s.clusters) :
    t.memWf = true := by
  rw [memWf_iff] at *
  rw [h1, h2, h3]
  exact h

theorem memWf_cluster (s : State) (r c : Nat) (h : s.memWf = true) : (s.cluster r c).memWf = true :=
  Store.get_all Cluster.reset Cluster.memWf rfl _ _ ((memWf_iff s).mp h).2.2

/-- A cluster is replaced by one whose memories are in canonical form. -/
theorem stored_setCluster (s : State) (r c : Nat) (x : Cluster) (hx : x.memWf = true) (h : s.memWf = true) :
    (s.setCluster r c x).memWf = true := by
  rw [memWf_iff] at *
  exact ⟨h.1, h.2.1, Store.all_set _ Cluster.memWf _ _ hx _ h.2.2⟩

/-- A cluster changes by an operation that keeps the form of its memories. -/
theorem stored_modCluster (s : State) (r c : Nat) (f : Cluster → Cluster) (hf : ∀ k, k.memWf = true → (f k).memWf = true)
    (h : s.memWf = true) : (s.modCluster r c f).memWf = true :=
  stored_setCluster s r c _ (hf _ (memWf_cluster s r c h)) h

/-! ### The operations that write a memory -/

theorem stored_spPut (s : State) (r c key : Nat) (x : Cell) (h : s.memWf = true) : (s.spPut r c key x).memWf = true := by
  refine stored_modCluster s r c _ (fun k hk => ?_) h
  rw [Cluster.memWf_iff] at *
  exact ⟨Store.sorted_put _ _ _ hk.1, hk.2⟩

theorem stored_tileWrite (s : State) (r c t o : Nat) (bs : List Byte) (h : s.memWf = true) : (s.tileWrite r c t o bs).memWf = true := by
  refine stored_modCluster s r c _ (fun k hk => ?_) h
  rw [Cluster.memWf_iff] at *
  exact ⟨hk.1, Store.wf_setMany _ _ _ _ hk.2.1, hk.2.2.1, Store.wf_set (α := Bool) false k.proven t false hk.2.2.2.1, hk.2.2.2.2⟩

theorem stored_tileTag (s : State) (r c t : Nat) (tag : Word) (h : s.memWf = true) : (s.tileTag r c t tag).memWf = true := by
  refine stored_modCluster s r c _ (fun k hk => ?_) h
  rw [Cluster.memWf_iff] at *
  exact ⟨hk.1, hk.2.1, Store.wf_set _ _ _ _ hk.2.2.1, Store.wf_set (α := Bool) false k.proven t true hk.2.2.2.1, hk.2.2.2.2⟩

theorem stored_tagWrite (s : State) (r c t : Nat) (tag : Word) (h : s.memWf = true) : (s.tagWrite r c t tag).memWf = true := by
  refine stored_modCluster s r c _ (fun k hk => ?_) h
  rw [Cluster.memWf_iff] at *
  exact ⟨hk.1, hk.2.1, Store.wf_set _ _ _ _ hk.2.2.1, Store.wf_set (α := Bool) false k.proven t false hk.2.2.2.1, hk.2.2.2.2⟩

theorem stored_tilesLost (s : State) (r c : Nat) (h : s.memWf = true) : (s.tilesLost r c).memWf = true := by
  refine stored_modCluster s r c _ (fun k hk => ?_) h
  rw [Cluster.memWf_iff] at *
  exact ⟨hk.1, rfl, hk.2.2.1, rfl, hk.2.2.2.2⟩

theorem stored_progRawWrite (s : State) (r c off : Nat) (v : Word) (h : s.memWf = true) : (s.progRawWrite r c off v).memWf = true := by
  refine stored_modCluster s r c _ (fun k hk => ?_) h
  rw [Cluster.memWf_iff] at *
  exact ⟨hk.1, hk.2.1, hk.2.2.1, hk.2.2.2.1, Store.wf_set _ _ _ _ hk.2.2.2.2⟩

theorem stored_cmWrite (s : State) (w : Nat) (v : DWord) (h : s.memWf = true) : (s.cmWrite w v).memWf = true := by
  rw [memWf_iff] at *
  exact ⟨Store.sorted_put _ _ _ h.1, h.2⟩

theorem stored_cmPut (s : State) (w : Nat × List Byte) (h : s.memWf = true) : (s.cmPut w).memWf = true := by
  rw [memWf_iff] at *
  exact ⟨Store.sorted_put _ _ _ h.1, h.2⟩

theorem stored_cmClear (s : State) (w n : Nat) (h : s.memWf = true) : (s.cmClear w n).memWf = true := by
  rw [memWf_iff] at *
  exact ⟨Store.sorted_filter _ _ h.1, h.2⟩

theorem stored_setDramCell (s : State) (n ch b : Nat) (x : DCell) (h : s.memWf = true) : (s.setDramCell n ch b x).memWf = true := by
  rw [memWf_iff] at *
  exact ⟨h.1, Store.wf_set _ _ _ _ h.2.1, h.2.2⟩

theorem stored_dramLost (s : State) (r : Nat) (h : s.memWf = true) : (s.dramLost r).memWf = true := by
  rw [memWf_iff] at *
  exact ⟨h.1, Store.wf_eraseRange _ _ _ _ h.2.1, h.2.2⟩

/-! ### Operations in turn -/

theorem stored_foldl {α : Type} (f : State → α → State) (hf : ∀ s x, s.memWf = true → (f s x).memWf = true) (l : List α) (s : State)
    (h : s.memWf = true) : (l.foldl f s).memWf = true := by
  induction l generalizing s with
  | nil => exact h
  | cons x l ih => exact ih _ (hf s x h)

theorem stored_foldl2 {α β : Type} (f : β × State → α → β × State) (hf : ∀ a x, a.2.memWf = true → (f a x).2.memWf = true)
    (l : List α) (a : β × State) (h : a.2.memWf = true) : (l.foldl f a).2.memWf = true := by
  induction l generalizing a with
  | nil => exact h
  | cons x l ih => exact ih _ (hf a x h)

theorem stored_cmSetBytes (s : State) (a : Nat) (bs : List Byte) (h : s.memWf = true) : (s.cmSetBytes a bs).memWf = true :=
  stored_foldl _ stored_cmPut _ _ h

theorem stored_cmSetNum (s : State) (a n v : Nat) (h : s.memWf = true) : (s.cmSetNum a n v).memWf = true :=
  stored_cmSetBytes _ _ _ h

end Sys2Proof.Machine
end

