-- ==== Sys2Proof/Laws/Steady.lean ====
section
/-!
SUPPORT. What every command does to the queue of waiting commands and to the fuses: it leaves both alone, but for the end of
fuse programming; and a programming that begins is one that R466 permits.
-/
set_option linter.unusedSimpArgs false
set_option linter.unusedVariables false

namespace Sys2Proof.Machine
/-! ### Commands that may start fuse programming, and power-downs -/

/-- A step that keeps the queue and the fuses, and starts no fuse programming that R466 refuses. -/
def State.Steady (s t : State) : Prop := t.pending = s.pending ∧ t.fuse = s.fuse ∧ (fuseJobOk s → fuseJobOk t)

theorem steady_of_kept {s t : State} (h : t.kept = s.kept) : s.Steady t := by
  unfold State.kept at h
  simp only [Prod.mk.injEq] at h
  obtain ⟨h1, h2, h3⟩ := h
  refine ⟨h1, h2, fun hj v d hv ho1 ho2 => ?_⟩
  rw [h2]
  exact hj v d (by rw [← h3, hv]) ho1 ho2

theorem State.Steady.trans {s t u : State} (h : s.Steady t) (h' : t.Steady u) : s.Steady u :=
  ⟨h'.1.trans h.1, h'.2.1.trans h.2.1, fun hj => h'.2.2 (h.2.2 hj)⟩

theorem steady_fuseApply (s : State) (v : Nat) : s.Steady (s.fuseApply v) := by
  have hr : ∀ (t : State) c, (t.fuseRefuse c).kept = t.kept := fun t c => kept_fuseRefuse _ _
  unfold State.fuseApply
  split
  · exact steady_of_kept (kept_setFld _ _ _)
  · split
    · exact steady_of_kept (hr _ _)
    · split
      · refine steady_of_kept ?_
        rw [hr, kept_fresh]
      · split
        · rename_i hc
          have hk : ((s.setFld Rg.FUSE_STAT_STATE 1).setFld Rg.FUSE_STAT_CAUSE 0).kept = s.kept := by
            rw [kept_setFld, kept_setFld]
          unfold State.kept at hk
          simp only [Prod.mk.injEq] at hk
          obtain ⟨h1, h2, _⟩ := hk
          dsimp only
          generalize (s.setFld Rg.FUSE_STAT_STATE 1).setFld Rg.FUSE_STAT_CAUSE 0 = u at *
          refine ⟨h1, h2, fun _ w d hw ho1 ho2 => ?_⟩
          obtain ⟨rfl, _⟩ := Prod.mk.inj (Option.some.inj hw)
          show u.fuse.svnmin ≤ _
          rw [h2]
          unfold State.fuseCause at hc
          simp only at hc
          (repeat' split at hc) <;> omega
        · exact steady_of_kept (hr _ _)

theorem steady_guardedApply (s : State) (a v : Nat) : s.Steady (s.guardedApply a v) := by
  unfold State.guardedApply
  split
  · exact steady_of_kept ((kept_domainReset _).trans (kept_wr _ _ _))
  · split
    · exact (steady_of_kept (kept_wr _ _ _)).trans (steady_fuseApply _ _)
    · split
      · exact steady_of_kept ((kept_cryApply _ _).trans (kept_wr _ _ _))
      · dsimp only
        split
        · split
          · exact steady_of_kept ((kept_p3Go _).trans ((kept_driverFence _ _ _).trans (kept_wr _ _ _)))
          · exact steady_of_kept rfl
        · exact steady_of_kept (kept_vsetWrite _ _ _)

theorem steady_secondHalf (s : State) (req : Requester) (a : Nat) (v : Word) : s.Steady (s.secondHalf req a v).2 := by
  have hl := kept_lapse s (a - 4)
  unfold State.secondHalf
  dsimp only
  split
  · split
    · exact (steady_of_kept ((kept_disarmPair _ _).trans hl)).trans (steady_guardedApply _ _ _)
    · exact steady_of_kept ((kept_count _ _ _).trans ((kept_disarmPair _ _).trans hl))
  · exact steady_of_kept ((kept_count _ _ _).trans hl)

theorem kept_rawWrite (s : State) (r c f) (hf : ∀ s, (f s).kept = s.kept) : (State.rawWrite s r c f).2.kept = s.kept := by
  unfold State.rawWrite
  split
  · rfl
  · split
    · rfl
    · exact hf s

theorem steady_busWrite (s : State) (req : Requester) (a : Nat) (v : Word) (h : Option HostAns) :
    s.Steady (s.busWrite req a v h).2 := by
  unfold State.busWrite
  split
  · exact steady_of_kept rfl
  · split
    · exact steady_of_kept (kept_firstHalf _ _ _ _)
    · split
      · exact steady_secondHalf _ _ _ _
      · refine steady_of_kept ?_
        split
        · rfl
        · exact kept_edgeWrite ..
        · exact kept_cmHalfWrite ..
        · exact kept_stackWrite ..
        · split
          · exact kept_regionWrite ..
          · rfl
        · split
          · exact kept_regWrite ..
          · rfl
        · exact kept_rawWrite _ _ _ _ fun s => kept_tileWrite ..
        · exact kept_rawWrite _ _ _ _ fun s => kept_tagWrite ..
        · exact kept_rawWrite _ _ _ _ fun s => kept_spRawWrite ..
        · exact kept_rawWrite _ _ _ _ fun s => kept_progRawWrite ..

theorem steady_sentWrite (s : State) (ord : Bool) (src : Nat) (req : Requester) (a : Nat) (v : Word) (h : Option HostAns) :
    s.Steady (s.sentWrite ord src req a v h).2 := by
  unfold State.sentWrite
  split
  · exact steady_busWrite s req a v h
  · exact steady_of_kept rfl

theorem steady_accessWrite (s : State) (req : Requester) (a : Nat) (v : Word) (h : Option HostAns) :
    s.Steady (s.accessWrite req a v h) := by
  unfold State.accessWrite
  (repeat' split)
  · exact steady_of_kept (kept_emit _ _)
  · exact steady_of_kept rfl
  · exact (steady_sentWrite s false 0x8000 req a v h).trans (steady_of_kept (kept_emit _ _))
  · exact steady_of_kept rfl

theorem steady_accessPair (s : State) (req : Requester) (a : Nat) (w : Word) (p : Nat → Bool) :
    s.Steady (s.accessPair req a w p) := by
  unfold State.accessPair
  split
  · split
    · exact steady_accessWrite _ _ _ _ _
    · exact steady_of_kept rfl
  · exact steady_of_kept rfl

theorem steady_hostStore (s : State) (a : Nat) (v : Word) : s.Steady (s.hostStore a v) := by
  unfold State.hostStore
  (repeat' split) <;> first
    | exact steady_of_kept rfl
    | exact steady_of_kept (kept_emit ..)
    | exact steady_sentWrite ..
    | exact steady_of_kept (kept_hostRelay ..)

theorem steady_wrTake (s : State) (src : Nat) (ord : Bool) (tag : Nat) (req : Requester) (a : Nat) (v : Word) :
    s.Steady (s.wrTake src ord tag req a v) := by
  have h := steady_sentWrite s ord src req a v none
  unfold State.wrTake
  split
  · exact steady_of_kept rfl
  · dsimp only
    split
    · exact h
    · exact h.trans (steady_of_kept (kept_emit ..))

theorem steady_cwrServe (s : State) (x : RelayHdr) (addr : DWord) (v : Word) : s.Steady (s.cwrServe x addr v) := by
  unfold State.cwrServe
  exact (steady_sentWrite ..).trans (steady_of_kept (kept_relayReply ..))

theorem steady_relayTake (s : State) (hdr addr : DWord) (data : List DWord) (f : State → RelayHdr → State)
    (hf : ∀ (s : State) h, s.Steady (f s h)) : s.Steady (s.relayTake hdr addr data f) := by
  unfold State.relayTake
  split
  · exact steady_of_kept rfl
  · dsimp only
    split
    · exact steady_of_kept (kept_relayOut ..)
    · exact hf _ _

theorem fuseJobOk_none {s : State} (h : s.crypto.fuse = none) : fuseJobOk s := by
  intro v d hv
  rw [h] at hv
  cases hv

theorem steady_offState (s : State) : s.Steady s.offState := ⟨rfl, rfl, fun _ => fuseJobOk_none rfl⟩

theorem steady_offAtOnce (s : State) : s.Steady s.offAtOnce := by
  have h : ∀ u : State, ({ u with power := { u.power with rails := Rails.off } } : State).vcabAll.kept = u.kept := fun u =>
    kept_vcabAll _
  exact (steady_of_kept ((h s.pgoodLow).trans (kept_pgoodLow s))).trans (steady_offState _)

theorem steady_downStep (s : State) (i : Nat) : s.Steady (s.downStep i) := by
  unfold State.downStep
  split
  · exact steady_of_kept (kept_foldl _ (fun s r => kept_retain _ _) _ _)
  · have h : ∀ u : State, ((List.range 96).foldl (fun s r => if s.fld (Rg.RPWR_STAT_STATE r) = 3 then s.regionOff r 0 else s)
        u).kept = u.kept := kept_foldl _ (fun s r => by simp only [kept_ite, kept_regionOff, ite_self]) _
    refine steady_of_kept ((kept_foldl _ (fun s e => kept_regionOff _ _ _) _ _).trans ?_)
    rw [← h s]
    rfl
  · exact steady_of_kept (by simp only [kept_mk])
  · exact steady_of_kept ((kept_foldl _ (fun s g => (kept_segmentDark _ _).trans (kept_vcabStep _ _ _)) _ _).trans (by simp only [kept_mk]))
  · exact ⟨rfl, rfl, fun _ => fuseJobOk_none rfl⟩
  · exact steady_offState s

theorem steady_powerAdvance (s : State) (n : Nat) : s.Steady (s.powerAdvance n) := by
  induction n generalizing s with
  | zero => exact steady_of_kept rfl
  | succ n ih =>
    unfold State.powerAdvance
    split
    · exact steady_of_kept rfl
    · split
      · exact steady_of_kept rfl
      · dsimp only
        split
        · exact steady_downStep _ _
        · rename_i d _ _ _ _ _
          refine (steady_downStep s d.stage).trans (State.Steady.trans (steady_of_kept ?_) (ih _))
          simp only [kept_mk]

theorem steady_tick (s : State) : s.Steady s.tick := by
  unfold State.tick
  refine State.Steady.trans (steady_of_kept ?_) (steady_powerAdvance _ 8)
  rw [kept_loopsStep, kept_rampsEnd, kept_bootStep]
  simp only [kept_mk]

/-! ### Rows -/

theorem slotRow_steady {p : Site} (ok : State → Nat → Bool) (f : State → Nat → Nat → State) (s : State)
    (hf : ∀ s n b, (f s n b).kept = s.kept) (t : State) (_ : s = s) (h : slotRow p ok f s = .next t) : s.Steady t := by
  unfold slotRow at h
  dsimp only at h
  split at h
  · split at h
    · cases h
      exact steady_of_kept ((hf _ _ _).trans (kept_land _ _ _ _))
    · cases h
  · cases h
    exact steady_of_kept rfl

theorem ctlRow_steady {p : Site} (f : State → State) (s : State) (hf : ∀ s, (f s).kept = s.kept) (t : State) (_ : s = s)
    (h : ctlRow p f s = .next t) : s.Steady t := by
  unfold ctlRow at h
  cases h
  split
  · exact steady_of_kept (hf _)
  · exact steady_of_kept rfl

theorem vecRow_steady {p : Site} {v : VecSlot} {s t : State} (h : vecRow p v s = .next t) : s.Steady t :=
  slotRow_steady _ _ _ (fun s n b => kept_vecIssue ..) _ rfl h

theorem xferRow_steady {p : Site} {a : BitVec 14} {form : Bool} {k : Nat} {s t : State} (h : xferRow p a form k s = .next t) :
    s.Steady t := slotRow_steady _ _ _ (fun s n b => kept_xferIssue ..) _ rfl h

theorem routeRow_steady {p : Site} {a : BitVec 14} {form : Bool} {k : Nat} {s t : State} (h : routeRow p a form k s = .next t) :
    s.Steady t := slotRow_steady _ _ _ (fun s n b => kept_routeIssue ..) _ rfl h

theorem steady_gopAccess (op : Nat) (req : Requester) (id : BitVec 15) (s : State) : s.Steady (gopAccess op req id s) :=
  steady_accessWrite ..

theorem steady_cryPair (op : Nat) (req : Requester) (w : Word) (s : State) : s.Steady (cryPair op req w s) := steady_accessPair ..

theorem steady_fusePair (op : Nat) (req : Requester) (w : Word) (s : State) : s.Steady (fusePair op req w s) :=
  steady_accessPair ..

theorem kept_linkErrors (s : State) (r errs) : (State.linkErrors s r errs).kept = s.kept := by
  unfold State.linkErrors
  rw [kept_foldl]
  intro t e
  rw [kept_modCluster]

theorem steady_execScheduleCycleExecutes (r : Fin 96) (e) (s t : State) (h : execScheduleCycleExecutes r s e = .next t) :
    s.Steady t := by
  unfold execScheduleCycleExecutes at h
  dsimp only at h
  split at h
  · split at h
    · cases h
    · cases h
      exact steady_of_kept ((kept_portsRun _).trans ((kept_aclk _ _).trans (kept_linkErrors _ _ _)))
  · cases h
    exact steady_of_kept rfl

theorem steady_execPressRun (p d x a b) (s t : State) (h : execPressRun p d x a b s = .next t) : s.Steady t := by
  unfold execPressRun at h
  dsimp only at h
  exact slotRow_steady _ _ s (fun s n b => kept_engineIssue ..) t rfl h

theorem steady_execPourRun (p d x a b) (s t : State) (h : execPourRun p d x a b s = .next t) : s.Steady t := by
  unfold execPourRun at h
  dsimp only at h
  exact slotRow_steady _ _ s (fun s n b => kept_engineIssue ..) t rfl h

theorem steady_execCbload (p a b) (s t : State) (h : execCbload p a b s = .next t) : s.Steady t :=
  slotRow_steady _ _ s (fun s n b => kept_cbIssue ..) t rfl h

theorem steady_execRel (p a) (s t : State) (h : execRel p a s = .next t) : s.Steady t :=
  slotRow_steady _ _ s (fun s n b => kept_relIssue ..) t rfl h

theorem steady_execWr (x0 x1 x2 x3 x4 x5 x6) (s t : State) (h : execWr x0 x1 x2 x3 x4 s x5 x6 = .next t) : s.Steady t := by
  unfold execWr at h
  cases h
  split
  · exact steady_of_kept (kept_requestLost ..)
  · exact steady_hostStore _ _ _
  · exact steady_wrTake ..

theorem steady_execKvread (p e) (s t : State) (h : execKvread p e s = .next t) : s.Steady t := by
  cases h
  exact steady_of_kept (kept_unlessHeld _ _ (kept_dmaNext ..))

theorem steady_execKvwrite (p e) (s t : State) (h : execKvwrite p e s = .next t) : s.Steady t := by
  cases h
  exact steady_of_kept (kept_unlessHeld _ _ (kept_dmaNext ..))

theorem steady_execPfxLookupDone (a) (s t : State) (h : execPfxLookupDone a s = .next t) : s.Steady t := by
  unfold execPfxLookupDone at h
  cases h
  split
  · exact steady_of_kept rfl
  · refine steady_of_kept (kept_unlessHeld _ _ ?_)
    rw [kept_pfxEnd]
    simp only [kept_mk]

theorem entryRow_steady {ring opc entry} {s t : State} {f : State → Nat → List Byte → State}
    (hf : ∀ s n b, (f s n b).kept = s.kept) (h : entryRow ring opc entry s f = .next t) : s.Steady t := by
  unfold entryRow at h
  cases h
  refine steady_of_kept ?_
  split
  · dsimp only
    split
    · exact (kept_ackWrite ..).trans (kept_consume ..)
    · exact kept_unlessHeld _ _ ((hf _ _ _).trans (kept_consume ..))
  · rfl

theorem steady_execSubmit (r e p q) (s t : State) (h : execSubmit r e p q s = .next t) : s.Steady t :=
  entryRow_steady (fun s n b => kept_submit ..) h

theorem steady_execAbort (r e) (s t : State) (h : execAbort r e s = .next t) : s.Steady t :=
  entryRow_steady (fun s n b => kept_abortRun ..) h

theorem steady_execTenant (r e) (s t : State) (h : execTenant r e s = .next t) : s.Steady t := by
  exact entryRow_steady (fun s n b => kept_tenant ..) h

theorem steady_execGrammar (r e b) (s t : State) (h : execGrammar r e b s = .next t) : s.Steady t := by
  exact entryRow_steady (fun s n c => kept_grammar ..) h

theorem steady_execBudgetRefill (s t : State) (h : execBudgetRefill s = .next t) : s.Steady t := by
  unfold execBudgetRefill at h
  rw [← Host.Outcome.next.inj h]
  exact steady_of_kept (kept_refill _)

theorem steady_execFeed (r row) (s t : State) (h : execFeed r row s = .next t) : s.Steady t := by
  unfold execFeed at h
  cases h
  split
  · exact steady_of_kept rfl
  · exact steady_of_kept (kept_unlessHeld _ _ (kept_feed ..))

theorem steady_execSample (r row) (s t : State) (h : execSample r row s = .next t) : s.Steady t := by
  cases h
  refine steady_of_kept (kept_unlessHeld _ _ (kept_takeRow _ _ _ _ _ fun s w l => ?_))
  split
  · rfl
  · exact kept_sampleRow ..

theorem steady_execVerify (r row) (s t : State) (h : execVerify r row s = .next t) : s.Steady t := by
  cases h
  refine steady_of_kept (kept_unlessHeld _ _ (kept_takeRow _ _ _ _ _ fun s w l => ?_))
  have h := kept_ctxHeader s r 0 w
  split
  · rename_i e
    rw [e] at h
    exact h
  · rename_i e
    rw [e] at h
    exact (kept_verifyFrom ..).trans h

theorem steady_execLinkDataFlit (x0 x1 x2 x3) (s t : State) (h : execLinkDataFlit x0 x1 s x2 x3 = .next t) : s.Steady t := by
  cases h
  exact steady_of_kept (kept_fromPeer _ _ _ _ fun s => kept_numbered _ _ _ _ _ fun s => kept_inbound ..)

theorem steady_execLinkControlFlit (x0 x1 x2 x3) (s t : State) (h : execLinkControlFlit x0 x1 s x2 x3 = .next t) : s.Steady t := by
  cases h
  exact steady_of_kept (kept_fromPeer _ _ _ _ fun s => kept_numbered _ _ _ _ _ fun s => kept_ctlWords ..)

theorem steady_execHrd (a b c) (s t : State) (h : execHrd a b c s = .next t) : s.Steady t := by
  cases h
  exact steady_relayTake _ _ _ _ _ fun s h => steady_of_kept (kept_hrdServe ..)

theorem steady_execHrdd (a b c) (s t : State) (h : execHrdd a b c s = .next t) : s.Steady t := by
  cases h
  exact steady_relayTake _ _ _ _ _ fun s h => steady_of_kept (kept_relayResponse ..)

theorem steady_execHwr (a b c) (s t : State) (h : execHwr a b c s = .next t) : s.Steady t := by
  cases h
  exact steady_relayTake _ _ _ _ _ fun s h => steady_of_kept (kept_hwrServe ..)

theorem steady_execCrd (a b) (s t : State) (h : execCrd a b s = .next t) : s.Steady t := by
  cases h
  exact steady_relayTake _ _ _ _ _ fun s h => steady_of_kept (kept_crdServe ..)

theorem steady_execCwr (a b c) (s t : State) (h : execCwr a b c s = .next t) : s.Steady t := by
  cases h
  exact steady_relayTake _ _ _ _ _ fun s h => steady_cwrServe ..

theorem steady_execCrsp (a b c) (s t : State) (h : execCrsp a b c s = .next t) : s.Steady t := by
  cases h
  exact steady_relayTake _ _ _ _ _ fun s h => steady_of_kept (kept_relayResponse ..)

theorem steady_execIrq (a b) (s t : State) (h : execIrq a b s = .next t) : s.Steady t := by
  cases h
  exact steady_relayTake _ _ _ _ _ fun s h => steady_of_kept (kept_irqServe ..)

theorem steady_execInputCollapse (s t : State) (h : execInputCollapse s = .next t) : s.Steady t := by
  cases h
  split
  · exact steady_offAtOnce s
  · exact steady_of_kept rfl

theorem steady_execIdle (x0 x1) (s t : State) (h : execIdle x0 x1 s = .next t) : s.Steady t := by
  unfold execIdle at h
  cases h
  refine steady_of_kept ?_
  simp [kept_modCluster, kept_foldl, kept_mk, kept_ite]

theorem steady_execLoop (x0 x1 x2) (s t : State) (h : execLoop x0 x1 x2 s = .next t) : s.Steady t := by
  unfold execLoop at h
  cases h
  refine steady_of_kept ?_
  simp [kept_modCluster, kept_foldl, kept_mk, kept_ite]

theorem steady_execSegend (x0) (s t : State) (h : execSegend x0 s = .next t) : s.Steady t := by
  unfold execSegend at h
  cases h
  refine steady_of_kept ?_
  simp [kept_ctlSegend, kept_foldl, kept_mk, kept_ite]

theorem steady_execMark (x0 x1) (s t : State) (h : execMark x0 x1 s = .next t) : s.Steady t := by
  unfold execMark at h
  cases h
  refine steady_of_kept ?_
  simp [kept_modCluster, kept_ctlMark, kept_foldl, kept_mk, kept_ite]

theorem steady_execSegmentBegin (x0) (s t : State) (h : execSegmentBegin x0 s = .next t) : s.Steady t := by
  unfold execSegmentBegin at h
  cases h
  refine steady_of_kept ?_
  simp [kept_beginSegment, kept_foldl, kept_mk, kept_ite]

theorem steady_execQueueTimeout (x0) (s t : State) (h : execQueueTimeout x0 s = .next t) : s.Steady t := by
  unfold execQueueTimeout at h
  cases h
  refine steady_of_kept ?_
  simp [kept_queueTimeout, kept_foldl, kept_mk, kept_ite]

theorem steady_execEngineOpComplete (x0) (s t : State) (h : execEngineOpComplete x0 s = .next t) : s.Steady t := by
  unfold execEngineOpComplete at h
  cases h
  refine steady_of_kept ?_
  simp [kept_landSel, kept_foldl, kept_mk, kept_ite]

theorem steady_execTileCrcComparison (x0) (s t : State) (h : execTileCrcComparison x0 s = .next t) : s.Steady t := by
  unfold execTileCrcComparison at h
  cases h
  refine steady_of_kept ?_
  (repeat' split) <;> simp [kept_modCluster, kept_landEff, kept_foldl, kept_mk, kept_ite]

theorem steady_execFma (x0 x1 x2 x3 x4 x5) (s t : State) (h : execFma x0 x1 x2 x3 x4 x5 s = .next t) : s.Steady t := by
  exact vecRow_steady h

theorem steady_execMul (x0 x1 x2 x3 x4) (s t : State) (h : execMul x0 x1 x2 x3 x4 s = .next t) : s.Steady t := by
  exact vecRow_steady h

theorem steady_execAdd (x0 x1 x2 x3 x4) (s t : State) (h : execAdd x0 x1 x2 x3 x4 s = .next t) : s.Steady t := by
  exact vecRow_steady h

theorem steady_execSub (x0 x1 x2 x3 x4) (s t : State) (h : execSub x0 x1 x2 x3 x4 s = .next t) : s.Steady t := by
  exact vecRow_steady h

theorem steady_execMax (x0 x1 x2 x3 x4) (s t : State) (h : execMax x0 x1 x2 x3 x4 s = .next t) : s.Steady t := by
  exact vecRow_steady h

theorem steady_execMin (x0 x1 x2 x3 x4) (s t : State) (h : execMin x0 x1 x2 x3 x4 s = .next t) : s.Steady t := by
  exact vecRow_steady h

theorem steady_execCmpeq (x0 x1 x2 x3) (s t : State) (h : execCmpeq x0 x1 x2 x3 s = .next t) : s.Steady t := by
  exact vecRow_steady h

theorem steady_execCmplt (x0 x1 x2 x3) (s t : State) (h : execCmplt x0 x1 x2 x3 s = .next t) : s.Steady t := by
  exact vecRow_steady h

theorem steady_execCmple (x0 x1 x2 x3) (s t : State) (h : execCmple x0 x1 x2 x3 s = .next t) : s.Steady t := by
  exact vecRow_steady h

theorem steady_execSel (x0 x1 x2 x3 x4) (s t : State) (h : execSel x0 x1 x2 x3 x4 s = .next t) : s.Steady t := by
  exact vecRow_steady h

theorem steady_execIadd (x0 x1 x2 x3) (s t : State) (h : execIadd x0 x1 x2 x3 s = .next t) : s.Steady t := by
  exact vecRow_steady h

theorem steady_execIsub (x0 x1 x2 x3) (s t : State) (h : execIsub x0 x1 x2 x3 s = .next t) : s.Steady t := by
  exact vecRow_steady h

theorem steady_execAnd (x0 x1 x2 x3) (s t : State) (h : execAnd x0 x1 x2 x3 s = .next t) : s.Steady t := by
  exact vecRow_steady h

theorem steady_execOr (x0 x1 x2 x3) (s t : State) (h : execOr x0 x1 x2 x3 s = .next t) : s.Steady t := by
  exact vecRow_steady h

theorem steady_execXor (x0 x1 x2 x3) (s t : State) (h : execXor x0 x1 x2 x3 s = .next t) : s.Steady t := by
  exact vecRow_steady h

theorem steady_execShl (x0 x1 x2 x3) (s t : State) (h : execShl x0 x1 x2 x3 s = .next t) : s.Steady t := by
  exact vecRow_steady h

theorem steady_execShr (x0 x1 x2 x3) (s t : State) (h : execShr x0 x1 x2 x3 s = .next t) : s.Steady t := by
  exact vecRow_steady h

theorem steady_execSar (x0 x1 x2 x3) (s t : State) (h : execSar x0 x1 x2 x3 s = .next t) : s.Steady t := by
  exact vecRow_steady h

theorem steady_execLaneid (x0 x1) (s t : State) (h : execLaneid x0 x1 s = .next t) : s.Steady t := by
  exact vecRow_steady h

theorem steady_execBcast (x0 x1 x2 x3) (s t : State) (h : execBcast x0 x1 x2 x3 s = .next t) : s.Steady t := by
  exact vecRow_steady h

theorem steady_execCvtw (x0 x1 x2) (s t : State) (h : execCvtw x0 x1 x2 s = .next t) : s.Steady t := by
  exact vecRow_steady h

theorem steady_execCvtn (x0 x1 x2) (s t : State) (h : execCvtn x0 x1 x2 s = .next t) : s.Steady t := by
  exact vecRow_steady h

theorem steady_execNarrowt (x0 x1 x2 x3) (s t : State) (h : execNarrowt x0 x1 x2 x3 s = .next t) : s.Steady t := by
  exact vecRow_steady h

theorem steady_execNarrowu (x0 x1 x2) (s t : State) (h : execNarrowu x0 x1 x2 s = .next t) : s.Steady t := by
  exact vecRow_steady h

theorem steady_execCvtb8 (x0 x1 x2) (s t : State) (h : execCvtb8 x0 x1 x2 s = .next t) : s.Steady t := by
  exact vecRow_steady h

theorem steady_execCvtb5 (x0 x1 x2) (s t : State) (h : execCvtb5 x0 x1 x2 s = .next t) : s.Steady t := by
  exact vecRow_steady h

theorem steady_execCvtbi (x0 x1 x2) (s t : State) (h : execCvtbi x0 x1 x2 s = .next t) : s.Steady t := by
  exact vecRow_steady h

theorem steady_execWiden (x0 x1 x2 x3) (s t : State) (h : execWiden x0 x1 x2 x3 s = .next t) : s.Steady t := by
  exact vecRow_steady h

theorem steady_execExp2 (x0 x1 x2) (s t : State) (h : execExp2 x0 x1 x2 s = .next t) : s.Steady t := by
  exact vecRow_steady h

theorem steady_execLog2 (x0 x1 x2) (s t : State) (h : execLog2 x0 x1 x2 s = .next t) : s.Steady t := by
  exact vecRow_steady h

theorem steady_execRcp (x0 x1 x2) (s t : State) (h : execRcp x0 x1 x2 s = .next t) : s.Steady t := by
  exact vecRow_steady h

theorem steady_execRsqrt (x0 x1 x2) (s t : State) (h : execRsqrt x0 x1 x2 s = .next t) : s.Steady t := by
  exact vecRow_steady h

theorem steady_execSilu (x0 x1 x2) (s t : State) (h : execSilu x0 x1 x2 s = .next t) : s.Steady t := by
  exact vecRow_steady h

theorem steady_execGelu (x0 x1 x2) (s t : State) (h : execGelu x0 x1 x2 s = .next t) : s.Steady t := by
  exact vecRow_steady h

theorem steady_execRsum (x0 x1 x2 x3 x4) (s t : State) (h : execRsum x0 x1 x2 x3 x4 s = .next t) : s.Steady t := by
  exact vecRow_steady h

theorem steady_execRmax (x0 x1 x2 x3 x4) (s t : State) (h : execRmax x0 x1 x2 x3 x4 s = .next t) : s.Steady t := by
  exact vecRow_steady h

theorem steady_execRmin (x0 x1 x2 x3 x4) (s t : State) (h : execRmin x0 x1 x2 x3 x4 s = .next t) : s.Steady t := by
  exact vecRow_steady h

theorem steady_execRlse (x0 x1 x2 x3 x4 x5) (s t : State) (h : execRlse x0 x1 x2 x3 x4 x5 s = .next t) : s.Steady t := by
  exact vecRow_steady h

theorem steady_execTopl (x0 x1 x2 x3 x4 x5 x6) (s t : State) (h : execTopl x0 x1 x2 x3 x4 x5 x6 s = .next t) : s.Steady t := by
  exact vecRow_steady h

theorem steady_execXacc (x0 x1 x2 x3 x4) (s t : State) (h : execXacc x0 x1 x2 x3 x4 s = .next t) : s.Steady t := by
  exact vecRow_steady h

theorem steady_execXmac (x0 x1 x2 x3 x4 x5 x6) (s t : State) (h : execXmac x0 x1 x2 x3 x4 x5 x6 s = .next t) : s.Steady t := by
  exact vecRow_steady h

theorem steady_execXfold (x0 x1 x2) (s t : State) (h : execXfold x0 x1 x2 s = .next t) : s.Steady t := by
  exact vecRow_steady h

theorem steady_execXcvt (x0 x1 x2 x3 x4 x5) (s t : State) (h : execXcvt x0 x1 x2 x3 x4 x5 s = .next t) : s.Steady t := by
  exact vecRow_steady h

theorem steady_execXrst (x0 x1 x2) (s t : State) (h : execXrst x0 x1 x2 s = .next t) : s.Steady t := by
  exact vecRow_steady h

theorem steady_execVecResult (x0) (s t : State) (h : execVecResult x0 s = .next t) : s.Steady t := by
  unfold execVecResult at h
  cases h
  refine steady_of_kept ?_
  simp [kept_landSel, kept_foldl, kept_mk, kept_ite]

theorem steady_execXferFromScratchpad (x0 x1 x2) (s t : State) (h : execXferFromScratchpad x0 x1 x2 s = .next t) : s.Steady t := by
  exact xferRow_steady h

theorem steady_execXferIntoScratchpad (x0 x1 x2) (s t : State) (h : execXferIntoScratchpad x0 x1 x2 s = .next t) : s.Steady t := by
  exact xferRow_steady h

theorem steady_execFill (x0 x1) (s t : State) (h : execFill x0 x1 s = .next t) : s.Steady t := by
  exact xferRow_steady h

theorem steady_execCopy (x0 x1) (s t : State) (h : execCopy x0 x1 s = .next t) : s.Steady t := by
  exact xferRow_steady h

theorem steady_execDmaCommand (x0 x1 x2) (s t : State) (h : execDmaCommand x0 x1 x2 s = .next t) : s.Steady t := by
  exact xferRow_steady h

theorem steady_execDmaCompletion (x0 x1 x2) (s t : State) (h : execDmaCompletion x0 x1 x2 s = .next t) : s.Steady t := by
  exact xferRow_steady h

theorem steady_execTransferComplete (x0) (s t : State) (h : execTransferComplete x0 s = .next t) : s.Steady t := by
  unfold execTransferComplete at h
  cases h
  refine steady_of_kept ?_
  simp [kept_modCluster, kept_landSel, kept_foldl, kept_mk, kept_ite]

theorem steady_execRoutePass (x0 x1 x2) (s t : State) (h : execRoutePass x0 x1 x2 s = .next t) : s.Steady t := by
  exact routeRow_steady h

theorem steady_execRouteBinary32Sum (x0 x1 x2) (s t : State) (h : execRouteBinary32Sum x0 x1 x2 s = .next t) : s.Steady t := by
  exact routeRow_steady h

theorem steady_execRouteBf16InSum (x0 x1 x2) (s t : State) (h : execRouteBf16InSum x0 x1 x2 s = .next t) : s.Steady t := by
  exact routeRow_steady h

theorem steady_execRouteXsSum (x0 x1 x2) (s t : State) (h : execRouteXsSum x0 x1 x2 s = .next t) : s.Steady t := by
  exact routeRow_steady h

theorem steady_execRouteMax (x0 x1 x2) (s t : State) (h : execRouteMax x0 x1 x2 s = .next t) : s.Steady t := by
  exact routeRow_steady h

theorem steady_execRouteLseMerge (x0 x1 x2) (s t : State) (h : execRouteLseMerge x0 x1 x2 s = .next t) : s.Steady t := by
  exact routeRow_steady h

theorem steady_execRouteTopkMerge (x0 x1 x2) (s t : State) (h : execRouteTopkMerge x0 x1 x2 s = .next t) : s.Steady t := by
  exact routeRow_steady h

theorem steady_execQueueEntryVisible (x0 x1 x2) (s t : State) (h : execQueueEntryVisible x0 x1 s x2 = .next t) : s.Steady t := by
  unfold execQueueEntryVisible at h
  cases h
  refine steady_of_kept ?_
  simp only [kept_queueShow, kept_foldl, kept_mk, kept_ite]

theorem steady_execQueueSlotVisible (x0 x1) (s t : State) (h : execQueueSlotVisible x0 x1 s = .next t) : s.Steady t := by
  unfold execQueueSlotVisible at h
  cases h
  refine steady_of_kept ?_
  simp only [kept_portsRun, kept_queueFree, kept_foldl, kept_mk, kept_ite]

theorem steady_execFenceApplied (x0) (s t : State) (h : execFenceApplied x0 s = .next t) : s.Steady t := by
  unfold execFenceApplied at h
  cases h
  refine steady_of_kept ?_
  simp [kept_fenceRegion, kept_foldl, kept_mk, kept_ite]

theorem steady_execRd (x0 x1 x2 x3 x4 x5) (s t : State) (h : execRd x0 x1 x2 x3 s x4 x5 = .next t) : s.Steady t := by
  unfold execRd at h
  cases h
  refine steady_of_kept ?_
  split
  · exact kept_requestLost ..
  · exact kept_hostRead ..
  · exact kept_rdTake ..

theorem steady_execRsp (x0 x1 x2 x3 x4 x5 x6) (s t : State) (h : execRsp x0 x1 x2 x3 s x4 x5 x6 = .next t) : s.Steady t := by
  cases h
  exact steady_of_kept (kept_carried _ _ _ _ _ _ _ fun s => kept_receive ..)

theorem steady_execControlDma (x0 x1 x2 x3 x4 x5 x6 x7) (s t : State) (h : execControlDma x0 x1 x2 x3 x4 x5 s x6 x7 = .next t) : s.Steady t := by
  cases h
  exact steady_of_kept (kept_carried _ _ _ _ _ _ _ fun s => kept_dmaServe ..)

theorem steady_execDmadone (x0 x1 x2 x3 x4 x5) (s t : State) (h : execDmadone x0 x1 x2 s x3 x4 x5 = .next t) : s.Steady t := by
  cases h
  exact steady_of_kept (kept_carried _ _ _ _ _ _ _ fun s => kept_receive ..)

theorem steady_execFault (x0 x1 x2 x3) (s t : State) (h : execFault x0 x1 s x2 x3 = .next t) : s.Steady t := by
  cases h
  exact steady_of_kept (kept_carried _ _ _ _ _ _ _ fun s => kept_takeFault ..)

theorem steady_execErrlog (x0 x1 x2 x3) (s t : State) (h : execErrlog x0 x1 s x2 x3 = .next t) : s.Steady t := by
  cases h
  exact steady_of_kept (kept_carried _ _ _ _ _ _ _ fun s => kept_takeEntry ..)

theorem steady_execSegcmd (x0 x1 x2 x3) (s t : State) (h : execSegcmd x0 x1 s x2 x3 = .next t) : s.Steady t := by
  cases h
  exact steady_of_kept (kept_carried _ _ _ _ _ _ _ fun s => kept_segPush ..)

theorem steady_execToken (x0 x1 x2 x3 x4) (s t : State) (h : execToken x0 x1 s x2 x3 x4 = .next t) : s.Steady t := by
  cases h
  exact steady_of_kept (kept_carried _ _ _ _ _ _ _ fun s => kept_receive ..)

theorem steady_execHalt (x0 x1 x2 x3) (s t : State) (h : execHalt x0 x1 s x2 x3 = .next t) : s.Steady t := by
  cases h
  exact steady_of_kept (kept_carried _ _ _ _ _ _ _ fun s => kept_haltPacket ..)

theorem steady_execSidebandTimeout (x0 x1) (s t : State) (h : execSidebandTimeout x0 x1 s = .next t) : s.Steady t := by
  unfold execSidebandTimeout at h
  cases h
  refine steady_of_kept ?_
  simp only [kept_timedOut, kept_foldl, kept_mk, kept_ite]

theorem steady_execPfxLaunch (x0 x1) (s t : State) (h : execPfxLaunch x0 x1 s = .next t) : s.Steady t := by
  cases h
  exact steady_accessWrite ..

theorem steady_execCommit (x0 x1) (s t : State) (h : execCommit x0 x1 s = .next t) : s.Steady t := by
  unfold execCommit at h
  cases h
  refine steady_of_kept ?_
  simp only [kept_commitFrom, kept_foldl, kept_mk, kept_ite]

theorem steady_execAdv (x0 x1 x2 x3 x4) (s t : State) (h : execAdv x0 x1 x2 x3 x4 s = .next t) : s.Steady t := by
  unfold execAdv at h
  cases h
  refine steady_of_kept ?_
  simp only [kept_commitFrom, kept_foldl, kept_mk, kept_ite]

theorem steady_execDebit (x0 x1 x2) (s t : State) (h : execDebit x0 x1 x2 s = .next t) : s.Steady t := by
  unfold execDebit at h
  cases h
  refine steady_of_kept ?_
  simp only [kept_commitFrom, kept_foldl, kept_mk, kept_ite]

theorem steady_execRing (x0 x1 x2) (s t : State) (h : execRing x0 x1 x2 s = .next t) : s.Steady t := by
  unfold execRing at h
  cases h
  refine steady_of_kept ?_
  simp only [kept_commitFrom, kept_foldl, kept_mk, kept_ite]

theorem steady_execAdj (x0 x1 x2) (s t : State) (h : execAdj x0 x1 x2 s = .next t) : s.Steady t := by
  unfold execAdj at h
  cases h
  refine steady_of_kept ?_
  simp only [kept_commitFrom, kept_foldl, kept_mk, kept_ite]

theorem steady_execSlot (x0 x1 x2) (s t : State) (h : execSlot x0 x1 x2 s = .next t) : s.Steady t := by
  unfold execSlot at h
  cases h
  refine steady_of_kept ?_
  simp only [kept_commitFrom, kept_foldl, kept_mk, kept_ite]

theorem steady_execDecodeAdmission (x0 x1) (s t : State) (h : execDecodeAdmission x0 x1 s = .next t) : s.Steady t := by
  cases h
  exact steady_accessWrite ..

theorem steady_execPrefillAdmission (x0 x1) (s t : State) (h : execPrefillAdmission x0 x1 s = .next t) : s.Steady t := by
  cases h
  exact steady_accessWrite ..

theorem steady_execLoad (x0 x1 x2) (s t : State) (h : execLoad x0 x1 x2 s = .next t) : s.Steady t := by
  cases h
  refine steady_of_kept ?_
  simp only [kept_loadImage, kept_loadFail, kept_ite, ite_self]

theorem steady_execLoadSegment (x0 x1) (s t : State) (h : execLoadSegment x0 x1 s = .next t) : s.Steady t := by
  unfold execLoadSegment at h
  cases h
  refine steady_of_kept ?_
  simp only [kept_loadSegment, kept_foldl, kept_mk, kept_ite]

theorem steady_execSwap (x0 x1 x2 x3) (s t : State) (h : execSwap x0 x1 x2 x3 s = .next t) : s.Steady t := by
  cases h
  exact steady_accessWrite ..

theorem steady_execStop (x0 x1) (s t : State) (h : execStop x0 x1 s = .next t) : s.Steady t := by
  cases h
  exact steady_accessWrite ..

theorem steady_execSwpHoldArm (x0 x1 x2) (s t : State) (h : execSwpHoldArm x0 x1 x2 s = .next t) : s.Steady t := by
  cases h
  exact steady_accessWrite ..

theorem steady_execHello (x0 x1 x2) (s t : State) (h : execHello x0 x1 x2 s = .next t) : s.Steady t := by
  unfold execHello at h
  cases h
  refine steady_of_kept ?_
  simp only [kept_helloTake, kept_foldl, kept_mk, kept_ite]

theorem steady_execTransferQuote (x0 x1 x2) (s t : State) (h : execTransferQuote x0 x1 x2 s = .next t) : s.Steady t := by
  unfold execTransferQuote at h
  cases h
  refine steady_of_kept ?_
  simp [kept_quote, kept_quoteAtSource, kept_quoteAtReceiver, kept_foldl, kept_mk, kept_ite]

theorem steady_execSessionKey (x0 x1) (s t : State) (h : execSessionKey x0 x1 s = .next t) : s.Steady t := by
  unfold execSessionKey at h
  cases h
  refine steady_of_kept ?_
  simp only [kept_keyTake, kept_foldl, kept_mk, kept_ite]

theorem steady_execRequestList (x0) (s t : State) (h : execRequestList x0 s = .next t) : s.Steady t := by
  unfold execRequestList at h
  cases h
  refine steady_of_kept ?_
  simp only [kept_listTake, kept_foldl, kept_mk, kept_ite]

theorem steady_execTransferSegment (x0) (s t : State) (h : execTransferSegment x0 s = .next t) : s.Steady t := by
  unfold execTransferSegment at h
  cases h
  refine steady_of_kept ?_
  simp only [kept_segmentTake, kept_foldl, kept_mk, kept_ite]

theorem steady_execTransferDone (x0) (s t : State) (h : execTransferDone x0 s = .next t) : s.Steady t := by
  unfold execTransferDone at h
  cases h
  refine steady_of_kept ?_
  simp only [kept_doneTake, kept_foldl, kept_mk, kept_ite]

theorem steady_execTransferAbort (x0) (s t : State) (h : execTransferAbort x0 s = .next t) : s.Steady t := by
  unfold execTransferAbort at h
  cases h
  refine steady_of_kept ?_
  simp only [kept_abortTake, kept_foldl, kept_mk, kept_ite]

theorem steady_execIdleFlit (x0 x1 x2) (s t : State) (h : execIdleFlit x0 x1 s x2 = .next t) : s.Steady t := by
  cases h
  exact steady_of_kept (kept_fromPeer _ _ _ _ fun s => kept_idleTake ..)

theorem steady_execTrainingFlit (x0 x1 x2) (s t : State) (h : execTrainingFlit x0 x1 s x2 = .next t) : s.Steady t := by
  cases h
  exact steady_of_kept (kept_fromPeer _ _ _ _ fun s => kept_training ..)

theorem steady_execPortEn (x0 x1 x2) (s t : State) (h : execPortEn x0 x1 x2 s = .next t) : s.Steady t := by
  unfold execPortEn at h
  cases h
  split
  · exact steady_accessWrite ..
  · exact steady_of_kept rfl

theorem steady_execRetrain (x0 x1 x2) (s t : State) (h : execRetrain x0 x1 x2 s = .next t) : s.Steady t := by
  unfold execRetrain at h
  cases h
  split
  · exact steady_accessWrite ..
  · exact steady_of_kept rfl

theorem steady_execDetectRetry (x0 x1) (s t : State) (h : execDetectRetry x0 x1 s = .next t) : s.Steady t := by
  unfold execDetectRetry at h
  cases h
  refine steady_of_kept ?_
  simp only [kept_detectAgain, kept_signal, kept_foldl, kept_mk, kept_ite]

theorem steady_execTrainingPhaseComplete (x0 x1 x2) (s t : State) (h : execTrainingPhaseComplete x0 x1 s x2 = .next t) : s.Steady t := by
  cases h
  exact steady_of_kept (kept_phaseDone ..)

theorem steady_execTrainingPhaseLimit (x0) (s t : State) (h : execTrainingPhaseLimit x0 s = .next t) : s.Steady t := by
  unfold execTrainingPhaseLimit at h
  cases h
  refine steady_of_kept ?_
  simp only [kept_phaseLate, kept_foldl, kept_mk, kept_ite]

theorem steady_execLinkLoss (x0) (s t : State) (h : execLinkLoss x0 s = .next t) : s.Steady t := by
  unfold execLinkLoss at h
  cases h
  refine steady_of_kept ?_
  simp only [kept_portDown, kept_foldl, kept_mk, kept_ite]

theorem steady_execPeerSilent (x0) (s t : State) (h : execPeerSilent x0 s = .next t) : s.Steady t := by
  unfold execPeerSilent at h
  cases h
  refine steady_of_kept ?_
  simp only [kept_portDown, kept_foldl, kept_mk, kept_ite]

theorem steady_execCableMated (x0 x1) (s t : State) (h : execCableMated x0 x1 s = .next t) : s.Steady t := by
  unfold execCableMated at h
  cases h
  refine steady_of_kept ?_
  simp only [kept_setCable, kept_vcabStep, kept_foldl, kept_mk, kept_ite]

theorem steady_execCableRemoved (x0) (s t : State) (h : execCableRemoved x0 s = .next t) : s.Steady t := by
  unfold execCableRemoved at h
  cases h
  refine steady_of_kept ?_
  simp only [kept_segmentDark, kept_setCable, kept_vcabStep, kept_foldl, kept_mk, kept_ite]

theorem steady_execVcabOvercurrent (x0) (s t : State) (h : execVcabOvercurrent x0 s = .next t) : s.Steady t := by
  unfold execVcabOvercurrent at h
  cases h
  refine steady_of_kept ?_
  simp [kept_setCable, kept_vcabStep, kept_segmentDark, kept_foldl, kept_mk, kept_ite]

theorem steady_execHostMalformedRequest (x0 x1 x2) (s t : State) (h : execHostMalformedRequest x0 x1 x2 s = .next t) : s.Steady t := by
  unfold execHostMalformedRequest at h
  cases h
  refine steady_of_kept ?_
  simp [kept_emit, kept_foldl, kept_mk, kept_ite]

theorem steady_execGopArrive (x0 x1) (s t : State) (h : execGopArrive x0 x1 s = .next t) : s.Steady t := by
  cases h
  exact steady_accessWrite ..

theorem steady_execGopBcast (x0 x1) (s t : State) (h : execGopBcast x0 x1 s = .next t) : s.Steady t := by
  cases h
  exact steady_accessWrite ..

theorem steady_execGopSnap (x0 x1) (s t : State) (h : execGopSnap x0 x1 s = .next t) : s.Steady t := by
  cases h
  exact steady_accessWrite ..

theorem steady_execGopQuiesce (x0 x1) (s t : State) (h : execGopQuiesce x0 x1 s = .next t) : s.Steady t := by
  cases h
  exact steady_accessWrite ..

theorem steady_execGopResume (x0 x1) (s t : State) (h : execGopResume x0 x1 s = .next t) : s.Steady t := by
  cases h
  exact steady_accessWrite ..

theorem steady_execMarkArrive (x0 x1) (s t : State) (h : execMarkArrive x0 x1 s = .next t) : s.Steady t := by
  unfold execMarkArrive at h
  cases h
  refine steady_of_kept ?_
  simp only [kept_arriveTake, kept_foldl, kept_mk, kept_ite]

theorem steady_execMarkRelease (x0 x1) (s t : State) (h : execMarkRelease x0 x1 s = .next t) : s.Steady t := by
  unfold execMarkRelease at h
  cases h
  refine steady_of_kept ?_
  simp only [kept_releaseTake, kept_foldl, kept_mk, kept_ite]

theorem steady_execMarkBcast (x0 x1 x2 x3) (s t : State) (h : execMarkBcast x0 x1 x2 x3 s = .next t) : s.Steady t := by
  unfold execMarkBcast at h
  cases h
  refine steady_of_kept ?_
  simp only [kept_bcastTake, kept_foldl, kept_mk, kept_ite]

theorem steady_execMarkSnap (x0 x1 x2 x3) (s t : State) (h : execMarkSnap x0 x1 x2 x3 s = .next t) : s.Steady t := by
  unfold execMarkSnap at h
  cases h
  refine steady_of_kept ?_
  simp only [kept_bcastTake, kept_foldl, kept_mk, kept_ite]

theorem steady_execMarkQuiesce (x0 x1 x2 x3) (s t : State) (h : execMarkQuiesce x0 x1 x2 x3 s = .next t) : s.Steady t := by
  unfold execMarkQuiesce at h
  cases h
  refine steady_of_kept ?_
  simp only [kept_bcastTake, kept_foldl, kept_mk, kept_ite]

theorem steady_execMarkResume (x0 x1 x2 x3) (s t : State) (h : execMarkResume x0 x1 x2 x3 s = .next t) : s.Steady t := by
  unfold execMarkResume at h
  cases h
  refine steady_of_kept ?_
  simp only [kept_bcastTake, kept_foldl, kept_mk, kept_ite]

theorem steady_execModuleHeld (s t : State) (h : execModuleHeld  s = .next t) : s.Steady t := by
  unfold execModuleHeld at h
  cases h
  refine steady_of_kept ?_
  simp only [kept_becomeHeld, kept_foldl, kept_mk, kept_ite]

theorem steady_execGopReset (x0 x1) (s t : State) (h : execGopReset x0 x1 s = .next t) : s.Steady t := by
  cases h
  exact steady_accessPair ..

theorem steady_execDomainResetDone (s t : State) (h : execDomainResetDone  s = .next t) : s.Steady t := by
  unfold execDomainResetDone at h
  cases h
  refine steady_of_kept ?_
  simp only [kept_domainResetEnd, kept_foldl, kept_mk, kept_ite]

theorem steady_execGopTimeout (s t : State) (h : execGopTimeout  s = .next t) : s.Steady t := by
  unfold execGopTimeout at h
  cases h
  refine steady_of_kept ?_
  simp only [kept_gopLate, kept_foldl, kept_mk, kept_ite]

theorem steady_execPowerUp (x0 x1 x2 x3 x4 x5) (s t : State) (h : execPowerUp x0 x1 x2 x3 x4 s x5 = .next t) : s.Steady t := by
  cases h
  exact steady_of_kept (kept_powerUp ..)

theorem steady_execPwrEnFall (x0) (s t : State) (h : execPwrEnFall s x0 = .next t) : s.Steady t := by
  unfold execPwrEnFall at h
  cases h
  refine steady_of_kept ?_
  simp only [kept_powerDown, kept_foldl, kept_mk, kept_ite]

theorem steady_execInputUndervoltage (s t : State) (h : execInputUndervoltage  s = .next t) : s.Steady t := by
  unfold execInputUndervoltage at h
  cases h
  refine steady_of_kept ?_
  simp only [kept_powerDown, kept_foldl, kept_mk, kept_ite]

theorem steady_execInputOvervoltage (s t : State) (h : execInputOvervoltage  s = .next t) : s.Steady t := by
  unfold execInputOvervoltage at h
  cases h
  refine steady_of_kept ?_
  simp only [kept_powerDown, kept_foldl, kept_mk, kept_ite]

theorem steady_execRailFault (x0 x1) (s t : State) (h : execRailFault x0 x1 s = .next t) : s.Steady t := by
  unfold execRailFault at h
  cases h
  refine steady_of_kept ?_
  simp [kept_logEdge, kept_powerDown, kept_vcabAll, kept_foldl, kept_mk, kept_ite]

theorem steady_execAvsTick (x0 x1 x2 x3 x4 x5) (s t : State) (h : execAvsTick x0 x1 x2 x3 x4 s x5 = .next t) : s.Steady t := by
  unfold execAvsTick at h
  cases h
  refine steady_of_kept ?_
  simp only [kept_avs, kept_foldl, kept_mk, kept_ite]

theorem steady_execSenseInvalid (x0 x1 x2) (s t : State) (h : execSenseInvalid x0 x1 x2 s = .next t) : s.Steady t := by
  unfold execSenseInvalid at h
  cases h
  refine steady_of_kept ?_
  simp only [kept_senseBad, kept_foldl, kept_mk, kept_ite]

theorem steady_execDroop (x0 x1) (s t : State) (h : execDroop x0 x1 s = .next t) : s.Steady t := by
  unfold execDroop at h
  cases h
  refine steady_of_kept ?_
  simp only [kept_droop, kept_foldl, kept_mk, kept_ite]

theorem steady_execRegionShort (x0 x1 x2) (s t : State) (h : execRegionShort x0 x1 x2 s = .next t) : s.Steady t := by
  cases h
  exact steady_of_kept (kept_shortTake ..)

theorem steady_execShortRetry (x0) (s t : State) (h : execShortRetry x0 s = .next t) : s.Steady t := by
  unfold execShortRetry at h
  cases h
  refine steady_of_kept ?_
  simp only [kept_shortRetry, kept_foldl, kept_mk, kept_ite]

theorem steady_execRegionFence (x0 x1 x2) (s t : State) (h : execRegionFence x0 x1 x2 s = .next t) : s.Steady t := by
  cases h
  exact steady_accessPair ..

theorem steady_execVset (x0 x1 x2) (s t : State) (h : execVset x0 x1 x2 s = .next t) : s.Steady t := by
  cases h
  exact steady_accessPair ..

theorem steady_execRefLost (x0) (s t : State) (h : execRefLost x0 s = .next t) : s.Steady t := by
  unfold execRefLost at h
  cases h
  refine steady_of_kept ?_
  simp only [kept_refDrop, kept_foldl, kept_mk, kept_ite]

theorem steady_execRefValid (x0) (s t : State) (h : execRefValid x0 s = .next t) : s.Steady t := by
  unfold execRefValid at h
  cases h
  refine steady_of_kept ?_
  simp only [kept_refGain, kept_foldl, kept_mk, kept_ite]

theorem steady_execRegionRefLost (x0 x1) (s t : State) (h : execRegionRefLost x0 x1 s = .next t) : s.Steady t := by
  unfold execRegionRefLost at h
  cases h
  refine steady_of_kept ?_
  simp only [kept_inputDrop, kept_foldl, kept_mk, kept_ite]

theorem steady_execRegionRelock (x0 x1) (s t : State) (h : execRegionRelock x0 x1 s = .next t) : s.Steady t := by
  cases h
  exact steady_of_kept ((kept_p3Go _).trans (kept_relock ..))

theorem steady_execEffStep (x0 x1) (s t : State) (h : execEffStep x0 x1 s = .next t) : s.Steady t := by
  unfold execEffStep at h
  cases h
  refine steady_of_kept ?_
  simp only [kept_effMove, kept_foldl, kept_mk, kept_ite]

theorem steady_execCeil (x0 x1 x2) (s t : State) (h : execCeil x0 x1 x2 s = .next t) : s.Steady t := by
  cases h
  exact steady_accessWrite ..

theorem steady_execIlimTick (x0 x1) (s t : State) (h : execIlimTick x0 x1 s = .next t) : s.Steady t := by
  unfold execIlimTick at h
  cases h
  refine steady_of_kept ?_
  simp only [kept_ilim, kept_foldl, kept_mk, kept_ite]

theorem steady_execPowerCapTick (x0 x1 x2 x3 x4) (s t : State) (h : execPowerCapTick x0 x1 s x2 x3 x4 = .next t) : s.Steady t := by
  cases h
  exact steady_of_kept ((kept_powerCap ..).trans (kept_vinRead ..))

theorem steady_execCurrentBrake (x0 x1 x2) (s t : State) (h : execCurrentBrake x0 x1 s x2 = .next t) : s.Steady t := by
  unfold execCurrentBrake at h
  cases h
  refine steady_of_kept ?_
  simp only [kept_brakeOn, kept_foldl, kept_mk, kept_ite]

theorem steady_execBrakeRelease (x0) (s t : State) (h : execBrakeRelease x0 s = .next t) : s.Steady t := by
  unfold execBrakeRelease at h
  cases h
  refine steady_of_kept ?_
  simp only [kept_brakeOff, kept_foldl, kept_mk, kept_ite]

theorem steady_execCpSample (x0) (s t : State) (h : execCpSample x0 s = .next t) : s.Steady t := by
  unfold execCpSample at h
  cases h
  refine steady_of_kept ?_
  simp only [kept_plateSample, kept_foldl, kept_mk, kept_ite]

theorem steady_execPcoolTick (x0 x1 x2 x3) (s t : State) (h : execPcoolTick x0 x1 x2 x3 s = .next t) : s.Steady t := by
  cases h
  exact steady_of_kept (kept_pcool ..)

theorem steady_execCoolantOvertemp (s t : State) (h : execCoolantOvertemp  s = .next t) : s.Steady t := by
  unfold execCoolantOvertemp at h
  cases h
  refine steady_of_kept ?_
  simp only [kept_overtemp, kept_foldl, kept_mk, kept_ite]

theorem steady_execRegionThermalSample (x0 x1 x2 x3 x4) (s t : State) (h : execRegionThermalSample x0 x1 x2 x3 x4 s = .next t) : s.Steady t := by
  unfold execRegionThermalSample at h
  cases h
  refine steady_of_kept ?_
  simp only [kept_regionSample, kept_foldl, kept_mk, kept_ite]

theorem steady_execTlimStep (x0) (s t : State) (h : execTlimStep x0 s = .next t) : s.Steady t := by
  unfold execTlimStep at h
  cases h
  refine steady_of_kept ?_
  simp only [kept_tlim, kept_foldl, kept_mk, kept_ite]

theorem steady_execRegionTripClear (x0) (s t : State) (h : execRegionTripClear x0 s = .next t) : s.Steady t := by
  unfold execRegionTripClear at h
  cases h
  refine steady_of_kept ?_
  simp only [kept_tripClear, kept_foldl, kept_mk, kept_ite]

theorem steady_execStackThermalSample (x0 x1 x2 x3 x4 x5) (s t : State) (h : execStackThermalSample x0 x1 x2 x3 x4 s x5 = .next t) : s.Steady t := by
  cases h
  exact steady_of_kept ((kept_stackSample ..).trans (kept_onDieEcc ..))

theorem steady_execStlimStep (x0) (s t : State) (h : execStlimStep x0 s = .next t) : s.Steady t := by
  unfold execStlimStep at h
  cases h
  refine steady_of_kept ?_
  simp only [kept_stlim, kept_foldl, kept_mk, kept_ite]

theorem steady_execStackTripClear (x0) (s t : State) (h : execStackTripClear x0 s = .next t) : s.Steady t := by
  unfold execStackTripClear at h
  cases h
  refine steady_of_kept ?_
  simp only [kept_stackClear, kept_foldl, kept_mk, kept_ite]

theorem steady_execAlarmReceived (s t : State) (h : execAlarmReceived  s = .next t) : s.Steady t := by
  unfold execAlarmReceived at h
  cases h
  refine steady_of_kept ?_
  split
  · exact kept_alarm ..
  · exact kept_emit ..

theorem steady_execBootGo (x0 x1 x2) (s t : State) (h : execBootGo x0 x1 x2 s = .next t) : s.Steady t := by
  cases h
  exact steady_accessWrite ..

theorem steady_execClockSeed (s t : State) (h : execClockSeed  s = .next t) : s.Steady t := by
  unfold execClockSeed at h
  cases h
  refine steady_of_kept ?_
  simp only [kept_clockSeed, kept_foldl, kept_mk, kept_ite]

theorem steady_execRegionWavefront (x0 x1) (s t : State) (h : execRegionWavefront x0 x1 s = .next t) : s.Steady t := by
  unfold execRegionWavefront at h
  cases h
  refine steady_of_kept ?_
  simp only [kept_wavefront, kept_foldl, kept_mk, kept_ite]

theorem steady_execStackBringup (x0) (s t : State) (h : execStackBringup x0 s = .next t) : s.Steady t := by
  unfold execStackBringup at h
  cases h
  refine steady_of_kept ?_
  simp only [kept_stacksUp, kept_foldl, kept_mk, kept_ite]

theorem steady_execLinkStage (s t : State) (h : execLinkStage  s = .next t) : s.Steady t := by
  unfold execLinkStage at h
  cases h
  refine steady_of_kept ?_
  simp only [kept_linksUp, kept_foldl, kept_mk, kept_ite]

theorem steady_execKnownAnswerRuns (x0 x1 x2 x3 x4) (s t : State) (h : execKnownAnswerRuns x0 x1 x2 x3 x4 s = .next t) : s.Steady t := by
  unfold execKnownAnswerRuns at h
  cases h
  refine steady_of_kept ?_
  simp only [kept_knownAnswers, kept_foldl, kept_mk, kept_ite]

theorem steady_execBringupReady (s t : State) (h : execBringupReady  s = .next t) : s.Steady t := by
  unfold execBringupReady at h
  cases h
  refine steady_of_kept ?_
  simp only [kept_ready, kept_foldl, kept_mk, kept_ite]

theorem steady_execFback (x0 x1 x2) (s t : State) (h : execFback x0 x1 x2 s = .next t) : s.Steady t := by
  cases h
  exact steady_accessWrite ..

theorem steady_execFaultResend (x0) (s t : State) (h : execFaultResend x0 s = .next t) : s.Steady t := by
  unfold execFaultResend at h
  cases h
  refine steady_of_kept ?_
  simp only [kept_resend, kept_foldl, kept_mk, kept_ite]

theorem steady_execErrlogHoldExpiry (x0) (s t : State) (h : execErrlogHoldExpiry x0 s = .next t) : s.Steady t := by
  unfold execErrlogHoldExpiry at h
  cases h
  refine steady_of_kept ?_
  simp only [kept_holdExpire, kept_foldl, kept_mk, kept_ite]

theorem steady_execElogHead (x0 x1) (s t : State) (h : execElogHead x0 x1 s = .next t) : s.Steady t := by
  cases h
  exact steady_accessWrite ..

theorem steady_execAddressToken (x0) (s t : State) (h : execAddressToken x0 s = .next t) : s.Steady t := by
  cases h
  exact steady_of_kept (kept_chainIn _ _ _ fun s => kept_addressTake ..)

theorem steady_execTimePulse (s t : State) (h : execTimePulse  s = .next t) : s.Steady t := by
  cases h
  exact steady_of_kept (kept_chainIn _ _ _ fun s => kept_pulseTake ..)

theorem steady_execBootclose (x0 x1) (s t : State) (h : execBootclose x0 x1 s = .next t) : s.Steady t := by
  unfold execBootclose at h
  cases h
  refine steady_of_kept ?_
  simp [kept_quivorRequest, kept_frame, kept_foldl, kept_mk, kept_ite]

theorem steady_execBootWindowTimeout (s t : State) (h : execBootWindowTimeout  s = .next t) : s.Steady t := by
  unfold execBootWindowTimeout at h
  cases h
  refine steady_of_kept ?_
  simp only [kept_windowTimeout, kept_foldl, kept_mk, kept_ite]

theorem steady_execRead (x0 x1) (s t : State) (h : execRead x0 x1 s = .next t) : s.Steady t := by
  unfold execRead at h
  cases h
  refine steady_of_kept ?_
  simp only [kept_quivorRequest, kept_frame, kept_foldl, kept_mk, kept_ite]

theorem steady_execWrite (x0 x1) (s t : State) (h : execWrite x0 x1 s = .next t) : s.Steady t := by
  unfold execWrite at h
  cases h
  refine steady_of_kept ?_
  simp only [kept_quivorRequest, kept_frame, kept_foldl, kept_mk, kept_ite]

theorem steady_execNotifyTimer (s t : State) (h : execNotifyTimer  s = .next t) : s.Steady t := by
  unfold execNotifyTimer at h
  cases h
  refine steady_of_kept ?_
  simp only [kept_notifyTick, kept_foldl, kept_mk, kept_ite]

theorem steady_execSync (x0) (s t : State) (h : execSync x0 s = .next t) : s.Steady t := by
  unfold execSync at h
  cases h
  refine steady_of_kept ?_
  simp only [kept_syncTake, kept_foldl, kept_mk, kept_ite]

theorem steady_execPeerDelayRequest (x0) (s t : State) (h : execPeerDelayRequest x0 s = .next t) : s.Steady t := by
  unfold execPeerDelayRequest at h
  cases h
  refine steady_of_kept ?_
  simp only [kept_peerDelay, kept_foldl, kept_mk, kept_ite]

theorem steady_execOffsetTick (s t : State) (h : execOffsetTick  s = .next t) : s.Steady t := by
  unfold execOffsetTick at h
  cases h
  refine steady_of_kept ?_
  simp only [kept_offsetStep, kept_foldl, kept_mk, kept_ite]

theorem steady_execQuoteGo (x0 x1) (s t : State) (h : execQuoteGo x0 x1 s = .next t) : s.Steady t := by
  unfold execQuoteGo at h
  cases h
  refine steady_of_kept ?_
  simp [kept_quivorRequest, kept_frame, kept_foldl, kept_mk, kept_ite]

theorem steady_execQuoteDone (s t : State) (h : execQuoteDone  s = .next t) : s.Steady t := by
  unfold execQuoteDone at h
  cases h
  refine steady_of_kept ?_
  simp only [kept_quoteEnd, kept_foldl, kept_mk, kept_ite]

theorem steady_execCryQuote (x0 x1) (s t : State) (h : execCryQuote x0 x1 s = .next t) : s.Steady t := by
  cases h
  exact steady_accessPair ..

theorem steady_execSign (x0 x1) (s t : State) (h : execSign x0 x1 s = .next t) : s.Steady t := by
  cases h
  exact steady_accessPair ..

theorem steady_execUnwrap (x0 x1) (s t : State) (h : execUnwrap x0 x1 s = .next t) : s.Steady t := by
  cases h
  exact steady_accessPair ..

theorem steady_execWrap (x0 x1) (s t : State) (h : execWrap x0 x1 s = .next t) : s.Steady t := by
  cases h
  exact steady_accessPair ..

theorem steady_execErase (x0 x1) (s t : State) (h : execErase x0 x1 s = .next t) : s.Steady t := by
  cases h
  exact steady_accessPair ..

theorem steady_execFuseProgramSlot (x0 x1) (s t : State) (h : execFuseProgramSlot x0 x1 s = .next t) : s.Steady t := by
  cases h
  exact steady_accessPair ..

theorem steady_execFuseRevokeSlot (x0 x1) (s t : State) (h : execFuseRevokeSlot x0 x1 s = .next t) : s.Steady t := by
  cases h
  exact steady_accessPair ..

theorem steady_execFuseRaiseSvnmin (x0 x1) (s t : State) (h : execFuseRaiseSvnmin x0 x1 s = .next t) : s.Steady t := by
  cases h
  exact steady_accessPair ..

theorem steady_execCmclrGo (x0 x1) (s t : State) (h : execCmclrGo x0 x1 s = .next t) : s.Steady t := by
  cases h
  exact steady_accessWrite ..

theorem steady_execCmclrDone (s t : State) (h : execCmclrDone  s = .next t) : s.Steady t := by
  unfold execCmclrDone at h
  cases h
  refine steady_of_kept ?_
  simp only [kept_clearEnd, kept_foldl, kept_mk, kept_ite]

theorem steady_execSpflipArm (x0 x1 x2) (s t : State) (h : execSpflipArm x0 x1 x2 s = .next t) : s.Steady t := by
  cases h
  exact steady_accessWrite ..

theorem steady_execWtcrcTest (x0 x1 x2) (s t : State) (h : execWtcrcTest x0 x1 x2 s = .next t) : s.Steady t := by
  cases h
  exact steady_accessWrite ..

theorem steady_execDflipArm (x0 x1 x2) (s t : State) (h : execDflipArm x0 x1 x2 s = .next t) : s.Steady t := by
  cases h
  exact steady_accessWrite ..

theorem steady_execTagArrayWrite (x0 x1 x2 x3) (s t : State) (h : execTagArrayWrite x0 x1 x2 x3 s = .next t) : s.Steady t := by
  cases h
  exact steady_accessWrite ..

theorem steady_execRawWindowRead (x0 x1) (s t : State) (h : execRawWindowRead x0 x1 s = .next t) : s.Steady t := by
  unfold execRawWindowRead at h
  cases h
  refine steady_of_kept ?_
  simp only [kept_accessRead, kept_foldl, kept_mk, kept_ite]

theorem steady_execGpFirstHalf (x0 x1 x2) (s t : State) (h : execGpFirstHalf x0 x1 x2 s = .next t) : s.Steady t := by
  unfold execGpFirstHalf at h
  cases h
  split
  · exact steady_accessWrite ..
  · exact steady_of_kept rfl

theorem steady_execGpLapse (x0) (s t : State) (h : execGpLapse x0 s = .next t) : s.Steady t := by
  unfold execGpLapse at h
  cases h
  refine steady_of_kept ?_
  simp only [kept_lapse, kept_foldl, kept_mk, kept_ite]

theorem steady_execGpSecondHalfRefused (x0 x1 x2) (s t : State) (h : execGpSecondHalfRefused x0 x1 x2 s = .next t) : s.Steady t := by
  unfold execGpSecondHalfRefused at h
  cases h
  split
  · exact steady_accessWrite ..
  · exact steady_of_kept rfl

theorem steady_execRegisterWrite (x0 x1 x2) (s t : State) (h : execRegisterWrite x0 x1 x2 s = .next t) : s.Steady t := by
  cases h
  exact steady_accessWrite ..

theorem steady_execBadOpcode (x0 x1) (s t : State) (h : execBadOpcode x0 x1 s = .next t) : s.Steady t := by
  unfold execBadOpcode at h
  cases h
  refine steady_of_kept ?_
  split
  · exact (kept_badAck ..).trans (kept_consume ..)
  · rfl

theorem steady_execPacketDiscard (x0 x1 x2) (s t : State) (h : execPacketDiscard x0 x1 x2 s = .next t) : s.Steady t := by
  unfold execPacketDiscard at h
  cases h
  refine steady_of_kept ?_
  simp only [kept_discardPacket, kept_foldl, kept_mk, kept_ite]

theorem steady_execBadpat (s t : State) (h : execBadpat  s = .next t) : s.Steady t := by
  cases h
  exact steady_of_kept (kept_chainIn _ _ _ fun s => kept_badPattern ..)

theorem steady_execTbLoRead (x0) (s t : State) (h : execTbLoRead x0 s = .next t) : s.Steady t := by
  unfold execTbLoRead at h
  cases h
  refine steady_of_kept ?_
  simp only [kept_accessRead, kept_foldl, kept_mk, kept_ite]

theorem steady_execCryDone (s t : State) (h : execCryDone  s = .next t) : s.Steady t := by
  unfold execCryDone at h
  cases h
  refine steady_of_kept ?_
  simp only [kept_cryEnd, kept_foldl, kept_mk, kept_ite]

theorem steady_execHostLinkTrained (x0 x1) (s t : State) (h : execHostLinkTrained x0 x1 s = .next t) : s.Steady t := by
  unfold execHostLinkTrained at h
  cases h
  refine steady_of_kept ?_
  simp [kept_setFld, kept_foldl, kept_mk, kept_ite]

theorem steady_execHostLinkLost (s t : State) (h : execHostLinkLost  s = .next t) : s.Steady t := by
  unfold execHostLinkLost at h
  cases h
  refine steady_of_kept ?_
  simp [kept_setFld, kept_foldl, kept_mk, kept_ite]

theorem steady_execRegionInputValid (x0 x1 x2) (s t : State) (h : execRegionInputValid x0 x1 x2 s = .next t) : s.Steady t := by
  unfold execRegionInputValid at h
  cases h
  refine steady_of_kept ?_
  simp only [kept_inputGain, kept_foldl, kept_mk, kept_ite]

theorem steady_execClockSeedTimeout (s t : State) (h : execClockSeedTimeout  s = .next t) : s.Steady t := by
  unfold execClockSeedTimeout at h
  cases h
  refine steady_of_kept ?_
  simp only [kept_clockSeedLate, kept_foldl, kept_mk, kept_ite]

theorem steady_execClockHoldTimeout (x0) (s t : State) (h : execClockHoldTimeout x0 s = .next t) : s.Steady t := by
  unfold execClockHoldTimeout at h
  cases h
  refine steady_of_kept ?_
  simp only [kept_clockHoldLate, kept_foldl, kept_mk, kept_ite]

/-- Every command but the end of fuse programming keeps the queue and the fuses, and starts no fuse programming that R466
refuses. -/
theorem exec_steady (c : Instr) (s t : State) (hc : c ≠ .fusePgmDone) (h : exec c s = .next t) : s.Steady t := by
  cases c with
  | idle _ _ => exact steady_execIdle _ _ s t h
  | loop _ _ _ => exact steady_execLoop _ _ _ s t h
  | segend _ => exact steady_execSegend _ s t h
  | mark _ _ => exact steady_execMark _ _ s t h
  | segmentBegin _ => exact steady_execSegmentBegin _ s t h
  | scheduleCycleExecutes _ _ => exact steady_execScheduleCycleExecutes _ _ s t h
  | queueTimeout _ => exact steady_execQueueTimeout _ s t h
  | pressRun _ _ _ _ _ => exact steady_execPressRun _ _ _ _ _ s t h
  | pourRun _ _ _ _ _ => exact steady_execPourRun _ _ _ _ _ s t h
  | cbload _ _ _ => exact steady_execCbload _ _ _ s t h
  | engineOpComplete _ => exact steady_execEngineOpComplete _ s t h
  | tileCrcComparison _ => exact steady_execTileCrcComparison _ s t h
  | fma _ _ _ _ _ _ => exact steady_execFma _ _ _ _ _ _ s t h
  | mul _ _ _ _ _ => exact steady_execMul _ _ _ _ _ s t h
  | add _ _ _ _ _ => exact steady_execAdd _ _ _ _ _ s t h
  | sub _ _ _ _ _ => exact steady_execSub _ _ _ _ _ s t h
  | max _ _ _ _ _ => exact steady_execMax _ _ _ _ _ s t h
  | min _ _ _ _ _ => exact steady_execMin _ _ _ _ _ s t h
  | cmpeq _ _ _ _ => exact steady_execCmpeq _ _ _ _ s t h
  | cmplt _ _ _ _ => exact steady_execCmplt _ _ _ _ s t h
  | cmple _ _ _ _ => exact steady_execCmple _ _ _ _ s t h
  | sel _ _ _ _ _ => exact steady_execSel _ _ _ _ _ s t h
  | iadd _ _ _ _ => exact steady_execIadd _ _ _ _ s t h
  | isub _ _ _ _ => exact steady_execIsub _ _ _ _ s t h
  | and _ _ _ _ => exact steady_execAnd _ _ _ _ s t h
  | or _ _ _ _ => exact steady_execOr _ _ _ _ s t h
  | xor _ _ _ _ => exact steady_execXor _ _ _ _ s t h
  | shl _ _ _ _ => exact steady_execShl _ _ _ _ s t h
  | shr _ _ _ _ => exact steady_execShr _ _ _ _ s t h
  | sar _ _ _ _ => exact steady_execSar _ _ _ _ s t h
  | laneid _ _ => exact steady_execLaneid _ _ s t h
  | bcast _ _ _ _ => exact steady_execBcast _ _ _ _ s t h
  | cvtw _ _ _ => exact steady_execCvtw _ _ _ s t h
  | cvtn _ _ _ => exact steady_execCvtn _ _ _ s t h
  | narrowt _ _ _ _ => exact steady_execNarrowt _ _ _ _ s t h
  | narrowu _ _ _ => exact steady_execNarrowu _ _ _ s t h
  | cvtb8 _ _ _ => exact steady_execCvtb8 _ _ _ s t h
  | cvtb5 _ _ _ => exact steady_execCvtb5 _ _ _ s t h
  | cvtbi _ _ _ => exact steady_execCvtbi _ _ _ s t h
  | widen _ _ _ _ => exact steady_execWiden _ _ _ _ s t h
  | exp2 _ _ _ => exact steady_execExp2 _ _ _ s t h
  | log2 _ _ _ => exact steady_execLog2 _ _ _ s t h
  | rcp _ _ _ => exact steady_execRcp _ _ _ s t h
  | rsqrt _ _ _ => exact steady_execRsqrt _ _ _ s t h
  | silu _ _ _ => exact steady_execSilu _ _ _ s t h
  | gelu _ _ _ => exact steady_execGelu _ _ _ s t h
  | rsum _ _ _ _ _ => exact steady_execRsum _ _ _ _ _ s t h
  | rmax _ _ _ _ _ => exact steady_execRmax _ _ _ _ _ s t h
  | rmin _ _ _ _ _ => exact steady_execRmin _ _ _ _ _ s t h
  | rlse _ _ _ _ _ _ => exact steady_execRlse _ _ _ _ _ _ s t h
  | topl _ _ _ _ _ _ _ => exact steady_execTopl _ _ _ _ _ _ _ s t h
  | xacc _ _ _ _ _ => exact steady_execXacc _ _ _ _ _ s t h
  | xmac _ _ _ _ _ _ _ => exact steady_execXmac _ _ _ _ _ _ _ s t h
  | xfold _ _ _ => exact steady_execXfold _ _ _ s t h
  | xcvt _ _ _ _ _ _ => exact steady_execXcvt _ _ _ _ _ _ s t h
  | xrst _ _ _ => exact steady_execXrst _ _ _ s t h
  | vecResult _ => exact steady_execVecResult _ s t h
  | xferFromScratchpad _ _ _ => exact steady_execXferFromScratchpad _ _ _ s t h
  | xferIntoScratchpad _ _ _ => exact steady_execXferIntoScratchpad _ _ _ s t h
  | fill _ _ => exact steady_execFill _ _ s t h
  | copy _ _ => exact steady_execCopy _ _ s t h
  | dmaCommand _ _ _ => exact steady_execDmaCommand _ _ _ s t h
  | dmaCompletion _ _ _ => exact steady_execDmaCompletion _ _ _ s t h
  | rel _ _ => exact steady_execRel _ _ s t h
  | transferComplete _ => exact steady_execTransferComplete _ s t h
  | routePass _ _ _ => exact steady_execRoutePass _ _ _ s t h
  | routeBinary32Sum _ _ _ => exact steady_execRouteBinary32Sum _ _ _ s t h
  | routeBf16InSum _ _ _ => exact steady_execRouteBf16InSum _ _ _ s t h
  | routeXsSum _ _ _ => exact steady_execRouteXsSum _ _ _ s t h
  | routeMax _ _ _ => exact steady_execRouteMax _ _ _ s t h
  | routeLseMerge _ _ _ => exact steady_execRouteLseMerge _ _ _ s t h
  | routeTopkMerge _ _ _ => exact steady_execRouteTopkMerge _ _ _ s t h
  | queueEntryVisible _ _ _ => exact steady_execQueueEntryVisible _ _ _ s t h
  | queueSlotVisible _ _ => exact steady_execQueueSlotVisible _ _ s t h
  | fenceApplied _ => exact steady_execFenceApplied _ s t h
  | rd _ _ _ _ _ _ => exact steady_execRd _ _ _ _ _ _ s t h
  | wr _ _ _ _ _ _ _ => exact steady_execWr _ _ _ _ _ _ _ s t h
  | rsp _ _ _ _ _ _ _ => exact steady_execRsp _ _ _ _ _ _ _ s t h
  | controlDma _ _ _ _ _ _ _ _ => exact steady_execControlDma _ _ _ _ _ _ _ _ s t h
  | dmadone _ _ _ _ _ _ => exact steady_execDmadone _ _ _ _ _ _ s t h
  | fault _ _ _ _ => exact steady_execFault _ _ _ _ s t h
  | errlog a b c d => exact steady_execErrlog a b c d s t h
  | segcmd _ _ _ _ => exact steady_execSegcmd _ _ _ _ s t h
  | token _ _ _ _ _ => exact steady_execToken _ _ _ _ _ s t h
  | halt _ _ _ _ => exact steady_execHalt _ _ _ _ s t h
  | sidebandTimeout _ _ => exact steady_execSidebandTimeout _ _ s t h
  | kvread _ _ => exact steady_execKvread _ _ s t h
  | kvwrite _ _ => exact steady_execKvwrite _ _ s t h
  | pfxLaunch _ _ => exact steady_execPfxLaunch _ _ s t h
  | pfxLookupDone _ => exact steady_execPfxLookupDone _ s t h
  | submit _ _ _ _ => exact steady_execSubmit _ _ _ _ s t h
  | abort _ _ => exact steady_execAbort _ _ s t h
  | tenant _ _ => exact steady_execTenant _ _ s t h
  | grammar _ _ _ => exact steady_execGrammar _ _ _ s t h
  | commit _ _ => exact steady_execCommit _ _ s t h
  | adv _ _ _ _ _ => exact steady_execAdv _ _ _ _ _ s t h
  | debit _ _ _ => exact steady_execDebit _ _ _ s t h
  | ring _ _ _ => exact steady_execRing _ _ _ s t h
  | adj _ _ _ => exact steady_execAdj _ _ _ s t h
  | slot _ _ _ => exact steady_execSlot _ _ _ s t h
  | decodeAdmission _ _ => exact steady_execDecodeAdmission _ _ s t h
  | prefillAdmission _ _ => exact steady_execPrefillAdmission _ _ s t h
  | budgetRefill => exact steady_execBudgetRefill s t h
  | feed _ _ => exact steady_execFeed _ _ s t h
  | sample _ _ => exact steady_execSample _ _ s t h
  | verify _ _ => exact steady_execVerify _ _ s t h
  | load _ _ _ => exact steady_execLoad _ _ _ s t h
  | loadSegment _ _ => exact steady_execLoadSegment _ _ s t h
  | swap _ _ _ _ => exact steady_execSwap _ _ _ _ s t h
  | stop _ _ => exact steady_execStop _ _ s t h
  | swpHoldArm _ _ _ => exact steady_execSwpHoldArm _ _ _ s t h
  | hello _ _ _ => exact steady_execHello _ _ _ s t h
  | transferQuote _ _ _ => exact steady_execTransferQuote _ _ _ s t h
  | sessionKey _ _ => exact steady_execSessionKey _ _ s t h
  | requestList _ => exact steady_execRequestList _ s t h
  | transferSegment _ => exact steady_execTransferSegment _ s t h
  | transferDone _ => exact steady_execTransferDone _ s t h
  | transferAbort _ => exact steady_execTransferAbort _ s t h
  | linkDataFlit _ _ _ _ => exact steady_execLinkDataFlit _ _ _ _ s t h
  | linkControlFlit _ _ _ _ => exact steady_execLinkControlFlit _ _ _ _ s t h
  | idleFlit _ _ _ => exact steady_execIdleFlit _ _ _ s t h
  | trainingFlit _ _ _ => exact steady_execTrainingFlit _ _ _ s t h
  | portEn _ _ _ => exact steady_execPortEn _ _ _ s t h
  | retrain _ _ _ => exact steady_execRetrain _ _ _ s t h
  | detectRetry _ _ => exact steady_execDetectRetry _ _ s t h
  | trainingPhaseComplete _ _ _ => exact steady_execTrainingPhaseComplete _ _ _ s t h
  | trainingPhaseLimit _ => exact steady_execTrainingPhaseLimit _ s t h
  | linkLoss _ => exact steady_execLinkLoss _ s t h
  | peerSilent _ => exact steady_execPeerSilent _ s t h
  | cableMated _ _ => exact steady_execCableMated _ _ s t h
  | cableRemoved _ => exact steady_execCableRemoved _ s t h
  | vcabOvercurrent _ => exact steady_execVcabOvercurrent _ s t h
  | hrd _ _ _ => exact steady_execHrd _ _ _ s t h
  | hrdd _ _ _ => exact steady_execHrdd _ _ _ s t h
  | hwr _ _ _ => exact steady_execHwr _ _ _ s t h
  | crd _ _ => exact steady_execCrd _ _ s t h
  | cwr _ _ _ => exact steady_execCwr _ _ _ s t h
  | crsp _ _ _ => exact steady_execCrsp _ _ _ s t h
  | irq _ _ => exact steady_execIrq _ _ s t h
  | hostMalformedRequest _ _ _ => exact steady_execHostMalformedRequest _ _ _ s t h
  | gopArrive _ _ => exact steady_execGopArrive _ _ s t h
  | gopBcast _ _ => exact steady_execGopBcast _ _ s t h
  | gopSnap _ _ => exact steady_execGopSnap _ _ s t h
  | gopQuiesce _ _ => exact steady_execGopQuiesce _ _ s t h
  | gopResume _ _ => exact steady_execGopResume _ _ s t h
  | markArrive _ _ => exact steady_execMarkArrive _ _ s t h
  | markRelease _ _ => exact steady_execMarkRelease _ _ s t h
  | markBcast _ _ _ _ => exact steady_execMarkBcast _ _ _ _ s t h
  | markSnap _ _ _ _ => exact steady_execMarkSnap _ _ _ _ s t h
  | markQuiesce _ _ _ _ => exact steady_execMarkQuiesce _ _ _ _ s t h
  | markResume _ _ _ _ => exact steady_execMarkResume _ _ _ _ s t h
  | moduleHeld => exact steady_execModuleHeld s t h
  | gopReset _ _ => exact steady_execGopReset _ _ s t h
  | domainResetDone => exact steady_execDomainResetDone s t h
  | gopTimeout => exact steady_execGopTimeout s t h
  | powerUp _ _ _ _ _ _ => exact steady_execPowerUp _ _ _ _ _ _ s t h
  | pwrEnFall b => exact steady_execPwrEnFall b s t h
  | inputUndervoltage => exact steady_execInputUndervoltage s t h
  | inputOvervoltage => exact steady_execInputOvervoltage s t h
  | inputCollapse => exact steady_execInputCollapse s t h
  | railFault _ _ => exact steady_execRailFault _ _ s t h
  | avsTick _ _ _ _ _ _ => exact steady_execAvsTick _ _ _ _ _ _ s t h
  | senseInvalid _ _ _ => exact steady_execSenseInvalid _ _ _ s t h
  | droop _ _ => exact steady_execDroop _ _ s t h
  | regionShort _ _ _ => exact steady_execRegionShort _ _ _ s t h
  | shortRetry _ => exact steady_execShortRetry _ s t h
  | regionFence _ _ _ => exact steady_execRegionFence _ _ _ s t h
  | vset _ _ _ => exact steady_execVset _ _ _ s t h
  | refLost _ => exact steady_execRefLost _ s t h
  | refValid _ => exact steady_execRefValid _ s t h
  | regionRefLost _ _ => exact steady_execRegionRefLost _ _ s t h
  | regionRelock _ _ => exact steady_execRegionRelock _ _ s t h
  | effStep _ _ => exact steady_execEffStep _ _ s t h
  | ceil _ _ _ => exact steady_execCeil _ _ _ s t h
  | ilimTick _ _ => exact steady_execIlimTick _ _ s t h
  | powerCapTick _ _ _ _ _ => exact steady_execPowerCapTick _ _ _ _ _ s t h
  | currentBrake _ _ _ => exact steady_execCurrentBrake _ _ _ s t h
  | brakeRelease _ => exact steady_execBrakeRelease _ s t h
  | cpSample _ => exact steady_execCpSample _ s t h
  | pcoolTick _ _ _ _ => exact steady_execPcoolTick _ _ _ _ s t h
  | coolantOvertemp => exact steady_execCoolantOvertemp s t h
  | regionThermalSample _ _ _ _ _ => exact steady_execRegionThermalSample _ _ _ _ _ s t h
  | tlimStep _ => exact steady_execTlimStep _ s t h
  | regionTripClear _ => exact steady_execRegionTripClear _ s t h
  | stackThermalSample _ _ _ _ _ _ => exact steady_execStackThermalSample _ _ _ _ _ _ s t h
  | stlimStep _ => exact steady_execStlimStep _ s t h
  | stackTripClear _ => exact steady_execStackTripClear _ s t h
  | alarmReceived => exact steady_execAlarmReceived s t h
  | bootGo _ _ _ => exact steady_execBootGo _ _ _ s t h
  | clockSeed => exact steady_execClockSeed s t h
  | regionWavefront _ _ => exact steady_execRegionWavefront _ _ s t h
  | stackBringup _ => exact steady_execStackBringup _ s t h
  | linkStage => exact steady_execLinkStage s t h
  | knownAnswerRuns _ _ _ _ _ => exact steady_execKnownAnswerRuns _ _ _ _ _ s t h
  | bringupReady => exact steady_execBringupReady s t h
  | fback _ _ _ => exact steady_execFback _ _ _ s t h
  | faultResend _ => exact steady_execFaultResend _ s t h
  | errlogHoldExpiry _ => exact steady_execErrlogHoldExpiry _ s t h
  | elogHead _ _ => exact steady_execElogHead _ _ s t h
  | addressToken _ => exact steady_execAddressToken _ s t h
  | timePulse => exact steady_execTimePulse s t h
  | bootclose _ _ => exact steady_execBootclose _ _ s t h
  | bootWindowTimeout => exact steady_execBootWindowTimeout s t h
  | read _ _ => exact steady_execRead _ _ s t h
  | write _ _ => exact steady_execWrite _ _ s t h
  | notifyTimer => exact steady_execNotifyTimer s t h
  | sync _ => exact steady_execSync _ s t h
  | peerDelayRequest _ => exact steady_execPeerDelayRequest _ s t h
  | offsetTick => exact steady_execOffsetTick s t h
  | quoteGo _ _ => exact steady_execQuoteGo _ _ s t h
  | quoteDone => exact steady_execQuoteDone s t h
  | cryQuote _ _ => exact steady_execCryQuote _ _ s t h
  | sign _ _ => exact steady_execSign _ _ s t h
  | unwrap _ _ => exact steady_execUnwrap _ _ s t h
  | wrap _ _ => exact steady_execWrap _ _ s t h
  | erase _ _ => exact steady_execErase _ _ s t h
  | fuseProgramSlot _ _ => exact steady_execFuseProgramSlot _ _ s t h
  | fuseRevokeSlot _ _ => exact steady_execFuseRevokeSlot _ _ s t h
  | fuseRaiseSvnmin _ _ => exact steady_execFuseRaiseSvnmin _ _ s t h
  | fusePgmDone => exact absurd rfl hc
  | cmclrGo _ _ => exact steady_execCmclrGo _ _ s t h
  | cmclrDone => exact steady_execCmclrDone s t h
  | spflipArm _ _ _ => exact steady_execSpflipArm _ _ _ s t h
  | wtcrcTest _ _ _ => exact steady_execWtcrcTest _ _ _ s t h
  | dflipArm _ _ _ => exact steady_execDflipArm _ _ _ s t h
  | tagArrayWrite _ _ _ _ => exact steady_execTagArrayWrite _ _ _ _ s t h
  | rawWindowRead _ _ => exact steady_execRawWindowRead _ _ s t h
  | gpFirstHalf _ _ _ => exact steady_execGpFirstHalf _ _ _ s t h
  | gpLapse _ => exact steady_execGpLapse _ s t h
  | gpSecondHalfRefused _ _ _ => exact steady_execGpSecondHalfRefused _ _ _ s t h
  | registerWrite _ _ _ => exact steady_execRegisterWrite _ _ _ s t h
  | badOpcode _ _ => exact steady_execBadOpcode _ _ s t h
  | packetDiscard _ _ _ => exact steady_execPacketDiscard _ _ _ s t h
  | badpat => exact steady_execBadpat s t h
  | tbLoRead _ => exact steady_execTbLoRead _ s t h
  | cryDone => exact steady_execCryDone s t h
  | hostLinkTrained _ _ => exact steady_execHostLinkTrained _ _ s t h
  | hostLinkLost => exact steady_execHostLinkLost s t h
  | regionInputValid _ _ _ => exact steady_execRegionInputValid _ _ _ s t h
  | clockSeedTimeout => exact steady_execClockSeedTimeout s t h
  | clockHoldTimeout _ => exact steady_execClockHoldTimeout _ s t h

end Sys2Proof.Machine
end

