-- ==== Sys2Proof/Laws/Stored.lean ====
section
/-!
SUPPORT. Every operation of the machine keeps the canonical form of the module's memories (`State.memWf`): one lemma per operation, in
the order of the definitions. Laws/StoredStep.lean has the commands and the step of the clock.
-/
set_option linter.unusedSimpArgs false
set_option linter.unusedVariables false
namespace Sys2Proof.Machine

theorem stored_ite (c : Prop) [Decidable c] (a b : State) (ha : a.memWf = true) (hb : b.memWf = true) : (if c then a else b).memWf = true := by
  split <;> assumption
theorem stored_ite2 {α : Type} (c : Prop) [Decidable c] (a b : α × State) (ha : a.2.memWf = true) (hb : b.2.memWf = true) :
    (if c then a else b).2.memWf = true := by
  split <;> assumption
theorem cl_ite (c : Prop) [Decidable c] (a b : Cluster) (ha : a.memWf = true) (hb : b.memWf = true) : (if c then a else b).memWf = true := by
  split <;> assumption
theorem cl_reset : Cluster.reset.memWf = true := rfl
theorem stored_mk (s : State) pending' sent' free' time' fuse' regs' regions' queues' image' salt' inbox' lookups' recent' waiting' serve' loader' mg' armed' ports' bridge' gop' power' plate' heat' bring' crypto' held' blocked' rxSession' txSession' :
    (State.mk pending' sent' free' time' fuse' regs' regions' s.clusters queues' image' s.cmem s.dram salt' inbox' lookups' recent' waiting' serve' loader' mg' armed' ports' bridge' gop' power' plate' heat' bring' crypto' held' blocked' rxSession' txSession').memWf = s.memWf := rfl
theorem cl_mk (k : Cluster) abuf' pacc' qacc' cb' cbLen' accs' vregs' pc' idle' loops' pend' mem' runs' from_' streams' inb' pressEnd' pourEnd' sfu' dmaCmd' dmaDone' dmaOut' :
    (Cluster.mk k.prog k.wt k.tags k.proven k.sp abuf' pacc' qacc' cb' cbLen' accs' vregs' pc' idle' loops' pend' mem' runs' from_' streams' inb' pressEnd' pourEnd' sfu' dmaCmd' dmaDone' dmaOut').memWf = k.memWf := rfl

theorem cl_dmaFill (k : Cluster) (h : k.memWf = true) : k.dmaFill.memWf = true := h
theorem cl_resetCluster (k : Cluster) (h : k.memWf = true) : (State.resetCluster k).memWf = true := by
  rw [Cluster.memWf_iff] at *
  exact ⟨rfl, h.2⟩
theorem cl_ctl (k : Cluster) (w : Nat) (h : k.memWf = true) : (k.ctl w).memWf = true := by
  unfold Cluster.ctl Cluster.ctlIdle
  (repeat' split) <;> exact h
theorem with_bring (y : State) (b : Bring) (h : y.memWf = true) : ({ y with bring := b } : State).memWf = true := h
theorem with_mg (y : State) (b : Mgmt) (h : y.memWf = true) : ({ y with mg := b } : State).memWf = true := h
theorem with_power (y : State) (b : Power) (h : y.memWf = true) : ({ y with power := b } : State).memWf = true := h
theorem with_loader (y : State) (b : Loader) (h : y.memWf = true) : ({ y with loader := b } : State).memWf = true := h
theorem with_image (y : State) (i : List Byte) (b : Loader) (h : y.memWf = true) : ({ y with image := i, loader := b } : State).memWf = true := h

theorem stored_setReg (x0 : State) (x1 x2) (hW : x0.memWf = true) :
    (State.setReg x0 x1 x2).memWf = true := by
  simp (maxDischargeDepth := 60) +contextual only [State.setReg, stored_foldl, stored_foldl2, stored_mk, stored_ite, stored_ite2,
      cl_mk, cl_ite, cl_reset, hW]

theorem stored_wr (x0 : State) (x1 x2) (hW : x0.memWf = true) :
    (State.wr x0 x1 x2).memWf = true := by
  simp (maxDischargeDepth := 60) +contextual only [State.wr, stored_setReg, stored_foldl, stored_foldl2, stored_mk, stored_ite,
      stored_ite2, cl_mk, cl_ite, cl_reset, hW]

theorem stored_setFld (x0 : State) (x1 x2) (hW : x0.memWf = true) :
    (State.setFld x0 x1 x2).memWf = true := by
  simp (maxDischargeDepth := 60) +contextual only [State.setFld, stored_wr, stored_foldl, stored_foldl2, stored_mk, stored_ite,
      stored_ite2, cl_mk, cl_ite, cl_reset, hW]

theorem stored_count (x0 : State) (x1 x2) (hW : x0.memWf = true) :
    (State.count x0 x1 x2).memWf = true := by
  simp (maxDischargeDepth := 60) +contextual only [State.count, stored_wr, stored_foldl, stored_foldl2, stored_mk, stored_ite,
      stored_ite2, cl_mk, cl_ite, cl_reset, hW]

theorem stored_setRegion (x0 : State) (x1 x2) (hW : x0.memWf = true) :
    (State.setRegion x0 x1 x2).memWf = true := by
  simp (maxDischargeDepth := 60) +contextual only [State.setRegion, stored_foldl, stored_foldl2, stored_mk, stored_ite, stored_ite2,
      cl_mk, cl_ite, cl_reset, hW]

theorem stored_modRegion (x0 : State) (x1 x2) (hW : x0.memWf = true) :
    (State.modRegion x0 x1 x2).memWf = true := by
  simp (maxDischargeDepth := 60) +contextual only [State.modRegion, stored_setRegion, stored_foldl, stored_foldl2, stored_mk,
      stored_ite, stored_ite2, cl_mk, cl_ite, cl_reset, hW]

theorem stored_setQueue (x0 : State) (x1 x2) (hW : x0.memWf = true) :
    (State.setQueue x0 x1 x2).memWf = true := by
  simp (maxDischargeDepth := 60) +contextual only [State.setQueue, stored_foldl, stored_foldl2, stored_mk, stored_ite, stored_ite2,
      cl_mk, cl_ite, cl_reset, hW]

theorem stored_emit (x0 : State) (x1) (hW : x0.memWf = true) :
    (State.emit x0 x1).memWf = true := by
  simp (maxDischargeDepth := 60) +contextual only [State.emit, stored_foldl, stored_foldl2, stored_mk, stored_ite, stored_ite2,
      cl_mk, cl_ite, cl_reset, hW]

theorem stored_receive (x0 : State) (x1) (hW : x0.memWf = true) :
    (State.receive x0 x1).memWf = true := by
  simp (maxDischargeDepth := 60) +contextual only [State.receive, stored_foldl, stored_foldl2, stored_mk, stored_ite, stored_ite2,
      cl_mk, cl_ite, cl_reset, hW]

theorem stored_packet (x0 : State) (x1 x2 x3 x4 x5 x6) (hW : x0.memWf = true) :
    (State.packet x0 x1 x2 x3 x4 x5 x6).memWf = true := by
  simp (maxDischargeDepth := 60) +contextual only [State.packet, stored_emit, stored_foldl, stored_foldl2, stored_mk, stored_ite,
      stored_ite2, cl_mk, cl_ite, cl_reset, hW]

theorem stored_fresh (x0 : State) (x1) (hW : x0.memWf = true) :
    (State.fresh x0 x1).2.memWf = true := by
  simp (maxDischargeDepth := 60) +contextual only [State.fresh, stored_foldl, stored_foldl2, stored_mk, stored_ite, stored_ite2,
      cl_mk, cl_ite, cl_reset, hW]

theorem stored_frame (s : State) (dst etype bytes) (hW : s.memWf = true) :
    (State.frame s dst etype bytes).memWf = true := by
  simp (maxDischargeDepth := 60) +contextual only [State.frame, stored_emit, stored_foldl, stored_foldl2, stored_mk, stored_ite,
      stored_ite2, cl_mk, cl_ite, cl_reset, hW]

theorem stored_notify (x0 : State) (x1 x2) (hW : x0.memWf = true) :
    (State.notify x0 x1 x2).memWf = true := by
  simp (maxDischargeDepth := 60) +contextual only [State.notify, stored_frame, stored_foldl, stored_foldl2, stored_mk, stored_ite,
      stored_ite2, cl_mk, cl_ite, cl_reset, hW]

theorem stored_signal (x0 : State) (x1 x2) (hW : x0.memWf = true) :
    (State.signal x0 x1 x2).memWf = true := by
  simp (maxDischargeDepth := 60) +contextual only [State.signal, stored_notify, stored_receive, stored_foldl, stored_foldl2,
      stored_mk, stored_ite, stored_ite2, cl_mk, cl_ite, cl_reset, hW]

theorem stored_setImg (x0 : State) (x1) (hW : x0.memWf = true) :
    (State.setImg x0 x1).memWf = true := by
  simp (maxDischargeDepth := 60) +contextual only [State.setImg, stored_signal, stored_wr, stored_foldl, stored_foldl2, stored_mk,
      stored_ite, stored_ite2, cl_mk, cl_ite, cl_reset, hW]

theorem stored_setImgState (x0 : State) (x1) (hW : x0.memWf = true) :
    (State.setImgState x0 x1).memWf = true := by
  simp (maxDischargeDepth := 60) +contextual only [State.setImgState, stored_setImg, stored_foldl, stored_foldl2, stored_mk,
      stored_ite, stored_ite2, cl_mk, cl_ite, cl_reset, hW]

theorem stored_setBu (x0 : State) (x1) (hW : x0.memWf = true) :
    (State.setBu x0 x1).memWf = true := by
  simp (maxDischargeDepth := 60) +contextual only [State.setBu, stored_signal, stored_wr, stored_foldl, stored_foldl2, stored_mk,
      stored_ite, stored_ite2, cl_mk, cl_ite, cl_reset, hW]

theorem stored_record (x0 : State) (x1 x2) (hW : x0.memWf = true) :
    (State.record x0 x1 x2).memWf = true := by
  simp (maxDischargeDepth := 60) +contextual only [State.record, stored_modRegion, stored_packet, stored_setFld, stored_foldl,
      stored_foldl2, stored_mk, stored_ite, stored_ite2, cl_mk, cl_ite, cl_reset, hW]

theorem stored_halt (x0 : State) (x1) (hW : x0.memWf = true) :
    (State.halt x0 x1).memWf = true := by
  simp (maxDischargeDepth := 60) +contextual only [State.halt, stored_modRegion, stored_foldl, stored_foldl2, stored_mk, stored_ite,
      stored_ite2, cl_mk, cl_ite, cl_reset, hW]

theorem stored_raiseAt (x0 : State) (x1 x2 x3 x4) (hW : x0.memWf = true) :
    (State.raiseAt x0 x1 x2 x3 x4).memWf = true := by
  unfold State.raiseAt
  (try dsimp only)
  (repeat' split) <;> simp_all (maxDischargeDepth := 60) [stored_halt, stored_modRegion, stored_record, stored_foldl, stored_foldl2,
      stored_mk, stored_ite, stored_ite2, cl_mk, cl_ite, cl_reset]

theorem stored_raise (x0 : State) (x1 x2) (hW : x0.memWf = true) :
    (State.raise x0 x1 x2).memWf = true := by
  simp (maxDischargeDepth := 60) +contextual only [State.raise, stored_raiseAt, stored_foldl, stored_foldl2, stored_mk, stored_ite,
      stored_ite2, cl_mk, cl_ite, cl_reset, hW]

theorem stored_log (x0 : State) (x1 x2) (hW : x0.memWf = true) :
    (State.log x0 x1 x2).memWf = true := by
  simp (maxDischargeDepth := 60) +contextual only [State.log, stored_modRegion, stored_packet, stored_foldl, stored_foldl2,
      stored_mk, stored_ite, stored_ite2, cl_mk, cl_ite, cl_reset, hW]

theorem stored_logEdge (x0 : State) (x1 x2 x3 x4) (hW : x0.memWf = true) :
    (State.logEdge x0 x1 x2 x3 x4).memWf = true := by
  simp (maxDischargeDepth := 60) +contextual only [State.logEdge, stored_log, stored_foldl, stored_foldl2, stored_mk, stored_ite,
      stored_ite2, cl_mk, cl_ite, cl_reset, hW]

theorem stored_logRegion (x0 : State) (x1 x2 x3 x4 x5) (hW : x0.memWf = true) :
    (State.logRegion x0 x1 x2 x3 x4 x5).memWf = true := by
  simp (maxDischargeDepth := 60) +contextual only [State.logRegion, stored_log, stored_foldl, stored_foldl2, stored_mk, stored_ite,
      stored_ite2, cl_mk, cl_ite, cl_reset, hW]

theorem stored_disableClusters (x0 : State) (hW : x0.memWf = true) :
    (State.disableClusters x0).memWf = true := by
  unfold State.disableClusters
  (try dsimp only)
  (repeat' split) <;> simp_all (maxDischargeDepth := 60) [stored_setFld, stored_foldl, stored_foldl2, stored_mk, stored_ite,
      stored_ite2, cl_mk, cl_ite, cl_reset]

theorem stored_disarm (x0 : State) (hW : x0.memWf = true) :
    (State.disarm x0).memWf = true := by
  unfold State.disarm
  (try dsimp only)
  (repeat' split) <;> simp_all (maxDischargeDepth := 60) [stored_setFld, stored_foldl, stored_foldl2, stored_mk, stored_ite,
      stored_ite2, cl_mk, cl_ite, cl_reset]

theorem stored_markDone (s : State) (hW : s.memWf = true) :
    s.markDone.memWf = true := by
  unfold State.markDone
  (try dsimp only)
  (repeat' split) <;> simp_all (maxDischargeDepth := 60) [stored_wr, stored_foldl, stored_foldl2, stored_mk, stored_ite, stored_ite2,
      cl_mk, cl_ite, cl_reset]

theorem stored_holdFinish (s : State) (hW : s.memWf = true) :
    s.holdFinish.memWf = true := by
  unfold State.holdFinish
  split
  · dsimp only
    split
    · exact stored_setFld _ _ _ (with_image _ _ _ (stored_disarm _ (stored_markDone s hW)))
    · exact stored_markDone s hW
  · split
    · exact with_loader _ _ (stored_setFld _ Rg.WLD_STAT_STATE 0 (stored_setImgState _ 0 (stored_disableClusters _ (stored_disarm s hW))))
    · exact hW
  · exact hW

theorem stored_addPend (x0 : State) (x1 x2 x3) (hW : x0.memWf = true) :
    (State.addPend x0 x1 x2 x3).memWf = true := by
  unfold State.addPend
  (try dsimp only)
  (repeat' split) <;> simp_all (maxDischargeDepth := 60) [stored_modCluster, stored_foldl, stored_foldl2, stored_mk, stored_ite,
      stored_ite2, cl_mk, cl_ite, cl_reset]

theorem stored_spRead (x0 : State) (x1 x2 x3 x4 x5 x6 x7) (hW : x0.memWf = true) :
    (State.spRead x0 x1 x2 x3 x4 x5 x6 x7).2.memWf = true := by
  unfold State.spRead
  (try dsimp only)
  (repeat' split) <;> simp_all (maxDischargeDepth := 60) [stored_addPend, stored_foldl, stored_foldl2, stored_mk, stored_ite,
      stored_ite2, cl_mk, cl_ite, cl_reset]

theorem stored_spReads (x0 : State) (x1 x2 x3 x4 x5 x6 x7) (hW : x0.memWf = true) :
    (State.spReads x0 x1 x2 x3 x4 x5 x6 x7).2.memWf = true := by
  induction x7 generalizing x0 with
  | nil => first | exact hW | (unfold State.spReads; exact hW) | (unfold State.spReads; split <;> exact hW)
  | cons y ys ih =>
    unfold State.spReads
    (try dsimp only)
    (repeat' split) <;> simp_all (maxDischargeDepth := 60) [stored_spRead, stored_foldl, stored_foldl2, stored_mk, stored_ite,
        stored_ite2, cl_mk, cl_ite, cl_reset]

theorem stored_spCell (x0 : State) (x1 x2 x3 x4) (hW : x0.memWf = true) :
    (State.spCell x0 x1 x2 x3 x4).2.memWf = true := by
  simp (maxDischargeDepth := 60) +contextual only [State.spCell, stored_setFld, stored_foldl, stored_foldl2, stored_mk, stored_ite,
      stored_ite2, cl_mk, cl_ite, cl_reset, hW]

theorem stored_progFetch (x0 : State) (x1 x2 x3 x4) (hW : x0.memWf = true) :
    (State.progFetch x0 x1 x2 x3 x4).2.memWf = true := by
  unfold State.progFetch
  (try dsimp only)
  (with_reducible repeat' (first
      | assumption | intro _ | apply hf | apply stored_count | apply stored_log | apply stored_raise | apply stored_unlessHeld
      | apply stored_foldl | apply stored_foldl2 | simp only [stored_mk] | simp only [cl_mk] | apply cl_dmaFill
      | apply cl_resetCluster | apply cl_ctl | apply cl_reset | split | dsimp only | rfl))

theorem stored_cmRead (x0 : State) (x1 x2) (hW : x0.memWf = true) :
    (State.cmRead x0 x1 x2).2.memWf = true := by
  unfold State.cmRead
  (try dsimp only)
  (repeat' split) <;> simp_all (maxDischargeDepth := 60) [stored_log, stored_foldl, stored_foldl2, stored_mk, stored_ite,
      stored_ite2, cl_mk, cl_ite, cl_reset]

theorem stored_push (x0 : State) (x1 x2) (hW : x0.memWf = true) :
    (State.push x0 x1 x2).memWf = true := by
  simp (maxDischargeDepth := 60) +contextual only [State.push, stored_setQueue, stored_foldl, stored_foldl2, stored_mk, stored_ite,
      stored_ite2, cl_mk, cl_ite, cl_reset, hW]

theorem stored_pop (x0 : State) (x1) (hW : x0.memWf = true) :
    (State.pop x0 x1).2.memWf = true := by
  unfold State.pop
  (try dsimp only)
  (repeat' split) <;> simp_all (maxDischargeDepth := 60) [stored_setQueue, stored_foldl, stored_foldl2, stored_mk, stored_ite,
      stored_ite2, cl_mk, cl_ite, cl_reset]

theorem stored_fenceQueue (x0 : State) (x1) (hW : x0.memWf = true) :
    (State.fenceQueue x0 x1).memWf = true := by
  simp (maxDischargeDepth := 60) +contextual only [State.fenceQueue, stored_setQueue, stored_foldl, stored_foldl2, stored_mk,
      stored_ite, stored_ite2, cl_mk, cl_ite, cl_reset, hW]

theorem stored_fenceRegion (x0 : State) (x1) (hW : x0.memWf = true) :
    (State.fenceRegion x0 x1).memWf = true := by
  unfold State.fenceRegion
  (try dsimp only)
  (repeat' split) <;> simp_all (maxDischargeDepth := 60) [stored_fenceQueue, stored_foldl, stored_foldl2, stored_mk, stored_ite,
      stored_ite2, cl_mk, cl_ite, cl_reset]

theorem stored_linkCheck (x0 : State) (x1 x2 x3 x4 x5) (hW : x0.memWf = true) :
    (State.linkCheck x0 x1 x2 x3 x4 x5).2.memWf = true := by
  simp (maxDischargeDepth := 60) +contextual only [State.linkCheck, stored_count, stored_log, stored_raise, stored_foldl,
      stored_foldl2, stored_mk, stored_ite, stored_ite2, cl_mk, cl_ite, cl_reset, hW]

theorem stored_entryCheck (x0 : State) (x1 x2 x3 x4 x5) (hW : x0.memWf = true) :
    (State.entryCheck x0 x1 x2 x3 x4 x5).2.memWf = true := by
  simp (maxDischargeDepth := 60) +contextual only [State.entryCheck, stored_count, stored_log, stored_raise, stored_foldl,
      stored_foldl2, stored_mk, stored_ite, stored_ite2, cl_mk, cl_ite, cl_reset, hW]

theorem stored_askStall (x0 : State) (x1 x2) (hW : x0.memWf = true) :
    (State.askStall x0 x1 x2).memWf = true := by
  simp (maxDischargeDepth := 60) +contextual only [State.askStall, stored_modRegion, stored_foldl, stored_foldl2, stored_mk,
      stored_ite, stored_ite2, cl_mk, cl_ite, cl_reset, hW]

theorem stored_frameRead (x0 : State) (x1 x2 x3 x4) (hW : x0.memWf = true) :
    (State.frameRead x0 x1 x2 x3 x4).2.memWf = true := by
  unfold State.frameRead
  grind [stored_addPend, stored_spReads, stored_mk]

theorem stored_localBeat (x0 : State) (x1 x2 x3 x4 x5) (hW : x0.memWf = true) :
    (State.localBeat x0 x1 x2 x3 x4 x5).2.memWf = true := by
  unfold State.localBeat
  grind [stored_spReads, stored_mk]

theorem stored_streamRead (x0 : State) (x1 x2 x3 x4) (hW : x0.memWf = true) :
    (State.streamRead x0 x1 x2 x3 x4).2.memWf = true := by
  simp (maxDischargeDepth := 60) +contextual only [State.streamRead, stored_frameRead, stored_localBeat, stored_foldl, stored_foldl2,
      stored_mk, stored_ite, stored_ite2, cl_mk, cl_ite, cl_reset, hW]

theorem stored_excessRead (x0 : State) (x1 x2 x3 x4 x5) (hW : x0.memWf = true) :
    (State.excessRead x0 x1 x2 x3 x4 x5).2.memWf = true := by
  simp (maxDischargeDepth := 60) +contextual only [State.excessRead, stored_count, stored_localBeat, stored_foldl, stored_foldl2,
      stored_mk, stored_ite, stored_ite2, cl_mk, cl_ite, cl_reset, hW]

theorem stored_linkBeat (x0 : State) (x1 x2 x3 x4 x5) (hW : x0.memWf = true) :
    (State.linkBeat x0 x1 x2 x3 x4 x5).2.memWf = true := by
  unfold State.linkBeat
  (try dsimp only)
  (repeat' split) <;> simp_all (maxDischargeDepth := 60) [stored_fresh, stored_linkCheck, stored_modCluster, stored_foldl,
      stored_foldl2, stored_mk, stored_ite, stored_ite2, cl_mk, cl_ite, cl_reset]

theorem stored_takeFrom (x0 : State) (x1 x2 x3 x4 x5 x6) (hW : x0.memWf = true) :
    (State.takeFrom x0 x1 x2 x3 x4 x5 x6).2.memWf = true := by
  simp (maxDischargeDepth := 60) +contextual only [State.takeFrom, stored_excessRead, stored_linkBeat, stored_foldl, stored_foldl2,
      stored_mk, stored_ite, stored_ite2, cl_mk, cl_ite, cl_reset, hW]

theorem stored_excessWrite (x0 : State) (x1 x2 x3 x4 x5 x6) (hW : x0.memWf = true) :
    (State.excessWrite x0 x1 x2 x3 x4 x5 x6).memWf = true := by
  unfold State.excessWrite
  (try dsimp only)
  (repeat' split) <;> simp_all (maxDischargeDepth := 60) [stored_addPend, stored_count, stored_spCell, stored_foldl, stored_foldl2,
      stored_mk, stored_ite, stored_ite2, cl_mk, cl_ite, cl_reset]

theorem stored_sendOn (x0 : State) (x1 x2 x3 x4 x5 x6 x7) (hW : x0.memWf = true) :
    (State.sendOn x0 x1 x2 x3 x4 x5 x6 x7).memWf = true := by
  unfold State.sendOn
  (try dsimp only)
  (repeat' split) <;> simp_all (maxDischargeDepth := 60) [stored_addPend, stored_excessWrite, stored_foldl, stored_foldl2, stored_mk,
      stored_ite, stored_ite2, cl_mk, cl_ite, cl_reset]

theorem stored_topkStep (x0 : State) (x1 x2 x3 x4 x5 x6 x7) (hW : x0.memWf = true) :
    (State.topkStep x0 x1 x2 x3 x4 x5 x6 x7).2.memWf = true := by
  unfold State.topkStep
  (try dsimp only)
  (repeat' split) <;> simp_all (maxDischargeDepth := 60) [stored_sendOn, stored_foldl, stored_foldl2, stored_mk, stored_ite,
      stored_ite2, cl_mk, cl_ite, cl_reset]

theorem stored_excessAsk (x0 : State) (x1 x2 x3 x4 x5 x6) (hW : x0.memWf = true) :
    (State.excessAsk x0 x1 x2 x3 x4 x5 x6).memWf = true := by
  simp (maxDischargeDepth := 60) +contextual only [State.excessAsk, stored_askStall, stored_foldl, stored_foldl2, stored_mk,
      stored_ite, stored_ite2, cl_mk, cl_ite, cl_reset, hW]

theorem stored_excessCount (x0 : State) (x1 x2 x3 x4) (hW : x0.memWf = true) :
    (State.excessCount x0 x1 x2 x3 x4).memWf = true := by
  simp (maxDischargeDepth := 60) +contextual only [State.excessCount, stored_count, stored_foldl, stored_foldl2, stored_mk,
      stored_ite, stored_ite2, cl_mk, cl_ite, cl_reset, hW]

theorem stored_frameSink (x0 : State) (x1 x2 x3 x4 x5) (hW : x0.memWf = true) :
    (State.frameSink x0 x1 x2 x3 x4 x5).memWf = true := by
  simp (maxDischargeDepth := 60) +contextual only [State.frameSink, stored_addPend, stored_raise, stored_foldl, stored_foldl2,
      stored_mk, stored_ite, stored_ite2, cl_mk, cl_ite, cl_reset, hW]

theorem stored_frameStep (x0 : State) (x1 x2 x3 x4 x5 x6) (hW : x0.memWf = true) :
    (State.frameStep x0 x1 x2 x3 x4 x5 x6).2.memWf = true := by
  simp (maxDischargeDepth := 60) +contextual only [State.frameStep, stored_excessAsk, stored_excessCount, stored_frameSink,
      stored_sendOn, stored_foldl, stored_foldl2, stored_mk, stored_ite, stored_ite2, cl_mk, cl_ite, cl_reset, hW]

theorem stored_streamMake (x0 : State) (x1 x2 x3 x4 x5 x6 x7) (hW : x0.memWf = true) :
    (State.streamMake x0 x1 x2 x3 x4 x5 x6 x7).2.memWf = true := by
  unfold State.streamMake
  (try dsimp only)
  (with_reducible repeat' (first
      | assumption | intro _ | apply hf | apply stored_frameStep | apply stored_sendOn | apply stored_topkStep
      | (have e := congrArg Prod.snd ‹State.frameStep _ _ _ _ _ _ _ = _›; dsimp only at e; subst e)
      | (have e := congrArg Prod.snd ‹State.topkStep _ _ _ _ _ _ _ _ = _›; dsimp only at e; subst e) | apply stored_unlessHeld
      | apply stored_foldl | apply stored_foldl2 | simp only [stored_mk] | simp only [cl_mk] | apply cl_dmaFill
      | apply cl_resetCluster | apply cl_ctl | apply cl_reset | split | dsimp only | rfl))

theorem stored_memReadRow (x0 : State) (x1 x2 x3 x4 x5) (hW : x0.memWf = true) :
    (State.memReadRow x0 x1 x2 x3 x4 x5).2.memWf = true := by
  unfold State.memReadRow
  grind [stored_addPend, stored_spReads, stored_mk]

theorem stored_portRow (x0 : State) (x1 x2 x3 x4 x5) (hW : x0.memWf = true) :
    (State.portRow x0 x1 x2 x3 x4 x5).2.memWf = true := by
  simp (maxDischargeDepth := 60) +contextual only [State.portRow, stored_fresh, stored_foldl, stored_foldl2, stored_mk, stored_ite,
      stored_ite2, cl_mk, cl_ite, cl_reset, hW]

theorem stored_memWriteRow (x0 : State) (x1 x2 x3 x4 x5) (hW : x0.memWf = true) :
    (State.memWriteRow x0 x1 x2 x3 x4 x5).2.memWf = true := by
  unfold State.memWriteRow
  (try dsimp only)
  (with_reducible repeat' (first
      | assumption | intro _ | apply hf | apply stored_addPend | apply stored_modCluster | apply stored_modRegion
      | apply stored_portRow | apply stored_raise
      | (have e := congrArg Prod.snd ‹State.portRow _ _ _ _ _ _ = _›; dsimp only at e; subst e) | apply stored_unlessHeld
      | apply stored_foldl | apply stored_foldl2 | simp only [stored_mk] | simp only [cl_mk] | apply cl_dmaFill
      | apply cl_resetCluster | apply cl_ctl | apply cl_reset | split | dsimp only | rfl))

theorem stored_argRead (x0 : State) (x1 x2 x3 x4) (hW : x0.memWf = true) :
    (State.argRead x0 x1 x2 x3 x4).2.memWf = true := by
  unfold State.argRead
  grind [stored_spReads, stored_mk]

theorem stored_pushWords (x0 : State) (x1 x2 x3 x4) (hW : x0.memWf = true) :
    (State.pushWords x0 x1 x2 x3 x4).2.memWf = true := by
  unfold State.pushWords
  (try dsimp only)
  (repeat' split) <;> simp_all (maxDischargeDepth := 60) [stored_modCluster, stored_modRegion, stored_foldl, stored_foldl2,
      stored_mk, stored_ite, stored_ite2, cl_mk, cl_ite, cl_reset]

theorem stored_memStep (x0 : State) (x1 x2 x3 x4) (hW : x0.memWf = true) :
    (State.memStep x0 x1 x2 x3 x4).2.memWf = true := by
  unfold State.memStep
  (try dsimp only)
  (repeat' split) <;> simp_all (maxDischargeDepth := 60) [stored_argRead, stored_memReadRow, stored_memWriteRow, stored_pushWords,
      stored_foldl, stored_foldl2, stored_mk, stored_ite, stored_ite2, cl_mk, cl_ite, cl_reset]

theorem stored_memCycle (x0 : State) (x1 x2 x3) (hW : x0.memWf = true) :
    (State.memCycle x0 x1 x2 x3).memWf = true := by
  unfold State.memCycle
  (try dsimp only)
  (repeat' split) <;> simp_all (maxDischargeDepth := 60) [stored_memStep, stored_modCluster, stored_foldl, stored_foldl2, stored_mk,
      stored_ite, stored_ite2, cl_mk, cl_ite, cl_reset]

theorem stored_tileCompare (x0 : State) (x1 x2 x3 x4 x5 x6 x7) (hW : x0.memWf = true) :
    (State.tileCompare x0 x1 x2 x3 x4 x5 x6 x7).memWf = true := by
  simp (maxDischargeDepth := 60) +contextual only [State.tileCompare, stored_count, stored_raiseAt, stored_setFld, stored_foldl,
      stored_foldl2, stored_mk, stored_ite, stored_ite2, cl_mk, cl_ite, cl_reset, hW]

theorem stored_portLand (x0 : State) (x1 x2 x3 x4 x5 x6 x7) (hW : x0.memWf = true) :
    (State.portLand x0 x1 x2 x3 x4 x5 x6 x7).memWf = true := by
  unfold State.portLand
  (try dsimp only)
  (repeat' split) <;> simp_all (maxDischargeDepth := 60) [stored_modCluster, stored_foldl, stored_foldl2, stored_mk, stored_ite,
      stored_ite2, cl_mk, cl_ite, cl_reset]

theorem stored_landEff (x0 : State) (x1 x2 x3 x4) (hW : x0.memWf = true) :
    (State.landEff x0 x1 x2 x3 x4).memWf = true := by
  unfold State.landEff
  dsimp only
  have up : ∀ f : Cluster → Cluster, (∀ k, k.memWf = true → (f k).memWf = true) → (x0.modCluster x1 x2 f).memWf = true :=
    fun f hf => stored_modCluster _ _ _ _ hf hW
  split
  · exact up _ fun k h => h
  · split
    · exact stored_raise _ _ _ hW
    · exact up _ fun k h => h
  · split
    · exact stored_raise _ _ _ hW
    · exact up _ fun k h => h
  · exact up _ fun k h => h
  · exact up _ fun k h => h
  · exact up _ fun k h => h
  · exact stored_portLand _ _ _ _ _ _ _ _ hW
  · exact stored_raise _ _ _ hW
  · exact stored_count _ _ _ (stored_log _ _ _ hW)
  · exact stored_raise _ _ _ hW
  · exact stored_addPend _ _ _ _ (stored_spCell _ _ _ _ _ hW)
  · exact stored_spPut _ _ _ _ _ hW
  · refine up _ fun k h => ?_
    rw [Cluster.memWf_iff] at *
    exact ⟨Store.sorted_erase _ _ h.1, h.2⟩
  · split
    · exact stored_raiseAt _ _ _ _ _ hW
    · exact hW
  · exact stored_tileCompare _ _ _ _ _ _ _ _ hW
  · exact up _ fun k h => h
  · split
    · exact stored_modCluster _ _ _ _ (fun k h => h) hW
    · exact stored_push _ _ _ hW

theorem stored_landSel (x0 : State) (x1 x2 x3 x4) (hW : x0.memWf = true) :
    (State.landSel x0 x1 x2 x3 x4).memWf = true := by
  unfold State.landSel
  (try dsimp only)
  (repeat' split) <;> simp_all (maxDischargeDepth := 60) [stored_landEff, stored_modCluster, stored_foldl, stored_foldl2, stored_mk,
      stored_ite, stored_ite2, cl_mk, cl_ite, cl_reset]

theorem stored_land (x0 : State) (x1 x2 x3) (hW : x0.memWf = true) :
    (State.land x0 x1 x2 x3).memWf = true := by
  simp (maxDischargeDepth := 60) +contextual only [State.land, stored_landSel, stored_foldl, stored_foldl2, stored_mk, stored_ite,
      stored_ite2, cl_mk, cl_ite, cl_reset, hW]

theorem stored_originQh (x0 : State) (x1 x2 x3) (hW : x0.memWf = true) :
    (State.originQh x0 x1 x2 x3).2.memWf = true := by
  unfold State.originQh
  (try dsimp only)
  (repeat' split) <;> simp_all (maxDischargeDepth := 60) [stored_fresh, stored_foldl, stored_foldl2, stored_mk, stored_ite,
      stored_ite2, cl_mk, cl_ite, cl_reset]

theorem stored_vecIssue (x0 : State) (x1 x2 x3 x4 x5) (hW : x0.memWf = true) :
    (State.vecIssue x0 x1 x2 x3 x4 x5).memWf = true := by
  unfold State.vecIssue
  (try dsimp only)
  (repeat' split) <;> simp_all (maxDischargeDepth := 60) [stored_addPend, stored_count, stored_modCluster, stored_originQh,
      stored_raise, stored_foldl, stored_foldl2, stored_mk, stored_ite, stored_ite2, cl_mk, cl_ite, cl_reset]

theorem stored_engineFault (x0 : State) (x1 x2 x3 x4 x5 x6 x7) (hW : x0.memWf = true) :
    (State.engineFault x0 x1 x2 x3 x4 x5 x6 x7).memWf = true := by
  simp (maxDischargeDepth := 60) +contextual only [State.engineFault, stored_raise, stored_foldl, stored_foldl2, stored_mk,
      stored_ite, stored_ite2, cl_mk, cl_ite, cl_reset, hW]

theorem stored_engineIssue (x0 : State) (x1 x2 x3 x4 x5 x6) (hW : x0.memWf = true) :
    (State.engineIssue x0 x1 x2 x3 x4 x5 x6).memWf = true := by
  unfold State.engineIssue
  (try dsimp only)
  (with_reducible repeat' (first
      | assumption | intro _ | apply hf | apply stored_addPend | apply stored_engineFault | apply stored_modCluster
      | apply stored_progFetch | (have e := congrArg Prod.snd ‹State.progFetch _ _ _ _ _ = _›; dsimp only at e; subst e)
      | apply stored_unlessHeld | apply stored_foldl | apply stored_foldl2 | simp only [stored_mk] | simp only [cl_mk]
      | apply cl_dmaFill | apply cl_resetCluster | apply cl_ctl | apply cl_reset | split | dsimp only | rfl))

theorem stored_cbIssue (x0 : State) (x1 x2 x3 x4 x5 x6) (hW : x0.memWf = true) :
    (State.cbIssue x0 x1 x2 x3 x4 x5 x6).memWf = true := by
  unfold State.cbIssue
  (try dsimp only)
  (repeat' split) <;> simp_all (maxDischargeDepth := 60) [stored_addPend, stored_modCluster, stored_foldl, stored_foldl2, stored_mk,
      stored_ite, stored_ite2, cl_mk, cl_ite, cl_reset]

theorem stored_xferIssue (x0 : State) (x1 x2 x3 x4 x5 x6) (hW : x0.memWf = true) :
    (State.xferIssue x0 x1 x2 x3 x4 x5 x6).memWf = true := by
  unfold State.xferIssue
  (try dsimp only)
  (with_reducible repeat' (first
      | assumption | intro _ | apply hf | apply stored_modCluster | apply stored_progFetch
      | (have e := congrArg Prod.snd ‹State.progFetch _ _ _ _ _ = _›; dsimp only at e; subst e) | apply stored_unlessHeld
      | apply stored_foldl | apply stored_foldl2 | simp only [stored_mk] | simp only [cl_mk] | apply cl_dmaFill
      | apply cl_resetCluster | apply cl_ctl | apply cl_reset | split | dsimp only | rfl))

theorem stored_relIssue (x0 : State) (x1 x2 x3 x4 x5) (hW : x0.memWf = true) :
    (State.relIssue x0 x1 x2 x3 x4 x5).memWf = true := by
  unfold State.relIssue
  (try dsimp only)
  (repeat' split) <;> simp_all (maxDischargeDepth := 60) [stored_modCluster, stored_foldl, stored_foldl2, stored_mk, stored_ite,
      stored_ite2, cl_mk, cl_ite, cl_reset]

theorem stored_routeIssue (x0 : State) (x1 x2 x3 x4 x5 x6) (hW : x0.memWf = true) :
    (State.routeIssue x0 x1 x2 x3 x4 x5 x6).memWf = true := by
  unfold State.routeIssue
  (try dsimp only)
  (with_reducible repeat' (first
      | assumption | intro _ | apply hf | apply stored_modCluster | apply stored_progFetch
      | (have e := congrArg Prod.snd ‹State.progFetch _ _ _ _ _ = _›; dsimp only at e; subst e) | apply stored_unlessHeld
      | apply stored_foldl | apply stored_foldl2 | simp only [stored_mk] | simp only [cl_mk] | apply cl_dmaFill
      | apply cl_resetCluster | apply cl_ctl | apply cl_reset | split | dsimp only | rfl))

theorem stored_ctlMark (x0 : State) (x1 x2 x3) (hW : x0.memWf = true) :
    (State.ctlMark x0 x1 x2 x3).memWf = true := by
  simp (maxDischargeDepth := 60) +contextual only [State.ctlMark, stored_setFld, stored_wr, stored_foldl, stored_foldl2, stored_mk,
      stored_ite, stored_ite2, cl_mk, cl_ite, cl_reset, hW]

theorem stored_ctlSegend (x0 : State) (x1) (hW : x0.memWf = true) :
    (State.ctlSegend x0 x1).memWf = true := by
  simp (maxDischargeDepth := 60) +contextual only [State.ctlSegend, stored_holdFinish, stored_modRegion, stored_foldl, stored_foldl2,
      stored_mk, stored_ite, stored_ite2, cl_mk, cl_ite, cl_reset, hW]

theorem stored_auCheck (x0 : State) (x1 x2) (hW : x0.memWf = true) :
    (State.auCheck x0 x1 x2).memWf = true := by
  simp (maxDischargeDepth := 60) +contextual only [State.auCheck, stored_raise, stored_setFld, stored_foldl, stored_foldl2,
      stored_mk, stored_ite, stored_ite2, cl_mk, cl_ite, cl_reset, hW]

theorem stored_allClusters (f : State → Nat → State) (hf : ∀ s c,
    s.memWf = true → ((f s c)).memWf = true) (cs : List Nat) (s : State) (hW : s.memWf = true) :
    (State.allClusters f cs s).memWf = true := by
  unfold State.allClusters
  (try dsimp only)
  (with_reducible repeat' (first
      | assumption | intro _ | apply hf | apply stored_unlessHeld | apply stored_foldl | apply stored_foldl2 | simp only [stored_mk]
      | simp only [cl_mk] | apply cl_dmaFill | apply cl_resetCluster | apply cl_ctl | apply cl_reset | split | dsimp only | rfl))

theorem stored_issueSlots (x0 : State) (x1 x2 x3) (hW : x0.memWf = true) :
    (State.issueSlots x0 x1 x2 x3).memWf = true := by
  unfold State.issueSlots
  grind [stored_cbIssue, stored_engineIssue, stored_progFetch, stored_relIssue, stored_routeIssue, stored_vecIssue, stored_xferIssue,
      stored_mk]

theorem stored_ctlStep (x0 : State) (x1 x2) (hW : x0.memWf = true) :
    (State.ctlStep x0 x1 x2).memWf = true := by
  unfold State.ctlStep
  dsimp only
  split
  · exact stored_ctlSegend _ _ hW
  · refine stored_setCluster _ _ _ _ (cl_ctl _ _ (memWf_cluster _ _ _ hW)) ?_
    split
    · exact stored_ctlMark _ _ _ _ hW
    · exact hW

theorem stored_popBeat (x0 : State) (x1 x2 x3 x4 x5) (hW : x0.memWf = true) :
    (State.popBeat x0 x1 x2 x3 x4 x5).memWf = true := by
  unfold State.popBeat
  (try dsimp only)
  (with_reducible repeat' (first
      | assumption | intro _ | apply hf | apply stored_entryCheck | apply stored_modCluster | apply stored_pop
      | (have e := congrArg Prod.snd ‹State.entryCheck _ _ _ _ _ _ = _›; dsimp only at e; subst e)
      | (have e := congrArg Prod.snd ‹State.pop _ _ = _›; dsimp only at e; subst e) | apply stored_unlessHeld | apply stored_foldl
      | apply stored_foldl2 | simp only [stored_mk] | simp only [cl_mk] | apply cl_dmaFill | apply cl_resetCluster | apply cl_ctl
      | apply cl_reset | split | dsimp only | rfl))

theorem stored_popSides (x0 : State) (x1 x2 x3 x4) (hW : x0.memWf = true) :
    (State.popSides x0 x1 x2 x3 x4).memWf = true := by
  unfold State.popSides
  (try dsimp only)
  (with_reducible repeat' (first
      | assumption | intro _ | apply hf | apply stored_popBeat | apply stored_unlessHeld | apply stored_foldl | apply stored_foldl2
      | simp only [stored_mk] | simp only [cl_mk] | apply cl_dmaFill | apply cl_resetCluster | apply cl_ctl | apply cl_reset | split
      | dsimp only | rfl))

theorem stored_xsTake (x0 : State) (x1 x2 x3 x4 x5) (hW : x0.memWf = true) :
    (State.xsTake x0 x1 x2 x3 x4 x5).2.memWf = true := by
  unfold State.xsTake
  grind [stored_excessAsk, stored_excessCount, stored_takeFrom, stored_mk]

theorem stored_xsSend (x0 : State) (x1 x2 x3) (hW : x0.memWf = true) :
    (State.xsSend x0 x1 x2 x3).2.memWf = true := by
  unfold State.xsSend
  (try dsimp only)
  (repeat' split) <;> simp_all (maxDischargeDepth := 60) [stored_askStall, stored_raise, stored_sendOn, stored_foldl, stored_foldl2,
      stored_mk, stored_ite, stored_ite2, cl_mk, cl_ite, cl_reset]

theorem stored_xsExcessOut (x0 : State) (x1 x2 x3 x4) (hW : x0.memWf = true) :
    (State.xsExcessOut x0 x1 x2 x3 x4).2.memWf = true := by
  unfold State.xsExcessOut
  (try dsimp only)
  (repeat' split) <;> simp_all (maxDischargeDepth := 60) [stored_excessCount, stored_sendOn, stored_foldl, stored_foldl2, stored_mk,
      stored_ite, stored_ite2, cl_mk, cl_ite, cl_reset]

theorem stored_streamMove (x0 : State) (x1 x2 x3 x4 x5 x6 x7) (hW : x0.memWf = true) :
    (State.streamMove x0 x1 x2 x3 x4 x5 x6 x7).2.memWf = true := by
  unfold State.streamMove
  grind [stored_streamMake, stored_takeFrom, stored_xsExcessOut, stored_xsSend, stored_xsTake, stored_mk]

theorem stored_streamsMove (x0 : State) (x1 x2 x3 x4) (hW : x0.memWf = true) :
    (State.streamsMove x0 x1 x2 x3 x4).memWf = true := by
  unfold State.streamsMove
  (try dsimp only)
  (repeat' split) <;> simp_all (maxDischargeDepth := 60) [stored_modCluster, stored_streamMove, stored_foldl, stored_foldl2,
      stored_mk, stored_ite, stored_ite2, cl_mk, cl_ite, cl_reset]

theorem stored_streamsCycle (x0 : State) (x1 x2 x3) (hW : x0.memWf = true) :
    (State.streamsCycle x0 x1 x2 x3).memWf = true := by
  unfold State.streamsCycle
  (try dsimp only)
  (repeat' split) <;> simp_all (maxDischargeDepth := 60) [stored_modCluster, stored_streamRead, stored_streamsMove, stored_foldl,
      stored_foldl2, stored_mk, stored_ite, stored_ite2, cl_mk, cl_ite, cl_reset]

theorem stored_sampleSlots (x0 : State) (x1 x2 x3) (hW : x0.memWf = true) :
    (State.sampleSlots x0 x1 x2 x3).2.memWf = true := by
  simp (maxDischargeDepth := 60) +contextual only [State.sampleSlots, stored_fresh, stored_foldl, stored_foldl2, stored_mk,
      stored_ite, stored_ite2, cl_mk, cl_ite, cl_reset, hW]

theorem stored_engineStep (x0 : State) (x1 x2 x3 x4) (hW : x0.memWf = true) :
    (State.engineStep x0 x1 x2 x3 x4).2.memWf = true := by
  unfold State.engineStep
  (try dsimp only)
  (repeat' split) <;> simp_all (maxDischargeDepth := 60) [stored_askStall, stored_count, stored_engineFault, stored_originQh,
      stored_sampleSlots, stored_foldl, stored_foldl2, stored_mk, stored_ite, stored_ite2, cl_mk, cl_ite, cl_reset]

theorem stored_engineSteps (x0 : State) (x1 x2 x3 x4 x5) (hW : x0.memWf = true) :
    (State.engineSteps x0 x1 x2 x3 x4 x5).2.memWf = true := by
  induction x4 generalizing x0 x5 with
  | zero => first | exact hW | (unfold State.engineSteps; exact hW) | (unfold State.engineSteps; split <;> exact hW)
  | succ n ih =>
    unfold State.engineSteps
    grind [stored_engineStep, stored_mk]

theorem stored_engineFinish (x0 : State) (x1 x2 x3) (hW : x0.memWf = true) :
    (State.engineFinish x0 x1 x2 x3).memWf = true := by
  simp (maxDischargeDepth := 60) +contextual only [State.engineFinish, stored_addPend, stored_foldl, stored_foldl2, stored_mk,
      stored_ite, stored_ite2, cl_mk, cl_ite, cl_reset, hW]

theorem stored_engineRun (x0 : State) (x1 x2 x3 x4) (hW : x0.memWf = true) :
    (State.engineRun x0 x1 x2 x3 x4).2.memWf = true := by
  unfold State.engineRun
  extract_lets b
  have hb : b.2.memWf = true := by
    show (match State.biasWords (x0.handle x1 x2 x4.d.biash) x4 x3 with
      | [] => (some [], x0)
      | ws => x0.spReads x1 x2 x4.d.biash x4.bundle x4.kind x3 (ws.map (x0.handleWord x1 x2 x4.d.biash))).2.memWf = true
    split
    · exact hW
    · exact stored_spReads _ _ _ _ _ _ _ _ hW
  clear_value b
  obtain ⟨_ | ws, s1⟩ := b
  · exact hb
  · have h2 := stored_engineSteps s1 x1 x2 x3 x4.d.ksteps { x4 with bias := x4.bias ++ ws } hb
    dsimp only
    split
    · rename_i e2
      rw [e2] at h2
      exact h2
    · rename_i e2
      rw [e2] at h2
      split
      · exact stored_engineFinish _ _ _ _ h2
      · exact h2

theorem stored_enginesCycle (x0 : State) (x1 x2 x3) (hW : x0.memWf = true) :
    (State.enginesCycle x0 x1 x2 x3).memWf = true := by
  unfold State.enginesCycle
  (try dsimp only)
  (repeat' split) <;> simp_all (maxDischargeDepth := 60) [stored_engineRun, stored_modCluster, stored_foldl, stored_foldl2,
      stored_mk, stored_ite, stored_ite2, cl_mk, cl_ite, cl_reset]

theorem stored_moveCluster (x0 : State) (x1 x2 x3) (hW : x0.memWf = true) :
    (State.moveCluster x0 x1 x2 x3).memWf = true := by
  simp (maxDischargeDepth := 60) +contextual only [State.moveCluster, stored_enginesCycle, stored_landSel, stored_memCycle,
      stored_popSides, stored_streamsCycle, stored_foldl, stored_foldl2, stored_mk, stored_ite, stored_ite2, cl_mk, cl_ite, cl_reset,
      hW]

theorem stored_setWaits (x0 : State) (x1 x2) (hW : x0.memWf = true) :
    (State.setWaits x0 x1 x2).memWf = true := by
  unfold State.setWaits
  (try dsimp only)
  (repeat' split) <;> simp_all (maxDischargeDepth := 60) [stored_setFld, stored_foldl, stored_foldl2, stored_mk, stored_ite,
      stored_ite2, cl_mk, cl_ite, cl_reset]

theorem stored_openBatch (x0 : State) (x1) (hW : x0.memWf = true) :
    (State.openBatch x0 x1).memWf = true := by
  simp (maxDischargeDepth := 60) +contextual only [State.openBatch, stored_modRegion, stored_foldl, stored_foldl2, stored_mk,
      stored_ite, stored_ite2, cl_mk, cl_ite, cl_reset, hW]

theorem stored_opening (x0 : State) (x1 x2) (hW : x0.memWf = true) :
    (State.opening x0 x1 x2).memWf = true := by
  unfold State.opening
  (try dsimp only)
  (with_reducible repeat' (first
      | assumption | intro _ | apply hf | apply stored_allClusters | apply stored_auCheck | apply stored_land
      | apply stored_unlessHeld | apply stored_foldl | apply stored_foldl2 | simp only [stored_mk] | simp only [cl_mk]
      | apply cl_dmaFill | apply cl_resetCluster | apply cl_ctl | apply cl_reset | split | dsimp only | rfl))

theorem stored_assertFault (x0 : State) (x1 x2) (hW : x0.memWf = true) :
    (State.assertFault x0 x1 x2).memWf = true := by
  simp (maxDischargeDepth := 60) +contextual only [State.assertFault, stored_raise, stored_foldl, stored_foldl2, stored_mk,
      stored_ite, stored_ite2, cl_mk, cl_ite, cl_reset, hW]

theorem stored_flush (x0 : State) (x1) (hW : x0.memWf = true) :
    (State.flush x0 x1).memWf = true := by
  unfold State.flush
  (try dsimp only)
  (repeat' split) <;> simp_all (maxDischargeDepth := 60) [stored_modRegion, stored_record, stored_foldl, stored_foldl2, stored_mk,
      stored_ite, stored_ite2, cl_mk, cl_ite, cl_reset]

theorem stored_fenceFaults (x0 : State) (x1 x2) (hW : x0.memWf = true) :
    (State.fenceFaults x0 x1 x2).memWf = true := by
  unfold State.fenceFaults
  (try dsimp only)
  (repeat' split) <;> simp_all (maxDischargeDepth := 60) [stored_raise, stored_foldl, stored_foldl2, stored_mk, stored_ite,
      stored_ite2, cl_mk, cl_ite, cl_reset]

theorem stored_faultsAt (x0 : State) (x1 x2 x3 x4) (hW : x0.memWf = true) :
    (State.faultsAt x0 x1 x2 x3 x4).memWf = true := by
  unfold State.faultsAt
  (try dsimp only)
  (repeat' split) <;> simp_all (maxDischargeDepth := 60) [stored_assertFault, stored_fenceFaults, stored_modRegion, stored_openBatch,
      stored_opening, stored_raise, stored_foldl, stored_foldl2, stored_mk, stored_ite, stored_ite2, cl_mk, cl_ite, cl_reset]

theorem stored_executeCycle (x0 : State) (x1 x2) (hW : x0.memWf = true) :
    (State.executeCycle x0 x1 x2).memWf = true := by
  unfold State.executeCycle
  (try dsimp only)
  (with_reducible repeat' (first
      | assumption | intro _ | apply hf | apply stored_allClusters | apply stored_ctlStep | apply stored_flush
      | apply stored_issueSlots | apply stored_landSel | apply stored_modCluster | apply stored_modRegion | apply stored_moveCluster
      | apply stored_setWaits | apply stored_unlessHeld | apply stored_foldl | apply stored_foldl2 | simp only [stored_mk]
      | simp only [cl_mk] | apply cl_dmaFill | apply cl_resetCluster | apply cl_ctl | apply cl_reset | split | dsimp only | rfl))

theorem stored_readyHop (x0 : State) (x1 x2 x3 x4 x5) (hW : x0.memWf = true) :
    (State.readyHop x0 x1 x2 x3 x4 x5).memWf = true := by
  unfold State.readyHop
  (try dsimp only)
  (repeat' split) <;> simp_all (maxDischargeDepth := 60) [stored_modCluster, stored_foldl, stored_foldl2, stored_mk, stored_ite,
      stored_ite2, cl_mk, cl_ite, cl_reset]

theorem stored_flowNext (x0 : State) (x1 x2 x3) (hW : x0.memWf = true) :
    (State.flowNext x0 x1 x2 x3).2.memWf = true := by
  unfold State.flowNext
  (try dsimp only)
  (repeat' split) <;> simp_all (maxDischargeDepth := 60) [stored_readyHop, stored_foldl, stored_foldl2, stored_mk, stored_ite,
      stored_ite2, cl_mk, cl_ite, cl_reset]

theorem stored_flowPath (x0 : State) (x1 x2 x3 x4) (hW : x0.memWf = true) :
    (State.flowPath x0 x1 x2 x3 x4).2.memWf = true := by
  induction x3 generalizing x0 x4 with
  | zero => first | exact hW | (unfold State.flowPath; exact hW) | (unfold State.flowPath; split <;> exact hW)
  | succ n ih =>
    unfold State.flowPath
    (try dsimp only)
    (repeat' split) <;> simp_all (maxDischargeDepth := 60) [stored_flowNext, stored_foldl, stored_foldl2, stored_mk, stored_ite,
        stored_ite2, cl_mk, cl_ite, cl_reset]

theorem stored_stallPath (x0 : State) (x1 x2 x3) (hW : x0.memWf = true) :
    (State.stallPath x0 x1 x2 x3).2.memWf = true := by
  simp (maxDischargeDepth := 60) +contextual only [State.stallPath, stored_flowPath, stored_foldl, stored_foldl2, stored_mk,
      stored_ite, stored_ite2, cl_mk, cl_ite, cl_reset, hW]

theorem stored_flowsStep (x0 : State) (x1 x2 x3) (hW : x0.memWf = true) :
    (State.flowsStep x0 x1 x2 x3).memWf = true := by
  unfold State.flowsStep
  (try dsimp only)
  (repeat' split) <;> simp_all (maxDischargeDepth := 60) [stored_modCluster, stored_foldl, stored_foldl2, stored_mk, stored_ite,
      stored_ite2, cl_mk, cl_ite, cl_reset]

theorem stored_beatsStep (x0 : State) (x1 x2 x3 x4) (hW : x0.memWf = true) :
    (State.beatsStep x0 x1 x2 x3 x4).memWf = true := by
  unfold State.beatsStep
  (try dsimp only)
  (repeat' split) <;> simp_all (maxDischargeDepth := 60) [stored_modCluster, stored_foldl, stored_foldl2, stored_mk, stored_ite,
      stored_ite2, cl_mk, cl_ite, cl_reset]

theorem stored_stallMove (x0 : State) (x1 x2 x3) (hW : x0.memWf = true) :
    (State.stallMove x0 x1 x2 x3).memWf = true := by
  unfold State.stallMove
  (try dsimp only)
  (repeat' split) <;> simp_all (maxDischargeDepth := 60) [stored_beatsStep, stored_flowsStep, stored_landSel, stored_modCluster,
      stored_popSides, stored_streamsMove, stored_foldl, stored_foldl2, stored_mk, stored_ite, stored_ite2, cl_mk, cl_ite, cl_reset]

theorem stored_stallStep (x0 : State) (x1 x2 x3 x4 x5) (hW : x0.memWf = true) :
    (State.stallStep x0 x1 x2 x3 x4 x5).memWf = true := by
  unfold State.stallStep
  (try dsimp only)
  (repeat' split) <;> simp_all (maxDischargeDepth := 60) [stored_assertFault, stored_count, stored_flush, stored_modRegion,
      stored_openBatch, stored_stallMove, stored_foldl, stored_foldl2, stored_mk, stored_ite, stored_ite2, cl_mk, cl_ite, cl_reset]

theorem stored_wideStall (x0 : State) (x1 x2) (hW : x0.memWf = true) :
    (State.wideStall x0 x1 x2).memWf = true := by
  simp (maxDischargeDepth := 60) +contextual only [State.wideStall, stored_count, stored_fenceFaults, stored_flush, stored_modRegion,
      stored_openBatch, stored_setWaits, stored_stallPath, stored_stallStep, stored_foldl, stored_foldl2, stored_mk, stored_ite,
      stored_ite2, cl_mk, cl_ite, cl_reset, hW]

theorem stored_queueStall (x0 : State) (x1 x2) (hW : x0.memWf = true) :
    (State.queueStall x0 x1 x2).memWf = true := by
  simp (maxDischargeDepth := 60) +contextual only [State.queueStall, stored_count, stored_modRegion, stored_setWaits, stored_foldl,
      stored_foldl2, stored_mk, stored_ite, stored_ite2, cl_mk, cl_ite, cl_reset, hW]

theorem stored_aclk (x0 : State) (x1) (hW : x0.memWf = true) :
    (State.aclk x0 x1).memWf = true := by
  simp (maxDischargeDepth := 60) +contextual only [State.aclk, stored_executeCycle, stored_faultsAt, stored_flush, stored_modRegion,
      stored_queueStall, stored_raise, stored_setWaits, stored_wideStall, stored_foldl, stored_foldl2, stored_mk, stored_ite,
      stored_ite2, cl_mk, cl_ite, cl_reset, hW]

theorem stored_queueTimeout (x0 : State) (x1) (hW : x0.memWf = true) :
    (State.queueTimeout x0 x1).memWf = true := by
  unfold State.queueTimeout
  (try dsimp only)
  (repeat' split) <;> simp_all (maxDischargeDepth := 60) [stored_raise, stored_foldl, stored_foldl2, stored_mk, stored_ite,
      stored_ite2, cl_mk, cl_ite, cl_reset]

theorem stored_enterCluster (x0 : State) (x1 x2 x3) (hW : x0.memWf = true) :
    (State.enterCluster x0 x1 x2 x3).memWf = true := by
  unfold State.enterCluster
  (try dsimp only)
  (repeat' split) <;> simp_all (maxDischargeDepth := 60) [stored_modCluster, stored_foldl, stored_foldl2, stored_mk, stored_ite,
      stored_ite2, cl_mk, cl_ite, cl_reset]

theorem stored_beginSegment (s : State) (r) (hW : s.memWf = true) :
    (State.beginSegment s r).memWf = true := by
  unfold State.beginSegment
  (try dsimp only)
  (with_reducible repeat' (first
      | assumption | intro _ | apply hf | apply stored_allClusters | apply stored_enterCluster | apply stored_landSel
      | apply stored_modRegion | apply stored_setImgState | apply stored_wr | apply stored_unlessHeld | apply stored_foldl
      | apply stored_foldl2 | simp only [stored_mk] | simp only [cl_mk] | apply cl_dmaFill | apply cl_resetCluster | apply cl_ctl
      | apply cl_reset | split | dsimp only | rfl))

theorem stored_setPort (x0 : State) (x1 x2) (hW : x0.memWf = true) :
    (State.setPort x0 x1 x2).memWf = true := by
  simp (maxDischargeDepth := 60) +contextual only [State.setPort, stored_foldl, stored_foldl2, stored_mk, stored_ite, stored_ite2,
      cl_mk, cl_ite, cl_reset, hW]

theorem stored_modPort (x0 : State) (x1 x2) (hW : x0.memWf = true) :
    (State.modPort x0 x1 x2).memWf = true := by
  simp (maxDischargeDepth := 60) +contextual only [State.modPort, stored_setPort, stored_foldl, stored_foldl2, stored_mk, stored_ite,
      stored_ite2, cl_mk, cl_ite, cl_reset, hW]

theorem stored_sendFlit (x0 : State) (x1 x2 x3 x4) (hW : x0.memWf = true) :
    (State.sendFlit x0 x1 x2 x3 x4).memWf = true := by
  simp (maxDischargeDepth := 60) +contextual only [State.sendFlit, stored_emit, stored_modPort, stored_foldl, stored_foldl2,
      stored_mk, stored_ite, stored_ite2, cl_mk, cl_ite, cl_reset, hW]

theorem stored_sendIdle (x0 : State) (x1) (hW : x0.memWf = true) :
    (State.sendIdle x0 x1).memWf = true := by
  simp (maxDischargeDepth := 60) +contextual only [State.sendIdle, stored_sendFlit, stored_foldl, stored_foldl2, stored_mk,
      stored_ite, stored_ite2, cl_mk, cl_ite, cl_reset, hW]

theorem stored_sendCap (x0 : State) (x1) (hW : x0.memWf = true) :
    (State.sendCap x0 x1).memWf = true := by
  simp (maxDischargeDepth := 60) +contextual only [State.sendCap, stored_sendFlit, stored_foldl, stored_foldl2, stored_mk,
      stored_ite, stored_ite2, cl_mk, cl_ite, cl_reset, hW]

theorem stored_sendNumbered (x0 : State) (x1 x2 x3) (hW : x0.memWf = true) :
    (State.sendNumbered x0 x1 x2 x3).memWf = true := by
  simp (maxDischargeDepth := 60) +contextual only [State.sendNumbered, stored_modPort, stored_sendFlit, stored_foldl, stored_foldl2,
      stored_mk, stored_ite, stored_ite2, cl_mk, cl_ite, cl_reset, hW]

theorem stored_train (x0 : State) (x1 x2) (hW : x0.memWf = true) :
    (State.train x0 x1 x2).memWf = true := by
  simp (maxDischargeDepth := 60) +contextual only [State.train, stored_setFld, stored_setPort, stored_foldl, stored_foldl2,
      stored_mk, stored_ite, stored_ite2, cl_mk, cl_ite, cl_reset, hW]

theorem stored_portFail (x0 : State) (x1) (hW : x0.memWf = true) :
    (State.portFail x0 x1).memWf = true := by
  simp (maxDischargeDepth := 60) +contextual only [State.portFail, stored_modPort, stored_setFld, stored_foldl, stored_foldl2,
      stored_mk, stored_ite, stored_ite2, cl_mk, cl_ite, cl_reset, hW]

theorem stored_enterPhase (x0 : State) (x1 x2) (hW : x0.memWf = true) :
    (State.enterPhase x0 x1 x2).memWf = true := by
  simp (maxDischargeDepth := 60) +contextual only [State.enterPhase, stored_modPort, stored_portFail, stored_foldl, stored_foldl2,
      stored_mk, stored_ite, stored_ite2, cl_mk, cl_ite, cl_reset, hW]

theorem stored_emptyPort (x0 : State) (x1) (hW : x0.memWf = true) :
    (State.emptyPort x0 x1).memWf = true := by
  simp (maxDischargeDepth := 60) +contextual only [State.emptyPort, stored_modPort, stored_foldl, stored_foldl2, stored_mk,
      stored_ite, stored_ite2, cl_mk, cl_ite, cl_reset, hW]

theorem stored_fencePort (x0 : State) (x1) (hW : x0.memWf = true) :
    (State.fencePort x0 x1).memWf = true := by
  simp (maxDischargeDepth := 60) +contextual only [State.fencePort, stored_emptyPort, stored_setFld, stored_foldl, stored_foldl2,
      stored_mk, stored_ite, stored_ite2, cl_mk, cl_ite, cl_reset, hW]

theorem stored_takePeer (x0 : State) (x1) (hW : x0.memWf = true) :
    (State.takePeer x0 x1).memWf = true := by
  simp (maxDischargeDepth := 60) +contextual only [State.takePeer, stored_setFld, stored_foldl, stored_foldl2, stored_mk, stored_ite,
      stored_ite2, cl_mk, cl_ite, cl_reset, hW]

theorem stored_peerCheck (x0 : State) (x1) (hW : x0.memWf = true) :
    (State.peerCheck x0 x1).memWf = true := by
  simp (maxDischargeDepth := 60) +contextual only [State.peerCheck, stored_fencePort, stored_logEdge, stored_setFld, stored_foldl,
      stored_foldl2, stored_mk, stored_ite, stored_ite2, cl_mk, cl_ite, cl_reset, hW]

theorem stored_ringOut (x0 : State) (x1 x2) (hW : x0.memWf = true) :
    (State.ringOut x0 x1 x2).memWf = true := by
  induction x2 generalizing x0 with
  | zero => first | exact hW | (unfold State.ringOut; exact hW) | (unfold State.ringOut; split <;> exact hW)
  | succ n ih =>
    unfold State.ringOut
    grind [stored_fencePort, stored_logEdge, stored_modPort, stored_pop, stored_mk]

theorem stored_ringIn (x0 : State) (x1 x2) (hW : x0.memWf = true) :
    (State.ringIn x0 x1 x2).memWf = true := by
  induction x2 generalizing x0 x1 with
  | zero => first | exact hW | (unfold State.ringIn; exact hW) | (unfold State.ringIn; split <;> exact hW)
  | succ n ih =>
    unfold State.ringIn
    (try dsimp only)
    (repeat' split) <;> simp_all (maxDischargeDepth := 60) [stored_fencePort, stored_logEdge, stored_modPort, stored_push,
        stored_foldl, stored_foldl2, stored_mk, stored_ite, stored_ite2, cl_mk, cl_ite, cl_reset]

theorem stored_pumpOne (s : State) (p) (hW : s.memWf = true) :
    ∀ t, State.pumpOne s p = some t → t.memWf = true := by
  unfold State.pumpOne
  (try dsimp only)
  (repeat' split) <;> simp_all (maxDischargeDepth := 60) [stored_modPort, stored_sendNumbered, stored_foldl, stored_foldl2,
      stored_mk, stored_ite, stored_ite2, cl_mk, cl_ite, cl_reset]

theorem stored_pump (s : State) (p n) (hW : s.memWf = true) :
    (State.pump s p n).memWf = true := by
  induction n generalizing s with
  | zero => first | exact hW | (unfold State.pump; exact hW) | (unfold State.pump; split <;> exact hW)
  | succ n ih =>
    unfold State.pump
    grind [stored_pumpOne, stored_mk]

theorem stored_tell (x0 : State) (x1) (hW : x0.memWf = true) :
    (State.tell x0 x1).memWf = true := by
  simp (maxDischargeDepth := 60) +contextual only [State.tell, stored_sendIdle, stored_foldl, stored_foldl2, stored_mk, stored_ite,
      stored_ite2, cl_mk, cl_ite, cl_reset, hW]

theorem stored_portRun (x0 : State) (x1) (hW : x0.memWf = true) :
    (State.portRun x0 x1).memWf = true := by
  simp (maxDischargeDepth := 60) +contextual only [State.portRun, stored_pump, stored_ringIn, stored_ringOut, stored_tell,
      stored_foldl, stored_foldl2, stored_mk, stored_ite, stored_ite2, cl_mk, cl_ite, cl_reset, hW]

theorem stored_portsRun (x0 : State) (hW : x0.memWf = true) :
    (State.portsRun x0).memWf = true := by
  unfold State.portsRun
  (try dsimp only)
  (repeat' split) <;> simp_all (maxDischargeDepth := 60) [stored_portRun, stored_foldl, stored_foldl2, stored_mk, stored_ite,
      stored_ite2, cl_mk, cl_ite, cl_reset]

theorem stored_portSend (x0 : State) (x1 x2) (hW : x0.memWf = true) :
    (State.portSend x0 x1 x2).memWf = true := by
  simp (maxDischargeDepth := 60) +contextual only [State.portSend, stored_modPort, stored_portRun, stored_foldl, stored_foldl2,
      stored_mk, stored_ite, stored_ite2, cl_mk, cl_ite, cl_reset, hW]

theorem stored_rxAbort (x0 : State) (hW : x0.memWf = true) :
    (State.rxAbort x0).memWf = true := by
  simp (maxDischargeDepth := 60) +contextual only [State.rxAbort, stored_emit, stored_foldl, stored_foldl2, stored_mk, stored_ite,
      stored_ite2, cl_mk, cl_ite, cl_reset, hW]

theorem stored_loadFail (x0 : State) (x1 x2) (hW : x0.memWf = true) :
    (State.loadFail x0 x1 x2).memWf = true := by
  unfold State.loadFail
  (try dsimp only)
  (with_reducible repeat' (first
      | assumption | intro _ | apply hf | apply stored_disableClusters | apply stored_rxAbort | apply stored_setImgState
      | apply stored_wr | apply stored_unlessHeld | apply stored_foldl | apply stored_foldl2 | simp only [stored_mk]
      | simp only [cl_mk] | apply cl_dmaFill | apply cl_resetCluster | apply cl_ctl | apply cl_reset | split | dsimp only | rfl))

theorem stored_pathLost (x0 : State) (x1) (hW : x0.memWf = true) :
    (State.pathLost x0 x1).memWf = true := by
  simp (maxDischargeDepth := 60) +contextual only [State.pathLost, stored_loadFail, stored_foldl, stored_foldl2, stored_mk,
      stored_ite, stored_ite2, cl_mk, cl_ite, cl_reset, hW]

theorem stored_portLeave (x0 : State) (x1) (hW : x0.memWf = true) :
    (State.portLeave x0 x1).memWf = true := by
  simp (maxDischargeDepth := 60) +contextual only [State.portLeave, stored_fencePort, stored_pathLost, stored_setFld, stored_foldl,
      stored_foldl2, stored_mk, stored_ite, stored_ite2, cl_mk, cl_ite, cl_reset, hW]

theorem stored_portDown (x0 : State) (x1) (hW : x0.memWf = true) :
    (State.portDown x0 x1).memWf = true := by
  simp (maxDischargeDepth := 60) +contextual only [State.portDown, stored_count, stored_portLeave, stored_train, stored_foldl,
      stored_foldl2, stored_mk, stored_ite, stored_ite2, cl_mk, cl_ite, cl_reset, hW]

theorem stored_portOff (x0 : State) (x1) (hW : x0.memWf = true) :
    (State.portOff x0 x1).memWf = true := by
  simp (maxDischargeDepth := 60) +contextual only [State.portOff, stored_modPort, stored_portLeave, stored_setFld, stored_foldl,
      stored_foldl2, stored_mk, stored_ite, stored_ite2, cl_mk, cl_ite, cl_reset, hW]

theorem stored_portEnter (x0 : State) (x1 x2 x3 x4) (hW : x0.memWf = true) :
    (State.portEnter x0 x1 x2 x3 x4).memWf = true := by
  simp (maxDischargeDepth := 60) +contextual only [State.portEnter, stored_modPort, stored_peerCheck, stored_portRun, stored_setFld,
      stored_takePeer, stored_foldl, stored_foldl2, stored_mk, stored_ite, stored_ite2, cl_mk, cl_ite, cl_reset, hW]

theorem stored_phaseDone (x0 : State) (x1 x2 x3) (hW : x0.memWf = true) :
    (State.phaseDone x0 x1 x2 x3).memWf = true := by
  unfold State.phaseDone
  (try dsimp only)
  (repeat' split) <;> simp_all (maxDischargeDepth := 60) [stored_enterPhase, stored_modPort, stored_portEnter, stored_portFail,
      stored_sendCap, stored_foldl, stored_foldl2, stored_mk, stored_ite, stored_ite2, cl_mk, cl_ite, cl_reset]

theorem stored_phaseLate (x0 : State) (x1) (hW : x0.memWf = true) :
    (State.phaseLate x0 x1).memWf = true := by
  simp (maxDischargeDepth := 60) +contextual only [State.phaseLate, stored_enterPhase, stored_foldl, stored_foldl2, stored_mk,
      stored_ite, stored_ite2, cl_mk, cl_ite, cl_reset, hW]

theorem stored_detectAgain (x0 : State) (x1 x2) (hW : x0.memWf = true) :
    (State.detectAgain x0 x1 x2).memWf = true := by
  simp (maxDischargeDepth := 60) +contextual only [State.detectAgain, stored_modPort, stored_phaseDone, stored_foldl, stored_foldl2,
      stored_mk, stored_ite, stored_ite2, cl_mk, cl_ite, cl_reset, hW]

theorem stored_vybCtl (x0 : State) (x1 x2) (hW : x0.memWf = true) :
    (State.vybCtl x0 x1 x2).memWf = true := by
  simp (maxDischargeDepth := 60) +contextual only [State.vybCtl, stored_portLeave, stored_portOff, stored_train, stored_wr,
      stored_foldl, stored_foldl2, stored_mk, stored_ite, stored_ite2, cl_mk, cl_ite, cl_reset, hW]

theorem stored_takeAck (x0 : State) (x1 x2) (hW : x0.memWf = true) :
    (State.takeAck x0 x1 x2).memWf = true := by
  simp (maxDischargeDepth := 60) +contextual only [State.takeAck, stored_modPort, stored_foldl, stored_foldl2, stored_mk, stored_ite,
      stored_ite2, cl_mk, cl_ite, cl_reset, hW]

theorem stored_resendAll (x0 : State) (x1) (hW : x0.memWf = true) :
    (State.resendAll x0 x1).memWf = true := by
  unfold State.resendAll
  (try dsimp only)
  (repeat' split) <;> simp_all (maxDischargeDepth := 60) [stored_count, stored_modPort, stored_portDown, stored_sendFlit,
      stored_foldl, stored_foldl2, stored_mk, stored_ite, stored_ite2, cl_mk, cl_ite, cl_reset]

theorem stored_takeCredits (x0 : State) (x1 x2) (hW : x0.memWf = true) :
    (State.takeCredits x0 x1 x2).memWf = true := by
  simp (maxDischargeDepth := 60) +contextual only [State.takeCredits, stored_resendAll, stored_takeAck, stored_foldl, stored_foldl2,
      stored_mk, stored_ite, stored_ite2, cl_mk, cl_ite, cl_reset, hW]

theorem stored_askAgain (x0 : State) (x1) (hW : x0.memWf = true) :
    (State.askAgain x0 x1).memWf = true := by
  simp (maxDischargeDepth := 60) +contextual only [State.askAgain, stored_modPort, stored_foldl, stored_foldl2, stored_mk,
      stored_ite, stored_ite2, cl_mk, cl_ite, cl_reset, hW]

theorem stored_badFlit (x0 : State) (x1) (hW : x0.memWf = true) :
    (State.badFlit x0 x1).memWf = true := by
  simp (maxDischargeDepth := 60) +contextual only [State.badFlit, stored_askAgain, stored_count, stored_foldl, stored_foldl2,
      stored_mk, stored_ite, stored_ite2, cl_mk, cl_ite, cl_reset, hW]

theorem stored_outOfOrder (x0 : State) (x1) (hW : x0.memWf = true) :
    (State.outOfOrder x0 x1).memWf = true := by
  simp (maxDischargeDepth := 60) +contextual only [State.outOfOrder, stored_askAgain, stored_foldl, stored_foldl2, stored_mk,
      stored_ite, stored_ite2, cl_mk, cl_ite, cl_reset, hW]

theorem stored_accept (x0 : State) (x1) (hW : x0.memWf = true) :
    (State.accept x0 x1).memWf = true := by
  simp (maxDischargeDepth := 60) +contextual only [State.accept, stored_modPort, stored_foldl, stored_foldl2, stored_mk, stored_ite,
      stored_ite2, cl_mk, cl_ite, cl_reset, hW]

theorem stored_inbound (x0 : State) (x1 x2 x3) (hW : x0.memWf = true) :
    (State.inbound x0 x1 x2 x3).memWf = true := by
  simp (maxDischargeDepth := 60) +contextual only [State.inbound, stored_modPort, stored_foldl, stored_foldl2, stored_mk, stored_ite,
      stored_ite2, cl_mk, cl_ite, cl_reset, hW]

theorem stored_flitLost (x0 : State) (x1 x2) (hW : x0.memWf = true) :
    (State.flitLost x0 x1 x2).memWf = true := by
  simp (maxDischargeDepth := 60) +contextual only [State.flitLost, stored_log, stored_foldl, stored_foldl2, stored_mk, stored_ite,
      stored_ite2, cl_mk, cl_ite, cl_reset, hW]

theorem stored_carried (s : State) (ord src dest type node f) (hf : ∀ s, s.memWf = true → ((f s)).memWf = true) (hW : s.memWf = true) :
    (State.carried s ord src dest type node f).memWf = true := by
  unfold State.carried
  (try dsimp only)
  (with_reducible repeat' (first
      | assumption | intro _ | apply hf | apply stored_flitLost | apply stored_unlessHeld | apply stored_foldl | apply stored_foldl2
      | simp only [stored_mk] | simp only [cl_mk] | apply cl_dmaFill | apply cl_resetCluster | apply cl_ctl | apply cl_reset | split
      | dsimp only | rfl))

theorem stored_linkPacket (x0 : State) (x1 x2 x3) (hW : x0.memWf = true) :
    (State.linkPacket x0 x1 x2 x3).memWf = true := by
  unfold State.linkPacket
  (try dsimp only)
  (repeat' split) <;> simp_all (maxDischargeDepth := 60) [stored_emit, stored_flitLost, stored_logEdge, stored_foldl, stored_foldl2,
      stored_mk, stored_ite, stored_ite2, cl_mk, cl_ite, cl_reset]

theorem stored_ctlWords (x0 : State) (x1 x2 x3) (hW : x0.memWf = true) :
    (State.ctlWords x0 x1 x2 x3).memWf = true := by
  unfold State.ctlWords
  (try dsimp only)
  (repeat' split) <;> simp_all (maxDischargeDepth := 60) [stored_linkPacket, stored_modPort, stored_foldl, stored_foldl2, stored_mk,
      stored_ite, stored_ite2, cl_mk, cl_ite, cl_reset]

theorem stored_numbered (s : State) (p type flit f) (hf : ∀ s, s.memWf = true → ((f s)).memWf = true) (hW : s.memWf = true) :
    (State.numbered s p type flit f).memWf = true := by
  unfold State.numbered
  (try dsimp only)
  (with_reducible repeat' (first
      | assumption | intro _ | apply hf | apply stored_accept | apply stored_badFlit | apply stored_outOfOrder | apply stored_portRun
      | apply stored_takeCredits | apply stored_unlessHeld | apply stored_foldl | apply stored_foldl2 | simp only [stored_mk]
      | simp only [cl_mk] | apply cl_dmaFill | apply cl_resetCluster | apply cl_ctl | apply cl_reset | split | dsimp only | rfl))

theorem stored_training (x0 : State) (x1 x2) (hW : x0.memWf = true) :
    (State.training x0 x1 x2).memWf = true := by
  simp (maxDischargeDepth := 60) +contextual only [State.training, stored_badFlit, stored_count, stored_modPort, stored_peerCheck,
      stored_portRun, stored_sendCap, stored_takeCredits, stored_takePeer, stored_foldl, stored_foldl2, stored_mk, stored_ite,
      stored_ite2, cl_mk, cl_ite, cl_reset, hW]

theorem stored_announceReady (x0 : State) (hW : x0.memWf = true) :
    (State.announceReady x0).memWf = true := by
  unfold State.announceReady
  (try dsimp only)
  (repeat' split) <;> simp_all (maxDischargeDepth := 60) [stored_peerCheck, stored_portRun, stored_sendCap, stored_foldl,
      stored_foldl2, stored_mk, stored_ite, stored_ite2, cl_mk, cl_ite, cl_reset]

theorem stored_bindPorts (x0 : State) (x1 x2) (hW : x0.memWf = true) :
    (State.bindPorts x0 x1 x2).memWf = true := by
  unfold State.bindPorts
  (try dsimp only)
  (repeat' split) <;> simp_all (maxDischargeDepth := 60) [stored_setFld, stored_wr, stored_foldl, stored_foldl2, stored_mk,
      stored_ite, stored_ite2, cl_mk, cl_ite, cl_reset]

theorem stored_setCable (x0 : State) (x1 x2) (hW : x0.memWf = true) :
    (State.setCable x0 x1 x2).memWf = true := by
  simp (maxDischargeDepth := 60) +contextual only [State.setCable, stored_foldl, stored_foldl2, stored_mk, stored_ite, stored_ite2,
      cl_mk, cl_ite, cl_reset, hW]

theorem stored_vcabStep (x0 : State) (x1 x2) (hW : x0.memWf = true) :
    (State.vcabStep x0 x1 x2).memWf = true := by
  simp (maxDischargeDepth := 60) +contextual only [State.vcabStep, stored_emit, stored_setCable, stored_foldl, stored_foldl2,
      stored_mk, stored_ite, stored_ite2, cl_mk, cl_ite, cl_reset, hW]

theorem stored_vcabAll (x0 : State) (hW : x0.memWf = true) :
    (State.vcabAll x0).memWf = true := by
  unfold State.vcabAll
  (try dsimp only)
  (repeat' split) <;> simp_all (maxDischargeDepth := 60) [stored_vcabStep, stored_foldl, stored_foldl2, stored_mk, stored_ite,
      stored_ite2, cl_mk, cl_ite, cl_reset]

theorem stored_segmentDark (x0 : State) (x1) (hW : x0.memWf = true) :
    (State.segmentDark x0 x1).memWf = true := by
  unfold State.segmentDark
  (try dsimp only)
  (repeat' split) <;> simp_all (maxDischargeDepth := 60) [stored_modPort, stored_portDown, stored_foldl, stored_foldl2, stored_mk,
      stored_ite, stored_ite2, cl_mk, cl_ite, cl_reset]

theorem stored_quote (x0 : State) (x1) (hW : x0.memWf = true) :
    (State.quote x0 x1).2.memWf = true := by
  simp (maxDischargeDepth := 60) +contextual only [State.quote, stored_foldl, stored_foldl2, stored_mk, stored_ite, stored_ite2,
      cl_mk, cl_ite, cl_reset, hW]

theorem stored_signMsg (x0 : State) (x1) (hW : x0.memWf = true) :
    (State.signMsg x0 x1).2.memWf = true := by
  simp (maxDischargeDepth := 60) +contextual only [State.signMsg, stored_foldl, stored_foldl2, stored_mk, stored_ite, stored_ite2,
      cl_mk, cl_ite, cl_reset, hW]

theorem stored_unlessHeld (s t : State) (h : s.memWf = true → t.memWf = true) (hW : s.memWf = true) :
    (State.unlessHeld s t).memWf = true := by
  unfold State.unlessHeld
  split
  · exact hW
  · exact h hW

theorem stored_burstFlip (x0 : State) (x1 x2 x3) (hW : x0.memWf = true) :
    (State.burstFlip x0 x1 x2 x3).memWf = true := by
  unfold State.burstFlip
  (try dsimp only)
  (repeat' split) <;> simp_all (maxDischargeDepth := 60) [stored_setDramCell, stored_setFld, stored_foldl, stored_foldl2, stored_mk,
      stored_ite, stored_ite2, cl_mk, cl_ite, cl_reset]

theorem stored_dramFound (x0 : State) (x1 x2 x3 x4 x5 x6) (hW : x0.memWf = true) :
    (State.dramFound x0 x1 x2 x3 x4 x5 x6).2.memWf = true := by
  unfold State.dramFound
  (try dsimp only)
  (repeat' split) <;> simp_all (maxDischargeDepth := 60) [stored_burstFlip, stored_count, stored_log, stored_setDramCell,
      stored_foldl, stored_foldl2, stored_mk, stored_ite, stored_ite2, cl_mk, cl_ite, cl_reset]

theorem stored_dramWord (s : State) (n a) (hW : s.memWf = true) :
    (State.dramWord s n a).2.memWf = true := by
  unfold State.dramWord
  (try dsimp only)
  (repeat' split) <;> simp_all (maxDischargeDepth := 60) [stored_dramFound, stored_foldl, stored_foldl2, stored_mk, stored_ite,
      stored_ite2, cl_mk, cl_ite, cl_reset]

theorem stored_dramJoin (ws y) (hW : y.2.memWf = true) :
    (State.dramJoin ws y).2.memWf = true := by
  unfold State.dramJoin
  (try dsimp only)
  (repeat' split) <;> simp_all (maxDischargeDepth := 60) [stored_foldl, stored_foldl2, stored_mk, stored_ite, stored_ite2, cl_mk,
      cl_ite, cl_reset]

theorem stored_dramMore (n a x i) (hW : x.2.memWf = true) :
    (State.dramMore n a x i).2.memWf = true := by
  unfold State.dramMore
  (try dsimp only)
  (repeat' split) <;> simp_all (maxDischargeDepth := 60) [stored_dramJoin, stored_dramWord, stored_foldl, stored_foldl2, stored_mk,
      stored_ite, stored_ite2, cl_mk, cl_ite, cl_reset]

theorem stored_dramWords (s : State) (n a m) (hW : s.memWf = true) :
    (State.dramWords s n a m).2.memWf = true := by
  unfold State.dramWords
  (try dsimp only)
  (repeat' split) <;> simp_all (maxDischargeDepth := 60) [stored_dramMore, stored_foldl, stored_foldl2, stored_mk, stored_ite,
      stored_ite2, cl_mk, cl_ite, cl_reset]

theorem stored_countTxn (s : State) (n a len) (hW : s.memWf = true) :
    (State.countTxn s n a len).memWf = true := by
  unfold State.countTxn
  (try dsimp only)
  (with_reducible repeat' (first
      | assumption | intro _ | apply hf | apply stored_count | apply stored_unlessHeld | apply stored_foldl | apply stored_foldl2
      | simp only [stored_mk] | simp only [cl_mk] | apply cl_dmaFill | apply cl_resetCluster | apply cl_ctl | apply cl_reset | split
      | dsimp only | rfl))

theorem stored_dramRead (x0 : State) (x1 x2 x3) (hW : x0.memWf = true) :
    (State.dramRead x0 x1 x2 x3).2.memWf = true := by
  unfold State.dramRead
  grind [stored_countTxn, stored_dramWords, stored_mk]

theorem stored_dramPut (x0 : State) (x1 x2 x3 x4 x5) (hW : x0.memWf = true) :
    (State.dramPut x0 x1 x2 x3 x4 x5).memWf = true := by
  simp (maxDischargeDepth := 60) +contextual only [State.dramPut, stored_setDramCell, stored_foldl, stored_foldl2, stored_mk,
      stored_ite, stored_ite2, cl_mk, cl_ite, cl_reset, hW]

theorem stored_dramWriteAt (s : State) (n ch b e w) (hW : s.memWf = true) :
    (State.dramWriteAt s n ch b e w).memWf = true := by
  simp (maxDischargeDepth := 60) +contextual only [State.dramWriteAt, stored_burstFlip, stored_dramPut, stored_foldl, stored_foldl2,
      stored_mk, stored_ite, stored_ite2, cl_mk, cl_ite, cl_reset, hW]

theorem stored_dramWriteMore (n e x w) (hW : x.2.memWf = true) :
    (State.dramWriteMore n e x w).2.memWf = true := by
  unfold State.dramWriteMore
  (try dsimp only)
  (repeat' split) <;> simp_all (maxDischargeDepth := 60) [stored_dramWriteAt, stored_foldl, stored_foldl2, stored_mk, stored_ite,
      stored_ite2, cl_mk, cl_ite, cl_reset]

theorem stored_dramWriteWords (s : State) (n a bs) (hW : s.memWf = true) :
    (State.dramWriteWords s n a bs).2.memWf = true := by
  unfold State.dramWriteWords
  (try dsimp only)
  (repeat' split) <;> simp_all (maxDischargeDepth := 60) [stored_dramWriteMore, stored_foldl, stored_foldl2, stored_mk, stored_ite,
      stored_ite2, cl_mk, cl_ite, cl_reset]

theorem stored_dramWrite (x0 : State) (x1 x2 x3) (hW : x0.memWf = true) :
    (State.dramWrite x0 x1 x2 x3).2.memWf = true := by
  unfold State.dramWrite
  grind [stored_countTxn, stored_dramWriteWords, stored_mk]

theorem stored_pageRead (x0 : State) (x1 x2 x3 x4) (hW : x0.memWf = true) :
    (State.pageRead x0 x1 x2 x3 x4).2.memWf = true := by
  unfold State.pageRead
  grind [stored_dramRead, stored_mk]

theorem stored_pageWrite (x0 : State) (x1 x2 x3 x4) (hW : x0.memWf = true) :
    (State.pageWrite x0 x1 x2 x3 x4).2.memWf = true := by
  unfold State.pageWrite
  grind [stored_dramWrite, stored_mk]

theorem stored_refuseLoad (x0 : State) (x1) (hW : x0.memWf = true) :
    (State.refuseLoad x0 x1).memWf = true := by
  unfold State.refuseLoad
  exact stored_setFld _ _ _ (with_image _ _ _ (stored_setImg _ _ (stored_disableClusters _ (stored_record x0 96 _ hW))))

theorem stored_applyRemap (x0 : State) (x1) (hW : x0.memWf = true) :
    (State.applyRemap x0 x1).memWf = true := by
  simp (maxDischargeDepth := 60) +contextual only [State.applyRemap, stored_setFld, stored_foldl, stored_foldl2, stored_mk,
      stored_ite, stored_ite2, cl_mk, cl_ite, cl_reset, hW]

theorem stored_applyRemaps (s : State) (img p) (hW : s.memWf = true) :
    (State.applyRemaps s img p).memWf = true := by
  unfold State.applyRemaps
  (try dsimp only)
  (with_reducible repeat' (first
      | assumption | intro _ | apply hf | apply stored_applyRemap | apply stored_wr | apply stored_unlessHeld | apply stored_foldl
      | apply stored_foldl2 | simp only [stored_mk] | simp only [cl_mk] | apply cl_dmaFill | apply cl_resetCluster | apply cl_ctl
      | apply cl_reset | split | dsimp only | rfl))

theorem stored_reportRemaps (x0 : State) (hW : x0.memWf = true) :
    (State.reportRemaps x0).memWf = true := by
  unfold State.reportRemaps
  (try dsimp only)
  (repeat' split) <;> simp_all (maxDischargeDepth := 60) [stored_logRegion, stored_foldl, stored_foldl2, stored_mk, stored_ite,
      stored_ite2, cl_mk, cl_ite, cl_reset]

theorem wf_foldl {α β : Type} [DecidableEq α] (d : α) (f : List (Nat × α) → β → List (Nat × α))
    (hf : ∀ m x, Store.wf d m = true → Store.wf d (f m x) = true) (l : List β) (m : List (Nat × α)) (h : Store.wf d m = true) :
    Store.wf d (l.foldl f m) = true := by
  induction l generalizing m with
  | nil => exact h
  | cons x l ih => exact ih _ (hf _ _ h)
theorem loadedProgram_wf (s : State) (img p r c) : Store.wf PCell.zero (s.loadedProgram img p r c) = true := by
  unfold State.loadedProgram
  refine wf_foldl _ _ (fun m x h => ?_) _ _ (wf_foldl _ _ (fun m x h => Store.wf_setMany _ _ _ _ h) _ _ rfl)
  split
  · refine wf_foldl _ _ (fun m x h => ?_) _ _ h
    split
    · exact Store.wf_set _ _ _ _ h
    · exact h
  · exact h
theorem stored_loadCluster (s : State) (img p r c) (hW : s.memWf = true) : (s.loadCluster img p r c).memWf = true := by
  unfold State.loadCluster
  have h1 := stored_modCluster s r (s.targetCluster r c) (fun k => { k with prog := s.loadedProgram img p r c }) (fun k hk => by
    rw [Cluster.memWf_iff] at *
    exact ⟨hk.1, hk.2.1, hk.2.2.1, hk.2.2.2.1, loadedProgram_wf _ _ _ _ _⟩) hW
  dsimp only
  split
  · exact stored_setFld _ _ _ (stored_setFld _ _ _ (stored_foldl _ (fun s x h => stored_wr _ _ _ (stored_wr _ _ _ h)) _ _
      (stored_foldl _ (fun s x h => stored_wr _ _ _ (stored_wr _ _ _ h)) _ _ h1)))
  · exact stored_setFld _ _ _ (stored_setFld _ _ _ (stored_setFld _ _ _ (stored_foldl _ (fun s x h => stored_wr _ _ _ (stored_wr _ _ _ h)) _ _
      (stored_foldl _ (fun s x h => stored_wr _ _ _ (stored_wr _ _ _ h)) _ _ h1))))

theorem stored_loadStacks (x0 : State) (hW : x0.memWf = true) :
    (State.loadStacks x0).memWf = true := by
  unfold State.loadStacks
  (try dsimp only)
  (repeat' split) <;> simp_all (maxDischargeDepth := 60) [stored_dramLost, stored_foldl, stored_foldl2, stored_mk, stored_ite,
      stored_ite2, cl_mk, cl_ite, cl_reset]

theorem stored_clearFences (x0 : State) (hW : x0.memWf = true) :
    (State.clearFences x0).memWf = true := by
  simp (maxDischargeDepth := 60) +contextual only [State.clearFences, stored_foldl, stored_foldl2, stored_mk, stored_ite,
      stored_ite2, cl_mk, cl_ite, cl_reset, hW]

theorem stored_loadRegion (x0 : State) (x1) (hW : x0.memWf = true) :
    (State.loadRegion x0 x1).memWf = true := by
  simp (maxDischargeDepth := 60) +contextual only [State.loadRegion, stored_modRegion, stored_wr, stored_foldl, stored_foldl2,
      stored_mk, stored_ite, stored_ite2, cl_mk, cl_ite, cl_reset, hW]

theorem stored_wipeClusters (x0 : State) (hW : x0.memWf = true) :
    (State.wipeClusters x0).memWf = true := by
  unfold State.wipeClusters
  refine stored_foldl _ (fun s k h => ?_) _ _ (stored_foldl _ (fun s k h => stored_modCluster _ _ _ _ (fun x hx => ?_) h) _ _ hW)
  · split
    · exact h
    · exact stored_setFld _ _ _ (stored_setFld _ _ _ (stored_setFld _ _ _ h))
  · rw [Cluster.memWf_iff] at *
    exact ⟨rfl, hx.2.1, hx.2.2.1, hx.2.2.2.1, rfl⟩

theorem stored_writePlacement (x0 : State) (x1 x2) (hW : x0.memWf = true) :
    (State.writePlacement x0 x1 x2).memWf = true := by
  unfold State.writePlacement
  (try dsimp only)
  (repeat' split) <;> simp_all (maxDischargeDepth := 60) [stored_applyRemaps, stored_bindPorts, stored_clearFences,
      stored_loadCluster, stored_loadRegion, stored_loadStacks, stored_wipeClusters, stored_foldl, stored_foldl2, stored_mk,
      stored_ite, stored_ite2, cl_mk, cl_ite, cl_reset]

theorem stored_showCheck (x0 : State) (x1 x2) (hW : x0.memWf = true) :
    (State.showCheck x0 x1 x2).memWf = true := by
  simp (maxDischargeDepth := 60) +contextual only [State.showCheck, stored_setFld, stored_foldl, stored_foldl2, stored_mk,
      stored_ite, stored_ite2, cl_mk, cl_ite, cl_reset, hW]

theorem stored_checkFailed (x0 : State) (x1) (hW : x0.memWf = true) :
    (State.checkFailed x0 x1).memWf = true := by
  unfold State.checkFailed
  (try dsimp only)
  (repeat' split) <;> simp_all (maxDischargeDepth := 60) [stored_refuseLoad, stored_showCheck, stored_foldl, stored_foldl2,
      stored_mk, stored_ite, stored_ite2, cl_mk, cl_ite, cl_reset]

theorem stored_enableImage (x0 : State) (hW : x0.memWf = true) :
    (State.enableImage x0).memWf = true := by
  unfold State.enableImage
  (try dsimp only)
  (repeat' split) <;> simp_all (maxDischargeDepth := 60) [stored_announceReady, stored_setFld, stored_setImg, stored_showCheck,
      stored_foldl, stored_foldl2, stored_mk, stored_ite, stored_ite2, cl_mk, cl_ite, cl_reset]

theorem stored_runChecks (x0 : State) (hW : x0.memWf = true) :
    (State.runChecks x0).memWf = true := by
  unfold State.runChecks
  (try dsimp only)
  (with_reducible repeat' (first
      | assumption | intro _ | apply hf | apply stored_checkFailed | apply stored_enableImage | apply stored_reportRemaps
      | apply stored_setImgState | apply stored_wr | apply stored_unlessHeld | apply stored_foldl | apply stored_foldl2
      | simp only [stored_mk] | simp only [cl_mk] | apply cl_dmaFill | apply cl_resetCluster | apply cl_ctl | apply cl_reset | split
      | dsimp only | rfl))

theorem stored_sendHello (x0 : State) (hW : x0.memWf = true) :
    (State.sendHello x0).memWf = true := by
  unfold State.sendHello
  (try dsimp only)
  (repeat' split) <;> simp_all (maxDischargeDepth := 60) [stored_emit, stored_fresh, stored_foldl, stored_foldl2, stored_mk,
      stored_ite, stored_ite2, cl_mk, cl_ite, cl_reset]

theorem stored_nextModels (s : State) (l) (hW : s.memWf = true) :
    (State.nextModels s l).memWf = true := by
  induction l generalizing s with
  | nil => first | exact hW | (unfold State.nextModels; exact hW) | (unfold State.nextModels; split <;> exact hW)
  | cons y ys ih =>
    unfold State.nextModels
    (try dsimp only)
    (repeat' split) <;> simp_all (maxDischargeDepth := 60) [stored_loadFail, stored_foldl, stored_foldl2, stored_mk, stored_ite,
        stored_ite2, cl_mk, cl_ite, cl_reset]

theorem stored_loadAdvance (x0 : State) (hW : x0.memWf = true) :
    (State.loadAdvance x0).memWf = true := by
  unfold State.loadAdvance
  (try dsimp only)
  (repeat' split) <;> simp_all (maxDischargeDepth := 60) [stored_holdFinish, stored_nextModels, stored_runChecks, stored_sendHello,
      stored_foldl, stored_foldl2, stored_mk, stored_ite, stored_ite2, cl_mk, cl_ite, cl_reset]

theorem stored_tagTile (x0 : State) (x1 x2) (hW : x0.memWf = true) :
    (State.tagTile x0 x1 x2).memWf = true := by
  simp (maxDischargeDepth := 60) +contextual only [State.tagTile, stored_markDone, stored_setFld, stored_tileTag, stored_foldl,
      stored_foldl2, stored_mk, stored_ite, stored_ite2, cl_mk, cl_ite, cl_reset, hW]

theorem stored_putTile (x0 : State) (x1 x2) (hW : x0.memWf = true) :
    (State.putTile x0 x1 x2).memWf = true := by
  simp (maxDischargeDepth := 60) +contextual only [State.putTile, stored_tileWrite, stored_foldl, stored_foldl2, stored_mk,
      stored_ite, stored_ite2, cl_mk, cl_ite, cl_reset, hW]

theorem stored_loadTile (x0 : State) (x1 x2) (hW : x0.memWf = true) :
    (State.loadTile x0 x1 x2).memWf = true := by
  simp (maxDischargeDepth := 60) +contextual only [State.loadTile, stored_putTile, stored_tagTile, stored_foldl, stored_foldl2,
      stored_mk, stored_ite, stored_ite2, cl_mk, cl_ite, cl_reset, hW]

theorem stored_modJob (x0 : State) (x1 x2) (hW : x0.memWf = true) :
    (State.modJob x0 x1 x2).memWf = true := by
  simp (maxDischargeDepth := 60) +contextual only [State.modJob, stored_foldl, stored_foldl2, stored_mk, stored_ite, stored_ite2,
      cl_mk, cl_ite, cl_reset, hW]

theorem stored_countSeg (x0 : State) (hW : x0.memWf = true) :
    (State.countSeg x0).memWf = true := by
  simp (maxDischargeDepth := 60) +contextual only [State.countSeg, stored_wr, stored_foldl, stored_foldl2, stored_mk, stored_ite,
      stored_ite2, cl_mk, cl_ite, cl_reset, hW]

theorem stored_writeSegment (x0 : State) (x1 x2 x3) (hW : x0.memWf = true) :
    (State.writeSegment x0 x1 x2 x3).memWf = true := by
  unfold State.writeSegment
  (try dsimp only)
  (with_reducible repeat' (first
      | assumption | intro _ | apply hf | apply stored_countSeg | apply stored_loadTile | apply stored_unlessHeld
      | apply stored_foldl | apply stored_foldl2 | simp only [stored_mk] | simp only [cl_mk] | apply cl_dmaFill
      | apply cl_resetCluster | apply cl_ctl | apply cl_reset | split | dsimp only | rfl))

theorem stored_segmentRetry (x0 : State) (x1 x2) (hW : x0.memWf = true) :
    (State.segmentRetry x0 x1 x2).memWf = true := by
  simp (maxDischargeDepth := 60) +contextual only [State.segmentRetry, stored_loadFail, stored_modJob, stored_foldl, stored_foldl2,
      stored_mk, stored_ite, stored_ite2, cl_mk, cl_ite, cl_reset, hW]

theorem stored_sealedSegment (x0 : State) (x1 x2 x3) (hW : x0.memWf = true) :
    (State.sealedSegment x0 x1 x2 x3).memWf = true := by
  unfold State.sealedSegment
  (try dsimp only)
  (repeat' split) <;> simp_all (maxDischargeDepth := 60) [stored_loadAdvance, stored_modJob, stored_segmentRetry,
      stored_writeSegment, stored_foldl, stored_foldl2, stored_mk, stored_ite, stored_ite2, cl_mk, cl_ite, cl_reset]

theorem stored_layoutTile (x0 : State) (x1 x2 x3 x4) (hW : x0.memWf = true) :
    (State.layoutTile x0 x1 x2 x3 x4).memWf = true := by
  simp (maxDischargeDepth := 60) +contextual only [State.layoutTile, stored_countSeg, stored_loadAdvance, stored_loadFail,
      stored_modJob, stored_putTile, stored_tagTile, stored_foldl, stored_foldl2, stored_mk, stored_ite, stored_ite2, cl_mk, cl_ite,
      cl_reset, hW]

theorem stored_layoutRecord (x0 : State) (x1 x2 x3) (hW : x0.memWf = true) :
    (State.layoutRecord x0 x1 x2 x3).memWf = true := by
  unfold State.layoutRecord
  (try dsimp only)
  (with_reducible repeat' (first
      | assumption | intro _ | apply hf | apply stored_layoutTile | apply stored_loadFail | apply stored_unlessHeld
      | apply stored_foldl | apply stored_foldl2 | simp only [stored_mk] | simp only [cl_mk] | apply cl_dmaFill
      | apply cl_resetCluster | apply cl_ctl | apply cl_reset | split | dsimp only | rfl))

theorem stored_loadSegment (x0 : State) (x1 x2) (hW : x0.memWf = true) :
    (State.loadSegment x0 x1 x2).memWf = true := by
  unfold State.loadSegment
  (try dsimp only)
  (repeat' split) <;> simp_all (maxDischargeDepth := 60) [stored_layoutRecord, stored_loadFail, stored_sealedSegment, stored_setFld,
      stored_foldl, stored_foldl2, stored_mk, stored_ite, stored_ite2, cl_mk, cl_ite, cl_reset]

theorem stored_cmProbe (x0 : State) (x1 x2) (hW : x0.memWf = true) :
    (State.cmProbe x0 x1 x2).2.memWf = true := by
  induction x2 generalizing x0 with
  | nil => first | exact hW | (unfold State.cmProbe; exact hW) | (unfold State.cmProbe; split <;> exact hW)
  | cons y ys ih =>
    unfold State.cmProbe
    grind [stored_cmRead, stored_mk]

theorem stored_srcRead (x0 : State) (hW : x0.memWf = true) :
    (State.srcRead x0).memWf = true := by
  unfold State.srcRead
  (try dsimp only)
  (repeat' split) <;> simp_all (maxDischargeDepth := 60) [stored_cmProbe, stored_foldl, stored_foldl2, stored_mk, stored_ite,
      stored_ite2, cl_mk, cl_ite, cl_reset]

theorem stored_loadWeights (x0 : State) (x1 x2 x3) (hW : x0.memWf = true) :
    (State.loadWeights x0 x1 x2 x3).memWf = true := by
  simp (maxDischargeDepth := 60) +contextual only [State.loadWeights, stored_loadAdvance, stored_setFld, stored_srcRead, stored_wr,
      stored_foldl, stored_foldl2, stored_mk, stored_ite, stored_ite2, cl_mk, cl_ite, cl_reset, hW]

theorem stored_loadPlaced (s : State) (img p headers) (hW : s.memWf = true) :
    (State.loadPlaced s img p headers).memWf = true := by
  unfold State.loadPlaced
  (try dsimp only)
  (repeat' split) <;> simp_all (maxDischargeDepth := 60) [stored_loadWeights, stored_refuseLoad, stored_setImg,
      stored_writePlacement, stored_foldl, stored_foldl2, stored_mk, stored_ite, stored_ite2, cl_mk, cl_ite, cl_reset]

theorem stored_loadImage (s : State) (img want headers) (hW : s.memWf = true) :
    (State.loadImage s img want headers).memWf = true := by
  unfold State.loadImage
  (try dsimp only)
  (repeat' split) <;> simp_all (maxDischargeDepth := 60) [stored_loadPlaced, stored_refuseLoad, stored_setImgState, stored_wr,
      stored_foldl, stored_foldl2, stored_mk, stored_ite, stored_ite2, cl_mk, cl_ite, cl_reset]

theorem stored_swapBegin (x0 : State) (x1 x2) (hW : x0.memWf = true) :
    (State.swapBegin x0 x1 x2).memWf = true := by
  unfold State.swapBegin
  (try dsimp only)
  (repeat' split) <;> simp_all (maxDischargeDepth := 60) [stored_sendHello, stored_setFld, stored_wr, stored_foldl, stored_foldl2,
      stored_mk, stored_ite, stored_ite2, cl_mk, cl_ite, cl_reset]

theorem stored_swapJobs (x0 : State) (x1 x2) (hW : x0.memWf = true) :
    (State.swapJobs x0 x1 x2).memWf = true := by
  unfold State.swapJobs
  (try dsimp only)
  (repeat' split) <;> simp_all (maxDischargeDepth := 60) [stored_loadFail, stored_swapBegin, stored_foldl, stored_foldl2, stored_mk,
      stored_ite, stored_ite2, cl_mk, cl_ite, cl_reset]

theorem stored_swapCheck (x0 : State) (x1 x2) (hW : x0.memWf = true) :
    (State.swapCheck x0 x1 x2).memWf = true := by
  unfold State.swapCheck
  (try dsimp only)
  (repeat' split) <;> simp_all (maxDischargeDepth := 60) [stored_loadFail, stored_srcRead, stored_swapJobs, stored_foldl,
      stored_foldl2, stored_mk, stored_ite, stored_ite2, cl_mk, cl_ite, cl_reset]

theorem stored_clearProgress (x0 : State) (hW : x0.memWf = true) :
    (State.clearProgress x0).memWf = true := by
  unfold State.clearProgress
  (try dsimp only)
  (repeat' split) <;> simp_all (maxDischargeDepth := 60) [stored_wr, stored_foldl, stored_foldl2, stored_mk, stored_ite, stored_ite2,
      cl_mk, cl_ite, cl_reset]

theorem stored_swapStart (x0 : State) (x1 x2 x3) (hW : x0.memWf = true) :
    (State.swapStart x0 x1 x2 x3).memWf = true := by
  simp (maxDischargeDepth := 60) +contextual only [State.swapStart, stored_clearProgress, stored_setFld, stored_swapCheck, stored_wr,
      stored_foldl, stored_foldl2, stored_mk, stored_ite, stored_ite2, cl_mk, cl_ite, cl_reset, hW]

theorem stored_stopStart (x0 : State) (x1) (hW : x0.memWf = true) :
    (State.stopStart x0 x1).memWf = true := by
  simp (maxDischargeDepth := 60) +contextual only [State.stopStart, stored_clearProgress, stored_holdFinish, stored_setFld,
      stored_wr, stored_foldl, stored_foldl2, stored_mk, stored_ite, stored_ite2, cl_mk, cl_ite, cl_reset, hW]

theorem stored_swpHoldWrite (x0 : State) (x1 x2) (hW : x0.memWf = true) :
    (State.swpHoldWrite x0 x1 x2).memWf = true := by
  simp (maxDischargeDepth := 60) +contextual only [State.swpHoldWrite, stored_holdFinish, stored_setFld, stored_foldl, stored_foldl2,
      stored_mk, stored_ite, stored_ite2, cl_mk, cl_ite, cl_reset, hW]

theorem stored_logPower (x0 : State) (x1 x2 x3 x4 x5) (hW : x0.memWf = true) :
    (State.logPower x0 x1 x2 x3 x4 x5).memWf = true := by
  simp (maxDischargeDepth := 60) +contextual only [State.logPower, stored_log, stored_foldl, stored_foldl2, stored_mk, stored_ite,
      stored_ite2, cl_mk, cl_ite, cl_reset, hW]

theorem stored_queuesOff (x0 : State) (x1) (hW : x0.memWf = true) :
    (State.queuesOff x0 x1).memWf = true := by
  simp (maxDischargeDepth := 60) +contextual only [State.queuesOff, stored_foldl, stored_foldl2, stored_mk, stored_ite, stored_ite2,
      cl_mk, cl_ite, cl_reset, hW]

theorem stored_regionOff (x0 : State) (x1 x2) (hW : x0.memWf = true) :
    (State.regionOff x0 x1 x2).memWf = true := by
  unfold State.regionOff
  refine stored_wr _ _ _ (stored_wr _ _ _ (stored_wr _ _ _ ?_))
  have h := stored_queuesOff _ x1 (stored_setRegion _ x1 { Region.reset with ro := (x0.region x1).ro, retried := (x0.region x1).retried, retryAt := (x0.region x1).retryAt } (stored_dramLost _ x1 hW))
  revert h
  generalize State.queuesOff _ x1 = y
  intro h
  have h := (memWf_iff _).mp h
  exact (memWf_iff _).mpr ⟨h.1, h.2.1, Store.all_filter Cluster.memWf _ _ h.2.2⟩

theorem stored_regionOn (x0 : State) (x1) (hW : x0.memWf = true) :
    (State.regionOn x0 x1).memWf = true := by
  simp (maxDischargeDepth := 60) +contextual only [State.regionOn, stored_setFld, stored_foldl, stored_foldl2, stored_mk, stored_ite,
      stored_ite2, cl_mk, cl_ite, cl_reset, hW]

theorem stored_yieldFence (x0 : State) (x1 x2) (hW : x0.memWf = true) :
    (State.yieldFence x0 x1 x2).memWf = true := by
  simp (maxDischargeDepth := 60) +contextual only [State.yieldFence, stored_setFld, stored_wr, stored_foldl, stored_foldl2,
      stored_mk, stored_ite, stored_ite2, cl_mk, cl_ite, cl_reset, hW]

theorem stored_shortRecord (x0 : State) (x1 x2 x3 x4) (hW : x0.memWf = true) :
    (State.shortRecord x0 x1 x2 x3 x4).memWf = true := by
  simp (maxDischargeDepth := 60) +contextual only [State.shortRecord, stored_record, stored_foldl, stored_foldl2, stored_mk,
      stored_ite, stored_ite2, cl_mk, cl_ite, cl_reset, hW]

theorem stored_latch (x0 : State) (x1 x2 x3) (hW : x0.memWf = true) :
    (State.latch x0 x1 x2 x3).memWf = true := by
  simp (maxDischargeDepth := 60) +contextual only [State.latch, stored_logPower, stored_modRegion, stored_regionOff,
      stored_shortRecord, stored_yieldFence, stored_foldl, stored_foldl2, stored_mk, stored_ite, stored_ite2, cl_mk, cl_ite,
      cl_reset, hW]

theorem stored_short (x0 : State) (x1 x2 x3) (hW : x0.memWf = true) :
    (State.short x0 x1 x2 x3).memWf = true := by
  simp (maxDischargeDepth := 60) +contextual only [State.short, stored_latch, stored_foldl, stored_foldl2, stored_mk, stored_ite,
      stored_ite2, cl_mk, cl_ite, cl_reset, hW]

theorem stored_fenceDown (x0 : State) (x1) (hW : x0.memWf = true) :
    (State.fenceDown x0 x1).memWf = true := by
  unfold State.fenceDown
  exact with_power _ _ (stored_setFld _ (Rg.RPWR_STAT_STATE x1) 6 (stored_setFld _ (Rg.RPWR_STAT_ICORE x1) _
    (stored_setFld _ (Rg.RPWR_STAT_VCORE x1) _ (stored_fresh _ 22 (stored_halt _ x1 hW)))))

theorem stored_driverFence (x0 : State) (x1 x2) (hW : x0.memWf = true) :
    (State.driverFence x0 x1 x2).memWf = true := by
  simp (maxDischargeDepth := 60) +contextual only [State.driverFence, stored_fenceDown, stored_halt, stored_loadFail,
      stored_regionOff, stored_yieldFence, stored_foldl, stored_foldl2, stored_mk, stored_ite, stored_ite2, cl_mk, cl_ite, cl_reset, hW]

theorem stored_vcoreFollow (x0 : State) (x1) (hW : x0.memWf = true) :
    (State.vcoreFollow x0 x1).memWf = true := by
  simp (maxDischargeDepth := 60) +contextual only [State.vcoreFollow, stored_fresh, stored_setFld, stored_foldl, stored_foldl2,
      stored_mk, stored_ite, stored_ite2, cl_mk, cl_ite, cl_reset, hW]

theorem stored_setVset (x0 : State) (x1 x2) (hW : x0.memWf = true) :
    (State.setVset x0 x1 x2).memWf = true := by
  simp (maxDischargeDepth := 60) +contextual only [State.setVset, stored_setFld, stored_vcoreFollow, stored_foldl, stored_foldl2,
      stored_mk, stored_ite, stored_ite2, cl_mk, cl_ite, cl_reset, hW]

theorem stored_vsetWrite (x0 : State) (x1 x2) (hW : x0.memWf = true) :
    (State.vsetWrite x0 x1 x2).memWf = true := by
  simp (maxDischargeDepth := 60) +contextual only [State.vsetWrite, stored_setFld, stored_setVset, stored_foldl, stored_foldl2,
      stored_mk, stored_ite, stored_ite2, cl_mk, cl_ite, cl_reset, hW]

theorem stored_tcapHeld (x0 : State) (x1) (hW : x0.memWf = true) :
    (State.tcapHeld x0 x1).memWf = true := by
  simp (maxDischargeDepth := 60) +contextual only [State.tcapHeld, stored_setFld, stored_foldl, stored_foldl2, stored_mk, stored_ite,
      stored_ite2, cl_mk, cl_ite, cl_reset, hW]

theorem stored_avs (x0 : State) (x1 x2 x3) (hW : x0.memWf = true) :
    (State.avs x0 x1 x2 x3).memWf = true := by
  unfold State.avs
  (with_reducible repeat' (first | assumption | apply stored_setFld | apply stored_wr | apply stored_setVset | apply stored_setRegion | apply stored_tcapHeld | apply stored_ite | dsimp only))

theorem stored_senseBad (x0 : State) (x1 x2 x3) (hW : x0.memWf = true) :
    (State.senseBad x0 x1 x2 x3).memWf = true := by
  simp (maxDischargeDepth := 60) +contextual only [State.senseBad, stored_logPower, stored_setFld, stored_tcapHeld,
      stored_vcoreFollow, stored_foldl, stored_foldl2, stored_mk, stored_ite, stored_ite2, cl_mk, cl_ite, cl_reset, hW]

theorem stored_droop (x0 : State) (x1 x2) (hW : x0.memWf = true) :
    (State.droop x0 x1 x2).memWf = true := by
  simp (maxDischargeDepth := 60) +contextual only [State.droop, stored_count, stored_modRegion, stored_foldl, stored_foldl2,
      stored_mk, stored_ite, stored_ite2, cl_mk, cl_ite, cl_reset, hW]

theorem stored_effMove (x0 : State) (x1 x2) (hW : x0.memWf = true) :
    (State.effMove x0 x1 x2).memWf = true := by
  simp (maxDischargeDepth := 60) +contextual only [State.effMove, stored_modRegion, stored_setFld, stored_setVset, stored_foldl,
      stored_foldl2, stored_mk, stored_ite, stored_ite2, cl_mk, cl_ite, cl_reset, hW]

theorem stored_ilim (x0 : State) (x1 x2) (hW : x0.memWf = true) :
    (State.ilim x0 x1 x2).memWf = true := by
  simp (maxDischargeDepth := 60) +contextual only [State.ilim, stored_modRegion, stored_setFld, stored_foldl, stored_foldl2,
      stored_mk, stored_ite, stored_ite2, cl_mk, cl_ite, cl_reset, hW]

theorem stored_setPlim (x0 : State) (x1 x2) (hW : x0.memWf = true) :
    (State.setPlim x0 x1 x2).memWf = true := by
  simp (maxDischargeDepth := 60) +contextual only [State.setPlim, stored_setFld, stored_foldl, stored_foldl2, stored_mk, stored_ite,
      stored_ite2, cl_mk, cl_ite, cl_reset, hW]

theorem stored_capRead (x0 : State) (x1 x2 x3 x4) (hW : x0.memWf = true) :
    (State.capRead x0 x1 x2 x3 x4).memWf = true := by
  unfold State.capRead
  (try dsimp only)
  (repeat' split) <;> simp_all (maxDischargeDepth := 60) [stored_setFld, stored_wr, stored_foldl, stored_foldl2, stored_mk,
      stored_ite, stored_ite2, cl_mk, cl_ite, cl_reset]

theorem stored_capPut (s : State) (above calm) (hW : s.memWf = true) :
    (State.capPut s above calm).memWf = true := by
  simp (maxDischargeDepth := 60) +contextual only [State.capPut, stored_foldl, stored_foldl2, stored_mk, stored_ite, stored_ite2,
      cl_mk, cl_ite, cl_reset, hW]

theorem stored_capLower (x0 : State) (hW : x0.memWf = true) :
    (State.capLower x0).memWf = true := by
  unfold State.capLower
  (try dsimp only)
  (repeat' split) <;> simp_all (maxDischargeDepth := 60) [stored_capPut, stored_setPlim, stored_foldl, stored_foldl2, stored_mk,
      stored_ite, stored_ite2, cl_mk, cl_ite, cl_reset]

theorem stored_capRaise (x0 : State) (hW : x0.memWf = true) :
    (State.capRaise x0).memWf = true := by
  unfold State.capRaise
  (try dsimp only)
  (repeat' split) <;> simp_all (maxDischargeDepth := 60) [stored_capPut, stored_setPlim, stored_foldl, stored_foldl2, stored_mk,
      stored_ite, stored_ite2, cl_mk, cl_ite, cl_reset]

theorem stored_capStep (s : State) (p) (hW : s.memWf = true) :
    (State.capStep s p).memWf = true := by
  unfold State.capStep State.capLower State.capRaise State.setPlim
  (with_reducible repeat' (first | assumption | apply stored_capPut | apply stored_setFld | split))

theorem stored_powerCap (x0 : State) (x1 x2 x3 x4) (hW : x0.memWf = true) :
    (State.powerCap x0 x1 x2 x3 x4).memWf = true := by
  simp (maxDischargeDepth := 60) +contextual only [State.powerCap, stored_capRead, stored_capStep, stored_foldl, stored_foldl2,
      stored_mk, stored_ite, stored_ite2, cl_mk, cl_ite, cl_reset, hW]

theorem stored_brakeOn (x0 : State) (x1 x2 x3) (hW : x0.memWf = true) :
    (State.brakeOn x0 x1 x2 x3).memWf = true := by
  simp (maxDischargeDepth := 60) +contextual only [State.brakeOn, stored_count, stored_logEdge, stored_setFld, stored_foldl,
      stored_foldl2, stored_mk, stored_ite, stored_ite2, cl_mk, cl_ite, cl_reset, hW]

theorem stored_brakeOff (x0 : State) (x1) (hW : x0.memWf = true) :
    (State.brakeOff x0 x1).memWf = true := by
  simp (maxDischargeDepth := 60) +contextual only [State.brakeOff, stored_foldl, stored_foldl2, stored_mk, stored_ite, stored_ite2,
      cl_mk, cl_ite, cl_reset, hW]

theorem stored_pgoodLow (x0 : State) (hW : x0.memWf = true) :
    (State.pgoodLow x0).memWf = true := by
  simp (maxDischargeDepth := 60) +contextual only [State.pgoodLow, stored_emit, stored_foldl, stored_foldl2, stored_mk, stored_ite,
      stored_ite2, cl_mk, cl_ite, cl_reset, hW]

theorem stored_haltAll (x0 : State) (hW : x0.memWf = true) :
    (State.haltAll x0).memWf = true := by
  unfold State.haltAll
  (try dsimp only)
  (repeat' split) <;> simp_all (maxDischargeDepth := 60) [stored_halt, stored_foldl, stored_foldl2, stored_mk, stored_ite,
      stored_ite2, cl_mk, cl_ite, cl_reset]

theorem stored_powerDown (x0 : State) (hW : x0.memWf = true) :
    (State.powerDown x0).memWf = true := by
  simp (maxDischargeDepth := 60) +contextual only [State.powerDown, stored_haltAll, stored_pgoodLow, stored_foldl, stored_foldl2,
      stored_mk, stored_ite, stored_ite2, cl_mk, cl_ite, cl_reset, hW]

theorem stored_vinRead (x0 : State) (x1) (hW : x0.memWf = true) :
    (State.vinRead x0 x1).memWf = true := by
  unfold State.vinRead
  (try dsimp only)
  (repeat' split) <;> simp_all (maxDischargeDepth := 60) [stored_setFld, stored_foldl, stored_foldl2, stored_mk, stored_ite,
      stored_ite2, cl_mk, cl_ite, cl_reset]

theorem stored_retain (x0 : State) (x1) (hW : x0.memWf = true) :
    (State.retain x0 x1).memWf = true := by
  unfold State.retain
  (try dsimp only)
  (repeat' split) <;> simp_all (maxDischargeDepth := 60) [stored_setFld, stored_wr, stored_foldl, stored_foldl2, stored_mk,
      stored_ite, stored_ite2, cl_mk, cl_ite, cl_reset]

theorem stored_refSelect (x0 : State) (hW : x0.memWf = true) :
    (State.refSelect x0).memWf = true := by
  simp (maxDischargeDepth := 60) +contextual only [State.refSelect, stored_setFld, stored_foldl, stored_foldl2, stored_mk,
      stored_ite, stored_ite2, cl_mk, cl_ite, cl_reset, hW]

theorem stored_refDrop (x0 : State) (x1) (hW : x0.memWf = true) :
    (State.refDrop x0 x1).memWf = true := by
  simp (maxDischargeDepth := 60) +contextual only [State.refDrop, stored_refSelect, stored_setFld, stored_foldl, stored_foldl2,
      stored_mk, stored_ite, stored_ite2, cl_mk, cl_ite, cl_reset, hW]

theorem stored_refGain (x0 : State) (x1) (hW : x0.memWf = true) :
    (State.refGain x0 x1).memWf = true := by
  simp (maxDischargeDepth := 60) +contextual only [State.refGain, stored_refSelect, stored_setFld, stored_foldl, stored_foldl2,
      stored_mk, stored_ite, stored_ite2, cl_mk, cl_ite, cl_reset, hW]

theorem stored_refCtl (x0 : State) (x1) (hW : x0.memWf = true) :
    (State.refCtl x0 x1).memWf = true := by
  simp (maxDischargeDepth := 60) +contextual only [State.refCtl, stored_refSelect, stored_wr, stored_foldl, stored_foldl2, stored_mk,
      stored_ite, stored_ite2, cl_mk, cl_ite, cl_reset, hW]

theorem stored_inputUse (x0 : State) (x1 x2) (hW : x0.memWf = true) :
    (State.inputUse x0 x1 x2).memWf = true := by
  simp (maxDischargeDepth := 60) +contextual only [State.inputUse, stored_setFld, stored_foldl, stored_foldl2, stored_mk, stored_ite,
      stored_ite2, cl_mk, cl_ite, cl_reset, hW]

theorem stored_cleanHold (x0 : State) (x1) (hW : x0.memWf = true) :
    (State.cleanHold x0 x1).memWf = true := by
  simp (maxDischargeDepth := 60) +contextual only [State.cleanHold, stored_modRegion, stored_raise, stored_setFld, stored_foldl,
      stored_foldl2, stored_mk, stored_ite, stored_ite2, cl_mk, cl_ite, cl_reset, hW]

theorem stored_inputLeave (x0 : State) (x1) (hW : x0.memWf = true) :
    (State.inputLeave x0 x1).memWf = true := by
  unfold State.inputLeave
  (try dsimp only)
  (repeat' split) <;> simp_all (maxDischargeDepth := 60) [stored_cleanHold, stored_count, stored_inputUse, stored_foldl,
      stored_foldl2, stored_mk, stored_ite, stored_ite2, cl_mk, cl_ite, cl_reset]

theorem stored_inputGone (x0 : State) (x1 x2) (hW : x0.memWf = true) :
    (State.inputGone x0 x1 x2).memWf = true := by
  simp (maxDischargeDepth := 60) +contextual only [State.inputGone, stored_inputLeave, stored_modRegion, stored_setFld, stored_foldl,
      stored_foldl2, stored_mk, stored_ite, stored_ite2, cl_mk, cl_ite, cl_reset, hW]

theorem stored_depthHeard (x0 : State) (x1 x2 x3) (hW : x0.memWf = true) :
    (State.depthHeard x0 x1 x2 x3).2.memWf = true := by
  simp (maxDischargeDepth := 60) +contextual only [State.depthHeard, stored_inputGone, stored_inputUse, stored_modRegion,
      stored_setFld, stored_foldl, stored_foldl2, stored_mk, stored_ite, stored_ite2, cl_mk, cl_ite, cl_reset, hW]

theorem stored_depthSent (s : State) (r) (hW : s.memWf = true) :
    (State.depthSent s r).2.memWf = true := by
  unfold State.depthSent
  (try dsimp only)
  (with_reducible repeat' (first
      | assumption | intro _ | apply hf | apply stored_depthHeard
      | (have e := congrArg Prod.snd ‹State.depthHeard _ _ _ _ = _›; dsimp only at e; subst e) | apply stored_unlessHeld
      | apply stored_foldl | apply stored_foldl2 | simp only [stored_mk] | simp only [cl_mk] | apply cl_dmaFill
      | apply cl_resetCluster | apply cl_ctl | apply cl_reset | split | dsimp only | rfl))

theorem stored_depthSpread (x0 : State) (x1 x2) (hW : x0.memWf = true) :
    (State.depthSpread x0 x1 x2).memWf = true := by
  induction x1 generalizing x0 x2 with
  | zero => first | exact hW | (unfold State.depthSpread; exact hW) | (unfold State.depthSpread; split <;> exact hW)
  | succ n ih =>
    unfold State.depthSpread
    (try dsimp only)
    (repeat' split) <;> simp_all (maxDischargeDepth := 60) [stored_depthSent, stored_foldl, stored_foldl2, stored_mk, stored_ite,
        stored_ite2, cl_mk, cl_ite, cl_reset]

theorem stored_depthChanged (x0 : State) (x1) (hW : x0.memWf = true) :
    (State.depthChanged x0 x1).memWf = true := by
  simp (maxDischargeDepth := 60) +contextual only [State.depthChanged, stored_depthSpread, stored_foldl, stored_foldl2, stored_mk,
      stored_ite, stored_ite2, cl_mk, cl_ite, cl_reset, hW]

theorem stored_inputDrop (x0 : State) (x1 x2) (hW : x0.memWf = true) :
    (State.inputDrop x0 x1 x2).memWf = true := by
  simp (maxDischargeDepth := 60) +contextual only [State.inputDrop, stored_depthChanged, stored_inputGone, stored_modRegion,
      stored_setFld, stored_foldl, stored_foldl2, stored_mk, stored_ite, stored_ite2, cl_mk, cl_ite, cl_reset, hW]

theorem stored_inputGain (x0 : State) (x1 x2 x3) (hW : x0.memWf = true) :
    (State.inputGain x0 x1 x2 x3).memWf = true := by
  simp (maxDischargeDepth := 60) +contextual only [State.inputGain, stored_depthChanged, stored_inputUse, stored_modRegion,
      stored_setFld, stored_foldl, stored_foldl2, stored_mk, stored_ite, stored_ite2, cl_mk, cl_ite, cl_reset, hW]

theorem stored_relock (x0 : State) (x1 x2) (hW : x0.memWf = true) :
    (State.relock x0 x1 x2).memWf = true := by
  simp (maxDischargeDepth := 60) +contextual only [State.relock, stored_depthChanged, stored_inputUse, stored_setFld, stored_foldl,
      stored_foldl2, stored_mk, stored_ite, stored_ite2, cl_mk, cl_ite, cl_reset, hW]

theorem stored_clksrcWrite (x0 : State) (x1 x2) (hW : x0.memWf = true) :
    (State.clksrcWrite x0 x1 x2).memWf = true := by
  simp (maxDischargeDepth := 60) +contextual only [State.clksrcWrite, stored_depthChanged, stored_inputGone, stored_setFld,
      stored_foldl, stored_foldl2, stored_mk, stored_ite, stored_ite2, cl_mk, cl_ite, cl_reset, hW]

theorem stored_ceilWrite (x0 : State) (x1 x2) (hW : x0.memWf = true) :
    (State.ceilWrite x0 x1 x2).memWf = true := by
  simp (maxDischargeDepth := 60) +contextual only [State.ceilWrite, stored_logRegion, stored_setFld, stored_foldl, stored_foldl2,
      stored_mk, stored_ite, stored_ite2, cl_mk, cl_ite, cl_reset, hW]

theorem stored_netRead (x0 : State) (x1 x2 x3 x4 x5) (hW : x0.memWf = true) :
    (State.netRead x0 x1 x2 x3 x4 x5).2.2.memWf = true := by
  unfold State.netRead
  (try dsimp only)
  (repeat' split) <;> simp_all (maxDischargeDepth := 60) [stored_pageRead, stored_foldl, stored_foldl2, stored_mk, stored_ite,
      stored_ite2, cl_mk, cl_ite, cl_reset]

theorem stored_pageHeader (x0 : State) (x1 x2 x3) (hW : x0.memWf = true) :
    (State.pageHeader x0 x1 x2 x3).2.2.memWf = true := by
  simp (maxDischargeDepth := 60) +contextual only [State.pageHeader, stored_netRead, stored_foldl, stored_foldl2, stored_mk,
      stored_ite, stored_ite2, cl_mk, cl_ite, cl_reset, hW]

theorem stored_walkRoot (x0 : State) (x1 x2) (hW : x0.memWf = true) :
    (State.walkRoot x0 x1 x2).2.2.memWf = true := by
  unfold State.walkRoot
  grind [stored_netRead, stored_mk]

theorem stored_listPages (x0 : State) (x1 x2 x3) (hW : x0.memWf = true) :
    (State.listPages x0 x1 x2 x3).2.2.memWf = true := by
  induction x3 generalizing x0 x2 with
  | nil => first | exact hW | (unfold State.listPages; exact hW) | (unfold State.listPages; split <;> exact hW)
  | cons y ys ih =>
    unfold State.listPages
    grind [stored_pageHeader, stored_mk]

theorem stored_walkEntry (x0 : State) (x1 x2 x3 x4 x5) (hW : x0.memWf = true) :
    (State.walkEntry x0 x1 x2 x3 x4 x5).2.2.memWf = true := by
  unfold State.walkEntry
  grind [stored_listPages, stored_netRead, stored_pageHeader, stored_mk]

theorem stored_netWrite (x0 : State) (x1 x2 x3 x4 x5) (hW : x0.memWf = true) :
    (State.netWrite x0 x1 x2 x3 x4 x5).2.2.memWf = true := by
  unfold State.netWrite
  (try dsimp only)
  (repeat' split) <;> simp_all (maxDischargeDepth := 60) [stored_pageWrite, stored_foldl, stored_foldl2, stored_mk, stored_ite,
      stored_ite2, cl_mk, cl_ite, cl_reset]

theorem stored_walkPieces (x0 : State) (x1 x2 x3 x4 x5 x6 x7 x8) (hW : x0.memWf = true) :
    (State.walkPieces x0 x1 x2 x3 x4 x5 x6 x7 x8).2.2.memWf = true := by
  induction x5 generalizing x0 x4 x6 x7 x8 with
  | nil => first | exact hW | (unfold State.walkPieces; exact hW) | (unfold State.walkPieces; split <;> exact hW)
  | cons y ys ih =>
    unfold State.walkPieces
    grind [stored_netRead, stored_netWrite, stored_walkEntry, stored_mk]

theorem stored_dmaRun (x0 : State) (x1 x2) (hW : x0.memWf = true) :
    (State.dmaRun x0 x1 x2).2.memWf = true := by
  unfold State.dmaRun
  grind [stored_walkPieces, stored_walkRoot, stored_mk]

theorem stored_dmaDeliver (x0 : State) (x1 x2 x3) (hW : x0.memWf = true) :
    (State.dmaDeliver x0 x1 x2 x3).memWf = true := by
  unfold State.dmaDeliver
  (try dsimp only)
  (with_reducible repeat' (first
      | assumption | intro _ | apply hf | apply stored_modCluster | apply stored_unlessHeld | apply stored_foldl
      | apply stored_foldl2 | simp only [stored_mk] | simp only [cl_mk] | apply cl_dmaFill | apply cl_resetCluster | apply cl_ctl
      | apply cl_reset | split | dsimp only | rfl))

theorem stored_dmaNext (x0 : State) (x1 x2 x3 x4) (hW : x0.memWf = true) :
    (State.dmaNext x0 x1 x2 x3 x4).memWf = true := by
  unfold State.dmaNext
  (try dsimp only)
  (repeat' split) <;> simp_all (maxDischargeDepth := 60) [stored_dmaDeliver, stored_dmaRun, stored_modCluster, stored_foldl,
      stored_foldl2, stored_mk, stored_ite, stored_ite2, cl_mk, cl_ite, cl_reset]

theorem stored_cmGather (x0 : State) (x1 x2 x3) (hW : x0.memWf = true) :
    (State.cmGather x0 x1 x2 x3).2.memWf = true := by
  induction x3 generalizing x0 x1 x2 with
  | zero => first | exact hW | (unfold State.cmGather; exact hW) | (unfold State.cmGather; split <;> exact hW)
  | succ n ih =>
    unfold State.cmGather
    grind [stored_cmRead, stored_mk]

theorem stored_cmTake (x0 : State) (x1 x2 x3) (hW : x0.memWf = true) :
    (State.cmTake x0 x1 x2 x3).2.memWf = true := by
  simp (maxDischargeDepth := 60) +contextual only [State.cmTake, stored_cmGather, stored_foldl, stored_foldl2, stored_mk, stored_ite,
      stored_ite2, cl_mk, cl_ite, cl_reset, hW]

theorem stored_cmSetWords (x0 : State) (x1 x2) (hW : x0.memWf = true) :
    (State.cmSetWords x0 x1 x2).memWf = true := by
  induction x2 generalizing x0 x1 with
  | nil => first | exact hW | (unfold State.cmSetWords; exact hW) | (unfold State.cmSetWords; split <;> exact hW)
  | cons y ys ih =>
    unfold State.cmSetWords
    (try dsimp only)
    (repeat' split) <;> simp_all (maxDischargeDepth := 60) [stored_cmWrite, stored_foldl, stored_foldl2, stored_mk, stored_ite,
        stored_ite2, cl_mk, cl_ite, cl_reset]

theorem stored_ctlDma (s : State) (addr peer len inward zero host) (hW : s.memWf = true) :
    (State.ctlDma s addr peer len inward zero host).2.memWf = true := by
  unfold State.ctlDma
  generalize (addr - 0x100000000000) / 0x2000000000 = n
  generalize (addr - 0x100000000000) % 0x2000000000 = a
  generalize decide (cmemBase ≤ peer ∧ peer < cmemBase + 0x10000000) = cm
  generalize decide (0x100000000000 ≤ addr ∧ addr < 0x130000000000 ∧ a + len ≤ s.stackSize n) = okStack
  generalize decide (peer + len ≤ cmemBase + 0x10000000) = okp
  dsimp only
  split
  · exact hW
  · split
    · generalize hx : (if zero = true then _ else _ : Option (List Byte) × State) = x
      have hk : x.2.memWf = true := by
        rw [← hx]
        split
        · exact hW
        · split
          · exact stored_cmTake _ _ _ _ hW
          · exact hW
      split
      · exact hk
      · rename_i bs s1
        have h2 := stored_dramWrite s1 n a bs hk
        split
        · rename_i e1
          rw [e1] at h2
          exact h2
        · rename_i e1
          rw [e1] at h2
          exact h2
    · have h2 := stored_dramRead s n a len hW
      split
      · rename_i e1
        rw [e1] at h2
        exact h2
      · rename_i e1
        rw [e1] at h2
        exact h2
      · rename_i bs s1 e1
        rw [e1] at h2
        split
        · exact stored_cmSetBytes _ _ _ h2
        · exact stored_emit _ _ h2

theorem stored_report (x0 : State) (x1 x2 x3 x4 x5) (hW : x0.memWf = true) :
    (State.report x0 x1 x2 x3 x4 x5).memWf = true := by
  simp (maxDischargeDepth := 60) +contextual only [State.report, stored_cmSetWords, stored_setBu, stored_foldl, stored_foldl2,
      stored_mk, stored_ite, stored_ite2, cl_mk, cl_ite, cl_reset, hW]

theorem stored_enterStage (x0 : State) (x1) (hW : x0.memWf = true) :
    (State.enterStage x0 x1).memWf = true := by
  simp (maxDischargeDepth := 60) +contextual only [State.enterStage, stored_setBu, stored_foldl, stored_foldl2, stored_mk,
      stored_ite, stored_ite2, cl_mk, cl_ite, cl_reset, hW]

theorem stored_startPorts (x0 : State) (hW : x0.memWf = true) :
    (State.startPorts x0).memWf = true := by
  unfold State.startPorts
  (try dsimp only)
  (repeat' split) <;> simp_all (maxDischargeDepth := 60) [stored_train, stored_foldl, stored_foldl2, stored_mk, stored_ite,
      stored_ite2, cl_mk, cl_ite, cl_reset]

theorem stored_poweredUp (x0 : State) (x1 x2 x3 x4 x5) (hW : x0.memWf = true) :
    (State.poweredUp x0 x1 x2 x3 x4 x5).memWf = true := by
  unfold State.poweredUp
  refine stored_enterStage _ _ (stored_report _ _ _ _ _ _ (stored_startPorts _ (stored_setFld _ _ _ (stored_emit _ _ ?_))))
  have h := (memWf_iff _).mp hW
  exact (memWf_iff _).mpr ⟨rfl, h.2⟩

theorem stored_powerBegin (x0 : State) (hW : x0.memWf = true) :
    (State.powerBegin x0).memWf = true := by
  simp (maxDischargeDepth := 60) +contextual only [State.powerBegin, stored_foldl, stored_foldl2, stored_mk, stored_ite, stored_ite2,
      cl_mk, cl_ite, cl_reset, hW]

theorem stored_powerUp (x0 : State) (x1 x2 x3 x4 x5 x6) (hW : x0.memWf = true) :
    (State.powerUp x0 x1 x2 x3 x4 x5 x6).memWf = true := by
  simp (maxDischargeDepth := 60) +contextual only [State.powerUp, stored_powerBegin, stored_poweredUp, stored_vcabAll, stored_foldl,
      stored_foldl2, stored_mk, stored_ite, stored_ite2, cl_mk, cl_ite, cl_reset, hW]

theorem stored_bootFail (x0 : State) (x1 x2 x3) (hW : x0.memWf = true) :
    (State.bootFail x0 x1 x2 x3).memWf = true := by
  simp (maxDischargeDepth := 60) +contextual only [State.bootFail, stored_fresh, stored_report, stored_setFld, stored_foldl,
      stored_foldl2, stored_mk, stored_ite, stored_ite2, cl_mk, cl_ite, cl_reset, hW]

theorem stored_bootLoad (x0 : State) (x1 x2) (hW : x0.memWf = true) :
    (State.bootLoad x0 x1 x2).memWf = true := by
  simp (maxDischargeDepth := 60) +contextual only [State.bootLoad, stored_cmSetWords, stored_enterStage, stored_report,
      stored_setFld, stored_foldl, stored_foldl2, stored_mk, stored_ite, stored_ite2, cl_mk, cl_ite, cl_reset, hW]

theorem stored_bootImage (x0 : State) (x1 x2) (hW : x0.memWf = true) :
    (State.bootImage x0 x1 x2).memWf = true := by
  simp (maxDischargeDepth := 60) +contextual only [State.bootImage, stored_bootFail, stored_bootLoad, stored_foldl, stored_foldl2,
      stored_mk, stored_ite, stored_ite2, cl_mk, cl_ite, cl_reset, hW]

theorem stored_relayOut (x0 : State) (x1 x2 x3 x4) (hW : x0.memWf = true) :
    (State.relayOut x0 x1 x2 x3 x4).memWf = true := by
  unfold State.relayOut
  (try dsimp only)
  (repeat' split) <;> simp_all (maxDischargeDepth := 60) [stored_logEdge, stored_portSend, stored_foldl, stored_foldl2, stored_mk,
      stored_ite, stored_ite2, cl_mk, cl_ite, cl_reset]

theorem stored_bootAsk (x0 : State) (x1 x2 x3 x4) (hW : x0.memWf = true) :
    (State.bootAsk x0 x1 x2 x3 x4).memWf = true := by
  induction x3 generalizing x0 x1 x2 x4 with
  | zero => first | exact hW | (unfold State.bootAsk; exact hW) | (unfold State.bootAsk; split <;> exact hW)
  | succ n ih =>
    unfold State.bootAsk
    (try dsimp only)
    (repeat' split) <;> simp_all (maxDischargeDepth := 60) [stored_relayOut, stored_foldl, stored_foldl2, stored_mk, stored_ite,
        stored_ite2, cl_mk, cl_ite, cl_reset]

theorem stored_bootSend (x0 : State) (x1) (hW : x0.memWf = true) :
    (State.bootSend x0 x1).memWf = true := by
  simp (maxDischargeDepth := 60) +contextual only [State.bootSend, stored_bootAsk, stored_foldl, stored_foldl2, stored_mk,
      stored_ite, stored_ite2, cl_mk, cl_ite, cl_reset, hW]

theorem stored_bootGo (x0 : State) (x1 x2) (hW : x0.memWf = true) :
    (State.bootGo x0 x1 x2).memWf = true := by
  unfold State.bootGo
  dsimp only
  split
  · exact hW
  · exact with_bring _ _ (stored_bootSend _ x1 (stored_setFld _ Rg.BOOT_STAT_STATE 1 (stored_setFld _ Rg.BOOT_STAT_CAUSE 0 hW)))

theorem stored_p2Body (x0 : State) (hW : x0.memWf = true) :
    (State.p2Body x0).2.memWf = true := by
  simp (maxDischargeDepth := 60) +contextual only [State.p2Body, stored_fresh, stored_foldl, stored_foldl2, stored_mk, stored_ite,
      stored_ite2, cl_mk, cl_ite, cl_reset, hW]

theorem stored_clockSeed (x0 : State) (hW : x0.memWf = true) :
    (State.clockSeed x0).memWf = true := by
  simp (maxDischargeDepth := 60) +contextual only [State.clockSeed, stored_enterStage, stored_p2Body, stored_report, stored_foldl,
      stored_foldl2, stored_mk, stored_ite, stored_ite2, cl_mk, cl_ite, cl_reset, hW]

theorem stored_seedMissed (x0 : State) (hW : x0.memWf = true) :
    (State.seedMissed x0).memWf = true := by
  simp (maxDischargeDepth := 60) +contextual only [State.seedMissed, stored_foldl, stored_foldl2, stored_mk, stored_ite, stored_ite2,
      cl_mk, cl_ite, cl_reset, hW]

theorem stored_columnDone (x0 : State) (x1) (hW : x0.memWf = true) :
    (State.columnDone x0 x1).memWf = true := by
  simp (maxDischargeDepth := 60) +contextual only [State.columnDone, stored_foldl, stored_foldl2, stored_mk, stored_ite, stored_ite2,
      cl_mk, cl_ite, cl_reset, hW]

theorem stored_clockSeedLate (x0 : State) (hW : x0.memWf = true) :
    (State.clockSeedLate x0).memWf = true := by
  simp (maxDischargeDepth := 60) +contextual only [State.clockSeedLate, stored_p2Body, stored_report, stored_seedMissed,
      stored_foldl, stored_foldl2, stored_mk, stored_ite, stored_ite2, cl_mk, cl_ite, cl_reset, hW]

theorem stored_writeRepair (s : State) (find c) (hW : s.memWf = true) :
    (State.writeRepair s find c).memWf = true := by
  unfold State.writeRepair
  (try dsimp only)
  (with_reducible repeat' (first
      | assumption | intro _ | apply hf | apply stored_setFld | apply stored_unlessHeld | apply stored_foldl | apply stored_foldl2
      | simp only [stored_mk] | simp only [cl_mk] | apply cl_dmaFill | apply cl_resetCluster | apply cl_ctl | apply cl_reset | split
      | dsimp only | rfl))

theorem stored_writeQret (x0 : State) (x1) (hW : x0.memWf = true) :
    (State.writeQret x0 x1).memWf = true := by
  unfold State.writeQret
  (try dsimp only)
  (repeat' split) <;> simp_all (maxDischargeDepth := 60) [stored_wr, stored_foldl, stored_foldl2, stored_mk, stored_ite, stored_ite2,
      cl_mk, cl_ite, cl_reset]

theorem stored_fenceOff (x0 : State) (x1 x2) (hW : x0.memWf = true) :
    (State.fenceOff x0 x1 x2).memWf = true := by
  simp (maxDischargeDepth := 60) +contextual only [State.fenceOff, stored_fenceDown, stored_yieldFence, stored_foldl, stored_foldl2,
      stored_mk, stored_ite, stored_ite2, cl_mk, cl_ite, cl_reset, hW]

theorem stored_setUsable (x0 : State) (x1 x2) (hW : x0.memWf = true) :
    (State.setUsable x0 x1 x2).memWf = true := by
  simp (maxDischargeDepth := 60) +contextual only [State.setUsable, stored_fenceOff, stored_setFld, stored_foldl, stored_foldl2,
      stored_mk, stored_ite, stored_ite2, cl_mk, cl_ite, cl_reset, hW]

theorem stored_listFence (x0 : State) (x1) (hW : x0.memWf = true) :
    (State.listFence x0 x1).memWf = true := by
  simp (maxDischargeDepth := 60) +contextual only [State.listFence, stored_fenceOff, stored_foldl, stored_foldl2, stored_mk,
      stored_ite, stored_ite2, cl_mk, cl_ite, cl_reset, hW]

theorem stored_p3Steps (x0 : State) (x1) (hW : x0.memWf = true) :
    (State.p3Steps x0 x1).memWf = true := by
  unfold State.p3Steps
  (try dsimp only)
  (repeat' split) <;> simp_all (maxDischargeDepth := 60) [stored_fenceOff, stored_listFence, stored_setFld, stored_setUsable,
      stored_writeQret, stored_writeRepair, stored_foldl, stored_foldl2, stored_mk, stored_ite, stored_ite2, cl_mk, cl_ite, cl_reset]

theorem stored_takeInputs (x0 : State) (x1) (hW : x0.memWf = true) :
    (State.takeInputs x0 x1).memWf = true := by
  unfold State.takeInputs
  (try dsimp only)
  (repeat' split) <;> simp_all (maxDischargeDepth := 60) [stored_inputGain, stored_foldl, stored_foldl2, stored_mk, stored_ite,
      stored_ite2, cl_mk, cl_ite, cl_reset]

theorem stored_feedNeighbours (s : State) (r) (hW : s.memWf = true) :
    (State.feedNeighbours s r).memWf = true := by
  unfold State.feedNeighbours
  (try dsimp only)
  (with_reducible repeat' (first
      | assumption | intro _ | apply hf | apply stored_takeInputs | apply stored_unlessHeld | apply stored_foldl
      | apply stored_foldl2 | simp only [stored_mk] | simp only [cl_mk] | apply cl_dmaFill | apply cl_resetCluster | apply cl_ctl
      | apply cl_reset | split | dsimp only | rfl))

theorem stored_tryLock (x0 : State) (x1) (hW : x0.memWf = true) :
    (State.tryLock x0 x1).memWf = true := by
  unfold State.tryLock
  (try dsimp only)
  (repeat' split) <;> simp_all (maxDischargeDepth := 60) [stored_depthChanged, stored_feedNeighbours, stored_inputUse,
      stored_takeInputs, stored_foldl, stored_foldl2, stored_mk, stored_ite, stored_ite2, cl_mk, cl_ite, cl_reset]

theorem stored_regionRamp (x0 : State) (x1 x2 x3 x4) (hW : x0.memWf = true) :
    (State.regionRamp x0 x1 x2 x3 x4).memWf = true := by
  simp (maxDischargeDepth := 60) +contextual only [State.regionRamp, stored_setFld, stored_setVset, stored_wr, stored_foldl,
      stored_foldl2, stored_mk, stored_ite, stored_ite2, cl_mk, cl_ite, cl_reset, hW]

theorem stored_rampRegion (x0 : State) (x1 x2) (hW : x0.memWf = true) :
    (State.rampRegion x0 x1 x2).memWf = true := by
  unfold State.rampRegion
  (try dsimp only)
  (repeat' split) <;> simp_all (maxDischargeDepth := 60) [stored_latch, stored_modRegion, stored_regionOn, stored_regionRamp,
      stored_setFld, stored_foldl, stored_foldl2, stored_mk, stored_ite, stored_ite2, cl_mk, cl_ite, cl_reset]

theorem stored_p3Wait (x0 : State) (x1) (hW : x0.memWf = true) :
    (State.p3Wait x0 x1).memWf = true := by
  unfold State.p3Wait
  exact with_bring _ _ (stored_setFld _ (Rg.CLKTUNE_EFF x1.r) 32 hW)

theorem stored_p3One (x0 : State) (x1) (hW : x0.memWf = true) :
    (State.p3One x0 x1).memWf = true := by
  simp (maxDischargeDepth := 60) +contextual only [State.p3One, stored_listFence, stored_p3Steps, stored_foldl, stored_foldl2,
      stored_mk, stored_ite, stored_ite2, cl_mk, cl_ite, cl_reset, hW]

theorem stored_p3Advance (x0 : State) (n) (hW : x0.memWf = true) :
    (State.p3Advance x0 n).memWf = true := by
  induction n generalizing x0 with
  | zero => first | exact hW | (unfold State.p3Advance; exact hW) | (unfold State.p3Advance; split <;> exact hW)
  | succ n ih =>
    unfold State.p3Advance
    (try dsimp only)
    (repeat' split) <;> simp_all (maxDischargeDepth := 60) [stored_p3One, stored_foldl, stored_foldl2, stored_mk, stored_ite,
        stored_ite2, cl_mk, cl_ite, cl_reset]

theorem stored_p3Report (x0 : State) (x1) (hW : x0.memWf = true) :
    (State.p3Report x0 x1).memWf = true := by
  simp (maxDischargeDepth := 60) +contextual only [State.p3Report, stored_report, stored_foldl, stored_foldl2, stored_mk, stored_ite,
      stored_ite2, cl_mk, cl_ite, cl_reset, hW]

theorem stored_p3Region (x0 : State) (x1) (hW : x0.memWf = true) :
    (State.p3Region x0 x1).memWf = true := by
  simp (maxDischargeDepth := 60) +contextual only [State.p3Region, stored_fenceOff, stored_p3Wait, stored_foldl, stored_foldl2,
      stored_mk, stored_ite, stored_ite2, cl_mk, cl_ite, cl_reset, hW]

theorem stored_p3Finish (x0 : State) (hW : x0.memWf = true) :
    (State.p3Finish x0).memWf = true := by
  simp (maxDischargeDepth := 60) +contextual only [State.p3Finish, stored_enterStage, stored_p3Report, stored_foldl, stored_foldl2,
      stored_mk, stored_ite, stored_ite2, cl_mk, cl_ite, cl_reset, hW]

theorem stored_p3Go (x0 : State) (hW : x0.memWf = true) :
    (State.p3Go x0).memWf = true := by
  simp (maxDischargeDepth := 60) +contextual only [State.p3Go, stored_p3Advance, stored_p3Finish, stored_p3Report, stored_foldl,
      stored_foldl2, stored_mk, stored_ite, stored_ite2, cl_mk, cl_ite, cl_reset, hW]

theorem stored_p3Retried (x0 : State) (x1) (hW : x0.memWf = true) :
    (State.p3Retried x0 x1).memWf = true := by
  simp (maxDischargeDepth := 60) +contextual only [State.p3Retried, stored_p3Go, stored_p3Report, stored_foldl, stored_foldl2,
      stored_mk, stored_ite, stored_ite2, cl_mk, cl_ite, cl_reset, hW]

theorem stored_shortTake (x0 : State) (x1 x2 x3) (hW : x0.memWf = true) :
    (State.shortTake x0 x1 x2 x3).memWf = true := by
  simp (maxDischargeDepth := 60) +contextual only [State.shortTake, stored_p3Retried, stored_short, stored_foldl, stored_foldl2,
      stored_mk, stored_ite, stored_ite2, cl_mk, cl_ite, cl_reset, hW]

theorem stored_listFenced (x0 : State) (x1) (hW : x0.memWf = true) :
    (State.listFenced x0 x1).memWf = true := by
  unfold State.listFenced
  (try dsimp only)
  (repeat' split) <;> simp_all (maxDischargeDepth := 60) [stored_listFence, stored_foldl, stored_foldl2, stored_mk, stored_ite,
      stored_ite2, cl_mk, cl_ite, cl_reset]

theorem stored_wavefront (x0 : State) (x1 x2) (hW : x0.memWf = true) :
    (State.wavefront x0 x1 x2).memWf = true := by
  unfold State.wavefront
  (try dsimp only)
  (repeat' split) <;> simp_all (maxDischargeDepth := 60) [stored_columnDone, stored_fresh, stored_listFenced, stored_p3Go,
      stored_p3Region, stored_rampRegion, stored_tryLock, stored_foldl, stored_foldl2, stored_mk, stored_ite, stored_ite2, cl_mk,
      cl_ite, cl_reset]

theorem stored_shortRetry (x0 : State) (x1) (hW : x0.memWf = true) :
    (State.shortRetry x0 x1).memWf = true := by
  simp (maxDischargeDepth := 60) +contextual only [State.shortRetry, stored_logPower, stored_modRegion, stored_p3Region,
      stored_p3Retried, stored_rampRegion, stored_setFld, stored_tryLock, stored_foldl, stored_foldl2, stored_mk, stored_ite,
      stored_ite2, cl_mk, cl_ite, cl_reset, hW]

theorem stored_clockHoldLate (x0 : State) (x1) (hW : x0.memWf = true) :
    (State.clockHoldLate x0 x1).memWf = true := by
  simp (maxDischargeDepth := 60) +contextual only [State.clockHoldLate, stored_fenceOff, stored_p3Go, stored_foldl, stored_foldl2,
      stored_mk, stored_ite, stored_ite2, cl_mk, cl_ite, cl_reset, hW]

theorem stored_dramZero (x0 : State) (hW : x0.memWf = true) :
    (State.dramZero x0).memWf = true := by
  unfold State.dramZero
  refine stored_foldl _ (fun s r h => stored_burstFlip _ _ _ _ h) _ _ ?_
  have h := (memWf_iff _).mp hW
  exact (memWf_iff _).mpr ⟨h.1, rfl, h.2.2⟩

theorem stored_fenceChannels (x0 : State) (x1) (hW : x0.memWf = true) :
    (State.fenceChannels x0 x1).memWf = true := by
  unfold State.fenceChannels
  (try dsimp only)
  (repeat' split) <;> simp_all (maxDischargeDepth := 60) [stored_fenceOff, stored_foldl, stored_foldl2, stored_mk, stored_ite,
      stored_ite2, cl_mk, cl_ite, cl_reset]

theorem stored_retireEntry (x0 : State) (x1) (hW : x0.memWf = true) :
    (State.retireEntry x0 x1).memWf = true := by
  simp (maxDischargeDepth := 60) +contextual only [State.retireEntry, stored_wr, stored_foldl, stored_foldl2, stored_mk, stored_ite,
      stored_ite2, cl_mk, cl_ite, cl_reset, hW]

theorem stored_stacksUp (x0 : State) (x1) (hW : x0.memWf = true) :
    (State.stacksUp x0 x1).memWf = true := by
  unfold State.stacksUp
  (try dsimp only)
  (repeat' split) <;> simp_all (maxDischargeDepth := 60) [stored_dramZero, stored_enterStage, stored_fenceChannels, stored_report,
      stored_retireEntry, stored_foldl, stored_foldl2, stored_mk, stored_ite, stored_ite2, cl_mk, cl_ite, cl_reset]

theorem stored_linksUp (x0 : State) (hW : x0.memWf = true) :
    (State.linksUp x0).memWf = true := by
  simp (maxDischargeDepth := 60) +contextual only [State.linksUp, stored_enterStage, stored_report, stored_foldl, stored_foldl2,
      stored_mk, stored_ite, stored_ite2, cl_mk, cl_ite, cl_reset, hW]

theorem stored_runFailed (x0 : State) (x1) (hW : x0.memWf = true) :
    (State.runFailed x0 x1).memWf = true := by
  simp (maxDischargeDepth := 60) +contextual only [State.runFailed, stored_fenceOff, stored_setUsable, stored_foldl, stored_foldl2,
      stored_mk, stored_ite, stored_ite2, cl_mk, cl_ite, cl_reset, hW]

theorem stored_knownAnswers (x0 : State) (x1 x2 x3 x4 x5) (hW : x0.memWf = true) :
    (State.knownAnswers x0 x1 x2 x3 x4 x5).memWf = true := by
  unfold State.knownAnswers
  (try dsimp only)
  (repeat' split) <;> simp_all (maxDischargeDepth := 60) [stored_enterStage, stored_fenceOff, stored_report, stored_runFailed,
      stored_foldl, stored_foldl2, stored_mk, stored_ite, stored_ite2, cl_mk, cl_ite, cl_reset]

theorem stored_ready (x0 : State) (hW : x0.memWf = true) :
    (State.ready x0).memWf = true := by
  simp (maxDischargeDepth := 60) +contextual only [State.ready, stored_receive, stored_report, stored_setBu, stored_foldl,
      stored_foldl2, stored_mk, stored_ite, stored_ite2, cl_mk, cl_ite, cl_reset, hW]

theorem stored_gopShow (x0 : State) (hW : x0.memWf = true) :
    (State.gopShow x0).memWf = true := by
  simp (maxDischargeDepth := 60) +contextual only [State.gopShow, stored_setFld, stored_foldl, stored_foldl2, stored_mk, stored_ite,
      stored_ite2, cl_mk, cl_ite, cl_reset, hW]

theorem stored_setGop (x0 : State) (x1) (hW : x0.memWf = true) :
    (State.setGop x0 x1).memWf = true := by
  simp (maxDischargeDepth := 60) +contextual only [State.setGop, stored_gopShow, stored_foldl, stored_foldl2, stored_mk, stored_ite,
      stored_ite2, cl_mk, cl_ite, cl_reset, hW]

theorem stored_mark (x0 : State) (x1 x2 x3 x4 x5) (hW : x0.memWf = true) :
    (State.mark x0 x1 x2 x3 x4 x5).memWf = true := by
  unfold State.mark
  (try dsimp only)
  (repeat' split) <;> simp_all (maxDischargeDepth := 60) [stored_portSend, stored_foldl, stored_foldl2, stored_mk, stored_ite,
      stored_ite2, cl_mk, cl_ite, cl_reset]

theorem stored_marks (x0 : State) (x1 x2 x3 x4 x5) (hW : x0.memWf = true) :
    (State.marks x0 x1 x2 x3 x4 x5).memWf = true := by
  unfold State.marks
  (try dsimp only)
  (repeat' split) <;> simp_all (maxDischargeDepth := 60) [stored_mark, stored_foldl, stored_foldl2, stored_mk, stored_ite,
      stored_ite2, cl_mk, cl_ite, cl_reset]

theorem stored_gopRelease (x0 : State) (x1) (hW : x0.memWf = true) :
    (State.gopRelease x0 x1).memWf = true := by
  simp (maxDischargeDepth := 60) +contextual only [State.gopRelease, stored_marks, stored_receive, stored_setFld, stored_setGop,
      stored_foldl, stored_foldl2, stored_mk, stored_ite, stored_ite2, cl_mk, cl_ite, cl_reset, hW]

theorem stored_gopTry (x0 : State) (hW : x0.memWf = true) :
    (State.gopTry x0).memWf = true := by
  unfold State.gopTry
  (try dsimp only)
  (repeat' split) <;> simp_all (maxDischargeDepth := 60) [stored_gopRelease, stored_mark, stored_setGop, stored_foldl, stored_foldl2,
      stored_mk, stored_ite, stored_ite2, cl_mk, cl_ite, cl_reset]

theorem stored_arrive (x0 : State) (x1) (hW : x0.memWf = true) :
    (State.arrive x0 x1).memWf = true := by
  simp (maxDischargeDepth := 60) +contextual only [State.arrive, stored_gopTry, stored_setGop, stored_foldl, stored_foldl2,
      stored_mk, stored_ite, stored_ite2, cl_mk, cl_ite, cl_reset, hW]

theorem stored_holdStart (x0 : State) (x1 x2 x3) (hW : x0.memWf = true) :
    (State.holdStart x0 x1 x2 x3).memWf = true := by
  simp (maxDischargeDepth := 60) +contextual only [State.holdStart, stored_setGop, stored_foldl, stored_foldl2, stored_mk,
      stored_ite, stored_ite2, cl_mk, cl_ite, cl_reset, hW]

theorem stored_holdEnd (x0 : State) (hW : x0.memWf = true) :
    (State.holdEnd x0).memWf = true := by
  simp (maxDischargeDepth := 60) +contextual only [State.holdEnd, stored_setGop, stored_foldl, stored_foldl2, stored_mk, stored_ite,
      stored_ite2, cl_mk, cl_ite, cl_reset, hW]

theorem stored_bcastAct (x0 : State) (x1 x2 x3) (hW : x0.memWf = true) :
    (State.bcastAct x0 x1 x2 x3).memWf = true := by
  simp (maxDischargeDepth := 60) +contextual only [State.bcastAct, stored_holdEnd, stored_holdStart, stored_foldl, stored_foldl2,
      stored_mk, stored_ite, stored_ite2, cl_mk, cl_ite, cl_reset, hW]

theorem stored_bcast (x0 : State) (x1 x2) (hW : x0.memWf = true) :
    (State.bcast x0 x1 x2).memWf = true := by
  simp (maxDischargeDepth := 60) +contextual only [State.bcast, stored_bcastAct, stored_marks, stored_setGop, stored_foldl,
      stored_foldl2, stored_mk, stored_ite, stored_ite2, cl_mk, cl_ite, cl_reset, hW]

theorem stored_gopCmd (x0 : State) (x1) (hW : x0.memWf = true) :
    (State.gopCmd x0 x1).memWf = true := by
  unfold State.gopCmd
  (try dsimp only)
  (with_reducible repeat' (first
      | assumption | intro _ | apply hf | apply stored_arrive | apply stored_bcast | apply stored_unlessHeld | apply stored_foldl
      | apply stored_foldl2 | simp only [stored_mk] | simp only [cl_mk] | apply cl_dmaFill | apply cl_resetCluster | apply cl_ctl
      | apply cl_reset | split | dsimp only | rfl))

theorem stored_bcastTake (x0 : State) (x1 x2 x3 x4 x5) (hW : x0.memWf = true) :
    (State.bcastTake x0 x1 x2 x3 x4 x5).memWf = true := by
  simp (maxDischargeDepth := 60) +contextual only [State.bcastTake, stored_bcastAct, stored_marks, stored_setFld, stored_setGop,
      stored_wr, stored_foldl, stored_foldl2, stored_mk, stored_ite, stored_ite2, cl_mk, cl_ite, cl_reset, hW]

theorem stored_arriveTake (x0 : State) (x1 x2) (hW : x0.memWf = true) :
    (State.arriveTake x0 x1 x2).memWf = true := by
  simp (maxDischargeDepth := 60) +contextual only [State.arriveTake, stored_gopTry, stored_setGop, stored_foldl, stored_foldl2,
      stored_mk, stored_ite, stored_ite2, cl_mk, cl_ite, cl_reset, hW]

theorem stored_releaseTake (x0 : State) (x1 x2) (hW : x0.memWf = true) :
    (State.releaseTake x0 x1 x2).memWf = true := by
  simp (maxDischargeDepth := 60) +contextual only [State.releaseTake, stored_gopRelease, stored_foldl, stored_foldl2, stored_mk,
      stored_ite, stored_ite2, cl_mk, cl_ite, cl_reset, hW]

theorem stored_becomeHeld (x0 : State) (hW : x0.memWf = true) :
    (State.becomeHeld x0).memWf = true := by
  simp (maxDischargeDepth := 60) +contextual only [State.becomeHeld, stored_setGop, stored_foldl, stored_foldl2, stored_mk,
      stored_ite, stored_ite2, cl_mk, cl_ite, cl_reset, hW]

theorem stored_barrierLate (x0 : State) (hW : x0.memWf = true) :
    (State.barrierLate x0).memWf = true := by
  simp (maxDischargeDepth := 60) +contextual only [State.barrierLate, stored_logEdge, stored_setGop, stored_foldl, stored_foldl2,
      stored_mk, stored_ite, stored_ite2, cl_mk, cl_ite, cl_reset, hW]

theorem stored_holdLate (x0 : State) (hW : x0.memWf = true) :
    (State.holdLate x0).memWf = true := by
  simp (maxDischargeDepth := 60) +contextual only [State.holdLate, stored_logEdge, stored_setGop, stored_foldl, stored_foldl2,
      stored_mk, stored_ite, stored_ite2, cl_mk, cl_ite, cl_reset, hW]

theorem stored_gopLate (x0 : State) (hW : x0.memWf = true) :
    (State.gopLate x0).memWf = true := by
  simp (maxDischargeDepth := 60) +contextual only [State.gopLate, stored_barrierLate, stored_holdLate, stored_foldl, stored_foldl2,
      stored_mk, stored_ite, stored_ite2, cl_mk, cl_ite, cl_reset, hW]

theorem stored_emptyQueue (x0 : State) (x1) (hW : x0.memWf = true) :
    (State.emptyQueue x0 x1).memWf = true := by
  simp (maxDischargeDepth := 60) +contextual only [State.emptyQueue, stored_setQueue, stored_foldl, stored_foldl2, stored_mk,
      stored_ite, stored_ite2, cl_mk, cl_ite, cl_reset, hW]

theorem stored_regionReset (x0 : State) (x1) (hW : x0.memWf = true) :
    (State.regionReset x0 x1).memWf = true := by
  unfold State.regionReset
  (try dsimp only)
  (with_reducible repeat' (first
      | assumption | intro _ | apply hf | apply stored_emptyQueue | apply stored_modCluster | apply stored_modRegion
      | apply stored_setFld | apply stored_unlessHeld | apply stored_foldl | apply stored_foldl2 | simp only [stored_mk]
      | simp only [cl_mk] | apply cl_dmaFill | apply cl_resetCluster | apply cl_ctl | apply cl_reset | split | dsimp only | rfl))

theorem stored_resetRegions (x0 : State) (hW : x0.memWf = true) :
    (State.resetRegions x0).memWf = true := by
  unfold State.resetRegions
  (try dsimp only)
  (repeat' split) <;> simp_all (maxDischargeDepth := 60) [stored_regionReset, stored_foldl, stored_foldl2, stored_mk, stored_ite,
      stored_ite2, cl_mk, cl_ite, cl_reset]

theorem stored_domainReset (x0 : State) (hW : x0.memWf = true) :
    (State.domainReset x0).memWf = true := by
  unfold State.domainReset
  (try dsimp only)
  (repeat' split) <;> simp_all (maxDischargeDepth := 60) [stored_emptyPort, stored_holdFinish, stored_loadFail, stored_portsRun,
      stored_resetRegions, stored_foldl, stored_foldl2, stored_mk, stored_ite, stored_ite2, cl_mk, cl_ite, cl_reset]

theorem stored_domainResetEnd (x0 : State) (hW : x0.memWf = true) :
    (State.domainResetEnd x0).memWf = true := by
  unfold State.domainResetEnd
  (try dsimp only)
  (repeat' split) <;> simp_all (maxDischargeDepth := 60) [stored_setGop, stored_setImgState, stored_foldl, stored_foldl2, stored_mk,
      stored_ite, stored_ite2, cl_mk, cl_ite, cl_reset]

theorem stored_pageTake (x0 : State) (x1 x2 x3) (hW : x0.memWf = true) :
    (State.pageTake x0 x1 x2 x3).2.memWf = true := by
  unfold State.pageTake
  grind [stored_pageRead, stored_mk]

theorem stored_pfxChain (x0 : State) (x1 x2 x3 x4 x5 x6) (hW : x0.memWf = true) :
    (State.pfxChain x0 x1 x2 x3 x4 x5 x6).2.memWf = true := by
  induction x5 generalizing x0 x1 x2 x3 x4 x6 with
  | zero => first | exact hW | (unfold State.pfxChain; exact hW) | (unfold State.pfxChain; split <;> exact hW)
  | succ n ih =>
    unfold State.pfxChain
    grind [stored_pageTake, stored_mk]

theorem stored_pfxBlocks (x0 : State) (x1 x2 x3 x4 x5 x6 x7 x8) (hW : x0.memWf = true) :
    (State.pfxBlocks x0 x1 x2 x3 x4 x5 x6 x7 x8).2.2.memWf = true := by
  induction x5 generalizing x0 x1 x2 x3 x4 x6 x7 x8 with
  | zero => first | exact hW | (unfold State.pfxBlocks; exact hW) | (unfold State.pfxBlocks; split <;> exact hW)
  | succ n ih =>
    unfold State.pfxBlocks
    grind [stored_cmTake, stored_pageTake, stored_pfxChain, stored_mk]

theorem stored_pfxStart (x0 : State) (x1) (hW : x0.memWf = true) :
    (State.pfxStart x0 x1).memWf = true := by
  simp (maxDischargeDepth := 60) +contextual only [State.pfxStart, stored_cmSetNum, stored_foldl, stored_foldl2, stored_mk,
      stored_ite, stored_ite2, cl_mk, cl_ite, cl_reset, hW]

theorem stored_pfxEnd (x0 : State) (x1 x2) (hW : x0.memWf = true) :
    (State.pfxEnd x0 x1 x2).memWf = true := by
  unfold State.pfxEnd
  grind [stored_cmSetBytes, stored_cmSetNum, stored_cmTake, stored_pfxBlocks, stored_mk]

theorem stored_setRing (x0 : State) (x1 x2) (hW : x0.memWf = true) :
    (State.setRing x0 x1 x2).memWf = true := by
  simp (maxDischargeDepth := 60) +contextual only [State.setRing, stored_foldl, stored_foldl2, stored_mk, stored_ite, stored_ite2,
      cl_mk, cl_ite, cl_reset, hW]

theorem stored_ringReserve (x0 : State) (x1 x2) (hW : x0.memWf = true) :
    (State.ringReserve x0 x1 x2).2.memWf = true := by
  simp (maxDischargeDepth := 60) +contextual only [State.ringReserve, stored_setRing, stored_foldl, stored_foldl2, stored_mk,
      stored_ite, stored_ite2, cl_mk, cl_ite, cl_reset, hW]

theorem stored_ringWritten (x0 : State) (x1 x2) (hW : x0.memWf = true) :
    (State.ringWritten x0 x1 x2).memWf = true := by
  simp (maxDischargeDepth := 60) +contextual only [State.ringWritten, stored_setFld, stored_setRing, stored_foldl, stored_foldl2,
      stored_mk, stored_ite, stored_ite2, cl_mk, cl_ite, cl_reset, hW]

theorem stored_cqWrite (x0 : State) (x1 x2 x3) (hW : x0.memWf = true) :
    (State.cqWrite x0 x1 x2 x3).memWf = true := by
  simp (maxDischargeDepth := 60) +contextual only [State.cqWrite, stored_emit, stored_ringWritten, stored_foldl, stored_foldl2,
      stored_mk, stored_ite, stored_ite2, cl_mk, cl_ite, cl_reset, hW]

theorem stored_ackWrite (x0 : State) (x1 x2 x3 x4 x5 x6) (hW : x0.memWf = true) :
    (State.ackWrite x0 x1 x2 x3 x4 x5 x6).memWf = true := by
  simp (maxDischargeDepth := 60) +contextual only [State.ackWrite, stored_cqWrite, stored_foldl, stored_foldl2, stored_mk,
      stored_ite, stored_ite2, cl_mk, cl_ite, cl_reset, hW]

theorem stored_hostWritten (s : State) (addr len) (hW : s.memWf = true) :
    (State.hostWritten s addr len).memWf = true := by
  unfold State.hostWritten
  (try dsimp only)
  (with_reducible repeat' (first
      | assumption | intro _ | apply hf | apply stored_ringWritten | apply stored_unlessHeld | apply stored_foldl
      | apply stored_foldl2 | simp only [stored_mk] | simp only [cl_mk] | apply cl_dmaFill | apply cl_resetCluster | apply cl_ctl
      | apply cl_reset | split | dsimp only | rfl))

theorem stored_consume (x0 : State) (x1) (hW : x0.memWf = true) :
    (State.consume x0 x1).2.memWf = true := by
  simp (maxDischargeDepth := 60) +contextual only [State.consume, stored_ringReserve, stored_setFld, stored_foldl, stored_foldl2,
      stored_mk, stored_ite, stored_ite2, cl_mk, cl_ite, cl_reset, hW]

theorem stored_setRq (x0 : State) (x1 x2 x3 x4) (hW : x0.memWf = true) :
    (State.setRq x0 x1 x2 x3 x4).memWf = true := by
  simp (maxDischargeDepth := 60) +contextual only [State.setRq, stored_cmSetNum, stored_foldl, stored_foldl2, stored_mk, stored_ite,
      stored_ite2, cl_mk, cl_ite, cl_reset, hW]

theorem stored_setTn (x0 : State) (x1 x2 x3 x4) (hW : x0.memWf = true) :
    (State.setTn x0 x1 x2 x3 x4).memWf = true := by
  simp (maxDischargeDepth := 60) +contextual only [State.setTn, stored_cmSetNum, stored_foldl, stored_foldl2, stored_mk, stored_ite,
      stored_ite2, cl_mk, cl_ite, cl_reset, hW]

theorem stored_setBudget (x0 : State) (x1 x2) (hW : x0.memWf = true) :
    (State.setBudget x0 x1 x2).memWf = true := by
  simp (maxDischargeDepth := 60) +contextual only [State.setBudget, stored_setTn, stored_foldl, stored_foldl2, stored_mk, stored_ite,
      stored_ite2, cl_mk, cl_ite, cl_reset, hW]

theorem stored_waitPush (x0 : State) (x1 x2 x3) (hW : x0.memWf = true) :
    (State.waitPush x0 x1 x2 x3).memWf = true := by
  simp (maxDischargeDepth := 60) +contextual only [State.waitPush, stored_setRq, stored_setTn, stored_foldl, stored_foldl2,
      stored_mk, stored_ite, stored_ite2, cl_mk, cl_ite, cl_reset, hW]

theorem stored_waitDrop (x0 : State) (x1 x2 x3) (hW : x0.memWf = true) :
    (State.waitDrop x0 x1 x2 x3).memWf = true := by
  unfold State.waitDrop
  (try dsimp only)
  (repeat' split) <;> simp_all (maxDischargeDepth := 60) [stored_setRq, stored_setTn, stored_foldl, stored_foldl2, stored_mk,
      stored_ite, stored_ite2, cl_mk, cl_ite, cl_reset]

theorem stored_relist (x0 : State) (x1 x2 x3 x4) (hW : x0.memWf = true) :
    (State.relist x0 x1 x2 x3 x4).memWf = true := by
  simp (maxDischargeDepth := 60) +contextual only [State.relist, stored_waitDrop, stored_waitPush, stored_foldl, stored_foldl2,
      stored_mk, stored_ite, stored_ite2, cl_mk, cl_ite, cl_reset, hW]

theorem stored_countTokens (x0 : State) (x1 x2) (hW : x0.memWf = true) :
    (State.countTokens x0 x1 x2).memWf = true := by
  simp (maxDischargeDepth := 60) +contextual only [State.countTokens, stored_foldl, stored_foldl2, stored_mk, stored_ite,
      stored_ite2, cl_mk, cl_ite, cl_reset, hW]

theorem stored_commitApply (x0 : State) (x1) (hW : x0.memWf = true) :
    (State.commitApply x0 x1).2.memWf = true := by
  unfold State.commitApply
  (try dsimp only)
  (with_reducible repeat' (first
      | assumption | intro _ | apply hf | apply stored_countTokens | apply stored_relist | apply stored_ringReserve
      | apply stored_setBudget | apply stored_setRq | apply stored_setTn
      | (have e := congrArg Prod.snd ‹State.ringReserve _ _ _ = _›; dsimp only at e; subst e) | apply stored_unlessHeld
      | apply stored_foldl | apply stored_foldl2 | simp only [stored_mk] | simp only [cl_mk] | apply cl_dmaFill
      | apply cl_resetCluster | apply cl_ctl | apply cl_reset | split | dsimp only | rfl))

theorem stored_commitReads (x0 : State) (x1) (hW : x0.memWf = true) :
    (State.commitReads x0 x1).2.memWf = true := by
  unfold State.commitReads
  grind [stored_cmProbe, stored_mk]

theorem stored_commitUnread (x0 : State) (hW : x0.memWf = true) :
    (State.commitUnread x0).2.memWf = true := by
  simp (maxDischargeDepth := 60) +contextual only [State.commitUnread, stored_fresh, stored_foldl, stored_foldl2, stored_mk,
      stored_ite, stored_ite2, cl_mk, cl_ite, cl_reset, hW]

theorem stored_commitRun (x0 : State) (x1 x2) (hW : x0.memWf = true) :
    (State.commitRun x0 x1 x2).2.memWf = true := by
  unfold State.commitRun
  (try dsimp only)
  (with_reducible repeat' (first
      | assumption | intro _ | apply hf | apply stored_commitApply
      | (have e := congrArg Prod.snd ‹State.commitApply _ _ = _›; dsimp only at e; subst e) | apply stored_unlessHeld
      | apply stored_foldl | apply stored_foldl2 | simp only [stored_mk] | simp only [cl_mk] | apply cl_dmaFill
      | apply cl_resetCluster | apply cl_ctl | apply cl_reset | split | dsimp only | rfl))

theorem stored_commit (x0 : State) (x1 x2) (hW : x0.memWf = true) :
    (State.commit x0 x1 x2).2.memWf = true := by
  unfold State.commit
  grind [stored_commitReads, stored_commitRun, stored_commitUnread, stored_mk]

theorem stored_failover (x0 : State) (x1 x2) (hW : x0.memWf = true) :
    (State.failover x0 x1 x2).memWf = true := by
  simp (maxDischargeDepth := 60) +contextual only [State.failover, stored_loadFail, stored_foldl, stored_foldl2, stored_mk,
      stored_ite, stored_ite2, cl_mk, cl_ite, cl_reset, hW]

theorem stored_commitWindow (x0 : State) (x1) (hW : x0.memWf = true) :
    (State.commitWindow x0 x1).memWf = true := by
  simp (maxDischargeDepth := 60) +contextual only [State.commitWindow, stored_commit, stored_failover, stored_wr, stored_foldl,
      stored_foldl2, stored_mk, stored_ite, stored_ite2, cl_mk, cl_ite, cl_reset, hW]

theorem stored_commitFrom (x0 : State) (x1 x2) (hW : x0.memWf = true) :
    (State.commitFrom x0 x1 x2).memWf = true := by
  unfold State.commitFrom
  (try dsimp only)
  (repeat' split) <;> simp_all (maxDischargeDepth := 60) [stored_commitWindow, stored_wr, stored_foldl, stored_foldl2, stored_mk,
      stored_ite, stored_ite2, cl_mk, cl_ite, cl_reset]

theorem stored_endWrite (x0 : State) (x1 x2 x3) (hW : x0.memWf = true) :
    (State.endWrite x0 x1 x2 x3).memWf = true := by
  simp (maxDischargeDepth := 60) +contextual only [State.endWrite, stored_cqWrite, stored_foldl, stored_foldl2, stored_mk,
      stored_ite, stored_ite2, cl_mk, cl_ite, cl_reset, hW]

theorem stored_abortRun (x0 : State) (x1) (hW : x0.memWf = true) :
    (State.abortRun x0 x1).memWf = true := by
  unfold State.abortRun
  (try dsimp only)
  (with_reducible repeat' (first
      | assumption | intro _ | apply hf | apply stored_ackWrite | apply stored_commit | apply stored_endWrite | apply stored_fresh
      | (have e := congrArg Prod.snd ‹State.commit _ _ _ = _›; dsimp only at e; subst e)
      | (have e := congrArg Prod.snd ‹State.fresh _ _ = _›; dsimp only at e; subst e) | apply stored_unlessHeld | apply stored_foldl
      | apply stored_foldl2 | simp only [stored_mk] | simp only [cl_mk] | apply cl_dmaFill | apply cl_resetCluster | apply cl_ctl
      | apply cl_reset | split | dsimp only | rfl))

theorem stored_retryAborts (x0 : State) (hW : x0.memWf = true) :
    (State.retryAborts x0).memWf = true := by
  unfold State.retryAborts
  (try dsimp only)
  (repeat' split) <;> simp_all (maxDischargeDepth := 60) [stored_abortRun, stored_foldl, stored_foldl2, stored_mk, stored_ite,
      stored_ite2, cl_mk, cl_ite, cl_reset]

theorem stored_fillRequest (x0 : State) (x1 x2 x3 x4 x5) (hW : x0.memWf = true) :
    (State.fillRequest x0 x1 x2 x3 x4 x5).memWf = true := by
  simp (maxDischargeDepth := 60) +contextual only [State.fillRequest, stored_cmSetBytes, stored_setRq, stored_foldl, stored_foldl2,
      stored_mk, stored_ite, stored_ite2, cl_mk, cl_ite, cl_reset, hW]

theorem stored_promptPage (s : State) (bs n p t) (h : State.promptPage s bs n p = some t) (hW : s.memWf = true) : t.memWf = true := by
  induction n generalizing p with
  | zero => cases h
  | succ n ih =>
    unfold State.promptPage at h
    have hw := stored_pageWrite s (p % State.pageCount) 0 bs ⟨0, 0, 0⟩ hW
    split at h
    · rename_i e
      rw [e] at hw
      cases h
      exact hw
    · rename_i e
      rw [e] at hw
      split at h
      · cases h
        exact hw
      · exact ih _ h

theorem stored_promptCopy (s : State) (bs n t) (h : State.promptCopy s bs n = some t) (hW : s.memWf = true) : t.memWf = true := by
  induction n generalizing s bs with
  | zero => cases h; exact hW
  | succ n ih =>
    unfold State.promptCopy at h
    dsimp only at h
    split at h
    · rename_i e
      exact ih _ _ h (stored_promptPage _ _ _ _ _ e (stored_fresh _ _ hW))
    · cases h

theorem stored_firstFree (x0 : State) (n j) (hW : x0.memWf = true) :
    (State.firstFree x0 n j).2.memWf = true := by
  induction n generalizing x0 j with
  | zero => first | exact hW | (unfold State.firstFree; exact hW) | (unfold State.firstFree; split <;> exact hW)
  | succ n ih =>
    unfold State.firstFree
    grind [stored_cmRead, stored_mk]

theorem stored_submitReads (x0 : State) (x1) (hW : x0.memWf = true) :
    (State.submitReads x0 x1).2.memWf = true := by
  simp (maxDischargeDepth := 60) +contextual only [State.submitReads, stored_cmProbe, stored_foldl, stored_foldl2, stored_mk,
      stored_ite, stored_ite2, cl_mk, cl_ite, cl_reset, hW]

theorem stored_submitFree (x0 : State) (x1 x2 x3) (hW : x0.memWf = true) :
    (State.submitFree x0 x1 x2 x3).memWf = true := by
  simp (maxDischargeDepth := 60) +contextual only [State.submitFree, stored_ackWrite, stored_fresh, stored_foldl, stored_foldl2,
      stored_mk, stored_ite, stored_ite2, cl_mk, cl_ite, cl_reset, hW]

theorem stored_submitAccept (x0 : State) (x1 x2 x3 x4 x5) (hW : x0.memWf = true) :
    (State.submitAccept x0 x1 x2 x3 x4 x5).2.2.memWf = true := by
  unfold State.submitAccept
  (try dsimp only)
  (repeat' split) <;> simp_all (maxDischargeDepth := 60) [stored_commit, stored_fillRequest, stored_setBudget, stored_foldl,
      stored_foldl2, stored_mk, stored_ite, stored_ite2, cl_mk, cl_ite, cl_reset]

theorem stored_submitMake (x0 : State) (x1 x2 x3 x4 x5 x6) (hW : x0.memWf = true) :
    (State.submitMake x0 x1 x2 x3 x4 x5 x6).memWf = true := by
  unfold State.submitMake
  grind [stored_ackWrite, stored_promptCopy, stored_submitAccept, stored_submitFree, stored_mk]

theorem stored_submit (x0 : State) (x1 x2 x3 x4 x5) (hW : x0.memWf = true) :
    (State.submit x0 x1 x2 x3 x4 x5).memWf = true := by
  unfold State.submit
  grind [stored_ackWrite, stored_firstFree, stored_submitFree, stored_submitMake, stored_submitReads, stored_mk]

theorem stored_listInit (x0 : State) (x1 x2) (hW : x0.memWf = true) :
    (State.listInit x0 x1 x2).memWf = true := by
  simp (maxDischargeDepth := 60) +contextual only [State.listInit, stored_setTn, stored_foldl, stored_foldl2, stored_mk, stored_ite,
      stored_ite2, cl_mk, cl_ite, cl_reset, hW]

theorem stored_tenantWrite (x0 : State) (x1) (hW : x0.memWf = true) :
    (State.tenantWrite x0 x1).memWf = true := by
  simp (maxDischargeDepth := 60) +contextual only [State.tenantWrite, stored_listInit, stored_setBudget, stored_setTn, stored_foldl,
      stored_foldl2, stored_mk, stored_ite, stored_ite2, cl_mk, cl_ite, cl_reset, hW]

theorem stored_admFloor (x0 : State) (x1) (hW : x0.memWf = true) :
    (State.admFloor x0 x1).2.memWf = true := by
  unfold State.admFloor
  grind [stored_pageTake, stored_mk]

theorem stored_tenantReads (x0 : State) (x1) (hW : x0.memWf = true) :
    (State.tenantReads x0 x1).2.memWf = true := by
  unfold State.tenantReads
  grind [stored_cmProbe, stored_mk]

theorem stored_tenant (x0 : State) (x1 x2 x3) (hW : x0.memWf = true) :
    (State.tenant x0 x1 x2 x3).memWf = true := by
  unfold State.tenant
  grind [stored_ackWrite, stored_fresh, stored_tenantReads, stored_tenantWrite, stored_mk]

theorem stored_grammar (x0 : State) (x1 x2 x3 x4) (hW : x0.memWf = true) :
    (State.grammar x0 x1 x2 x3 x4).memWf = true := by
  unfold State.grammar
  grind [stored_ackWrite, stored_cmProbe, stored_fresh, stored_mk]

theorem stored_admLook (x0 : State) (x1 x2 x3) (hW : x0.memWf = true) :
    (State.admLook x0 x1 x2 x3).2.memWf = true := by
  unfold State.admLook
  grind [stored_admFloor, stored_cmProbe, stored_mk]

theorem stored_admLooks (x0 : State) (x1 x2 x3) (hW : x0.memWf = true) :
    (State.admLooks x0 x1 x2 x3).2.memWf = true := by
  induction x3 generalizing x0 x2 with
  | nil => first | exact hW | (unfold State.admLooks; exact hW) | (unfold State.admLooks; split <;> exact hW)
  | cons y ys ih =>
    unfold State.admLooks
    (try dsimp only)
    (repeat' split) <;> simp_all (maxDischargeDepth := 60) [stored_admLook, stored_foldl, stored_foldl2, stored_mk, stored_ite,
        stored_ite2, cl_mk, cl_ite, cl_reset]

theorem stored_admitHead (x0 : State) (x1 x2 x3 x4) (hW : x0.memWf = true) :
    (State.admitHead x0 x1 x2 x3 x4).2.memWf = true := by
  simp (maxDischargeDepth := 60) +contextual only [State.admitHead, stored_admLook, stored_commit, stored_setTn, stored_foldl,
      stored_foldl2, stored_mk, stored_ite, stored_ite2, cl_mk, cl_ite, cl_reset, hW]

theorem stored_admReserved (x0 : State) (x1 x2 x3) (hW : x0.memWf = true) :
    (State.admReserved x0 x1 x2 x3).2.memWf = true := by
  induction x3 generalizing x0 x2 with
  | zero => first | exact hW | (unfold State.admReserved; exact hW) | (unfold State.admReserved; split <;> exact hW)
  | succ n ih =>
    unfold State.admReserved
    (try dsimp only)
    (repeat' split) <;> simp_all (maxDischargeDepth := 60) [stored_admitHead, stored_foldl, stored_foldl2, stored_mk, stored_ite,
        stored_ite2, cl_mk, cl_ite, cl_reset]

theorem stored_admTurn (x0 : State) (x1 x2 x3 x4) (hW : x0.memWf = true) :
    (State.admTurn x0 x1 x2 x3 x4).2.memWf = true := by
  induction x4 generalizing x0 x3 with
  | zero => first | exact hW | (unfold State.admTurn; exact hW) | (unfold State.admTurn; split <;> exact hW)
  | succ n ih =>
    unfold State.admTurn
    (try dsimp only)
    (repeat' split) <;> simp_all (maxDischargeDepth := 60) [stored_admitHead, stored_foldl, stored_foldl2, stored_mk, stored_ite,
        stored_ite2, cl_mk, cl_ite, cl_reset]

theorem stored_admRounds (x0 : State) (x1 x2 x3) (hW : x0.memWf = true) :
    (State.admRounds x0 x1 x2 x3).2.memWf = true := by
  induction x3 generalizing x0 x1 x2 with
  | zero => first | exact hW | (unfold State.admRounds; exact hW) | (unfold State.admRounds; split <;> exact hW)
  | succ n ih =>
    unfold State.admRounds
    (try dsimp only)
    (repeat' split) <;> simp_all (maxDischargeDepth := 60) [stored_admTurn, stored_setTn, stored_foldl, stored_foldl2, stored_mk,
        stored_ite, stored_ite2, cl_mk, cl_ite, cl_reset]

theorem stored_admOne (x t) (hW : x.2.memWf = true) :
    (State.admOne x t).2.memWf = true := by
  simp (maxDischargeDepth := 60) +contextual only [State.admOne, stored_admReserved, stored_foldl, stored_foldl2, stored_mk,
      stored_ite, stored_ite2, cl_mk, cl_ite, cl_reset, hW]

theorem stored_admAll (ts x) (hW : x.2.memWf = true) :
    (State.admAll ts x).2.memWf = true := by
  unfold State.admAll
  (try dsimp only)
  (repeat' split) <;> simp_all (maxDischargeDepth := 60) [stored_admOne, stored_foldl, stored_foldl2, stored_mk, stored_ite,
      stored_ite2, cl_mk, cl_ite, cl_reset]

theorem stored_admLess (x) (hW : x.2.memWf = true) :
    (State.admLess x).2.memWf = true := by
  unfold State.admLess
  (try dsimp only)
  (with_reducible repeat' (first
      | assumption | intro _ | apply hf | apply stored_unlessHeld | apply stored_foldl | apply stored_foldl2 | simp only [stored_mk]
      | simp only [cl_mk] | apply cl_dmaFill | apply cl_resetCluster | apply cl_ctl | apply cl_reset | split | dsimp only | rfl))

theorem stored_admFirst (s : State) (kind a) (hW : s.memWf = true) :
    (State.admFirst s kind a).2.memWf = true := by
  unfold State.admFirst
  (try dsimp only)
  (with_reducible repeat' (first
      | assumption | intro _ | apply hf | apply stored_admAll | apply stored_admLess
      | (have e := congrArg Prod.snd ‹State.admAll _ _ = _›; dsimp only at e; subst e)
      | (have e := congrArg Prod.snd ‹State.admLess _ = _›; dsimp only at e; subst e) | apply stored_unlessHeld | apply stored_foldl
      | apply stored_foldl2 | simp only [stored_mk] | simp only [cl_mk] | apply cl_dmaFill | apply cl_resetCluster | apply cl_ctl
      | apply cl_reset | split | dsimp only | rfl))

theorem stored_admLost (x0 : State) (x1) (hW : x0.memWf = true) :
    (State.admLost x0 x1).2.memWf = true := by
  induction x1 generalizing x0 with
  | nil => first | exact hW | (unfold State.admLost; exact hW) | (unfold State.admLost; split <;> exact hW)
  | cons y ys ih =>
    unfold State.admLost
    (try dsimp only)
    (repeat' split) <;> simp_all (maxDischargeDepth := 60) [stored_cmProbe, stored_foldl, stored_foldl2, stored_mk, stored_ite,
        stored_ite2, cl_mk, cl_ite, cl_reset]

theorem stored_admission (x0 : State) (x1 x2) (hW : x0.memWf = true) :
    (State.admission x0 x1 x2).memWf = true := by
  simp (maxDischargeDepth := 60) +contextual only [State.admission, stored_admFirst, stored_admLooks, stored_admLost,
      stored_admRounds, stored_cmSetBytes, stored_cmTake, stored_wr, stored_foldl, stored_foldl2, stored_mk, stored_ite, stored_ite2,
      cl_mk, cl_ite, cl_reset, hW]

theorem stored_refillOne (x0 : State) (x1) (hW : x0.memWf = true) :
    (State.refillOne x0 x1).memWf = true := by
  simp (maxDischargeDepth := 60) +contextual only [State.refillOne, stored_cmProbe, stored_setBudget, stored_foldl, stored_foldl2,
      stored_mk, stored_ite, stored_ite2, cl_mk, cl_ite, cl_reset, hW]

theorem stored_refill (x0 : State) (hW : x0.memWf = true) :
    (State.refill x0).memWf = true := by
  unfold State.refill
  (try dsimp only)
  (repeat' split) <;> simp_all (maxDischargeDepth := 60) [stored_refillOne, stored_foldl, stored_foldl2, stored_mk, stored_ite,
      stored_ite2, cl_mk, cl_ite, cl_reset]

theorem stored_hold (x0 : State) (x1) (hW : x0.memWf = true) :
    (State.hold x0 x1).memWf = true := by
  simp (maxDischargeDepth := 60) +contextual only [State.hold, stored_foldl, stored_foldl2, stored_mk, stored_ite, stored_ite2,
      cl_mk, cl_ite, cl_reset, hW]

theorem stored_dmaServe (x0 : State) (x1 x2 x3 x4 x5 x6) (hW : x0.memWf = true) :
    (State.dmaServe x0 x1 x2 x3 x4 x5 x6).memWf = true := by
  simp (maxDischargeDepth := 60) +contextual only [State.dmaServe, stored_ctlDma, stored_hold, stored_hostWritten, stored_packet,
      stored_foldl, stored_foldl2, stored_mk, stored_ite, stored_ite2, cl_mk, cl_ite, cl_reset, hW]

theorem stored_stackPut (s : State) (n o a v) (hW : s.memWf = true) :
    (State.stackPut s n o a v).2.memWf = true := by
  unfold State.stackPut
  grind [stored_dramWrite, stored_hold, stored_mk]

theorem stored_stackWrite (s : State) (a v) (hW : s.memWf = true) :
    (State.stackWrite s a v).2.memWf = true := by
  simp (maxDischargeDepth := 60) +contextual only [State.stackWrite, stored_stackPut, stored_foldl, stored_foldl2, stored_mk,
      stored_ite, stored_ite2, cl_mk, cl_ite, cl_reset, hW]

theorem stored_admitOrHold (x0 : State) (x1 x2) (hW : x0.memWf = true) :
    (State.admitOrHold x0 x1 x2).memWf = true := by
  simp (maxDischargeDepth := 60) +contextual only [State.admitOrHold, stored_admission, stored_hold, stored_setFld, stored_foldl,
      stored_foldl2, stored_mk, stored_ite, stored_ite2, cl_mk, cl_ite, cl_reset, hW]

theorem replayOne_eq (x0 : State) (t : HeldTxn) : State.replayOne x0 t = match t with
  | .dma src f0 peer f2 tag host => x0.dmaServe src f0 peer f2 tag host
  | .write a v => (x0.stackWrite a v).2
  | .admission kind n => x0.admitOrHold kind n := rfl
theorem memWf_held (t : HeldTxn) (F : Nat → DWord → DWord → DWord → Word → Option (List Byte) → State) (G : Nat → Word → Nat × State) (H : Nat → Nat → State)
   (h1 : ∀ a b c d e f, (F a b c d e f).memWf = true) (h2 : ∀ a b, (G a b).2.memWf = true) (h3 : ∀ a b, (H a b).memWf = true) :
   (match t with
  | .dma src f0 peer f2 tag host => F src f0 peer f2 tag host
  | .write a v => (G a v).2
  | .admission kind n => H kind n).memWf = true := by
  cases t with
  | dma src f0 peer f2 tag host => exact h1 _ _ _ _ _ _
  | write a v => exact h2 _ _
  | admission kind n => exact h3 _ _
theorem stored_replayOne (x0 : State) (x1) (hW : x0.memWf = true) : (State.replayOne x0 x1).memWf = true := by
  rw [replayOne_eq]
  exact memWf_held _ _ _ _ (fun a b c d e f => stored_dmaServe x0 a b c d e f hW) (fun a b => stored_stackWrite x0 a b hW) (fun a b => stored_admitOrHold x0 a b hW)

theorem stored_replay (x0 : State) (hW : x0.memWf = true) :
    (State.replay x0).memWf = true := by
  unfold State.replay
  (try dsimp only)
  (repeat' split) <;> simp_all (maxDischargeDepth := 60) [stored_replayOne, stored_foldl, stored_foldl2, stored_mk, stored_ite,
      stored_ite2, cl_mk, cl_ite, cl_reset]

theorem stored_cryBegin (x0 : State) (hW : x0.memWf = true) :
    (State.cryBegin x0).memWf = true := by
  unfold State.cryBegin
  (try dsimp only)
  (repeat' split) <;> simp_all (maxDischargeDepth := 60) [stored_cmTake, stored_foldl, stored_foldl2, stored_mk, stored_ite,
      stored_ite2, cl_mk, cl_ite, cl_reset]

theorem stored_cryPush (x0 : State) (x1) (hW : x0.memWf = true) :
    (State.cryPush x0 x1).memWf = true := by
  simp (maxDischargeDepth := 60) +contextual only [State.cryPush, stored_cryBegin, stored_foldl, stored_foldl2, stored_mk,
      stored_ite, stored_ite2, cl_mk, cl_ite, cl_reset, hW]

theorem stored_cryNext (x0 : State) (hW : x0.memWf = true) :
    (State.cryNext x0).memWf = true := by
  simp (maxDischargeDepth := 60) +contextual only [State.cryNext, stored_cryBegin, stored_foldl, stored_foldl2, stored_mk,
      stored_ite, stored_ite2, cl_mk, cl_ite, cl_reset, hW]

theorem stored_cryStat (x0 : State) (x1 x2) (hW : x0.memWf = true) :
    (State.cryStat x0 x1 x2).memWf = true := by
  simp (maxDischargeDepth := 60) +contextual only [State.cryStat, stored_setFld, stored_foldl, stored_foldl2, stored_mk, stored_ite,
      stored_ite2, cl_mk, cl_ite, cl_reset, hW]

theorem stored_cryUnread (x0 : State) (hW : x0.memWf = true) :
    (State.cryUnread x0).memWf = true := by
  simp (maxDischargeDepth := 60) +contextual only [State.cryUnread, stored_cryStat, stored_fresh, stored_foldl, stored_foldl2,
      stored_mk, stored_ite, stored_ite2, cl_mk, cl_ite, cl_reset, hW]

theorem stored_quoteEnd (x0 : State) (hW : x0.memWf = true) :
    (State.quoteEnd x0).memWf = true := by
  unfold State.quoteEnd
  (try dsimp only)
  (repeat' split) <;> simp_all (maxDischargeDepth := 60) [stored_cmSetBytes, stored_cryNext, stored_cryStat, stored_cryUnread,
      stored_foldl, stored_foldl2, stored_mk, stored_ite, stored_ite2, cl_mk, cl_ite, cl_reset]

theorem stored_setSlot (x0 : State) (x1 x2) (hW : x0.memWf = true) :
    (State.setSlot x0 x1 x2).memWf = true := by
  simp (maxDischargeDepth := 60) +contextual only [State.setSlot, stored_foldl, stored_foldl2, stored_mk, stored_ite, stored_ite2,
      cl_mk, cl_ite, cl_reset, hW]

theorem stored_cmdSign (x0 : State) (x1) (hW : x0.memWf = true) :
    (State.cmdSign x0 x1).memWf = true := by
  unfold State.cmdSign
  grind [stored_cmSetBytes, stored_cmTake, stored_cryStat, stored_cryUnread, stored_signMsg, stored_mk]

theorem stored_cmdUnwrap (x0 : State) (x1 x2) (hW : x0.memWf = true) :
    (State.cmdUnwrap x0 x1 x2).memWf = true := by
  unfold State.cmdUnwrap
  grind [stored_cmSetBytes, stored_cmTake, stored_cryStat, stored_cryUnread, stored_setSlot, stored_mk]

theorem stored_cmdWrap (x0 : State) (x1 x2) (hW : x0.memWf = true) :
    (State.cmdWrap x0 x1 x2).memWf = true := by
  unfold State.cmdWrap
  grind [stored_cmSetBytes, stored_cmTake, stored_cryStat, stored_cryUnread, stored_fresh, stored_setSlot, stored_signMsg, stored_mk]

theorem stored_cmdErase (x0 : State) (x1) (hW : x0.memWf = true) :
    (State.cmdErase x0 x1).memWf = true := by
  simp (maxDischargeDepth := 60) +contextual only [State.cmdErase, stored_cryStat, stored_foldl, stored_foldl2, stored_mk,
      stored_ite, stored_ite2, cl_mk, cl_ite, cl_reset, hW]

theorem stored_cryEnd (x0 : State) (hW : x0.memWf = true) :
    (State.cryEnd x0).memWf = true := by
  unfold State.cryEnd
  grind [stored_cmdErase, stored_cmdSign, stored_cmdUnwrap, stored_cmdWrap, stored_cryNext, stored_mk]

theorem stored_cryApply (x0 : State) (x1) (hW : x0.memWf = true) :
    (State.cryApply x0 x1).memWf = true := by
  simp (maxDischargeDepth := 60) +contextual only [State.cryApply, stored_cryPush, stored_cryStat, stored_setFld, stored_foldl,
      stored_foldl2, stored_mk, stored_ite, stored_ite2, cl_mk, cl_ite, cl_reset, hW]

theorem stored_fuseRefuse (x0 : State) (x1) (hW : x0.memWf = true) :
    (State.fuseRefuse x0 x1).memWf = true := by
  simp (maxDischargeDepth := 60) +contextual only [State.fuseRefuse, stored_setFld, stored_foldl, stored_foldl2, stored_mk,
      stored_ite, stored_ite2, cl_mk, cl_ite, cl_reset, hW]

theorem stored_clearGo (x0 : State) (x1) (hW : x0.memWf = true) :
    (State.clearGo x0 x1).memWf = true := by
  unfold State.clearGo
  dsimp only
  split
  · exact hW
  · split
    · exact stored_setFld _ _ _ hW
    · exact memWf_mems (stored_setFld _ Rg.CMCLR_STAT_BUSY 1 (stored_setFld _ Rg.CMCLR_STAT_REFUSED 0 hW)) rfl rfl rfl

theorem stored_clearEnd (x0 : State) (hW : x0.memWf = true) :
    (State.clearEnd x0).memWf = true := by
  unfold State.clearEnd
  split
  · refine stored_setFld _ _ _ ?_
    have h := (memWf_iff _).mp hW
    exact (memWf_iff _).mpr ⟨Store.sorted_filter _ _ h.1, h.2⟩
  · exact hW

theorem stored_queueShow (x0 : State) (x1 x2) (hW : x0.memWf = true) :
    (State.queueShow x0 x1 x2).memWf = true := by
  unfold State.queueShow
  (try dsimp only)
  (repeat' split) <;> simp_all (maxDischargeDepth := 60) [stored_setQueue, stored_foldl, stored_foldl2, stored_mk, stored_ite,
      stored_ite2, cl_mk, cl_ite, cl_reset]

theorem stored_queueFree (x0 : State) (x1) (hW : x0.memWf = true) :
    (State.queueFree x0 x1).memWf = true := by
  simp (maxDischargeDepth := 60) +contextual only [State.queueFree, stored_setQueue, stored_foldl, stored_foldl2, stored_mk,
      stored_ite, stored_ite2, cl_mk, cl_ite, cl_reset, hW]

theorem stored_segPush (x0 : State) (x1 x2) (hW : x0.memWf = true) :
    (State.segPush x0 x1 x2).memWf = true := by
  simp (maxDischargeDepth := 60) +contextual only [State.segPush, stored_logRegion, stored_modRegion, stored_foldl, stored_foldl2,
      stored_mk, stored_ite, stored_ite2, cl_mk, cl_ite, cl_reset, hW]

theorem stored_haltPacket (x0 : State) (x1 x2) (hW : x0.memWf = true) :
    (State.haltPacket x0 x1 x2).memWf = true := by
  simp (maxDischargeDepth := 60) +contextual only [State.haltPacket, stored_modRegion, stored_raise, stored_foldl, stored_foldl2,
      stored_mk, stored_ite, stored_ite2, cl_mk, cl_ite, cl_reset, hW]

theorem stored_discardPacket (x0 : State) (x1 x2 x3) (hW : x0.memWf = true) :
    (State.discardPacket x0 x1 x2 x3).memWf = true := by
  simp (maxDischargeDepth := 60) +contextual only [State.discardPacket, stored_log, stored_foldl, stored_foldl2, stored_mk,
      stored_ite, stored_ite2, cl_mk, cl_ite, cl_reset, hW]

theorem stored_elogNotify (x0 : State) (hW : x0.memWf = true) :
    (State.elogNotify x0).memWf = true := by
  simp (maxDischargeDepth := 60) +contextual only [State.elogNotify, stored_notify, stored_foldl, stored_foldl2, stored_mk,
      stored_ite, stored_ite2, cl_mk, cl_ite, cl_reset, hW]

theorem stored_elogSignal (x0 : State) (hW : x0.memWf = true) :
    (State.elogSignal x0).memWf = true := by
  simp (maxDischargeDepth := 60) +contextual only [State.elogSignal, stored_elogNotify, stored_receive, stored_foldl, stored_foldl2,
      stored_mk, stored_ite, stored_ite2, cl_mk, cl_ite, cl_reset, hW]

theorem stored_elogWrite (x0 : State) (x1) (hW : x0.memWf = true) :
    (State.elogWrite x0 x1).memWf = true := by
  simp (maxDischargeDepth := 60) +contextual only [State.elogWrite, stored_cmSetWords, stored_elogSignal, stored_wr, stored_foldl,
      stored_foldl2, stored_mk, stored_ite, stored_ite2, cl_mk, cl_ite, cl_reset, hW]

theorem stored_release (x0 : State) (x1 x2) (hW : x0.memWf = true) :
    (State.release x0 x1 x2).memWf = true := by
  simp (maxDischargeDepth := 60) +contextual only [State.release, stored_modRegion, stored_foldl, stored_foldl2, stored_mk,
      stored_ite, stored_ite2, cl_mk, cl_ite, cl_reset, hW]

theorem stored_takeFault (x0 : State) (x1 x2) (hW : x0.memWf = true) :
    (State.takeFault x0 x1 x2).memWf = true := by
  simp (maxDischargeDepth := 60) +contextual only [State.takeFault, stored_elogWrite, stored_release, stored_foldl, stored_foldl2,
      stored_mk, stored_ite, stored_ite2, cl_mk, cl_ite, cl_reset, hW]

theorem stored_takeEntry (x0 : State) (x1) (hW : x0.memWf = true) :
    (State.takeEntry x0 x1).memWf = true := by
  simp (maxDischargeDepth := 60) +contextual only [State.takeEntry, stored_count, stored_elogWrite, stored_foldl, stored_foldl2,
      stored_mk, stored_ite, stored_ite2, cl_mk, cl_ite, cl_reset, hW]

theorem stored_drainBuf (x0 : State) (x1 x2) (hW : x0.memWf = true) :
    (State.drainBuf x0 x1 x2).memWf = true := by
  induction x2 generalizing x0 x1 with
  | zero => first | exact hW | (unfold State.drainBuf; exact hW) | (unfold State.drainBuf; split <;> exact hW)
  | succ n ih =>
    unfold State.drainBuf
    (try dsimp only)
    (repeat' split) <;> simp_all (maxDischargeDepth := 60) [stored_elogWrite, stored_release, stored_foldl, stored_foldl2, stored_mk,
        stored_ite, stored_ite2, cl_mk, cl_ite, cl_reset]

theorem stored_elogAdvance (x0 : State) (x1) (hW : x0.memWf = true) :
    (State.elogAdvance x0 x1).memWf = true := by
  unfold State.elogAdvance
  (try dsimp only)
  (repeat' split) <;> simp_all (maxDischargeDepth := 60) [stored_drainBuf, stored_wr, stored_foldl, stored_foldl2, stored_mk,
      stored_ite, stored_ite2, cl_mk, cl_ite, cl_reset]

theorem stored_resend (x0 : State) (x1) (hW : x0.memWf = true) :
    (State.resend x0 x1).memWf = true := by
  unfold State.resend
  (try dsimp only)
  (repeat' split) <;> simp_all (maxDischargeDepth := 60) [stored_modRegion, stored_packet, stored_foldl, stored_foldl2, stored_mk,
      stored_ite, stored_ite2, cl_mk, cl_ite, cl_reset]

theorem stored_holdExpire (x0 : State) (x1) (hW : x0.memWf = true) :
    (State.holdExpire x0 x1).memWf = true := by
  unfold State.holdExpire
  (try dsimp only)
  (repeat' split) <;> simp_all (maxDischargeDepth := 60) [stored_modRegion, stored_packet, stored_foldl, stored_foldl2, stored_mk,
      stored_ite, stored_ite2, cl_mk, cl_ite, cl_reset]

theorem stored_alarmDrive (x0 : State) (hW : x0.memWf = true) :
    (State.alarmDrive x0).memWf = true := by
  simp (maxDischargeDepth := 60) +contextual only [State.alarmDrive, stored_emit, stored_setFld, stored_foldl, stored_foldl2,
      stored_mk, stored_ite, stored_ite2, cl_mk, cl_ite, cl_reset, hW]

theorem stored_alarmRecord (x0 : State) (x1) (hW : x0.memWf = true) :
    (State.alarmRecord x0 x1).memWf = true := by
  simp (maxDischargeDepth := 60) +contextual only [State.alarmRecord, stored_record, stored_setFld, stored_signal, stored_foldl,
      stored_foldl2, stored_mk, stored_ite, stored_ite2, cl_mk, cl_ite, cl_reset, hW]

theorem stored_alarm (x0 : State) (x1) (hW : x0.memWf = true) :
    (State.alarm x0 x1).memWf = true := by
  simp (maxDischargeDepth := 60) +contextual only [State.alarm, stored_alarmDrive, stored_alarmRecord, stored_haltAll,
      stored_pgoodLow, stored_foldl, stored_foldl2, stored_mk, stored_ite, stored_ite2, cl_mk, cl_ite, cl_reset, hW]

theorem stored_coolantEntry (x0 : State) (hW : x0.memWf = true) :
    (State.coolantEntry x0).memWf = true := by
  simp (maxDischargeDepth := 60) +contextual only [State.coolantEntry, stored_logEdge, stored_foldl, stored_foldl2, stored_mk,
      stored_ite, stored_ite2, cl_mk, cl_ite, cl_reset, hW]

theorem stored_plateBit (x0 : State) (x1 x2) (hW : x0.memWf = true) :
    (State.plateBit x0 x1 x2).memWf = true := by
  simp (maxDischargeDepth := 60) +contextual only [State.plateBit, stored_coolantEntry, stored_wr, stored_foldl, stored_foldl2,
      stored_mk, stored_ite, stored_ite2, cl_mk, cl_ite, cl_reset, hW]

theorem stored_plateAlarm (x0 : State) (hW : x0.memWf = true) :
    (State.plateAlarm x0).memWf = true := by
  simp (maxDischargeDepth := 60) +contextual only [State.plateAlarm, stored_alarm, stored_foldl, stored_foldl2, stored_mk,
      stored_ite, stored_ite2, cl_mk, cl_ite, cl_reset, hW]

theorem stored_plateBits (x0 : State) (x1) (hW : x0.memWf = true) :
    (State.plateBits x0 x1).memWf = true := by
  simp (maxDischargeDepth := 60) +contextual only [State.plateBits, stored_plateBit, stored_foldl, stored_foldl2, stored_mk,
      stored_ite, stored_ite2, cl_mk, cl_ite, cl_reset, hW]

theorem stored_plateRegs (x0 : State) (x1) (hW : x0.memWf = true) :
    (State.plateRegs x0 x1).memWf = true := by
  simp (maxDischargeDepth := 60) +contextual only [State.plateRegs, stored_setFld, stored_foldl, stored_foldl2, stored_mk,
      stored_ite, stored_ite2, cl_mk, cl_ite, cl_reset, hW]

theorem stored_plateSample (x0 : State) (x1) (hW : x0.memWf = true) :
    (State.plateSample x0 x1).memWf = true := by
  unfold State.plateSample State.plateAlarm State.plateBits State.plateRegs
  dsimp only
  split
  · exact hW
  · have h : ({ x0 with plate := State.plateNext x0.plate x1 } : State).memWf = true := hW
    (with_reducible repeat' (first | assumption | apply stored_setFld | apply stored_plateBit | apply stored_alarm | split))

theorem stored_pcool (x0 : State) (x1 x2 x3 x4) (hW : x0.memWf = true) :
    (State.pcool x0 x1 x2 x3 x4).memWf = true := by
  simp (maxDischargeDepth := 60) +contextual only [State.pcool, stored_setFld, stored_foldl, stored_foldl2, stored_mk, stored_ite,
      stored_ite2, cl_mk, cl_ite, cl_reset, hW]

theorem stored_overtemp (x0 : State) (hW : x0.memWf = true) :
    (State.overtemp x0).memWf = true := by
  simp (maxDischargeDepth := 60) +contextual only [State.overtemp, stored_coolantEntry, stored_powerDown, stored_foldl,
      stored_foldl2, stored_mk, stored_ite, stored_ite2, cl_mk, cl_ite, cl_reset, hW]

theorem stored_diodeEntry (x0 : State) (x1 x2 x3 x4) (hW : x0.memWf = true) :
    (State.diodeEntry x0 x1 x2 x3 x4).memWf = true := by
  simp (maxDischargeDepth := 60) +contextual only [State.diodeEntry, stored_logRegion, stored_foldl, stored_foldl2, stored_mk,
      stored_ite, stored_ite2, cl_mk, cl_ite, cl_reset, hW]

theorem stored_pairSample (x0 : State) (x1 x2 x3) (hW : x0.memWf = true) :
    (State.pairSample x0 x1 x2 x3).memWf = true := by
  unfold State.pairSample
  (with_reducible repeat' (first | assumption | apply stored_setFld | apply stored_diodeEntry | apply stored_modRegion | apply stored_ite | dsimp only))

theorem stored_trip (x0 : State) (x1 x2 x3) (hW : x0.memWf = true) :
    (State.trip x0 x1 x2 x3).memWf = true := by
  simp (maxDischargeDepth := 60) +contextual only [State.trip, stored_raise, stored_setFld, stored_foldl, stored_foldl2, stored_mk,
      stored_ite, stored_ite2, cl_mk, cl_ite, cl_reset, hW]

theorem stored_regionTemps (x0 : State) (x1 x2 x3) (hW : x0.memWf = true) :
    (State.regionTemps x0 x1 x2 x3).memWf = true := by
  simp (maxDischargeDepth := 60) +contextual only [State.regionTemps, stored_modRegion, stored_setFld, stored_foldl, stored_foldl2,
      stored_mk, stored_ite, stored_ite2, cl_mk, cl_ite, cl_reset, hW]

theorem stored_regionSample (x0 : State) (x1 x2) (hW : x0.memWf = true) :
    (State.regionSample x0 x1 x2).memWf = true := by
  unfold State.regionSample
  (try dsimp only)
  (repeat' split) <;> simp_all (maxDischargeDepth := 60) [stored_pairSample, stored_regionTemps, stored_trip, stored_foldl,
      stored_foldl2, stored_mk, stored_ite, stored_ite2, cl_mk, cl_ite, cl_reset]

theorem stored_tlim (x0 : State) (x1) (hW : x0.memWf = true) :
    (State.tlim x0 x1).memWf = true := by
  simp (maxDischargeDepth := 60) +contextual only [State.tlim, stored_modRegion, stored_setFld, stored_foldl, stored_foldl2,
      stored_mk, stored_ite, stored_ite2, cl_mk, cl_ite, cl_reset, hW]

theorem stored_tripClear (x0 : State) (x1) (hW : x0.memWf = true) :
    (State.tripClear x0 x1).memWf = true := by
  simp (maxDischargeDepth := 60) +contextual only [State.tripClear, stored_setFld, stored_foldl, stored_foldl2, stored_mk,
      stored_ite, stored_ite2, cl_mk, cl_ite, cl_reset, hW]

theorem stored_setHeat (x0 : State) (x1 x2) (hW : x0.memWf = true) :
    (State.setHeat x0 x1 x2).memWf = true := by
  simp (maxDischargeDepth := 60) +contextual only [State.setHeat, stored_foldl, stored_foldl2, stored_mk, stored_ite, stored_ite2,
      cl_mk, cl_ite, cl_reset, hW]

theorem stored_stackTrip (x0 : State) (x1 x2) (hW : x0.memWf = true) :
    (State.stackTrip x0 x1 x2).memWf = true := by
  unfold State.stackTrip
  (try dsimp only)
  (repeat' split) <;> simp_all (maxDischargeDepth := 60) [stored_packet, stored_record, stored_setFld, stored_foldl, stored_foldl2,
      stored_mk, stored_ite, stored_ite2, cl_mk, cl_ite, cl_reset]

theorem stored_suspectQuarter (x0 : State) (x1 x2) (hW : x0.memWf = true) :
    (State.suspectQuarter x0 x1 x2).memWf = true := by
  simp (maxDischargeDepth := 60) +contextual only [State.suspectQuarter, stored_logEdge, stored_setFld, stored_foldl, stored_foldl2,
      stored_mk, stored_ite, stored_ite2, cl_mk, cl_ite, cl_reset, hW]

theorem stored_stackSuspects (x0 : State) (x1 x2) (hW : x0.memWf = true) :
    (State.stackSuspects x0 x1 x2).memWf = true := by
  unfold State.stackSuspects
  (try dsimp only)
  (repeat' split) <;> simp_all (maxDischargeDepth := 60) [stored_suspectQuarter, stored_foldl, stored_foldl2, stored_mk, stored_ite,
      stored_ite2, cl_mk, cl_ite, cl_reset]

theorem stored_stackTemp (x0 : State) (x1 x2) (hW : x0.memWf = true) :
    (State.stackTemp x0 x1 x2).2.memWf = true := by
  simp (maxDischargeDepth := 60) +contextual only [State.stackTemp, stored_fresh, stored_foldl, stored_foldl2, stored_mk, stored_ite,
      stored_ite2, cl_mk, cl_ite, cl_reset, hW]

theorem stored_stackAct (x0 : State) (x1 x2 x3 x4) (hW : x0.memWf = true) :
    (State.stackAct x0 x1 x2 x3 x4).memWf = true := by
  simp (maxDischargeDepth := 60) +contextual only [State.stackAct, stored_logEdge, stored_setFld, stored_setHeat, stored_stackTrip,
      stored_foldl, stored_foldl2, stored_mk, stored_ite, stored_ite2, cl_mk, cl_ite, cl_reset, hW]

theorem stored_stackSample (x0 : State) (x1 x2) (hW : x0.memWf = true) :
    (State.stackSample x0 x1 x2).memWf = true := by
  simp (maxDischargeDepth := 60) +contextual only [State.stackSample, stored_stackAct, stored_stackSuspects, stored_stackTemp,
      stored_foldl, stored_foldl2, stored_mk, stored_ite, stored_ite2, cl_mk, cl_ite, cl_reset, hW]

theorem stored_stlim (x0 : State) (x1) (hW : x0.memWf = true) :
    (State.stlim x0 x1).memWf = true := by
  simp (maxDischargeDepth := 60) +contextual only [State.stlim, stored_setFld, stored_foldl, stored_foldl2, stored_mk, stored_ite,
      stored_ite2, cl_mk, cl_ite, cl_reset, hW]

theorem stored_stackClear (x0 : State) (x1) (hW : x0.memWf = true) :
    (State.stackClear x0 x1).memWf = true := by
  simp (maxDischargeDepth := 60) +contextual only [State.stackClear, stored_replay, stored_setFld, stored_foldl, stored_foldl2,
      stored_mk, stored_ite, stored_ite2, cl_mk, cl_ite, cl_reset, hW]

theorem stored_journal (x0 : State) (x1 x2 x3 x4 x5 x6 x7 x8 x9) (hW : x0.memWf = true) :
    (State.journal x0 x1 x2 x3 x4 x5 x6 x7 x8 x9).memWf = true := by
  simp (maxDischargeDepth := 60) +contextual only [State.journal, stored_signal, stored_foldl, stored_foldl2, stored_mk, stored_ite,
      stored_ite2, cl_mk, cl_ite, cl_reset, hW]

theorem stored_refCtlWrite (x0 : State) (x1) (hW : x0.memWf = true) :
    (State.refCtlWrite x0 x1).memWf = true := by
  simp (maxDischargeDepth := 60) +contextual only [State.refCtlWrite, stored_journal, stored_refCtl, stored_foldl, stored_foldl2,
      stored_mk, stored_ite, stored_ite2, cl_mk, cl_ite, cl_reset, hW]

theorem stored_closeWindow (x0 : State) (hW : x0.memWf = true) :
    (State.closeWindow x0).memWf = true := by
  simp (maxDischargeDepth := 60) +contextual only [State.closeWindow, stored_setFld, stored_foldl, stored_foldl2, stored_mk,
      stored_ite, stored_ite2, cl_mk, cl_ite, cl_reset, hW]

theorem stored_windowTimeout (x0 : State) (hW : x0.memWf = true) :
    (State.windowTimeout x0).memWf = true := by
  unfold State.windowTimeout
  (try dsimp only)
  (repeat' split) <;> simp_all (maxDischargeDepth := 60) [stored_closeWindow, stored_foldl, stored_foldl2, stored_mk, stored_ite,
      stored_ite2, cl_mk, cl_ite, cl_reset]

theorem stored_writeEffect (x0 : State) (x1 x2 x3) (hW : x0.memWf = true) :
    (State.writeEffect x0 x1 x2 x3).memWf = true := by
  unfold State.writeEffect
  (try dsimp only)
  (repeat' split) <;> simp_all (maxDischargeDepth := 60) [stored_closeWindow, stored_cryPush, stored_refCtl, stored_foldl,
      stored_foldl2, stored_mk, stored_ite, stored_ite2, cl_mk, cl_ite, cl_reset]

theorem stored_writeAccept (x0 : State) (x1 x2 x3 x4 x5 x6) (hW : x0.memWf = true) :
    (State.writeAccept x0 x1 x2 x3 x4 x5 x6).memWf = true := by
  unfold State.writeAccept
  (try dsimp only)
  (repeat' split) <;> simp_all (maxDischargeDepth := 60) [stored_journal, stored_writeEffect, stored_foldl, stored_foldl2, stored_mk,
      stored_ite, stored_ite2, cl_mk, cl_ite, cl_reset]

theorem stored_respond (x0 : State) (x1 x2 x3 x4 x5 x6 x7 x8) (hW : x0.memWf = true) :
    (State.respond x0 x1 x2 x3 x4 x5 x6 x7 x8).memWf = true := by
  simp (maxDischargeDepth := 60) +contextual only [State.respond, stored_frame, stored_foldl, stored_foldl2, stored_mk, stored_ite,
      stored_ite2, cl_mk, cl_ite, cl_reset, hW]

theorem stored_quivorRequest (x0 : State) (x1 x2 x3) (hW : x0.memWf = true) :
    (State.quivorRequest x0 x1 x2 x3).memWf = true := by
  unfold State.quivorRequest
  (try dsimp only)
  (repeat' split) <;> simp_all (maxDischargeDepth := 60) [stored_frame, stored_respond, stored_writeAccept, stored_foldl,
      stored_foldl2, stored_mk, stored_ite, stored_ite2, cl_mk, cl_ite, cl_reset]

theorem stored_notifyTick (x0 : State) (hW : x0.memWf = true) :
    (State.notifyTick x0).memWf = true := by
  unfold State.notifyTick
  (try dsimp only)
  (repeat' split) <;> simp_all (maxDischargeDepth := 60) [stored_elogNotify, stored_foldl, stored_foldl2, stored_mk, stored_ite,
      stored_ite2, cl_mk, cl_ite, cl_reset]

theorem stored_addressTake (x0 : State) (x1) (hW : x0.memWf = true) :
    (State.addressTake x0 x1).memWf = true := by
  unfold State.addressTake
  dsimp only
  split
  · exact hW
  · refine stored_setFld _ _ _ (stored_emit _ _ (with_mg _ _ (stored_setFld _ _ _ (stored_setFld _ _ _ (stored_setFld _ _ _ ?_)))))
    split
    · exact hW
    · exact stored_fresh _ _ hW

theorem stored_pulseTake (x0 : State) (hW : x0.memWf = true) :
    (State.pulseTake x0).memWf = true := by
  simp (maxDischargeDepth := 60) +contextual only [State.pulseTake, stored_emit, stored_foldl, stored_foldl2, stored_mk, stored_ite,
      stored_ite2, cl_mk, cl_ite, cl_reset, hW]

theorem stored_badPattern (x0 : State) (hW : x0.memWf = true) :
    (State.badPattern x0).memWf = true := by
  simp (maxDischargeDepth := 60) +contextual only [State.badPattern, stored_setFld, stored_foldl, stored_foldl2, stored_mk,
      stored_ite, stored_ite2, cl_mk, cl_ite, cl_reset, hW]

theorem stored_syncTake (x0 : State) (x1) (hW : x0.memWf = true) :
    (State.syncTake x0 x1).memWf = true := by
  simp (maxDischargeDepth := 60) +contextual only [State.syncTake, stored_foldl, stored_foldl2, stored_mk, stored_ite, stored_ite2,
      cl_mk, cl_ite, cl_reset, hW]

theorem stored_peerDelay (x0 : State) (x1) (hW : x0.memWf = true) :
    (State.peerDelay x0 x1).memWf = true := by
  simp (maxDischargeDepth := 60) +contextual only [State.peerDelay, stored_frame, stored_foldl, stored_foldl2, stored_mk, stored_ite,
      stored_ite2, cl_mk, cl_ite, cl_reset, hW]

theorem stored_stepTime (x0 : State) (x1) (hW : x0.memWf = true) :
    (State.stepTime x0 x1).memWf = true := by
  simp (maxDischargeDepth := 60) +contextual only [State.stepTime, stored_journal, stored_setFld, stored_foldl, stored_foldl2,
      stored_mk, stored_ite, stored_ite2, cl_mk, cl_ite, cl_reset, hW]

theorem stored_offsetStep (s : State) (hW : s.memWf = true) :
    s.offsetStep.memWf = true := by
  unfold State.offsetStep
  split
  · exact hW
  · split
    · rename_i off st _
      have h := stored_setFld _ Rg.TB_STAT_STATE st (stored_wr s Rg.TB_OFS (State.satI32 off) hW)
      dsimp only
      split
      · exact stored_stepTime _ _ (memWf_mems h rfl rfl rfl)
      · exact memWf_mems h rfl rfl rfl
    · split
      · split
        · exact stored_setFld _ _ _ hW
        · exact hW
      · exact hW

theorem stored_samplerFault (x0 : State) (x1 x2 x3 x4 x5) (hW : x0.memWf = true) :
    (State.samplerFault x0 x1 x2 x3 x4 x5).memWf = true := by
  simp (maxDischargeDepth := 60) +contextual only [State.samplerFault, stored_raise, stored_foldl, stored_foldl2, stored_mk,
      stored_ite, stored_ite2, cl_mk, cl_ite, cl_reset, hW]

theorem stored_rowRead (x0 : State) (x1 x2 x3) (hW : x0.memWf = true) :
    (State.rowRead x0 x1 x2 x3).2.memWf = true := by
  unfold State.rowRead
  grind [stored_cmTake, stored_samplerFault, stored_mk]

theorem stored_ctxRead (x0 : State) (x1 x2 x3 x4 x5) (hW : x0.memWf = true) :
    (State.ctxRead x0 x1 x2 x3 x4 x5).2.memWf = true := by
  unfold State.ctxRead
  grind [stored_pageTake, stored_samplerFault, stored_mk]

theorem stored_ctxHeader (x0 : State) (x1 x2 x3) (hW : x0.memWf = true) :
    (State.ctxHeader x0 x1 x2 x3).2.memWf = true := by
  unfold State.ctxHeader
  grind [stored_ctxRead, stored_samplerFault, stored_mk]

theorem stored_ctxWrite (x0 : State) (x1 x2 x3 x4) (hW : x0.memWf = true) :
    (State.ctxWrite x0 x1 x2 x3 x4).memWf = true := by
  unfold State.ctxWrite
  grind [stored_pageWrite, stored_samplerFault, stored_mk]

theorem stored_smprPush (x0 : State) (x1 x2 x3) (hW : x0.memWf = true) :
    (State.smprPush x0 x1 x2 x3).memWf = true := by
  simp (maxDischargeDepth := 60) +contextual only [State.smprPush, stored_modRegion, stored_foldl, stored_foldl2, stored_mk,
      stored_ite, stored_ite2, cl_mk, cl_ite, cl_reset, hW]

theorem stored_tokensRecord (x0 : State) (x1 x2) (hW : x0.memWf = true) :
    (State.tokensRecord x0 x1 x2).2.memWf = true := by
  unfold State.tokensRecord
  grind [stored_ctxHeader, stored_ctxRead, stored_pageTake, stored_samplerFault, stored_mk]

theorem stored_adjRecords (s : State) (r w d h n j) (hW : s.memWf = true) :
    (State.adjRecords s r w d h n j).2.memWf = true := by
  induction n generalizing s j with
  | zero => exact hW
  | succ n ih =>
    unfold State.adjRecords
    have h1 := stored_ctxRead s r 1 w 64 1024 hW
    split
    · rename_i e1
      rw [e1] at h1
      exact h1
    · rename_i pen s1 e1
      rw [e1] at h1
      have h2 := stored_ctxRead s1 r 1 w (65536 + 32768 * j + d.vlo / 8) (d.vn / 8) h1
      split
      · rename_i e2
        rw [e2] at h2
        exact h2
      · rename_i mask s2 e2
        rw [e2] at h2
        have h3 := ih s2 (j + 1) h2
        split
        · rename_i e3
          rw [e3] at h3
          exact h3
        · rename_i e3
          rw [e3] at h3
          exact h3

theorem stored_feedDecl (x0 : State) (x1 x2 x3) (hW : x0.memWf = true) :
    (State.feedDecl x0 x1 x2 x3).memWf = true := by
  unfold State.feedDecl
  grind [stored_adjRecords, stored_ctxHeader, stored_smprPush, stored_tokensRecord, stored_mk]

theorem stored_floorPush (x0 : State) (x1 x2 x3) (hW : x0.memWf = true) :
    (State.floorPush x0 x1 x2 x3).memWf = true := by
  simp (maxDischargeDepth := 60) +contextual only [State.floorPush, stored_smprPush, stored_foldl, stored_foldl2, stored_mk,
      stored_ite, stored_ite2, cl_mk, cl_ite, cl_reset, hW]

theorem stored_requestRead (x0 : State) (x1 x2 x3) (hW : x0.memWf = true) :
    (State.requestRead x0 x1 x2 x3).2.memWf = true := by
  unfold State.requestRead
  grind [stored_cmTake, stored_samplerFault, stored_mk]

theorem stored_rowsRead (x0 : State) (x1 x2) (hW : x0.memWf = true) :
    (State.rowsRead x0 x1 x2).2.memWf = true := by
  induction x2 generalizing x0 with
  | nil => first | exact hW | (unfold State.rowsRead; exact hW) | (unfold State.rowsRead; split <;> exact hW)
  | cons y ys ih =>
    unfold State.rowsRead
    grind [stored_cmTake, stored_samplerFault, stored_mk]

theorem stored_feed (s : State) (r row) (hW : s.memWf = true) :
    (State.feed s r row).memWf = true := by
  unfold State.feed
  dsimp only
  generalize hs : (if (s.region r).feedSeq = s.rd (Rg.SEGSEQ r) then s
    else s.modRegion r fun g => { g with feedSeq := s.rd (Rg.SEGSEQ r), feedPass := 0, feedRow := 0 }) = s1
  have e1 : s1.memWf = true := by
    rw [← hs]
    split
    · exact hW
    · exact stored_modRegion _ _ _ hW
  have h1 := stored_rowRead s1 r 1 row e1
  split
  · exact e1
  · split
    · rename_i e2
      rw [e2] at h1
      exact h1
    · rename_i w s2 e2
      rw [e2] at h1
      split
      · exact stored_foldl _ (fun s d h => stored_feedDecl _ _ _ _ h) _ _ (stored_modRegion _ _ _ h1)
      · split
        · exact h1
        · generalize hx : (if w.kind = 4 then s2.requestRead r 1 w else (true, s2)) = x
          have h3 : x.2.memWf = true := by
            rw [← hx]
            split
            · exact stored_requestRead _ _ _ _ h1
            · exact h1
          split
          · exact h3
          · split
            · exact h3
            · exact stored_foldl _ (fun s d h => stored_floorPush _ _ _ _ h) _ _ (stored_modRegion _ _ _ h3)

theorem stored_sendToken (x0 : State) (x1 x2 x3 x4 x5 x6 x7 x8) (hW : x0.memWf = true) :
    (State.sendToken x0 x1 x2 x3 x4 x5 x6 x7 x8).memWf = true := by
  simp (maxDischargeDepth := 60) +contextual only [State.sendToken, stored_packet, stored_foldl, stored_foldl2, stored_mk,
      stored_ite, stored_ite2, cl_mk, cl_ite, cl_reset, hW]

theorem stored_sendReport (x0 : State) (x1 x2 x3 x4) (hW : x0.memWf = true) :
    (State.sendReport x0 x1 x2 x3 x4).memWf = true := by
  simp (maxDischargeDepth := 60) +contextual only [State.sendReport, stored_count, stored_sendToken, stored_foldl, stored_foldl2,
      stored_mk, stored_ite, stored_ite2, cl_mk, cl_ite, cl_reset, hW]

theorem stored_decide1 (x0 : State) (x1 x2 x3 x4 x5 x6 x7 x8 x9 x10) (hW : x0.memWf = true) :
    (State.decide1 x0 x1 x2 x3 x4 x5 x6 x7 x8 x9 x10).memWf = true := by
  simp (maxDischargeDepth := 60) +contextual only [State.decide1, stored_count, stored_ctxWrite, stored_sendToken, stored_foldl,
      stored_foldl2, stored_mk, stored_ite, stored_ite2, cl_mk, cl_ite, cl_reset, hW]

theorem stored_decideDraft (x0 : State) (x1 x2 x3 x4 x5 x6) (hW : x0.memWf = true) :
    (State.decideDraft x0 x1 x2 x3 x4 x5 x6).memWf = true := by
  simp (maxDischargeDepth := 60) +contextual only [State.decideDraft, stored_count, stored_ctxWrite, stored_sendToken, stored_foldl,
      stored_foldl2, stored_mk, stored_ite, stored_ite2, cl_mk, cl_ite, cl_reset, hW]

theorem stored_sampleRow (s : State) (r w recs) (hW : s.memWf = true) :
    (State.sampleRow s r w recs).memWf = true := by
  unfold State.sampleRow
  (try dsimp only)
  (with_reducible repeat' (first
      | assumption | intro _ | apply hf | apply stored_ctxHeader | apply stored_decide1 | apply stored_decideDraft
      | apply stored_sendReport | (have e := congrArg Prod.snd ‹State.ctxHeader _ _ _ _ = _›; dsimp only at e; subst e)
      | apply stored_unlessHeld | apply stored_foldl | apply stored_foldl2 | simp only [stored_mk] | simp only [cl_mk]
      | apply cl_dmaFill | apply cl_resetCluster | apply cl_ctl | apply cl_reset | split | dsimp only | rfl))

theorem stored_verifyFrom (s : State) (r w q passes recs n j) (hW : s.memWf = true) :
    (State.verifyFrom s r w q passes recs n j).memWf = true := by
  induction n generalizing s j with
  | zero =>
    unfold State.verifyFrom
    split
    · exact hW
    · split
      · exact hW
      · split
        · exact stored_sendReport _ _ _ _ _ hW
        · exact stored_sendReport _ _ _ _ _ hW
        · dsimp only
          split
          · exact stored_sendReport _ _ _ _ _ hW
          · apply stored_decide1; exact hW
  | succ n ih =>
    unfold State.verifyFrom
    split
    · exact hW
    · split
      · exact hW
      · split
        · exact stored_sendReport _ _ _ _ _ hW
        · exact stored_sendReport _ _ _ _ _ hW
        · dsimp only
          have h1 := stored_ctxRead s r 0 w (8192 + 4 * j) 4 hW
          split
          · rename_i e1
            rw [e1] at h1
            exact h1
          · rename_i tb s1 e1
            rw [e1] at h1
            have h2 := stored_ctxRead s1 r 0 w (4096 + 512 * j) 512 h1
            split
            · rename_i e2
              rw [e2] at h2
              exact h2
            · rename_i dq s2 e2
              rw [e2] at h2
              split
              · refine ih _ _ ?_
                apply stored_decide1
                exact stored_count _ _ _ h2
              · split
                · exact stored_sendReport _ _ _ _ _ (stored_count _ _ _ h2)
                · apply stored_decide1
                  exact stored_count _ _ _ h2

theorem stored_takeRow (s : State) (r row : Nat) (want : Nat → Bool) (f : State → RowEntry → List SmpRec → State)
    (hf : ∀ s w l, s.memWf = true → ((f s w l)).memWf = true) (hW : s.memWf = true) :
    (State.takeRow s r row want f).memWf = true := by
  unfold State.takeRow
  (try dsimp only)
  (with_reducible repeat' (first
      | assumption | intro _ | apply hf | apply stored_modRegion | apply stored_requestRead | apply stored_rowRead
      | apply stored_rowsRead | apply stored_samplerFault
      | (have e := congrArg Prod.snd ‹State.requestRead _ _ _ _ = _›; dsimp only at e; subst e)
      | (have e := congrArg Prod.snd ‹State.rowRead _ _ _ _ = _›; dsimp only at e; subst e)
      | (have e := congrArg Prod.snd ‹State.rowsRead _ _ _ = _›; dsimp only at e; subst e) | apply stored_unlessHeld
      | apply stored_foldl | apply stored_foldl2 | simp only [stored_mk] | simp only [cl_mk] | apply cl_dmaFill
      | apply cl_resetCluster | apply cl_ctl | apply cl_reset | split | dsimp only | rfl))

theorem stored_disarmPair (x0 : State) (x1) (hW : x0.memWf = true) :
    (State.disarmPair x0 x1).memWf = true := by
  simp (maxDischargeDepth := 60) +contextual only [State.disarmPair, stored_foldl, stored_foldl2, stored_mk, stored_ite, stored_ite2,
      cl_mk, cl_ite, cl_reset, hW]

theorem stored_lapse (x0 : State) (x1) (hW : x0.memWf = true) :
    (State.lapse x0 x1).memWf = true := by
  unfold State.lapse
  (try dsimp only)
  (repeat' split) <;> simp_all (maxDischargeDepth := 60) [stored_count, stored_disarmPair, stored_foldl, stored_foldl2, stored_mk,
      stored_ite, stored_ite2, cl_mk, cl_ite, cl_reset]

theorem stored_firstHalf (x0 : State) (x1 x2 x3) (hW : x0.memWf = true) :
    (State.firstHalf x0 x1 x2 x3).2.memWf = true := by
  unfold State.firstHalf
  (try dsimp only)
  (repeat' split) <;> simp_all (maxDischargeDepth := 60) [stored_lapse, stored_foldl, stored_foldl2, stored_mk, stored_ite,
      stored_ite2, cl_mk, cl_ite, cl_reset]

theorem stored_cmReader (x0 : State) (x1) (hW : x0.memWf = true) :
    (State.cmReader x0 x1).2.memWf = true := by
  unfold State.cmReader
  (try dsimp only)
  (repeat' split) <;> simp_all (maxDischargeDepth := 60) [stored_fresh, stored_foldl, stored_foldl2, stored_mk, stored_ite,
      stored_ite2, cl_mk, cl_ite, cl_reset]

theorem stored_cmHalf (x0 : State) (x1 x2) (hW : x0.memWf = true) :
    (State.cmHalf x0 x1 x2).2.2.memWf = true := by
  unfold State.cmHalf
  (try dsimp only)
  (repeat' split) <;> simp_all (maxDischargeDepth := 60) [stored_cmRead, stored_cmReader, stored_fresh, stored_foldl, stored_foldl2,
      stored_mk, stored_ite, stored_ite2, cl_mk, cl_ite, cl_reset]

theorem stored_cmHalfWrite (x0 : State) (x1 x2) (hW : x0.memWf = true) :
    (State.cmHalfWrite x0 x1 x2).memWf = true := by
  unfold State.cmHalfWrite
  (try dsimp only)
  (repeat' split) <;> simp_all (maxDischargeDepth := 60) [stored_cmPut, stored_cmWrite, stored_fresh, stored_foldl, stored_foldl2,
      stored_mk, stored_ite, stored_ite2, cl_mk, cl_ite, cl_reset]

theorem stored_rawBad (x0 : State) (x1 x2 x3) (hW : x0.memWf = true) :
    (State.rawBad x0 x1 x2 x3).2.2.memWf = true := by
  simp (maxDischargeDepth := 60) +contextual only [State.rawBad, stored_log, stored_foldl, stored_foldl2, stored_mk, stored_ite,
      stored_ite2, cl_mk, cl_ite, cl_reset, hW]

theorem stored_spRawRead (x0 : State) (x1 x2 x3 x4) (hW : x0.memWf = true) :
    (State.spRawRead x0 x1 x2 x3 x4).2.2.memWf = true := by
  unfold State.spRawRead
  (try dsimp only)
  (repeat' split) <;> simp_all (maxDischargeDepth := 60) [stored_count, stored_log, stored_rawBad, stored_foldl, stored_foldl2,
      stored_mk, stored_ite, stored_ite2, cl_mk, cl_ite, cl_reset]

theorem stored_spRawWrite (x0 : State) (x1 x2 x3 x4) (hW : x0.memWf = true) :
    (State.spRawWrite x0 x1 x2 x3 x4).memWf = true := by
  simp (maxDischargeDepth := 60) +contextual only [State.spRawWrite, stored_spCell, stored_spPut, stored_foldl, stored_foldl2,
      stored_mk, stored_ite, stored_ite2, cl_mk, cl_ite, cl_reset, hW]

theorem stored_progRawRead (x0 : State) (x1 x2 x3 x4) (hW : x0.memWf = true) :
    (State.progRawRead x0 x1 x2 x3 x4).2.2.memWf = true := by
  unfold State.progRawRead
  (try dsimp only)
  (with_reducible repeat' (first
      | assumption | intro _ | apply hf | apply stored_count | apply stored_log | apply stored_rawBad | apply stored_unlessHeld
      | apply stored_foldl | apply stored_foldl2 | simp only [stored_mk] | simp only [cl_mk] | apply cl_dmaFill
      | apply cl_resetCluster | apply cl_ctl | apply cl_reset | split | dsimp only | rfl))

theorem stored_stackRead (x0 : State) (x1 x2) (hW : x0.memWf = true) :
    (State.stackRead x0 x1 x2).2.2.memWf = true := by
  unfold State.stackRead
  grind [stored_dramRead, stored_fresh, stored_mk]

theorem stored_busRead (x0 : State) (x1 x2) (hW : x0.memWf = true) :
    (State.busRead x0 x1 x2).2.2.memWf = true := by
  unfold State.busRead
  (try dsimp only)
  (repeat' split) <;> simp_all (maxDischargeDepth := 60) [stored_cmHalf, stored_progRawRead, stored_spRawRead, stored_stackRead,
      stored_wr, stored_foldl, stored_foldl2, stored_mk, stored_ite, stored_ite2, cl_mk, cl_ite, cl_reset]

theorem stored_cfgIgn (x0 : State) (x1 x2 x3) (hW : x0.memWf = true) :
    (State.cfgIgn x0 x1 x2 x3).memWf = true := by
  unfold State.cfgIgn
  (try dsimp only)
  (repeat' split) <;> simp_all (maxDischargeDepth := 60) [stored_setFld, stored_wr, stored_foldl, stored_foldl2, stored_mk,
      stored_ite, stored_ite2, cl_mk, cl_ite, cl_reset]

theorem stored_regWrite (x0 : State) (x1 x2 x3 x4 x5) (hW : x0.memWf = true) :
    (State.regWrite x0 x1 x2 x3 x4 x5).memWf = true := by
  simp (maxDischargeDepth := 60) +contextual only [State.regWrite, stored_cfgIgn, stored_wr, stored_foldl, stored_foldl2, stored_mk,
      stored_ite, stored_ite2, cl_mk, cl_ite, cl_reset, hW]

theorem stored_hostAns (x0 : State) (x1) (hW : x0.memWf = true) :
    (State.hostAns x0 x1).2.memWf = true := by
  unfold State.hostAns
  (try dsimp only)
  (repeat' split) <;> simp_all (maxDischargeDepth := 60) [stored_foldl, stored_foldl2, stored_mk, stored_ite, stored_ite2, cl_mk,
      cl_ite, cl_reset]

theorem stored_admCmd (x0 : State) (x1) (hW : x0.memWf = true) :
    (State.admCmd x0 x1).memWf = true := by
  simp (maxDischargeDepth := 60) +contextual only [State.admCmd, stored_admitOrHold, stored_setFld, stored_foldl, stored_foldl2,
      stored_mk, stored_ite, stored_ite2, cl_mk, cl_ite, cl_reset, hW]

theorem stored_wldCtl (x0 : State) (x1 x2) (hW : x0.memWf = true) :
    (State.wldCtl x0 x1 x2).memWf = true := by
  simp (maxDischargeDepth := 60) +contextual only [State.wldCtl, stored_hostAns, stored_stopStart, stored_swapStart, stored_foldl,
      stored_foldl2, stored_mk, stored_ite, stored_ite2, cl_mk, cl_ite, cl_reset, hW]

theorem stored_bootCtl (x0 : State) (x1 x2) (hW : x0.memWf = true) :
    (State.bootCtl x0 x1 x2).memWf = true := by
  simp (maxDischargeDepth := 60) +contextual only [State.bootCtl, stored_bootGo, stored_hostAns, stored_foldl, stored_foldl2,
      stored_mk, stored_ite, stored_ite2, cl_mk, cl_ite, cl_reset, hW]

theorem stored_edgeWrite (x0 : State) (x1 x2 x3 x4 x5 x6) (hW : x0.memWf = true) :
    (State.edgeWrite x0 x1 x2 x3 x4 x5 x6).memWf = true := by
  unfold State.edgeWrite
  (try dsimp only)
  (repeat' split) <;> simp_all (maxDischargeDepth := 60) [stored_admCmd, stored_bootCtl, stored_clearGo, stored_commitWindow,
      stored_elogAdvance, stored_gopCmd, stored_pfxStart, stored_refCtlWrite, stored_regWrite, stored_release, stored_retryAborts,
      stored_vybCtl, stored_wldCtl, stored_foldl, stored_foldl2, stored_mk, stored_ite, stored_ite2, cl_mk, cl_ite, cl_reset]

theorem stored_clktuneWrite (x0 : State) (x1 x2) (hW : x0.memWf = true) :
    (State.clktuneWrite x0 x1 x2).memWf = true := by
  simp (maxDischargeDepth := 60) +contextual only [State.clktuneWrite, stored_ceilWrite, stored_setFld, stored_foldl, stored_foldl2,
      stored_mk, stored_ite, stored_ite2, cl_mk, cl_ite, cl_reset, hW]

theorem stored_remapWrite (x0 : State) (x1 x2 x3 x4 x5) (hW : x0.memWf = true) :
    (State.remapWrite x0 x1 x2 x3 x4 x5).memWf = true := by
  simp (maxDischargeDepth := 60) +contextual only [State.remapWrite, stored_regWrite, stored_foldl, stored_foldl2, stored_mk,
      stored_ite, stored_ite2, cl_mk, cl_ite, cl_reset, hW]

theorem stored_regionWrite (x0 : State) (x1 x2 x3 x4 x5 x6) (hW : x0.memWf = true) :
    (State.regionWrite x0 x1 x2 x3 x4 x5 x6).memWf = true := by
  unfold State.regionWrite
  (try dsimp only)
  (repeat' split) <;> simp_all (maxDischargeDepth := 60) [stored_clksrcWrite, stored_clktuneWrite, stored_regWrite, stored_release,
      stored_remapWrite, stored_setFld, stored_swpHoldWrite, stored_foldl, stored_foldl2, stored_mk, stored_ite, stored_ite2, cl_mk,
      cl_ite, cl_reset]

theorem stored_sentRead (x0 : State) (x1 x2 x3 x4) (hW : x0.memWf = true) :
    (State.sentRead x0 x1 x2 x3 x4).2.2.memWf = true := by
  unfold State.sentRead
  (try dsimp only)
  (repeat' split) <;> simp_all (maxDischargeDepth := 60) [stored_busRead, stored_foldl, stored_foldl2, stored_mk, stored_ite,
      stored_ite2, cl_mk, cl_ite, cl_reset]

theorem stored_accessRead (x0 : State) (x1 x2) (hW : x0.memWf = true) :
    (State.accessRead x0 x1 x2).memWf = true := by
  simp (maxDischargeDepth := 60) +contextual only [State.accessRead, stored_emit, stored_sentRead, stored_foldl, stored_foldl2,
      stored_mk, stored_ite, stored_ite2, cl_mk, cl_ite, cl_reset, hW]

theorem stored_relayResponse (x0 : State) (x1 x2) (hW : x0.memWf = true) :
    (State.relayResponse x0 x1 x2).memWf = true := by
  unfold State.relayResponse
  (try dsimp only)
  (repeat' split) <;> simp_all (maxDischargeDepth := 60) [stored_emit, stored_receive, stored_foldl, stored_foldl2, stored_mk,
      stored_ite, stored_ite2, cl_mk, cl_ite, cl_reset]

theorem stored_relayReply (x0 : State) (x1 x2 x3) (hW : x0.memWf = true) :
    (State.relayReply x0 x1 x2 x3).memWf = true := by
  unfold State.relayReply
  (try dsimp only)
  (repeat' split) <;> simp_all (maxDischargeDepth := 60) [stored_relayOut, stored_relayResponse, stored_foldl, stored_foldl2,
      stored_mk, stored_ite, stored_ite2, cl_mk, cl_ite, cl_reset]

theorem stored_relayUnknown (x0 : State) (hW : x0.memWf = true) :
    (State.relayUnknown x0).memWf = true := by
  simp (maxDischargeDepth := 60) +contextual only [State.relayUnknown, stored_logEdge, stored_foldl, stored_foldl2, stored_mk,
      stored_ite, stored_ite2, cl_mk, cl_ite, cl_reset, hW]

theorem stored_sendHrdd (x0 : State) (x1 x2 x3 x4) (hW : x0.memWf = true) :
    (State.sendHrdd x0 x1 x2 x3 x4).memWf = true := by
  induction x3 generalizing x0 x1 x2 x4 with
  | zero => first | exact hW | (unfold State.sendHrdd; exact hW) | (unfold State.sendHrdd; split <;> exact hW)
  | succ n ih =>
    unfold State.sendHrdd
    (try dsimp only)
    (repeat' split) <;> simp_all (maxDischargeDepth := 60) [stored_relayReply, stored_foldl, stored_foldl2, stored_mk, stored_ite,
        stored_ite2, cl_mk, cl_ite, cl_reset]

theorem stored_hrdServe (x0 : State) (x1 x2 x3) (hW : x0.memWf = true) :
    (State.hrdServe x0 x1 x2 x3).memWf = true := by
  unfold State.hrdServe
  (try dsimp only)
  (repeat' split) <;> simp_all (maxDischargeDepth := 60) [stored_relayReply, stored_relayUnknown, stored_sendHrdd, stored_foldl,
      stored_foldl2, stored_mk, stored_ite, stored_ite2, cl_mk, cl_ite, cl_reset]

theorem stored_hwrServe (x0 : State) (x1 x2 x3) (hW : x0.memWf = true) :
    (State.hwrServe x0 x1 x2 x3).memWf = true := by
  simp (maxDischargeDepth := 60) +contextual only [State.hwrServe, stored_emit, stored_relayReply, stored_foldl, stored_foldl2,
      stored_mk, stored_ite, stored_ite2, cl_mk, cl_ite, cl_reset, hW]

theorem stored_crdServe (x0 : State) (x1 x2) (hW : x0.memWf = true) :
    (State.crdServe x0 x1 x2).memWf = true := by
  simp (maxDischargeDepth := 60) +contextual only [State.crdServe, stored_relayReply, stored_sentRead, stored_foldl, stored_foldl2,
      stored_mk, stored_ite, stored_ite2, cl_mk, cl_ite, cl_reset, hW]

theorem stored_irqServe (x0 : State) (x1 x2) (hW : x0.memWf = true) :
    (State.irqServe x0 x1 x2).memWf = true := by
  unfold State.irqServe
  (try dsimp only)
  (repeat' split) <;> simp_all (maxDischargeDepth := 60) [stored_emit, stored_relayReply, stored_relayUnknown, stored_foldl,
      stored_foldl2, stored_mk, stored_ite, stored_ite2, cl_mk, cl_ite, cl_reset]

theorem stored_hostRelay (x0 : State) (x1 x2 x3 x4) (hW : x0.memWf = true) :
    (State.hostRelay x0 x1 x2 x3 x4).memWf = true := by
  unfold State.hostRelay
  (try dsimp only)
  (repeat' split) <;> simp_all (maxDischargeDepth := 60) [stored_relayOut, stored_foldl, stored_foldl2, stored_mk, stored_ite,
      stored_ite2, cl_mk, cl_ite, cl_reset]

theorem stored_hostReadHere (x0 : State) (x1) (hW : x0.memWf = true) :
    (State.hostReadHere x0 x1).memWf = true := by
  simp (maxDischargeDepth := 60) +contextual only [State.hostReadHere, stored_emit, stored_sentRead, stored_foldl, stored_foldl2,
      stored_mk, stored_ite, stored_ite2, cl_mk, cl_ite, cl_reset, hW]

theorem stored_hostRead (x0 : State) (x1) (hW : x0.memWf = true) :
    (State.hostRead x0 x1).memWf = true := by
  unfold State.hostRead
  (try dsimp only)
  (repeat' split) <;> simp_all (maxDischargeDepth := 60) [stored_emit, stored_hostReadHere, stored_hostRelay, stored_foldl,
      stored_foldl2, stored_mk, stored_ite, stored_ite2, cl_mk, cl_ite, cl_reset]

theorem stored_rdTake (x0 : State) (x1 x2 x3 x4 x5) (hW : x0.memWf = true) :
    (State.rdTake x0 x1 x2 x3 x4 x5).memWf = true := by
  simp (maxDischargeDepth := 60) +contextual only [State.rdTake, stored_emit, stored_fresh, stored_sentRead, stored_foldl,
      stored_foldl2, stored_mk, stored_ite, stored_ite2, cl_mk, cl_ite, cl_reset, hW]

theorem stored_timedOut (x0 : State) (x1 x2) (hW : x0.memWf = true) :
    (State.timedOut x0 x1 x2).memWf = true := by
  unfold State.timedOut
  (try dsimp only)
  (repeat' split) <;> simp_all (maxDischargeDepth := 60) [stored_emit, stored_receive, stored_foldl, stored_foldl2, stored_mk,
      stored_ite, stored_ite2, cl_mk, cl_ite, cl_reset]

theorem stored_rxFail (x0 : State) (hW : x0.memWf = true) :
    (State.rxFail x0).memWf = true := by
  simp (maxDischargeDepth := 60) +contextual only [State.rxFail, stored_loadFail, stored_foldl, stored_foldl2, stored_mk, stored_ite,
      stored_ite2, cl_mk, cl_ite, cl_reset, hW]

theorem stored_txFail (x0 : State) (x1) (hW : x0.memWf = true) :
    (State.txFail x0 x1).memWf = true := by
  simp (maxDischargeDepth := 60) +contextual only [State.txFail, stored_emit, stored_foldl, stored_foldl2, stored_mk, stored_ite,
      stored_ite2, cl_mk, cl_ite, cl_reset, hW]

theorem stored_helloTake (x0 : State) (x1 x2 x3) (hW : x0.memWf = true) :
    (State.helloTake x0 x1 x2 x3).memWf = true := by
  simp (maxDischargeDepth := 60) +contextual only [State.helloTake, stored_emit, stored_fresh, stored_quote, stored_txFail,
      stored_foldl, stored_foldl2, stored_mk, stored_ite, stored_ite2, cl_mk, cl_ite, cl_reset, hW]

theorem stored_quoteAtReceiver (x0 : State) (x1 x2 x3) (hW : x0.memWf = true) :
    (State.quoteAtReceiver x0 x1 x2 x3).memWf = true := by
  simp (maxDischargeDepth := 60) +contextual only [State.quoteAtReceiver, stored_emit, stored_quote, stored_rxFail, stored_foldl,
      stored_foldl2, stored_mk, stored_ite, stored_ite2, cl_mk, cl_ite, cl_reset, hW]

theorem stored_quoteAtSource (x0 : State) (x1) (hW : x0.memWf = true) :
    (State.quoteAtSource x0 x1).memWf = true := by
  simp (maxDischargeDepth := 60) +contextual only [State.quoteAtSource, stored_emit, stored_fresh, stored_signMsg, stored_txFail,
      stored_foldl, stored_foldl2, stored_mk, stored_ite, stored_ite2, cl_mk, cl_ite, cl_reset, hW]

theorem stored_keyTake (x0 : State) (x1 x2) (hW : x0.memWf = true) :
    (State.keyTake x0 x1 x2).memWf = true := by
  unfold State.keyTake
  (try dsimp only)
  (repeat' split) <;> simp_all (maxDischargeDepth := 60) [stored_emit, stored_rxFail, stored_foldl, stored_foldl2, stored_mk,
      stored_ite, stored_ite2, cl_mk, cl_ite, cl_reset]

theorem stored_listTake (x0 : State) (x1) (hW : x0.memWf = true) :
    (State.listTake x0 x1).memWf = true := by
  unfold State.listTake
  (try dsimp only)
  (repeat' split) <;> simp_all (maxDischargeDepth := 60) [stored_emit, stored_txFail, stored_foldl, stored_foldl2, stored_mk,
      stored_ite, stored_ite2, cl_mk, cl_ite, cl_reset]

theorem stored_segmentWrite (x0 : State) (x1) (hW : x0.memWf = true) :
    (State.segmentWrite x0 x1).memWf = true := by
  simp (maxDischargeDepth := 60) +contextual only [State.segmentWrite, stored_emit, stored_loadAdvance, stored_modJob,
      stored_writeSegment, stored_foldl, stored_foldl2, stored_mk, stored_ite, stored_ite2, cl_mk, cl_ite, cl_reset, hW]

theorem stored_segmentOpen (x0 : State) (x1 x2) (hW : x0.memWf = true) :
    (State.segmentOpen x0 x1 x2).memWf = true := by
  unfold State.segmentOpen
  (try dsimp only)
  (repeat' split) <;> simp_all (maxDischargeDepth := 60) [stored_loadFail, stored_modJob, stored_segmentRetry, stored_segmentWrite,
      stored_setFld, stored_foldl, stored_foldl2, stored_mk, stored_ite, stored_ite2, cl_mk, cl_ite, cl_reset]

theorem stored_segmentTake (x0 : State) (x1) (hW : x0.memWf = true) :
    (State.segmentTake x0 x1).memWf = true := by
  unfold State.segmentTake
  (try dsimp only)
  (repeat' split) <;> simp_all (maxDischargeDepth := 60) [stored_loadFail, stored_segmentOpen, stored_foldl, stored_foldl2,
      stored_mk, stored_ite, stored_ite2, cl_mk, cl_ite, cl_reset]

theorem stored_doneTake (x0 : State) (x1) (hW : x0.memWf = true) :
    (State.doneTake x0 x1).memWf = true := by
  simp (maxDischargeDepth := 60) +contextual only [State.doneTake, stored_txFail, stored_foldl, stored_foldl2, stored_mk, stored_ite,
      stored_ite2, cl_mk, cl_ite, cl_reset, hW]

theorem stored_abortTake (x0 : State) (x1) (hW : x0.memWf = true) :
    (State.abortTake x0 x1).memWf = true := by
  simp (maxDischargeDepth := 60) +contextual only [State.abortTake, stored_loadFail, stored_foldl, stored_foldl2, stored_mk,
      stored_ite, stored_ite2, cl_mk, cl_ite, cl_reset, hW]

theorem stored_fecSeen (x0 : State) (x1 x2) (hW : x0.memWf = true) :
    (State.fecSeen x0 x1 x2).memWf = true := by
  simp (maxDischargeDepth := 60) +contextual only [State.fecSeen, stored_count, stored_foldl, stored_foldl2, stored_mk, stored_ite,
      stored_ite2, cl_mk, cl_ite, cl_reset, hW]

theorem stored_fromPeer (s : State) (p fec f) (hf : ∀ s, s.memWf = true → ((f s)).memWf = true) (hW : s.memWf = true) :
    (State.fromPeer s p fec f).memWf = true := by
  unfold State.fromPeer
  (try dsimp only)
  (with_reducible repeat' (first
      | assumption | intro _ | apply hf | apply stored_fecSeen | apply stored_unlessHeld | apply stored_foldl | apply stored_foldl2
      | simp only [stored_mk] | simp only [cl_mk] | apply cl_dmaFill | apply cl_resetCluster | apply cl_ctl | apply cl_reset | split
      | dsimp only | rfl))

theorem stored_chainIn (s : State) (p f) (hf : ∀ s, s.memWf = true → ((f s)).memWf = true) (hW : s.memWf = true) :
    (State.chainIn s p f).memWf = true := by
  unfold State.chainIn
  (try dsimp only)
  (with_reducible repeat' (first
      | assumption | intro _ | apply hf | apply stored_emit | apply stored_unlessHeld | apply stored_foldl | apply stored_foldl2
      | simp only [stored_mk] | simp only [cl_mk] | apply cl_dmaFill | apply cl_resetCluster | apply cl_ctl | apply cl_reset | split
      | dsimp only | rfl))

theorem stored_requestLost (x0 : State) (x1 x2 x3) (hW : x0.memWf = true) :
    (State.requestLost x0 x1 x2 x3).memWf = true := by
  simp (maxDischargeDepth := 60) +contextual only [State.requestLost, stored_emit, stored_flitLost, stored_foldl, stored_foldl2,
      stored_mk, stored_ite, stored_ite2, cl_mk, cl_ite, cl_reset, hW]

theorem stored_idleTake (x0 : State) (x1 x2) (hW : x0.memWf = true) :
    (State.idleTake x0 x1 x2).memWf = true := by
  simp (maxDischargeDepth := 60) +contextual only [State.idleTake, stored_badFlit, stored_portRun, stored_takeCredits, stored_foldl,
      stored_foldl2, stored_mk, stored_ite, stored_ite2, cl_mk, cl_ite, cl_reset, hW]

theorem stored_receiveFlit (x0 : State) (x1 x2) (hW : x0.memWf = true) :
    (State.receiveFlit x0 x1 x2).memWf = true := by
  unfold State.receiveFlit
  (try dsimp only)
  (with_reducible repeat' (first
      | assumption | intro _ | apply hf | apply stored_ctlWords | apply stored_idleTake | apply stored_inbound
      | apply stored_numbered | apply stored_training | apply stored_unlessHeld | apply stored_foldl | apply stored_foldl2
      | simp only [stored_mk] | simp only [cl_mk] | apply cl_dmaFill | apply cl_resetCluster | apply cl_ctl | apply cl_reset | split
      | dsimp only | rfl))

theorem stored_rampsEnd (x0 : State) (hW : x0.memWf = true) :
    (State.rampsEnd x0).memWf = true := by
  unfold State.rampsEnd
  (try dsimp only)
  (repeat' split) <;> simp_all (maxDischargeDepth := 60) [stored_regionOff, stored_foldl, stored_foldl2, stored_mk, stored_ite,
      stored_ite2, cl_mk, cl_ite, cl_reset]

theorem stored_loopsStep (x0 : State) (hW : x0.memWf = true) :
    (State.loopsStep x0).memWf = true := by
  unfold State.loopsStep
  (try dsimp only)
  (repeat' split) <;> simp_all (maxDischargeDepth := 60) [stored_modPort, stored_receiveFlit, stored_foldl, stored_foldl2, stored_mk,
      stored_ite, stored_ite2, cl_mk, cl_ite, cl_reset]

theorem stored_bootStep (x0 : State) (hW : x0.memWf = true) :
    (State.bootStep x0).memWf = true := by
  unfold State.bootStep
  (try dsimp only)
  (repeat' split) <;> simp_all (maxDischargeDepth := 60) [stored_bootFail, stored_bootImage, stored_setFld, stored_foldl,
      stored_foldl2, stored_mk, stored_ite, stored_ite2, cl_mk, cl_ite, cl_reset]

theorem stored_badAck (x0 : State) (x1 x2 x3) (hW : x0.memWf = true) :
    (State.badAck x0 x1 x2 x3).memWf = true := by
  simp (maxDischargeDepth := 60) +contextual only [State.badAck, stored_ackWrite, stored_foldl, stored_foldl2, stored_mk, stored_ite,
      stored_ite2, cl_mk, cl_ite, cl_reset, hW]

theorem stored_onDieEcc (x0 : State) (x1 x2) (hW : x0.memWf = true) :
    (State.onDieEcc x0 x1 x2).memWf = true := by
  unfold State.onDieEcc
  (try dsimp only)
  (repeat' split) <;> simp_all (maxDischargeDepth := 60) [stored_count, stored_foldl, stored_foldl2, stored_mk, stored_ite,
      stored_ite2, cl_mk, cl_ite, cl_reset]

end Sys2Proof.Machine
end

