-- ==== Sys2Proof/Laws/StoredStep.lean ====
section
/-!
SUPPORT. Every command, and the step of the clock, keeps the canonical form of the module's memories (`State.memWf`).
-/
set_option linter.unusedSimpArgs false
set_option linter.unusedVariables false
namespace Sys2Proof.Machine

theorem with_crypto (y : State) (b : Crypto) (h : y.memWf = true) : ({ y with crypto := b } : State).memWf = true := h

theorem stored_fuseApply (s : State) (v : Nat) (hW : s.memWf = true) : (s.fuseApply v).memWf = true := by
  unfold State.fuseApply
  split
  · exact stored_setFld _ _ _ hW
  · split
    · exact stored_fuseRefuse _ _ hW
    · split
      · exact stored_fuseRefuse _ _ (stored_fresh _ _ hW)
      · split
        · exact with_crypto _ _ (stored_setFld _ _ _ (stored_setFld _ _ _ hW))
        · exact stored_fuseRefuse _ _ hW

theorem stored_guardedApply (s : State) (a v : Nat) (hW : s.memWf = true) : (s.guardedApply a v).memWf = true := by
  unfold State.guardedApply
  split
  · exact stored_domainReset _ (stored_wr _ _ _ hW)
  · split
    · exact stored_fuseApply _ _ (stored_wr _ _ _ hW)
    · split
      · exact stored_cryApply _ _ (stored_wr _ _ _ hW)
      · dsimp only
        split
        · split
          · exact stored_p3Go _ (stored_driverFence _ _ _ (stored_wr _ _ _ hW))
          · exact hW
        · exact stored_vsetWrite _ _ _ hW

theorem stored_secondHalf (s : State) (req : Requester) (a : Nat) (v : Word) (hW : s.memWf = true) : (s.secondHalf req a v).2.memWf = true := by
  have hl := stored_lapse s (a - 4) hW
  unfold State.secondHalf
  dsimp only
  split
  · split
    · exact stored_guardedApply _ _ _ (stored_disarmPair _ _ hl)
    · exact stored_count _ _ _ (stored_disarmPair _ _ hl)
  · exact stored_count _ _ _ hl

theorem stored_rawWrite (s : State) (r c f) (hf : ∀ s, s.memWf = true → (f s).memWf = true) (hW : s.memWf = true) :
    (State.rawWrite s r c f).2.memWf = true := by
  unfold State.rawWrite
  split
  · exact hW
  · split
    · exact hW
    · exact hf s hW

theorem stored_busWrite (s : State) (req : Requester) (a : Nat) (v : Word) (h : Option HostAns) (hW : s.memWf = true) :
    (s.busWrite req a v h).2.memWf = true := by
  unfold State.busWrite
  split
  · exact hW
  · split
    · exact stored_firstHalf _ _ _ _ hW
    · split
      · exact stored_secondHalf _ _ _ _ hW
      · split
        · exact hW
        · apply stored_edgeWrite; exact hW
        · apply stored_cmHalfWrite; exact hW
        · apply stored_stackWrite; exact hW
        · split
          · apply stored_regionWrite; exact hW
          · exact hW
        · split
          · apply stored_regWrite; exact hW
          · exact hW
        · exact stored_rawWrite _ _ _ _ (fun s h => stored_tileWrite _ _ _ _ _ _ h) hW
        · exact stored_rawWrite _ _ _ _ (fun s h => stored_tagWrite _ _ _ _ _ h) hW
        · exact stored_rawWrite _ _ _ _ (fun s h => stored_spRawWrite _ _ _ _ _ h) hW
        · exact stored_rawWrite _ _ _ _ (fun s h => stored_progRawWrite _ _ _ _ _ h) hW

theorem stored_sentWrite (s : State) (ord : Bool) (src : Nat) (req : Requester) (a : Nat) (v : Word) (h : Option HostAns) (hW : s.memWf = true) :
    (s.sentWrite ord src req a v h).2.memWf = true := by
  unfold State.sentWrite
  (with_reducible repeat' (first
      | assumption | intro _ | apply hf | apply stored_busWrite | apply stored_unlessHeld | apply stored_foldl | apply stored_foldl2
      | simp only [stored_mk] | simp only [cl_mk] | apply cl_dmaFill | apply cl_resetCluster | apply cl_ctl | apply cl_reset | split
      | dsimp only | rfl))

theorem stored_accessWrite (s : State) (req : Requester) (a : Nat) (v : Word) (h : Option HostAns) (hW : s.memWf = true) :
    (s.accessWrite req a v h).memWf = true := by
  unfold State.accessWrite
  (with_reducible repeat' (first
      | assumption | intro _ | apply hf | apply stored_sentWrite | apply stored_emit | apply stored_unlessHeld | apply stored_foldl
      | apply stored_foldl2 | simp only [stored_mk] | simp only [cl_mk] | apply cl_dmaFill | apply cl_resetCluster | apply cl_ctl
      | apply cl_reset | split | dsimp only | rfl))

theorem stored_accessPair (s : State) (req : Requester) (a : Nat) (w : Word) (p : Nat → Bool) (hW : s.memWf = true) :
    (s.accessPair req a w p).memWf = true := by
  unfold State.accessPair
  (with_reducible repeat' (first
      | assumption | intro _ | apply hf | apply stored_accessWrite | apply stored_unlessHeld | apply stored_foldl
      | apply stored_foldl2 | simp only [stored_mk] | simp only [cl_mk] | apply cl_dmaFill | apply cl_resetCluster | apply cl_ctl
      | apply cl_reset | split | dsimp only | rfl))

theorem stored_hostStore (s : State) (a : Nat) (v : Word) (hW : s.memWf = true) : (s.hostStore a v).memWf = true := by
  unfold State.hostStore
  (with_reducible repeat' (first
      | assumption | intro _ | apply hf | apply stored_emit | apply stored_sentWrite | apply stored_hostRelay
      | apply stored_unlessHeld | apply stored_foldl | apply stored_foldl2 | simp only [stored_mk] | simp only [cl_mk]
      | apply cl_dmaFill | apply cl_resetCluster | apply cl_ctl | apply cl_reset | split | dsimp only | rfl))

theorem stored_wrTake (s : State) (src : Nat) (ord : Bool) (tag : Nat) (req : Requester) (a : Nat) (v : Word) (hW : s.memWf = true) :
    (s.wrTake src ord tag req a v).memWf = true := by
  unfold State.wrTake
  (with_reducible repeat' (first
      | assumption | intro _ | apply hf | apply stored_sentWrite | apply stored_emit | apply stored_unlessHeld | apply stored_foldl
      | apply stored_foldl2 | simp only [stored_mk] | simp only [cl_mk] | apply cl_dmaFill | apply cl_resetCluster | apply cl_ctl
      | apply cl_reset | split | dsimp only | rfl))

theorem stored_cwrServe (s : State) (x : RelayHdr) (addr : DWord) (v : Word) (hW : s.memWf = true) : (s.cwrServe x addr v).memWf = true := by
  unfold State.cwrServe
  (with_reducible repeat' (first
      | assumption | intro _ | apply hf | apply stored_sentWrite | apply stored_relayReply | apply stored_unlessHeld
      | apply stored_foldl | apply stored_foldl2 | simp only [stored_mk] | simp only [cl_mk] | apply cl_dmaFill
      | apply cl_resetCluster | apply cl_ctl | apply cl_reset | split | dsimp only | rfl))

theorem stored_relayTake (s : State) (hdr addr : DWord) (data : List DWord) (f : State → RelayHdr → State)
    (hf : ∀ (s : State) h,
        s.memWf = true → (f s h).memWf = true) (hW : s.memWf = true) : (s.relayTake hdr addr data f).memWf = true := by
  unfold State.relayTake
  (with_reducible repeat' (first
      | assumption | intro _ | apply hf | apply stored_relayOut | apply stored_unlessHeld | apply stored_foldl | apply stored_foldl2
      | simp only [stored_mk] | simp only [cl_mk] | apply cl_dmaFill | apply cl_resetCluster | apply cl_ctl | apply cl_reset | split
      | dsimp only | rfl))

theorem stored_offState (s : State) : s.offState.memWf = true := rfl

theorem stored_offAtOnce (s : State) : s.offAtOnce.memWf = true := stored_offState _

theorem stored_dramOff (s : State) (l : Loader) (p : Power) (h : s.memWf = true) :
    ({ s with dram := [], loader := l, power := p } : State).memWf = true := by
  have h' := (memWf_iff s).mp h
  exact (memWf_iff _).mpr ⟨h'.1, rfl, h'.2.2⟩

theorem with_edge (s : State) (p : Power) (m : Mgmt) (c : Time) (g : List (Nat × Word)) (h : s.memWf = true) :
    ({ s with power := p, mg := m, time := c, regs := g } : State).memWf = true := h

theorem stored_downStep (s : State) (i : Nat) (hW : s.memWf = true) : (s.downStep i).memWf = true := by
  unfold State.downStep
  split
  · exact stored_foldl _ (fun s r h => stored_retain _ _ h) _ _ hW
  · refine stored_foldl _ (fun s e h => stored_regionOff _ _ _ h) _ _ ?_
    exact with_power _ _ (stored_foldl _ (fun s r h => stored_ite _ _ _ (stored_regionOff _ _ _ h) h) _ _ hW)
  · exact stored_dramOff _ _ _ hW
  · exact stored_foldl _ (fun s g h => stored_segmentDark _ _ (stored_vcabStep _ _ _ h)) _ _ (with_power _ _ hW)
  · exact with_edge _ _ _ _ _ (stored_offState s)
  · exact stored_offState s

theorem stored_powerAdvance (s : State) (n : Nat) (hW : s.memWf = true) : (s.powerAdvance n).memWf = true := by
  induction n generalizing s with
  | zero => exact hW
  | succ n ih =>
    unfold State.powerAdvance
    split
    · exact hW
    · split
      · exact hW
      · dsimp only
        split
        · exact stored_downStep _ _ hW
        · exact ih _ (with_power _ _ (stored_downStep _ _ hW))

theorem stored_tick (s : State) (hW : s.memWf = true) : s.tick.memWf = true := by
  unfold State.tick
  refine stored_powerAdvance _ 8 (stored_loopsStep _ (stored_rampsEnd _ (stored_bootStep _ ?_)))
  exact hW

theorem slotRow_stored {p : Site} (ok : State → Nat → Bool) (f : State → Nat → Nat → State) (s : State)
    (hf : ∀ s n b, s.memWf = true → (f s n b).memWf = true) (t : State) (h : slotRow p ok f s = .next t) (hW : s.memWf = true) :
    t.memWf = true := by
  unfold slotRow at h
  dsimp only at h
  split at h
  · split at h
    · cases h
      exact hf _ _ _ (stored_land _ _ _ _ hW)
    · cases h
  · cases h
    exact hW

theorem cl_advance (k : Cluster) (h : k.memWf = true) : k.advance.memWf = true := h

theorem cl_ctlIdle (k : Cluster) (n : Nat) (h : k.memWf = true) : (k.ctlIdle n).memWf = true := by
  unfold Cluster.ctlIdle
  split <;> exact h

theorem cl_ctlLoop (k : Cluster) (n m : Nat) (h : k.memWf = true) : (k.ctlLoop n m).memWf = true := h

theorem ctlRow_stored {p : Site} (f : State → State) (s : State) (hf : ∀ s, s.memWf = true → (f s).memWf = true) (t : State)
    (h : ctlRow p f s = .next t) (hW : s.memWf = true) : t.memWf = true := by
  unfold ctlRow at h
  cases h
  split
  · exact hf _ hW
  · exact hW

theorem vecRow_stored {p : Site} {v : VecSlot} {s t : State} (h : vecRow p v s = .next t) (hW : s.memWf = true) : t.memWf = true :=
  slotRow_stored _ _ _ (fun s n b hs => stored_vecIssue _ _ _ _ _ _ hs) _ h hW

theorem xferRow_stored {p : Site} {a : BitVec 14} {form : Bool} {k : Nat} {s t : State} (h : xferRow p a form k s = .next t)
    (hW : s.memWf = true) : t.memWf = true := slotRow_stored _ _ _ (fun s n b hs => by (apply stored_xferIssue; exact hs)) _ h hW

theorem routeRow_stored {p : Site} {a : BitVec 14} {form : Bool} {k : Nat} {s t : State} (h : routeRow p a form k s = .next t)
    (hW : s.memWf = true) : t.memWf = true := slotRow_stored _ _ _ (fun s n b hs => by (apply stored_routeIssue; exact hs)) _ h hW

theorem stored_gopAccess (op : Nat) (req : Requester) (id : BitVec 15) (s : State) (hW : s.memWf = true) : (gopAccess op req id s).memWf = true := by
  unfold gopAccess
  (with_reducible repeat' (first
      | assumption | intro _ | apply hf | apply stored_accessWrite | apply stored_accessPair | apply stored_unlessHeld
      | apply stored_foldl | apply stored_foldl2 | simp only [stored_mk] | simp only [cl_mk] | apply cl_dmaFill
      | apply cl_resetCluster | apply cl_ctl | apply cl_reset | split | dsimp only | rfl))

theorem stored_cryPair (op : Nat) (req : Requester) (w : Word) (s : State) (hW : s.memWf = true) : (cryPair op req w s).memWf = true := by
  unfold cryPair
  (with_reducible repeat' (first
      | assumption | intro _ | apply hf | apply stored_accessWrite | apply stored_accessPair | apply stored_unlessHeld
      | apply stored_foldl | apply stored_foldl2 | simp only [stored_mk] | simp only [cl_mk] | apply cl_dmaFill
      | apply cl_resetCluster | apply cl_ctl | apply cl_reset | split | dsimp only | rfl))

theorem stored_fusePair (op : Nat) (req : Requester) (w : Word) (s : State) (hW : s.memWf = true) : (fusePair op req w s).memWf = true := by
  unfold fusePair
  (with_reducible repeat' (first
      | assumption | intro _ | apply hf | apply stored_accessWrite | apply stored_accessPair | apply stored_unlessHeld
      | apply stored_foldl | apply stored_foldl2 | simp only [stored_mk] | simp only [cl_mk] | apply cl_dmaFill
      | apply cl_resetCluster | apply cl_ctl | apply cl_reset | split | dsimp only | rfl))

theorem stored_linkErrors (s : State) (r errs) (hW : s.memWf = true) : (State.linkErrors s r errs).memWf = true := by
  unfold State.linkErrors
  (with_reducible repeat' (first
      | assumption | intro _ | apply hf | apply stored_modCluster | apply stored_unlessHeld | apply stored_foldl
      | apply stored_foldl2 | simp only [stored_mk] | simp only [cl_mk] | apply cl_dmaFill | apply cl_resetCluster | apply cl_ctl
      | apply cl_reset | split | dsimp only | rfl))

theorem stored_execScheduleCycleExecutes (r : Fin 96) (e) (s t : State) (h : execScheduleCycleExecutes r s e = .next t)
    (hW : s.memWf = true) : t.memWf = true := by
  unfold execScheduleCycleExecutes at h
  dsimp only at h
  split at h
  · split at h
    · cases h
    · cases h
      exact stored_portsRun _ (stored_aclk _ _ (stored_linkErrors _ _ _ hW))
  · cases h
    exact hW

theorem stored_execPressRun (p d x a b) (s t : State) (h : execPressRun p d x a b s = .next t) (hW : s.memWf = true) : t.memWf = true := by
  unfold execPressRun at h
  dsimp only at h
  exact slotRow_stored _ _ s (fun s n b hs => by (apply stored_engineIssue; exact hs)) t h hW

theorem stored_execPourRun (p d x a b) (s t : State) (h : execPourRun p d x a b s = .next t) (hW : s.memWf = true) : t.memWf = true := by
  unfold execPourRun at h
  dsimp only at h
  exact slotRow_stored _ _ s (fun s n b hs => by (apply stored_engineIssue; exact hs)) t h hW

theorem stored_execCbload (p a b) (s t : State) (h : execCbload p a b s = .next t) (hW : s.memWf = true) : t.memWf = true := by
  exact slotRow_stored _ _ s (fun s n b hs => by (apply stored_cbIssue; exact hs)) t h hW

theorem stored_execRel (p a) (s t : State) (h : execRel p a s = .next t) (hW : s.memWf = true) : t.memWf = true := by
  exact slotRow_stored _ _ s (fun s n b hs => by (apply stored_relIssue; exact hs)) t h hW

theorem stored_execWr (x0 x1 x2 x3 x4 x5 x6) (s t : State) (h : execWr x0 x1 x2 x3 x4 s x5 x6 = .next t) (hW : s.memWf = true) : t.memWf = true := by
  unfold execWr at h
  cases h
  (with_reducible repeat' (first
      | assumption | intro _ | apply hf | apply stored_requestLost | apply stored_hostStore | apply stored_wrTake
      | apply stored_unlessHeld | apply stored_foldl | apply stored_foldl2 | simp only [stored_mk] | simp only [cl_mk]
      | apply cl_dmaFill | apply cl_resetCluster | apply cl_ctl | apply cl_reset | split | dsimp only | rfl))

theorem stored_execKvread (p e) (s t : State) (h : execKvread p e s = .next t) (hW : s.memWf = true) : t.memWf = true := by
  unfold execKvread at h
  cases h
  (with_reducible repeat' (first
      | assumption | intro _ | apply hf | apply stored_unlessHeld | apply stored_dmaNext | apply stored_unlessHeld
      | apply stored_foldl | apply stored_foldl2 | simp only [stored_mk] | simp only [cl_mk] | apply cl_dmaFill
      | apply cl_resetCluster | apply cl_ctl | apply cl_reset | split | dsimp only | rfl))

theorem stored_execKvwrite (p e) (s t : State) (h : execKvwrite p e s = .next t) (hW : s.memWf = true) : t.memWf = true := by
  unfold execKvwrite at h
  cases h
  (with_reducible repeat' (first
      | assumption | intro _ | apply hf | apply stored_unlessHeld | apply stored_dmaNext | apply stored_unlessHeld
      | apply stored_foldl | apply stored_foldl2 | simp only [stored_mk] | simp only [cl_mk] | apply cl_dmaFill
      | apply cl_resetCluster | apply cl_ctl | apply cl_reset | split | dsimp only | rfl))

theorem stored_execPfxLookupDone (a) (s t : State) (h : execPfxLookupDone a s = .next t) (hW : s.memWf = true) : t.memWf = true := by
  unfold execPfxLookupDone at h
  cases h
  (with_reducible repeat' (first
      | assumption | intro _ | apply hf | apply stored_unlessHeld | apply stored_pfxEnd | apply stored_unlessHeld
      | apply stored_foldl | apply stored_foldl2 | simp only [stored_mk] | simp only [cl_mk] | apply cl_dmaFill
      | apply cl_resetCluster | apply cl_ctl | apply cl_reset | split | dsimp only | rfl))

theorem entryRow_stored {ring opc entry} {s t : State} {f : State → Nat → List Byte → State}
    (hf : ∀ s n b, s.memWf = true → (f s n b).memWf = true) (h : entryRow ring opc entry s f = .next t) (hW : s.memWf = true) :
    t.memWf = true := by
  unfold entryRow at h
  cases h
  split
  · dsimp only
    split
    · exact stored_badAck _ _ _ _ (stored_consume _ _ hW)
    · exact stored_unlessHeld _ _ (fun _ => hf _ _ _ (stored_consume _ _ hW)) hW
  · exact hW

theorem stored_execSubmit (r e p q) (s t : State) (h : execSubmit r e p q s = .next t) (hW : s.memWf = true) : t.memWf = true := by
  exact entryRow_stored (fun s n b hs => by (apply stored_submit; exact hs)) h hW

theorem stored_execAbort (r e) (s t : State) (h : execAbort r e s = .next t) (hW : s.memWf = true) : t.memWf = true := by
  exact entryRow_stored (fun s n b hs => by (apply stored_abortRun; exact hs)) h hW

theorem stored_execTenant (r e) (s t : State) (h : execTenant r e s = .next t) (hW : s.memWf = true) : t.memWf = true := by
  exact entryRow_stored (fun s n b hs => by (apply stored_tenant; exact hs)) h hW

theorem stored_execGrammar (r e b) (s t : State) (h : execGrammar r e b s = .next t) (hW : s.memWf = true) : t.memWf = true := by
  exact entryRow_stored (fun s n b hs => by (apply stored_grammar; exact hs)) h hW

theorem stored_execBudgetRefill (s t : State) (h : execBudgetRefill s = .next t) (hW : s.memWf = true) : t.memWf = true := by
  rw [← Host.Outcome.next.inj h]
  exact stored_refill _ hW

theorem stored_execFeed (r row) (s t : State) (h : execFeed r row s = .next t) (hW : s.memWf = true) : t.memWf = true := by
  unfold execFeed at h
  cases h
  (with_reducible repeat' (first
      | assumption | intro _ | apply hf | apply stored_unlessHeld | apply stored_feed | apply stored_unlessHeld | apply stored_foldl
      | apply stored_foldl2 | simp only [stored_mk] | simp only [cl_mk] | apply cl_dmaFill | apply cl_resetCluster | apply cl_ctl
      | apply cl_reset | split | dsimp only | rfl))

theorem stored_execSample (r row) (s t : State) (h : execSample r row s = .next t) (hW : s.memWf = true) : t.memWf = true := by
  unfold execSample at h
  cases h
  (with_reducible repeat' (first
      | assumption | intro _ | apply hf | apply stored_unlessHeld | apply stored_takeRow | apply stored_sampleRow
      | apply stored_unlessHeld | apply stored_foldl | apply stored_foldl2 | simp only [stored_mk] | simp only [cl_mk]
      | apply cl_dmaFill | apply cl_resetCluster | apply cl_ctl | apply cl_reset | split | dsimp only | rfl))

theorem stored_execVerify (r row) (s t : State) (h : execVerify r row s = .next t) (hW : s.memWf = true) : t.memWf = true := by
  unfold execVerify at h
  cases h
  (with_reducible repeat' (first
      | assumption | intro _ | apply hf | apply stored_unlessHeld | apply stored_takeRow | apply stored_ctxHeader
      | apply stored_verifyFrom | (have e := congrArg Prod.snd ‹State.ctxHeader _ _ _ _ = _›; dsimp only at e; subst e)
      | apply stored_unlessHeld | apply stored_foldl | apply stored_foldl2 | simp only [stored_mk] | simp only [cl_mk]
      | apply cl_dmaFill | apply cl_resetCluster | apply cl_ctl | apply cl_reset | split | dsimp only | rfl))

theorem stored_execLinkDataFlit (x0 x1 x2 x3) (s t : State) (h : execLinkDataFlit x0 x1 s x2 x3 = .next t) (hW : s.memWf = true) : t.memWf = true := by
  unfold execLinkDataFlit at h
  cases h
  (with_reducible repeat' (first
      | assumption | intro _ | apply hf | apply stored_fromPeer | apply stored_numbered | apply stored_inbound
      | apply stored_unlessHeld | apply stored_foldl | apply stored_foldl2 | simp only [stored_mk] | simp only [cl_mk]
      | apply cl_dmaFill | apply cl_resetCluster | apply cl_ctl | apply cl_reset | split | dsimp only | rfl))

theorem stored_execLinkControlFlit (x0 x1 x2 x3) (s t : State) (h : execLinkControlFlit x0 x1 s x2 x3 = .next t) (hW : s.memWf = true) : t.memWf = true := by
  unfold execLinkControlFlit at h
  cases h
  (with_reducible repeat' (first
      | assumption | intro _ | apply hf | apply stored_fromPeer | apply stored_numbered | apply stored_ctlWords
      | apply stored_unlessHeld | apply stored_foldl | apply stored_foldl2 | simp only [stored_mk] | simp only [cl_mk]
      | apply cl_dmaFill | apply cl_resetCluster | apply cl_ctl | apply cl_reset | split | dsimp only | rfl))

theorem stored_execHrd (a b c) (s t : State) (h : execHrd a b c s = .next t) (hW : s.memWf = true) : t.memWf = true := by
  unfold execHrd at h
  cases h
  (with_reducible repeat' (first
      | assumption | intro _ | apply hf | apply stored_relayTake | apply stored_hrdServe | apply stored_unlessHeld
      | apply stored_foldl | apply stored_foldl2 | simp only [stored_mk] | simp only [cl_mk] | apply cl_dmaFill
      | apply cl_resetCluster | apply cl_ctl | apply cl_reset | split | dsimp only | rfl))

theorem stored_execHrdd (a b c) (s t : State) (h : execHrdd a b c s = .next t) (hW : s.memWf = true) : t.memWf = true := by
  unfold execHrdd at h
  cases h
  (with_reducible repeat' (first
      | assumption | intro _ | apply hf | apply stored_relayTake | apply stored_relayResponse | apply stored_unlessHeld
      | apply stored_foldl | apply stored_foldl2 | simp only [stored_mk] | simp only [cl_mk] | apply cl_dmaFill
      | apply cl_resetCluster | apply cl_ctl | apply cl_reset | split | dsimp only | rfl))

theorem stored_execHwr (a b c) (s t : State) (h : execHwr a b c s = .next t) (hW : s.memWf = true) : t.memWf = true := by
  unfold execHwr at h
  cases h
  (with_reducible repeat' (first
      | assumption | intro _ | apply hf | apply stored_relayTake | apply stored_hwrServe | apply stored_unlessHeld
      | apply stored_foldl | apply stored_foldl2 | simp only [stored_mk] | simp only [cl_mk] | apply cl_dmaFill
      | apply cl_resetCluster | apply cl_ctl | apply cl_reset | split | dsimp only | rfl))

theorem stored_execCrd (a b) (s t : State) (h : execCrd a b s = .next t) (hW : s.memWf = true) : t.memWf = true := by
  unfold execCrd at h
  cases h
  (with_reducible repeat' (first
      | assumption | intro _ | apply hf | apply stored_relayTake | apply stored_crdServe | apply stored_unlessHeld
      | apply stored_foldl | apply stored_foldl2 | simp only [stored_mk] | simp only [cl_mk] | apply cl_dmaFill
      | apply cl_resetCluster | apply cl_ctl | apply cl_reset | split | dsimp only | rfl))

theorem stored_execCwr (a b c) (s t : State) (h : execCwr a b c s = .next t) (hW : s.memWf = true) : t.memWf = true := by
  unfold execCwr at h
  cases h
  (with_reducible repeat' (first
      | assumption | intro _ | apply hf | apply stored_relayTake | apply stored_cwrServe | apply stored_unlessHeld
      | apply stored_foldl | apply stored_foldl2 | simp only [stored_mk] | simp only [cl_mk] | apply cl_dmaFill
      | apply cl_resetCluster | apply cl_ctl | apply cl_reset | split | dsimp only | rfl))

theorem stored_execCrsp (a b c) (s t : State) (h : execCrsp a b c s = .next t) (hW : s.memWf = true) : t.memWf = true := by
  unfold execCrsp at h
  cases h
  (with_reducible repeat' (first
      | assumption | intro _ | apply hf | apply stored_relayTake | apply stored_relayResponse | apply stored_unlessHeld
      | apply stored_foldl | apply stored_foldl2 | simp only [stored_mk] | simp only [cl_mk] | apply cl_dmaFill
      | apply cl_resetCluster | apply cl_ctl | apply cl_reset | split | dsimp only | rfl))

theorem stored_execIrq (a b) (s t : State) (h : execIrq a b s = .next t) (hW : s.memWf = true) : t.memWf = true := by
  unfold execIrq at h
  cases h
  (with_reducible repeat' (first
      | assumption | intro _ | apply hf | apply stored_relayTake | apply stored_irqServe | apply stored_unlessHeld
      | apply stored_foldl | apply stored_foldl2 | simp only [stored_mk] | simp only [cl_mk] | apply cl_dmaFill
      | apply cl_resetCluster | apply cl_ctl | apply cl_reset | split | dsimp only | rfl))

theorem stored_execInputCollapse  (s t : State) (h : execInputCollapse s = .next t) (hW : s.memWf = true) : t.memWf = true := by
  unfold execInputCollapse at h
  cases h
  (with_reducible repeat' (first
      | assumption | intro _ | apply hf | apply stored_offAtOnce | apply stored_unlessHeld | apply stored_foldl | apply stored_foldl2
      | simp only [stored_mk] | simp only [cl_mk] | apply cl_dmaFill | apply cl_resetCluster | apply cl_ctl | apply cl_reset | split
      | dsimp only | rfl))

theorem stored_execIdle (p : Site) (n : BitVec 16) (s t : State) (h : execIdle p n s = .next t) (hW : s.memWf = true) : t.memWf = true :=
  ctlRow_stored _ _ (fun s hs => by exact stored_modCluster _ _ _ _ (fun k hk => cl_ctlIdle _ _ hk) hs) _ h hW

theorem stored_execLoop (p : Site) (l : BitVec 10) (n : BitVec 16) (s t : State) (h : execLoop p l n s = .next t) (hW : s.memWf = true) : t.memWf = true :=
  ctlRow_stored _ _ (fun s hs => by exact stored_modCluster _ _ _ _ (fun k hk => cl_ctlLoop _ _ _ hk) hs) _ h hW

theorem stored_execSegend (x0) (s t : State) (h : execSegend x0 s = .next t) (hW : s.memWf = true) : t.memWf = true := by
  unfold execSegend at h
  cases h
  (with_reducible repeat' (first
      | assumption | intro _ | apply hf | apply stored_ctlSegend | apply stored_unlessHeld | apply stored_foldl | apply stored_foldl2
      | simp only [stored_mk] | simp only [cl_mk] | apply cl_dmaFill | apply cl_resetCluster | apply cl_ctl | apply cl_reset | split
      | dsimp only | rfl))

theorem stored_execMark (p : Site) (v : BitVec 16) (s t : State) (h : execMark p v s = .next t) (hW : s.memWf = true) : t.memWf = true :=
  ctlRow_stored _ _ (fun s hs => by exact stored_modCluster _ _ _ _ (fun k hk => cl_advance _ hk) (stored_ctlMark _ _ _ _ hs)) _ h hW

theorem stored_execSegmentBegin (x0) (s t : State) (h : execSegmentBegin x0 s = .next t) (hW : s.memWf = true) : t.memWf = true := by
  unfold execSegmentBegin at h
  cases h
  (with_reducible repeat' (first
      | assumption | intro _ | apply hf | apply stored_beginSegment | apply stored_unlessHeld | apply stored_foldl
      | apply stored_foldl2 | simp only [stored_mk] | simp only [cl_mk] | apply cl_dmaFill | apply cl_resetCluster | apply cl_ctl
      | apply cl_reset | split | dsimp only | rfl))

theorem stored_execQueueTimeout (x0) (s t : State) (h : execQueueTimeout x0 s = .next t) (hW : s.memWf = true) : t.memWf = true := by
  unfold execQueueTimeout at h
  cases h
  (with_reducible repeat' (first
      | assumption | intro _ | apply hf | apply stored_queueTimeout | apply stored_unlessHeld | apply stored_foldl
      | apply stored_foldl2 | simp only [stored_mk] | simp only [cl_mk] | apply cl_dmaFill | apply cl_resetCluster | apply cl_ctl
      | apply cl_reset | split | dsimp only | rfl))

theorem stored_execEngineOpComplete (x0) (s t : State) (h : execEngineOpComplete x0 s = .next t) (hW : s.memWf = true) : t.memWf = true := by
  unfold execEngineOpComplete at h
  cases h
  (with_reducible repeat' (first
      | assumption | intro _ | apply hf | apply stored_landSel | apply stored_unlessHeld | apply stored_foldl | apply stored_foldl2
      | simp only [stored_mk] | simp only [cl_mk] | apply cl_dmaFill | apply cl_resetCluster | apply cl_ctl | apply cl_reset | split
      | dsimp only | rfl))

theorem stored_execTileCrcComparison (x0) (s t : State) (h : execTileCrcComparison x0 s = .next t) (hW : s.memWf = true) : t.memWf = true := by
  unfold execTileCrcComparison at h
  cases h
  (with_reducible repeat' (first
      | assumption | intro _ | apply hf | apply stored_modCluster | apply stored_landEff | apply stored_unlessHeld
      | apply stored_foldl | apply stored_foldl2 | simp only [stored_mk] | simp only [cl_mk] | apply cl_dmaFill
      | apply cl_resetCluster | apply cl_ctl | apply cl_reset | split | dsimp only | rfl))

theorem stored_execFma (x0 x1 x2 x3 x4 x5) (s t : State) (h : execFma x0 x1 x2 x3 x4 x5 s = .next t) (hW : s.memWf = true) : t.memWf = true := by
  exact vecRow_stored h hW

theorem stored_execMul (x0 x1 x2 x3 x4) (s t : State) (h : execMul x0 x1 x2 x3 x4 s = .next t) (hW : s.memWf = true) : t.memWf = true := by
  exact vecRow_stored h hW

theorem stored_execAdd (x0 x1 x2 x3 x4) (s t : State) (h : execAdd x0 x1 x2 x3 x4 s = .next t) (hW : s.memWf = true) : t.memWf = true := by
  exact vecRow_stored h hW

theorem stored_execSub (x0 x1 x2 x3 x4) (s t : State) (h : execSub x0 x1 x2 x3 x4 s = .next t) (hW : s.memWf = true) : t.memWf = true := by
  exact vecRow_stored h hW

theorem stored_execMax (x0 x1 x2 x3 x4) (s t : State) (h : execMax x0 x1 x2 x3 x4 s = .next t) (hW : s.memWf = true) : t.memWf = true := by
  exact vecRow_stored h hW

theorem stored_execMin (x0 x1 x2 x3 x4) (s t : State) (h : execMin x0 x1 x2 x3 x4 s = .next t) (hW : s.memWf = true) : t.memWf = true := by
  exact vecRow_stored h hW

theorem stored_execCmpeq (x0 x1 x2 x3) (s t : State) (h : execCmpeq x0 x1 x2 x3 s = .next t) (hW : s.memWf = true) : t.memWf = true := by
  exact vecRow_stored h hW

theorem stored_execCmplt (x0 x1 x2 x3) (s t : State) (h : execCmplt x0 x1 x2 x3 s = .next t) (hW : s.memWf = true) : t.memWf = true := by
  exact vecRow_stored h hW

theorem stored_execCmple (x0 x1 x2 x3) (s t : State) (h : execCmple x0 x1 x2 x3 s = .next t) (hW : s.memWf = true) : t.memWf = true := by
  exact vecRow_stored h hW

theorem stored_execSel (x0 x1 x2 x3 x4) (s t : State) (h : execSel x0 x1 x2 x3 x4 s = .next t) (hW : s.memWf = true) : t.memWf = true := by
  exact vecRow_stored h hW

theorem stored_execIadd (x0 x1 x2 x3) (s t : State) (h : execIadd x0 x1 x2 x3 s = .next t) (hW : s.memWf = true) : t.memWf = true := by
  exact vecRow_stored h hW

theorem stored_execIsub (x0 x1 x2 x3) (s t : State) (h : execIsub x0 x1 x2 x3 s = .next t) (hW : s.memWf = true) : t.memWf = true := by
  exact vecRow_stored h hW

theorem stored_execAnd (x0 x1 x2 x3) (s t : State) (h : execAnd x0 x1 x2 x3 s = .next t) (hW : s.memWf = true) : t.memWf = true := by
  exact vecRow_stored h hW

theorem stored_execOr (x0 x1 x2 x3) (s t : State) (h : execOr x0 x1 x2 x3 s = .next t) (hW : s.memWf = true) : t.memWf = true := by
  exact vecRow_stored h hW

theorem stored_execXor (x0 x1 x2 x3) (s t : State) (h : execXor x0 x1 x2 x3 s = .next t) (hW : s.memWf = true) : t.memWf = true := by
  exact vecRow_stored h hW

theorem stored_execShl (x0 x1 x2 x3) (s t : State) (h : execShl x0 x1 x2 x3 s = .next t) (hW : s.memWf = true) : t.memWf = true := by
  exact vecRow_stored h hW

theorem stored_execShr (x0 x1 x2 x3) (s t : State) (h : execShr x0 x1 x2 x3 s = .next t) (hW : s.memWf = true) : t.memWf = true := by
  exact vecRow_stored h hW

theorem stored_execSar (x0 x1 x2 x3) (s t : State) (h : execSar x0 x1 x2 x3 s = .next t) (hW : s.memWf = true) : t.memWf = true := by
  exact vecRow_stored h hW

theorem stored_execLaneid (x0 x1) (s t : State) (h : execLaneid x0 x1 s = .next t) (hW : s.memWf = true) : t.memWf = true := by
  exact vecRow_stored h hW

theorem stored_execBcast (x0 x1 x2 x3) (s t : State) (h : execBcast x0 x1 x2 x3 s = .next t) (hW : s.memWf = true) : t.memWf = true := by
  exact vecRow_stored h hW

theorem stored_execCvtw (x0 x1 x2) (s t : State) (h : execCvtw x0 x1 x2 s = .next t) (hW : s.memWf = true) : t.memWf = true := by
  exact vecRow_stored h hW

theorem stored_execCvtn (x0 x1 x2) (s t : State) (h : execCvtn x0 x1 x2 s = .next t) (hW : s.memWf = true) : t.memWf = true := by
  exact vecRow_stored h hW

theorem stored_execNarrowt (x0 x1 x2 x3) (s t : State) (h : execNarrowt x0 x1 x2 x3 s = .next t) (hW : s.memWf = true) : t.memWf = true := by
  exact vecRow_stored h hW

theorem stored_execNarrowu (x0 x1 x2) (s t : State) (h : execNarrowu x0 x1 x2 s = .next t) (hW : s.memWf = true) : t.memWf = true := by
  exact vecRow_stored h hW

theorem stored_execCvtb8 (x0 x1 x2) (s t : State) (h : execCvtb8 x0 x1 x2 s = .next t) (hW : s.memWf = true) : t.memWf = true := by
  exact vecRow_stored h hW

theorem stored_execCvtb5 (x0 x1 x2) (s t : State) (h : execCvtb5 x0 x1 x2 s = .next t) (hW : s.memWf = true) : t.memWf = true := by
  exact vecRow_stored h hW

theorem stored_execCvtbi (x0 x1 x2) (s t : State) (h : execCvtbi x0 x1 x2 s = .next t) (hW : s.memWf = true) : t.memWf = true := by
  exact vecRow_stored h hW

theorem stored_execWiden (x0 x1 x2 x3) (s t : State) (h : execWiden x0 x1 x2 x3 s = .next t) (hW : s.memWf = true) : t.memWf = true := by
  exact vecRow_stored h hW

theorem stored_execExp2 (x0 x1 x2) (s t : State) (h : execExp2 x0 x1 x2 s = .next t) (hW : s.memWf = true) : t.memWf = true := by
  exact vecRow_stored h hW

theorem stored_execLog2 (x0 x1 x2) (s t : State) (h : execLog2 x0 x1 x2 s = .next t) (hW : s.memWf = true) : t.memWf = true := by
  exact vecRow_stored h hW

theorem stored_execRcp (x0 x1 x2) (s t : State) (h : execRcp x0 x1 x2 s = .next t) (hW : s.memWf = true) : t.memWf = true := by
  exact vecRow_stored h hW

theorem stored_execRsqrt (x0 x1 x2) (s t : State) (h : execRsqrt x0 x1 x2 s = .next t) (hW : s.memWf = true) : t.memWf = true := by
  exact vecRow_stored h hW

theorem stored_execSilu (x0 x1 x2) (s t : State) (h : execSilu x0 x1 x2 s = .next t) (hW : s.memWf = true) : t.memWf = true := by
  exact vecRow_stored h hW

theorem stored_execGelu (x0 x1 x2) (s t : State) (h : execGelu x0 x1 x2 s = .next t) (hW : s.memWf = true) : t.memWf = true := by
  exact vecRow_stored h hW

theorem stored_execRsum (x0 x1 x2 x3 x4) (s t : State) (h : execRsum x0 x1 x2 x3 x4 s = .next t) (hW : s.memWf = true) : t.memWf = true := by
  exact vecRow_stored h hW

theorem stored_execRmax (x0 x1 x2 x3 x4) (s t : State) (h : execRmax x0 x1 x2 x3 x4 s = .next t) (hW : s.memWf = true) : t.memWf = true := by
  exact vecRow_stored h hW

theorem stored_execRmin (x0 x1 x2 x3 x4) (s t : State) (h : execRmin x0 x1 x2 x3 x4 s = .next t) (hW : s.memWf = true) : t.memWf = true := by
  exact vecRow_stored h hW

theorem stored_execRlse (x0 x1 x2 x3 x4 x5) (s t : State) (h : execRlse x0 x1 x2 x3 x4 x5 s = .next t) (hW : s.memWf = true) : t.memWf = true := by
  exact vecRow_stored h hW

theorem stored_execTopl (x0 x1 x2 x3 x4 x5 x6) (s t : State) (h : execTopl x0 x1 x2 x3 x4 x5 x6 s = .next t) (hW : s.memWf = true) : t.memWf = true := by
  exact vecRow_stored h hW

theorem stored_execXacc (x0 x1 x2 x3 x4) (s t : State) (h : execXacc x0 x1 x2 x3 x4 s = .next t) (hW : s.memWf = true) : t.memWf = true := by
  exact vecRow_stored h hW

theorem stored_execXmac (x0 x1 x2 x3 x4 x5 x6) (s t : State) (h : execXmac x0 x1 x2 x3 x4 x5 x6 s = .next t) (hW : s.memWf = true) : t.memWf = true := by
  exact vecRow_stored h hW

theorem stored_execXfold (x0 x1 x2) (s t : State) (h : execXfold x0 x1 x2 s = .next t) (hW : s.memWf = true) : t.memWf = true := by
  exact vecRow_stored h hW

theorem stored_execXcvt (x0 x1 x2 x3 x4 x5) (s t : State) (h : execXcvt x0 x1 x2 x3 x4 x5 s = .next t) (hW : s.memWf = true) : t.memWf = true := by
  exact vecRow_stored h hW

theorem stored_execXrst (x0 x1 x2) (s t : State) (h : execXrst x0 x1 x2 s = .next t) (hW : s.memWf = true) : t.memWf = true := by
  exact vecRow_stored h hW

theorem stored_execVecResult (x0) (s t : State) (h : execVecResult x0 s = .next t) (hW : s.memWf = true) : t.memWf = true := by
  unfold execVecResult at h
  cases h
  (with_reducible repeat' (first
      | assumption | intro _ | apply hf | apply stored_landSel | apply stored_unlessHeld | apply stored_foldl | apply stored_foldl2
      | simp only [stored_mk] | simp only [cl_mk] | apply cl_dmaFill | apply cl_resetCluster | apply cl_ctl | apply cl_reset | split
      | dsimp only | rfl))

theorem stored_execXferFromScratchpad (x0 x1 x2) (s t : State) (h : execXferFromScratchpad x0 x1 x2 s = .next t) (hW : s.memWf = true) : t.memWf = true := by
  exact xferRow_stored h hW

theorem stored_execXferIntoScratchpad (x0 x1 x2) (s t : State) (h : execXferIntoScratchpad x0 x1 x2 s = .next t) (hW : s.memWf = true) : t.memWf = true := by
  exact xferRow_stored h hW

theorem stored_execFill (x0 x1) (s t : State) (h : execFill x0 x1 s = .next t) (hW : s.memWf = true) : t.memWf = true := by
  exact xferRow_stored h hW

theorem stored_execCopy (x0 x1) (s t : State) (h : execCopy x0 x1 s = .next t) (hW : s.memWf = true) : t.memWf = true := by
  exact xferRow_stored h hW

theorem stored_execDmaCommand (x0 x1 x2) (s t : State) (h : execDmaCommand x0 x1 x2 s = .next t) (hW : s.memWf = true) : t.memWf = true := by
  exact xferRow_stored h hW

theorem stored_execDmaCompletion (x0 x1 x2) (s t : State) (h : execDmaCompletion x0 x1 x2 s = .next t) (hW : s.memWf = true) : t.memWf = true := by
  exact xferRow_stored h hW

theorem stored_execTransferComplete (x0) (s t : State) (h : execTransferComplete x0 s = .next t) (hW : s.memWf = true) : t.memWf = true := by
  unfold execTransferComplete at h
  cases h
  (with_reducible repeat' (first
      | assumption | intro _ | apply hf | apply stored_modCluster | apply stored_landSel | apply stored_unlessHeld
      | apply stored_foldl | apply stored_foldl2 | simp only [stored_mk] | simp only [cl_mk] | apply cl_dmaFill
      | apply cl_resetCluster | apply cl_ctl | apply cl_reset | split | dsimp only | rfl))

theorem stored_execRoutePass (x0 x1 x2) (s t : State) (h : execRoutePass x0 x1 x2 s = .next t) (hW : s.memWf = true) : t.memWf = true := by
  exact routeRow_stored h hW

theorem stored_execRouteBinary32Sum (x0 x1 x2) (s t : State) (h : execRouteBinary32Sum x0 x1 x2 s = .next t) (hW : s.memWf = true) : t.memWf = true := by
  exact routeRow_stored h hW

theorem stored_execRouteBf16InSum (x0 x1 x2) (s t : State) (h : execRouteBf16InSum x0 x1 x2 s = .next t) (hW : s.memWf = true) : t.memWf = true := by
  exact routeRow_stored h hW

theorem stored_execRouteXsSum (x0 x1 x2) (s t : State) (h : execRouteXsSum x0 x1 x2 s = .next t) (hW : s.memWf = true) : t.memWf = true := by
  exact routeRow_stored h hW

theorem stored_execRouteMax (x0 x1 x2) (s t : State) (h : execRouteMax x0 x1 x2 s = .next t) (hW : s.memWf = true) : t.memWf = true := by
  exact routeRow_stored h hW

theorem stored_execRouteLseMerge (x0 x1 x2) (s t : State) (h : execRouteLseMerge x0 x1 x2 s = .next t) (hW : s.memWf = true) : t.memWf = true := by
  exact routeRow_stored h hW

theorem stored_execRouteTopkMerge (x0 x1 x2) (s t : State) (h : execRouteTopkMerge x0 x1 x2 s = .next t) (hW : s.memWf = true) : t.memWf = true := by
  exact routeRow_stored h hW

theorem stored_execQueueEntryVisible (x0 x1 x2) (s t : State) (h : execQueueEntryVisible x0 x1 s x2 = .next t) (hW : s.memWf = true) : t.memWf = true := by
  unfold execQueueEntryVisible at h
  cases h
  (with_reducible repeat' (first
      | assumption | intro _ | apply hf | apply stored_queueShow | apply stored_unlessHeld | apply stored_foldl | apply stored_foldl2
      | simp only [stored_mk] | simp only [cl_mk] | apply cl_dmaFill | apply cl_resetCluster | apply cl_ctl | apply cl_reset | split
      | dsimp only | rfl))

theorem stored_execQueueSlotVisible (x0 x1) (s t : State) (h : execQueueSlotVisible x0 x1 s = .next t) (hW : s.memWf = true) : t.memWf = true := by
  unfold execQueueSlotVisible at h
  cases h
  (with_reducible repeat' (first
      | assumption | intro _ | apply hf | apply stored_portsRun | apply stored_queueFree | apply stored_unlessHeld
      | apply stored_foldl | apply stored_foldl2 | simp only [stored_mk] | simp only [cl_mk] | apply cl_dmaFill
      | apply cl_resetCluster | apply cl_ctl | apply cl_reset | split | dsimp only | rfl))

theorem stored_execFenceApplied (x0) (s t : State) (h : execFenceApplied x0 s = .next t) (hW : s.memWf = true) : t.memWf = true := by
  unfold execFenceApplied at h
  cases h
  (with_reducible repeat' (first
      | assumption | intro _ | apply hf | apply stored_fenceRegion | apply stored_unlessHeld | apply stored_foldl
      | apply stored_foldl2 | simp only [stored_mk] | simp only [cl_mk] | apply cl_dmaFill | apply cl_resetCluster | apply cl_ctl
      | apply cl_reset | split | dsimp only | rfl))

theorem stored_execRd (x0 x1 x2 x3 x4 x5) (s t : State) (h : execRd x0 x1 x2 x3 s x4 x5 = .next t) (hW : s.memWf = true) : t.memWf = true := by
  unfold execRd at h
  cases h
  (with_reducible repeat' (first
      | assumption | intro _ | apply hf | apply stored_requestLost | apply stored_hostRead | apply stored_rdTake
      | apply stored_unlessHeld | apply stored_foldl | apply stored_foldl2 | simp only [stored_mk] | simp only [cl_mk]
      | apply cl_dmaFill | apply cl_resetCluster | apply cl_ctl | apply cl_reset | split | dsimp only | rfl))

theorem stored_execRsp (x0 x1 x2 x3 x4 x5 x6) (s t : State) (h : execRsp x0 x1 x2 x3 s x4 x5 x6 = .next t) (hW : s.memWf = true) : t.memWf = true := by
  unfold execRsp at h
  cases h
  (with_reducible repeat' (first
      | assumption | intro _ | apply hf | apply stored_carried | apply stored_receive | apply stored_unlessHeld | apply stored_foldl
      | apply stored_foldl2 | simp only [stored_mk] | simp only [cl_mk] | apply cl_dmaFill | apply cl_resetCluster | apply cl_ctl
      | apply cl_reset | split | dsimp only | rfl))

theorem stored_execControlDma (x0 x1 x2 x3 x4 x5 x6 x7) (s t : State) (h : execControlDma x0 x1 x2 x3 x4 x5 s x6 x7 = .next t) (hW : s.memWf = true) : t.memWf = true := by
  unfold execControlDma at h
  cases h
  (with_reducible repeat' (first
      | assumption | intro _ | apply hf | apply stored_carried | apply stored_dmaServe | apply stored_unlessHeld | apply stored_foldl
      | apply stored_foldl2 | simp only [stored_mk] | simp only [cl_mk] | apply cl_dmaFill | apply cl_resetCluster | apply cl_ctl
      | apply cl_reset | split | dsimp only | rfl))

theorem stored_execDmadone (x0 x1 x2 x3 x4 x5) (s t : State) (h : execDmadone x0 x1 x2 s x3 x4 x5 = .next t) (hW : s.memWf = true) : t.memWf = true := by
  unfold execDmadone at h
  cases h
  (with_reducible repeat' (first
      | assumption | intro _ | apply hf | apply stored_carried | apply stored_receive | apply stored_unlessHeld | apply stored_foldl
      | apply stored_foldl2 | simp only [stored_mk] | simp only [cl_mk] | apply cl_dmaFill | apply cl_resetCluster | apply cl_ctl
      | apply cl_reset | split | dsimp only | rfl))

theorem stored_execFault (x0 x1 x2 x3) (s t : State) (h : execFault x0 x1 s x2 x3 = .next t) (hW : s.memWf = true) : t.memWf = true := by
  unfold execFault at h
  cases h
  (with_reducible repeat' (first
      | assumption | intro _ | apply hf | apply stored_carried | apply stored_takeFault | apply stored_unlessHeld
      | apply stored_foldl | apply stored_foldl2 | simp only [stored_mk] | simp only [cl_mk] | apply cl_dmaFill
      | apply cl_resetCluster | apply cl_ctl | apply cl_reset | split | dsimp only | rfl))

theorem stored_execErrlog (x0 x1 x2 x3) (s t : State) (h : execErrlog x0 x1 s x2 x3 = .next t) (hW : s.memWf = true) : t.memWf = true := by
  unfold execErrlog at h
  cases h
  (with_reducible repeat' (first
      | assumption | intro _ | apply hf | apply stored_carried | apply stored_takeEntry | apply stored_unlessHeld
      | apply stored_foldl | apply stored_foldl2 | simp only [stored_mk] | simp only [cl_mk] | apply cl_dmaFill
      | apply cl_resetCluster | apply cl_ctl | apply cl_reset | split | dsimp only | rfl))

theorem stored_execSegcmd (x0 x1 x2 x3) (s t : State) (h : execSegcmd x0 x1 s x2 x3 = .next t) (hW : s.memWf = true) : t.memWf = true := by
  unfold execSegcmd at h
  cases h
  (with_reducible repeat' (first
      | assumption | intro _ | apply hf | apply stored_carried | apply stored_segPush | apply stored_unlessHeld | apply stored_foldl
      | apply stored_foldl2 | simp only [stored_mk] | simp only [cl_mk] | apply cl_dmaFill | apply cl_resetCluster | apply cl_ctl
      | apply cl_reset | split | dsimp only | rfl))

theorem stored_execToken (x0 x1 x2 x3 x4) (s t : State) (h : execToken x0 x1 s x2 x3 x4 = .next t) (hW : s.memWf = true) : t.memWf = true := by
  unfold execToken at h
  cases h
  (with_reducible repeat' (first
      | assumption | intro _ | apply hf | apply stored_carried | apply stored_receive | apply stored_unlessHeld | apply stored_foldl
      | apply stored_foldl2 | simp only [stored_mk] | simp only [cl_mk] | apply cl_dmaFill | apply cl_resetCluster | apply cl_ctl
      | apply cl_reset | split | dsimp only | rfl))

theorem stored_execHalt (x0 x1 x2 x3) (s t : State) (h : execHalt x0 x1 s x2 x3 = .next t) (hW : s.memWf = true) : t.memWf = true := by
  unfold execHalt at h
  cases h
  (with_reducible repeat' (first
      | assumption | intro _ | apply hf | apply stored_carried | apply stored_haltPacket | apply stored_unlessHeld
      | apply stored_foldl | apply stored_foldl2 | simp only [stored_mk] | simp only [cl_mk] | apply cl_dmaFill
      | apply cl_resetCluster | apply cl_ctl | apply cl_reset | split | dsimp only | rfl))

theorem stored_execSidebandTimeout (x0 x1) (s t : State) (h : execSidebandTimeout x0 x1 s = .next t) (hW : s.memWf = true) : t.memWf = true := by
  unfold execSidebandTimeout at h
  cases h
  (with_reducible repeat' (first
      | assumption | intro _ | apply hf | apply stored_timedOut | apply stored_unlessHeld | apply stored_foldl | apply stored_foldl2
      | simp only [stored_mk] | simp only [cl_mk] | apply cl_dmaFill | apply cl_resetCluster | apply cl_ctl | apply cl_reset | split
      | dsimp only | rfl))

theorem stored_execPfxLaunch (x0 x1) (s t : State) (h : execPfxLaunch x0 x1 s = .next t) (hW : s.memWf = true) : t.memWf = true := by
  unfold execPfxLaunch at h
  cases h
  (with_reducible repeat' (first
      | assumption | intro _ | apply hf | apply stored_accessWrite | apply stored_unlessHeld | apply stored_foldl
      | apply stored_foldl2 | simp only [stored_mk] | simp only [cl_mk] | apply cl_dmaFill | apply cl_resetCluster | apply cl_ctl
      | apply cl_reset | split | dsimp only | rfl))

theorem stored_execCommit (x0 x1) (s t : State) (h : execCommit x0 x1 s = .next t) (hW : s.memWf = true) : t.memWf = true := by
  unfold execCommit at h
  cases h
  (with_reducible repeat' (first
      | assumption | intro _ | apply hf | apply stored_commitFrom | apply stored_unlessHeld | apply stored_foldl
      | apply stored_foldl2 | simp only [stored_mk] | simp only [cl_mk] | apply cl_dmaFill | apply cl_resetCluster | apply cl_ctl
      | apply cl_reset | split | dsimp only | rfl))

theorem stored_execAdv (x0 x1 x2 x3 x4) (s t : State) (h : execAdv x0 x1 x2 x3 x4 s = .next t) (hW : s.memWf = true) : t.memWf = true := by
  unfold execAdv at h
  cases h
  (with_reducible repeat' (first
      | assumption | intro _ | apply hf | apply stored_commitFrom | apply stored_unlessHeld | apply stored_foldl
      | apply stored_foldl2 | simp only [stored_mk] | simp only [cl_mk] | apply cl_dmaFill | apply cl_resetCluster | apply cl_ctl
      | apply cl_reset | split | dsimp only | rfl))

theorem stored_execDebit (x0 x1 x2) (s t : State) (h : execDebit x0 x1 x2 s = .next t) (hW : s.memWf = true) : t.memWf = true := by
  unfold execDebit at h
  cases h
  (with_reducible repeat' (first
      | assumption | intro _ | apply hf | apply stored_commitFrom | apply stored_unlessHeld | apply stored_foldl
      | apply stored_foldl2 | simp only [stored_mk] | simp only [cl_mk] | apply cl_dmaFill | apply cl_resetCluster | apply cl_ctl
      | apply cl_reset | split | dsimp only | rfl))

theorem stored_execRing (x0 x1 x2) (s t : State) (h : execRing x0 x1 x2 s = .next t) (hW : s.memWf = true) : t.memWf = true := by
  unfold execRing at h
  cases h
  (with_reducible repeat' (first
      | assumption | intro _ | apply hf | apply stored_commitFrom | apply stored_unlessHeld | apply stored_foldl
      | apply stored_foldl2 | simp only [stored_mk] | simp only [cl_mk] | apply cl_dmaFill | apply cl_resetCluster | apply cl_ctl
      | apply cl_reset | split | dsimp only | rfl))

theorem stored_execAdj (x0 x1 x2) (s t : State) (h : execAdj x0 x1 x2 s = .next t) (hW : s.memWf = true) : t.memWf = true := by
  unfold execAdj at h
  cases h
  (with_reducible repeat' (first
      | assumption | intro _ | apply hf | apply stored_commitFrom | apply stored_unlessHeld | apply stored_foldl
      | apply stored_foldl2 | simp only [stored_mk] | simp only [cl_mk] | apply cl_dmaFill | apply cl_resetCluster | apply cl_ctl
      | apply cl_reset | split | dsimp only | rfl))

theorem stored_execSlot (x0 x1 x2) (s t : State) (h : execSlot x0 x1 x2 s = .next t) (hW : s.memWf = true) : t.memWf = true := by
  unfold execSlot at h
  cases h
  (with_reducible repeat' (first
      | assumption | intro _ | apply hf | apply stored_commitFrom | apply stored_unlessHeld | apply stored_foldl
      | apply stored_foldl2 | simp only [stored_mk] | simp only [cl_mk] | apply cl_dmaFill | apply cl_resetCluster | apply cl_ctl
      | apply cl_reset | split | dsimp only | rfl))

theorem stored_execDecodeAdmission (x0 x1) (s t : State) (h : execDecodeAdmission x0 x1 s = .next t) (hW : s.memWf = true) : t.memWf = true := by
  unfold execDecodeAdmission at h
  cases h
  (with_reducible repeat' (first
      | assumption | intro _ | apply hf | apply stored_accessWrite | apply stored_unlessHeld | apply stored_foldl
      | apply stored_foldl2 | simp only [stored_mk] | simp only [cl_mk] | apply cl_dmaFill | apply cl_resetCluster | apply cl_ctl
      | apply cl_reset | split | dsimp only | rfl))

theorem stored_execPrefillAdmission (x0 x1) (s t : State) (h : execPrefillAdmission x0 x1 s = .next t) (hW : s.memWf = true) : t.memWf = true := by
  unfold execPrefillAdmission at h
  cases h
  (with_reducible repeat' (first
      | assumption | intro _ | apply hf | apply stored_accessWrite | apply stored_unlessHeld | apply stored_foldl
      | apply stored_foldl2 | simp only [stored_mk] | simp only [cl_mk] | apply cl_dmaFill | apply cl_resetCluster | apply cl_ctl
      | apply cl_reset | split | dsimp only | rfl))

theorem stored_execLoad (x0 x1 x2) (s t : State) (h : execLoad x0 x1 x2 s = .next t) (hW : s.memWf = true) : t.memWf = true := by
  unfold execLoad at h
  cases h
  (with_reducible repeat' (first
      | assumption | intro _ | apply hf | apply stored_loadImage | apply stored_loadFail | apply stored_unlessHeld
      | apply stored_foldl | apply stored_foldl2 | simp only [stored_mk] | simp only [cl_mk] | apply cl_dmaFill
      | apply cl_resetCluster | apply cl_ctl | apply cl_reset | split | dsimp only | rfl))

theorem stored_execLoadSegment (x0 x1) (s t : State) (h : execLoadSegment x0 x1 s = .next t) (hW : s.memWf = true) : t.memWf = true := by
  unfold execLoadSegment at h
  cases h
  (with_reducible repeat' (first
      | assumption | intro _ | apply hf | apply stored_loadSegment | apply stored_unlessHeld | apply stored_foldl
      | apply stored_foldl2 | simp only [stored_mk] | simp only [cl_mk] | apply cl_dmaFill | apply cl_resetCluster | apply cl_ctl
      | apply cl_reset | split | dsimp only | rfl))

theorem stored_execSwap (x0 x1 x2 x3) (s t : State) (h : execSwap x0 x1 x2 x3 s = .next t) (hW : s.memWf = true) : t.memWf = true := by
  unfold execSwap at h
  cases h
  (with_reducible repeat' (first
      | assumption | intro _ | apply hf | apply stored_accessWrite | apply stored_unlessHeld | apply stored_foldl
      | apply stored_foldl2 | simp only [stored_mk] | simp only [cl_mk] | apply cl_dmaFill | apply cl_resetCluster | apply cl_ctl
      | apply cl_reset | split | dsimp only | rfl))

theorem stored_execStop (x0 x1) (s t : State) (h : execStop x0 x1 s = .next t) (hW : s.memWf = true) : t.memWf = true := by
  unfold execStop at h
  cases h
  (with_reducible repeat' (first
      | assumption | intro _ | apply hf | apply stored_accessWrite | apply stored_unlessHeld | apply stored_foldl
      | apply stored_foldl2 | simp only [stored_mk] | simp only [cl_mk] | apply cl_dmaFill | apply cl_resetCluster | apply cl_ctl
      | apply cl_reset | split | dsimp only | rfl))

theorem stored_execSwpHoldArm (x0 x1 x2) (s t : State) (h : execSwpHoldArm x0 x1 x2 s = .next t) (hW : s.memWf = true) : t.memWf = true := by
  unfold execSwpHoldArm at h
  cases h
  (with_reducible repeat' (first
      | assumption | intro _ | apply hf | apply stored_accessWrite | apply stored_unlessHeld | apply stored_foldl
      | apply stored_foldl2 | simp only [stored_mk] | simp only [cl_mk] | apply cl_dmaFill | apply cl_resetCluster | apply cl_ctl
      | apply cl_reset | split | dsimp only | rfl))

theorem stored_execHello (x0 x1 x2) (s t : State) (h : execHello x0 x1 x2 s = .next t) (hW : s.memWf = true) : t.memWf = true := by
  unfold execHello at h
  cases h
  (with_reducible repeat' (first
      | assumption | intro _ | apply hf | apply stored_helloTake | apply stored_unlessHeld | apply stored_foldl | apply stored_foldl2
      | simp only [stored_mk] | simp only [cl_mk] | apply cl_dmaFill | apply cl_resetCluster | apply cl_ctl | apply cl_reset | split
      | dsimp only | rfl))

theorem stored_execTransferQuote (x0 x1 x2) (s t : State) (h : execTransferQuote x0 x1 x2 s = .next t) (hW : s.memWf = true) : t.memWf = true := by
  unfold execTransferQuote at h
  cases h
  (with_reducible repeat' (first
      | assumption | intro _ | apply hf | apply stored_quote | apply stored_quoteAtSource | apply stored_quoteAtReceiver
      | (have e := congrArg Prod.snd ‹State.quote _ _ = _›; dsimp only at e; subst e) | apply stored_unlessHeld | apply stored_foldl
      | apply stored_foldl2 | simp only [stored_mk] | simp only [cl_mk] | apply cl_dmaFill | apply cl_resetCluster | apply cl_ctl
      | apply cl_reset | split | dsimp only | rfl))

theorem stored_execSessionKey (x0 x1) (s t : State) (h : execSessionKey x0 x1 s = .next t) (hW : s.memWf = true) : t.memWf = true := by
  unfold execSessionKey at h
  cases h
  (with_reducible repeat' (first
      | assumption | intro _ | apply hf | apply stored_keyTake | apply stored_unlessHeld | apply stored_foldl | apply stored_foldl2
      | simp only [stored_mk] | simp only [cl_mk] | apply cl_dmaFill | apply cl_resetCluster | apply cl_ctl | apply cl_reset | split
      | dsimp only | rfl))

theorem stored_execRequestList (x0) (s t : State) (h : execRequestList x0 s = .next t) (hW : s.memWf = true) : t.memWf = true := by
  unfold execRequestList at h
  cases h
  (with_reducible repeat' (first
      | assumption | intro _ | apply hf | apply stored_listTake | apply stored_unlessHeld | apply stored_foldl | apply stored_foldl2
      | simp only [stored_mk] | simp only [cl_mk] | apply cl_dmaFill | apply cl_resetCluster | apply cl_ctl | apply cl_reset | split
      | dsimp only | rfl))

theorem stored_execTransferSegment (x0) (s t : State) (h : execTransferSegment x0 s = .next t) (hW : s.memWf = true) : t.memWf = true := by
  unfold execTransferSegment at h
  cases h
  (with_reducible repeat' (first
      | assumption | intro _ | apply hf | apply stored_segmentTake | apply stored_unlessHeld | apply stored_foldl
      | apply stored_foldl2 | simp only [stored_mk] | simp only [cl_mk] | apply cl_dmaFill | apply cl_resetCluster | apply cl_ctl
      | apply cl_reset | split | dsimp only | rfl))

theorem stored_execTransferDone (x0) (s t : State) (h : execTransferDone x0 s = .next t) (hW : s.memWf = true) : t.memWf = true := by
  unfold execTransferDone at h
  cases h
  (with_reducible repeat' (first
      | assumption | intro _ | apply hf | apply stored_doneTake | apply stored_unlessHeld | apply stored_foldl | apply stored_foldl2
      | simp only [stored_mk] | simp only [cl_mk] | apply cl_dmaFill | apply cl_resetCluster | apply cl_ctl | apply cl_reset | split
      | dsimp only | rfl))

theorem stored_execTransferAbort (x0) (s t : State) (h : execTransferAbort x0 s = .next t) (hW : s.memWf = true) : t.memWf = true := by
  unfold execTransferAbort at h
  cases h
  (with_reducible repeat' (first
      | assumption | intro _ | apply hf | apply stored_abortTake | apply stored_unlessHeld | apply stored_foldl | apply stored_foldl2
      | simp only [stored_mk] | simp only [cl_mk] | apply cl_dmaFill | apply cl_resetCluster | apply cl_ctl | apply cl_reset | split
      | dsimp only | rfl))

theorem stored_execIdleFlit (x0 x1 x2) (s t : State) (h : execIdleFlit x0 x1 s x2 = .next t) (hW : s.memWf = true) : t.memWf = true := by
  unfold execIdleFlit at h
  cases h
  (with_reducible repeat' (first
      | assumption | intro _ | apply hf | apply stored_fromPeer | apply stored_idleTake | apply stored_unlessHeld
      | apply stored_foldl | apply stored_foldl2 | simp only [stored_mk] | simp only [cl_mk] | apply cl_dmaFill
      | apply cl_resetCluster | apply cl_ctl | apply cl_reset | split | dsimp only | rfl))

theorem stored_execTrainingFlit (x0 x1 x2) (s t : State) (h : execTrainingFlit x0 x1 s x2 = .next t) (hW : s.memWf = true) : t.memWf = true := by
  unfold execTrainingFlit at h
  cases h
  (with_reducible repeat' (first
      | assumption | intro _ | apply hf | apply stored_fromPeer | apply stored_training | apply stored_unlessHeld
      | apply stored_foldl | apply stored_foldl2 | simp only [stored_mk] | simp only [cl_mk] | apply cl_dmaFill
      | apply cl_resetCluster | apply cl_ctl | apply cl_reset | split | dsimp only | rfl))

theorem stored_execPortEn (x0 x1 x2) (s t : State) (h : execPortEn x0 x1 x2 s = .next t) (hW : s.memWf = true) : t.memWf = true := by
  unfold execPortEn at h
  cases h
  (with_reducible repeat' (first
      | assumption | intro _ | apply hf | apply stored_accessWrite | apply stored_unlessHeld | apply stored_foldl
      | apply stored_foldl2 | simp only [stored_mk] | simp only [cl_mk] | apply cl_dmaFill | apply cl_resetCluster | apply cl_ctl
      | apply cl_reset | split | dsimp only | rfl))

theorem stored_execRetrain (x0 x1 x2) (s t : State) (h : execRetrain x0 x1 x2 s = .next t) (hW : s.memWf = true) : t.memWf = true := by
  unfold execRetrain at h
  cases h
  (with_reducible repeat' (first
      | assumption | intro _ | apply hf | apply stored_accessWrite | apply stored_unlessHeld | apply stored_foldl
      | apply stored_foldl2 | simp only [stored_mk] | simp only [cl_mk] | apply cl_dmaFill | apply cl_resetCluster | apply cl_ctl
      | apply cl_reset | split | dsimp only | rfl))

theorem stored_execDetectRetry (x0 x1) (s t : State) (h : execDetectRetry x0 x1 s = .next t) (hW : s.memWf = true) : t.memWf = true := by
  unfold execDetectRetry at h
  cases h
  (with_reducible repeat' (first
      | assumption | intro _ | apply hf | apply stored_detectAgain | apply stored_signal | apply stored_unlessHeld
      | apply stored_foldl | apply stored_foldl2 | simp only [stored_mk] | simp only [cl_mk] | apply cl_dmaFill
      | apply cl_resetCluster | apply cl_ctl | apply cl_reset | split | dsimp only | rfl))

theorem stored_execTrainingPhaseComplete (x0 x1 x2) (s t : State) (h : execTrainingPhaseComplete x0 x1 s x2 = .next t) (hW : s.memWf = true) : t.memWf = true := by
  unfold execTrainingPhaseComplete at h
  cases h
  (with_reducible repeat' (first
      | assumption | intro _ | apply hf | apply stored_phaseDone | apply stored_unlessHeld | apply stored_foldl | apply stored_foldl2
      | simp only [stored_mk] | simp only [cl_mk] | apply cl_dmaFill | apply cl_resetCluster | apply cl_ctl | apply cl_reset | split
      | dsimp only | rfl))

theorem stored_execTrainingPhaseLimit (x0) (s t : State) (h : execTrainingPhaseLimit x0 s = .next t) (hW : s.memWf = true) : t.memWf = true := by
  unfold execTrainingPhaseLimit at h
  cases h
  (with_reducible repeat' (first
      | assumption | intro _ | apply hf | apply stored_phaseLate | apply stored_unlessHeld | apply stored_foldl | apply stored_foldl2
      | simp only [stored_mk] | simp only [cl_mk] | apply cl_dmaFill | apply cl_resetCluster | apply cl_ctl | apply cl_reset | split
      | dsimp only | rfl))

theorem stored_execLinkLoss (x0) (s t : State) (h : execLinkLoss x0 s = .next t) (hW : s.memWf = true) : t.memWf = true := by
  unfold execLinkLoss at h
  cases h
  (with_reducible repeat' (first
      | assumption | intro _ | apply hf | apply stored_portDown | apply stored_unlessHeld | apply stored_foldl | apply stored_foldl2
      | simp only [stored_mk] | simp only [cl_mk] | apply cl_dmaFill | apply cl_resetCluster | apply cl_ctl | apply cl_reset | split
      | dsimp only | rfl))

theorem stored_execPeerSilent (x0) (s t : State) (h : execPeerSilent x0 s = .next t) (hW : s.memWf = true) : t.memWf = true := by
  unfold execPeerSilent at h
  cases h
  (with_reducible repeat' (first
      | assumption | intro _ | apply hf | apply stored_portDown | apply stored_unlessHeld | apply stored_foldl | apply stored_foldl2
      | simp only [stored_mk] | simp only [cl_mk] | apply cl_dmaFill | apply cl_resetCluster | apply cl_ctl | apply cl_reset | split
      | dsimp only | rfl))

theorem stored_execCableMated (x0 x1) (s t : State) (h : execCableMated x0 x1 s = .next t) (hW : s.memWf = true) : t.memWf = true := by
  unfold execCableMated at h
  cases h
  (with_reducible repeat' (first
      | assumption | intro _ | apply hf | apply stored_setCable | apply stored_vcabStep | apply stored_unlessHeld
      | apply stored_foldl | apply stored_foldl2 | simp only [stored_mk] | simp only [cl_mk] | apply cl_dmaFill
      | apply cl_resetCluster | apply cl_ctl | apply cl_reset | split | dsimp only | rfl))

theorem stored_execCableRemoved (x0) (s t : State) (h : execCableRemoved x0 s = .next t) (hW : s.memWf = true) : t.memWf = true := by
  unfold execCableRemoved at h
  cases h
  (with_reducible repeat' (first
      | assumption | intro _ | apply hf | apply stored_segmentDark | apply stored_setCable | apply stored_vcabStep
      | apply stored_unlessHeld | apply stored_foldl | apply stored_foldl2 | simp only [stored_mk] | simp only [cl_mk]
      | apply cl_dmaFill | apply cl_resetCluster | apply cl_ctl | apply cl_reset | split | dsimp only | rfl))

theorem stored_execVcabOvercurrent (x0) (s t : State) (h : execVcabOvercurrent x0 s = .next t) (hW : s.memWf = true) : t.memWf = true := by
  unfold execVcabOvercurrent at h
  cases h
  (with_reducible repeat' (first
      | assumption | intro _ | apply hf | apply stored_setCable | apply stored_vcabStep | apply stored_segmentDark
      | apply stored_unlessHeld | apply stored_foldl | apply stored_foldl2 | simp only [stored_mk] | simp only [cl_mk]
      | apply cl_dmaFill | apply cl_resetCluster | apply cl_ctl | apply cl_reset | split | dsimp only | rfl))

theorem stored_execHostMalformedRequest (x0 x1 x2) (s t : State) (h : execHostMalformedRequest x0 x1 x2 s = .next t) (hW : s.memWf = true) : t.memWf = true := by
  unfold execHostMalformedRequest at h
  cases h
  (with_reducible repeat' (first
      | assumption | intro _ | apply hf | apply stored_emit | apply stored_unlessHeld | apply stored_foldl | apply stored_foldl2
      | simp only [stored_mk] | simp only [cl_mk] | apply cl_dmaFill | apply cl_resetCluster | apply cl_ctl | apply cl_reset | split
      | dsimp only | rfl))

theorem stored_execGopArrive (req : Requester) (id : BitVec 15) (s t : State) (h : execGopArrive req id s = .next t) (hW : s.memWf = true) :
    t.memWf = true := by
  rw [← Host.Outcome.next.inj h]
  exact stored_gopAccess _ _ _ _ hW

theorem stored_execGopBcast (req : Requester) (id : BitVec 15) (s t : State) (h : execGopBcast req id s = .next t) (hW : s.memWf = true) :
    t.memWf = true := by
  rw [← Host.Outcome.next.inj h]
  exact stored_gopAccess _ _ _ _ hW

theorem stored_execGopSnap (req : Requester) (id : BitVec 15) (s t : State) (h : execGopSnap req id s = .next t) (hW : s.memWf = true) :
    t.memWf = true := by
  rw [← Host.Outcome.next.inj h]
  exact stored_gopAccess _ _ _ _ hW

theorem stored_execGopQuiesce (req : Requester) (id : BitVec 15) (s t : State) (h : execGopQuiesce req id s = .next t) (hW : s.memWf = true) :
    t.memWf = true := by
  rw [← Host.Outcome.next.inj h]
  exact stored_gopAccess _ _ _ _ hW

theorem stored_execGopResume (req : Requester) (id : BitVec 15) (s t : State) (h : execGopResume req id s = .next t) (hW : s.memWf = true) :
    t.memWf = true := by
  rw [← Host.Outcome.next.inj h]
  exact stored_gopAccess _ _ _ _ hW

theorem stored_execMarkArrive (x0 x1) (s t : State) (h : execMarkArrive x0 x1 s = .next t) (hW : s.memWf = true) : t.memWf = true := by
  unfold execMarkArrive at h
  cases h
  (with_reducible repeat' (first
      | assumption | intro _ | apply hf | apply stored_arriveTake | apply stored_unlessHeld | apply stored_foldl
      | apply stored_foldl2 | simp only [stored_mk] | simp only [cl_mk] | apply cl_dmaFill | apply cl_resetCluster | apply cl_ctl
      | apply cl_reset | split | dsimp only | rfl))

theorem stored_execMarkRelease (x0 x1) (s t : State) (h : execMarkRelease x0 x1 s = .next t) (hW : s.memWf = true) : t.memWf = true := by
  unfold execMarkRelease at h
  cases h
  (with_reducible repeat' (first
      | assumption | intro _ | apply hf | apply stored_releaseTake | apply stored_unlessHeld | apply stored_foldl
      | apply stored_foldl2 | simp only [stored_mk] | simp only [cl_mk] | apply cl_dmaFill | apply cl_resetCluster | apply cl_ctl
      | apply cl_reset | split | dsimp only | rfl))

theorem stored_execMarkBcast (x0 x1 x2 x3) (s t : State) (h : execMarkBcast x0 x1 x2 x3 s = .next t) (hW : s.memWf = true) : t.memWf = true := by
  unfold execMarkBcast at h
  cases h
  (with_reducible repeat' (first
      | assumption | intro _ | apply hf | apply stored_bcastTake | apply stored_unlessHeld | apply stored_foldl | apply stored_foldl2
      | simp only [stored_mk] | simp only [cl_mk] | apply cl_dmaFill | apply cl_resetCluster | apply cl_ctl | apply cl_reset | split
      | dsimp only | rfl))

theorem stored_execMarkSnap (x0 x1 x2 x3) (s t : State) (h : execMarkSnap x0 x1 x2 x3 s = .next t) (hW : s.memWf = true) : t.memWf = true := by
  unfold execMarkSnap at h
  cases h
  (with_reducible repeat' (first
      | assumption | intro _ | apply hf | apply stored_bcastTake | apply stored_unlessHeld | apply stored_foldl | apply stored_foldl2
      | simp only [stored_mk] | simp only [cl_mk] | apply cl_dmaFill | apply cl_resetCluster | apply cl_ctl | apply cl_reset | split
      | dsimp only | rfl))

theorem stored_execMarkQuiesce (x0 x1 x2 x3) (s t : State) (h : execMarkQuiesce x0 x1 x2 x3 s = .next t) (hW : s.memWf = true) : t.memWf = true := by
  unfold execMarkQuiesce at h
  cases h
  (with_reducible repeat' (first
      | assumption | intro _ | apply hf | apply stored_bcastTake | apply stored_unlessHeld | apply stored_foldl | apply stored_foldl2
      | simp only [stored_mk] | simp only [cl_mk] | apply cl_dmaFill | apply cl_resetCluster | apply cl_ctl | apply cl_reset | split
      | dsimp only | rfl))

theorem stored_execMarkResume (x0 x1 x2 x3) (s t : State) (h : execMarkResume x0 x1 x2 x3 s = .next t) (hW : s.memWf = true) : t.memWf = true := by
  unfold execMarkResume at h
  cases h
  (with_reducible repeat' (first
      | assumption | intro _ | apply hf | apply stored_bcastTake | apply stored_unlessHeld | apply stored_foldl | apply stored_foldl2
      | simp only [stored_mk] | simp only [cl_mk] | apply cl_dmaFill | apply cl_resetCluster | apply cl_ctl | apply cl_reset | split
      | dsimp only | rfl))

theorem stored_execModuleHeld  (s t : State) (h : execModuleHeld  s = .next t) (hW : s.memWf = true) : t.memWf = true := by
  unfold execModuleHeld at h
  cases h
  (with_reducible repeat' (first
      | assumption | intro _ | apply hf | apply stored_becomeHeld | apply stored_unlessHeld | apply stored_foldl
      | apply stored_foldl2 | simp only [stored_mk] | simp only [cl_mk] | apply cl_dmaFill | apply cl_resetCluster | apply cl_ctl
      | apply cl_reset | split | dsimp only | rfl))

theorem stored_execGopReset (x0 x1) (s t : State) (h : execGopReset x0 x1 s = .next t) (hW : s.memWf = true) : t.memWf = true := by
  unfold execGopReset at h
  cases h
  (with_reducible repeat' (first
      | assumption | intro _ | apply hf | apply stored_accessPair | apply stored_unlessHeld | apply stored_foldl
      | apply stored_foldl2 | simp only [stored_mk] | simp only [cl_mk] | apply cl_dmaFill | apply cl_resetCluster | apply cl_ctl
      | apply cl_reset | split | dsimp only | rfl))

theorem stored_execDomainResetDone  (s t : State) (h : execDomainResetDone  s = .next t) (hW : s.memWf = true) : t.memWf = true := by
  unfold execDomainResetDone at h
  cases h
  (with_reducible repeat' (first
      | assumption | intro _ | apply hf | apply stored_domainResetEnd | apply stored_unlessHeld | apply stored_foldl
      | apply stored_foldl2 | simp only [stored_mk] | simp only [cl_mk] | apply cl_dmaFill | apply cl_resetCluster | apply cl_ctl
      | apply cl_reset | split | dsimp only | rfl))

theorem stored_execGopTimeout  (s t : State) (h : execGopTimeout  s = .next t) (hW : s.memWf = true) : t.memWf = true := by
  unfold execGopTimeout at h
  cases h
  (with_reducible repeat' (first
      | assumption | intro _ | apply hf | apply stored_gopLate | apply stored_unlessHeld | apply stored_foldl | apply stored_foldl2
      | simp only [stored_mk] | simp only [cl_mk] | apply cl_dmaFill | apply cl_resetCluster | apply cl_ctl | apply cl_reset | split
      | dsimp only | rfl))

theorem stored_execPowerUp (x0 x1 x2 x3 x4 x5) (s t : State) (h : execPowerUp x0 x1 x2 x3 x4 s x5 = .next t) (hW : s.memWf = true) : t.memWf = true := by
  unfold execPowerUp at h
  cases h
  (with_reducible repeat' (first
      | assumption | intro _ | apply hf | apply stored_powerUp | apply stored_unlessHeld | apply stored_foldl | apply stored_foldl2
      | simp only [stored_mk] | simp only [cl_mk] | apply cl_dmaFill | apply cl_resetCluster | apply cl_ctl | apply cl_reset | split
      | dsimp only | rfl))

theorem stored_execPwrEnFall (x0) (s t : State) (h : execPwrEnFall s x0 = .next t) (hW : s.memWf = true) : t.memWf = true := by
  unfold execPwrEnFall at h
  cases h
  (with_reducible repeat' (first
      | assumption | intro _ | apply hf | apply stored_powerDown | apply stored_unlessHeld | apply stored_foldl | apply stored_foldl2
      | simp only [stored_mk] | simp only [cl_mk] | apply cl_dmaFill | apply cl_resetCluster | apply cl_ctl | apply cl_reset | split
      | dsimp only | rfl))

theorem stored_execInputUndervoltage  (s t : State) (h : execInputUndervoltage  s = .next t) (hW : s.memWf = true) : t.memWf = true := by
  unfold execInputUndervoltage at h
  cases h
  (with_reducible repeat' (first
      | assumption | intro _ | apply hf | apply stored_powerDown | apply stored_unlessHeld | apply stored_foldl | apply stored_foldl2
      | simp only [stored_mk] | simp only [cl_mk] | apply cl_dmaFill | apply cl_resetCluster | apply cl_ctl | apply cl_reset | split
      | dsimp only | rfl))

theorem stored_execInputOvervoltage  (s t : State) (h : execInputOvervoltage  s = .next t) (hW : s.memWf = true) : t.memWf = true := by
  unfold execInputOvervoltage at h
  cases h
  (with_reducible repeat' (first
      | assumption | intro _ | apply hf | apply stored_powerDown | apply stored_unlessHeld | apply stored_foldl | apply stored_foldl2
      | simp only [stored_mk] | simp only [cl_mk] | apply cl_dmaFill | apply cl_resetCluster | apply cl_ctl | apply cl_reset | split
      | dsimp only | rfl))

theorem stored_execRailFault (x0 x1) (s t : State) (h : execRailFault x0 x1 s = .next t) (hW : s.memWf = true) : t.memWf = true := by
  unfold execRailFault at h
  cases h
  (with_reducible repeat' (first
      | assumption | intro _ | apply hf | apply stored_logEdge | apply stored_powerDown | apply stored_vcabAll
      | apply stored_unlessHeld | apply stored_foldl | apply stored_foldl2 | simp only [stored_mk] | simp only [cl_mk]
      | apply cl_dmaFill | apply cl_resetCluster | apply cl_ctl | apply cl_reset | split | dsimp only | rfl))

theorem stored_execAvsTick (x0 x1 x2 x3 x4 x5) (s t : State) (h : execAvsTick x0 x1 x2 x3 x4 s x5 = .next t) (hW : s.memWf = true) : t.memWf = true := by
  unfold execAvsTick at h
  cases h
  (with_reducible repeat' (first
      | assumption | intro _ | apply hf | apply stored_avs | apply stored_unlessHeld | apply stored_foldl | apply stored_foldl2
      | simp only [stored_mk] | simp only [cl_mk] | apply cl_dmaFill | apply cl_resetCluster | apply cl_ctl | apply cl_reset | split
      | dsimp only | rfl))

theorem stored_execSenseInvalid (x0 x1 x2) (s t : State) (h : execSenseInvalid x0 x1 x2 s = .next t) (hW : s.memWf = true) : t.memWf = true := by
  unfold execSenseInvalid at h
  cases h
  (with_reducible repeat' (first
      | assumption | intro _ | apply hf | apply stored_senseBad | apply stored_unlessHeld | apply stored_foldl | apply stored_foldl2
      | simp only [stored_mk] | simp only [cl_mk] | apply cl_dmaFill | apply cl_resetCluster | apply cl_ctl | apply cl_reset | split
      | dsimp only | rfl))

theorem stored_execDroop (x0 x1) (s t : State) (h : execDroop x0 x1 s = .next t) (hW : s.memWf = true) : t.memWf = true := by
  unfold execDroop at h
  cases h
  (with_reducible repeat' (first
      | assumption | intro _ | apply hf | apply stored_droop | apply stored_unlessHeld | apply stored_foldl | apply stored_foldl2
      | simp only [stored_mk] | simp only [cl_mk] | apply cl_dmaFill | apply cl_resetCluster | apply cl_ctl | apply cl_reset | split
      | dsimp only | rfl))

theorem stored_execRegionShort (x0 x1 x2) (s t : State) (h : execRegionShort x0 x1 x2 s = .next t) (hW : s.memWf = true) : t.memWf = true := by
  unfold execRegionShort at h
  cases h
  (with_reducible repeat' (first
      | assumption | intro _ | apply hf | apply stored_shortTake | apply stored_unlessHeld | apply stored_foldl | apply stored_foldl2
      | simp only [stored_mk] | simp only [cl_mk] | apply cl_dmaFill | apply cl_resetCluster | apply cl_ctl | apply cl_reset | split
      | dsimp only | rfl))

theorem stored_execShortRetry (x0) (s t : State) (h : execShortRetry x0 s = .next t) (hW : s.memWf = true) : t.memWf = true := by
  unfold execShortRetry at h
  cases h
  (with_reducible repeat' (first
      | assumption | intro _ | apply hf | apply stored_shortRetry | apply stored_unlessHeld | apply stored_foldl
      | apply stored_foldl2 | simp only [stored_mk] | simp only [cl_mk] | apply cl_dmaFill | apply cl_resetCluster | apply cl_ctl
      | apply cl_reset | split | dsimp only | rfl))

theorem stored_execRegionFence (x0 x1 x2) (s t : State) (h : execRegionFence x0 x1 x2 s = .next t) (hW : s.memWf = true) : t.memWf = true := by
  unfold execRegionFence at h
  cases h
  (with_reducible repeat' (first
      | assumption | intro _ | apply hf | apply stored_accessPair | apply stored_unlessHeld | apply stored_foldl
      | apply stored_foldl2 | simp only [stored_mk] | simp only [cl_mk] | apply cl_dmaFill | apply cl_resetCluster | apply cl_ctl
      | apply cl_reset | split | dsimp only | rfl))

theorem stored_execVset (x0 x1 x2) (s t : State) (h : execVset x0 x1 x2 s = .next t) (hW : s.memWf = true) : t.memWf = true := by
  unfold execVset at h
  cases h
  (with_reducible repeat' (first
      | assumption | intro _ | apply hf | apply stored_accessPair | apply stored_unlessHeld | apply stored_foldl
      | apply stored_foldl2 | simp only [stored_mk] | simp only [cl_mk] | apply cl_dmaFill | apply cl_resetCluster | apply cl_ctl
      | apply cl_reset | split | dsimp only | rfl))

theorem stored_execRefLost (x0) (s t : State) (h : execRefLost x0 s = .next t) (hW : s.memWf = true) : t.memWf = true := by
  unfold execRefLost at h
  cases h
  (with_reducible repeat' (first
      | assumption | intro _ | apply hf | apply stored_refDrop | apply stored_unlessHeld | apply stored_foldl | apply stored_foldl2
      | simp only [stored_mk] | simp only [cl_mk] | apply cl_dmaFill | apply cl_resetCluster | apply cl_ctl | apply cl_reset | split
      | dsimp only | rfl))

theorem stored_execRefValid (x0) (s t : State) (h : execRefValid x0 s = .next t) (hW : s.memWf = true) : t.memWf = true := by
  unfold execRefValid at h
  cases h
  (with_reducible repeat' (first
      | assumption | intro _ | apply hf | apply stored_refGain | apply stored_unlessHeld | apply stored_foldl | apply stored_foldl2
      | simp only [stored_mk] | simp only [cl_mk] | apply cl_dmaFill | apply cl_resetCluster | apply cl_ctl | apply cl_reset | split
      | dsimp only | rfl))

theorem stored_execRegionRefLost (x0 x1) (s t : State) (h : execRegionRefLost x0 x1 s = .next t) (hW : s.memWf = true) : t.memWf = true := by
  unfold execRegionRefLost at h
  cases h
  (with_reducible repeat' (first
      | assumption | intro _ | apply hf | apply stored_inputDrop | apply stored_unlessHeld | apply stored_foldl | apply stored_foldl2
      | simp only [stored_mk] | simp only [cl_mk] | apply cl_dmaFill | apply cl_resetCluster | apply cl_ctl | apply cl_reset | split
      | dsimp only | rfl))

theorem stored_execRegionRelock (x0 x1) (s t : State) (h : execRegionRelock x0 x1 s = .next t) (hW : s.memWf = true) : t.memWf = true := by
  unfold execRegionRelock at h
  cases h
  (with_reducible repeat' (first
      | assumption | intro _ | apply hf | apply stored_p3Go | apply stored_relock | apply stored_unlessHeld | apply stored_foldl
      | apply stored_foldl2 | simp only [stored_mk] | simp only [cl_mk] | apply cl_dmaFill | apply cl_resetCluster | apply cl_ctl
      | apply cl_reset | split | dsimp only | rfl))

theorem stored_execEffStep (x0 x1) (s t : State) (h : execEffStep x0 x1 s = .next t) (hW : s.memWf = true) : t.memWf = true := by
  unfold execEffStep at h
  cases h
  (with_reducible repeat' (first
      | assumption | intro _ | apply hf | apply stored_effMove | apply stored_unlessHeld | apply stored_foldl | apply stored_foldl2
      | simp only [stored_mk] | simp only [cl_mk] | apply cl_dmaFill | apply cl_resetCluster | apply cl_ctl | apply cl_reset | split
      | dsimp only | rfl))

theorem stored_execCeil (x0 x1 x2) (s t : State) (h : execCeil x0 x1 x2 s = .next t) (hW : s.memWf = true) : t.memWf = true := by
  unfold execCeil at h
  cases h
  (with_reducible repeat' (first
      | assumption | intro _ | apply hf | apply stored_accessWrite | apply stored_unlessHeld | apply stored_foldl
      | apply stored_foldl2 | simp only [stored_mk] | simp only [cl_mk] | apply cl_dmaFill | apply cl_resetCluster | apply cl_ctl
      | apply cl_reset | split | dsimp only | rfl))

theorem stored_execIlimTick (x0 x1) (s t : State) (h : execIlimTick x0 x1 s = .next t) (hW : s.memWf = true) : t.memWf = true := by
  unfold execIlimTick at h
  cases h
  (with_reducible repeat' (first
      | assumption | intro _ | apply hf | apply stored_ilim | apply stored_unlessHeld | apply stored_foldl | apply stored_foldl2
      | simp only [stored_mk] | simp only [cl_mk] | apply cl_dmaFill | apply cl_resetCluster | apply cl_ctl | apply cl_reset | split
      | dsimp only | rfl))

theorem stored_execPowerCapTick (x0 x1 x2 x3 x4) (s t : State) (h : execPowerCapTick x0 x1 s x2 x3 x4 = .next t) (hW : s.memWf = true) : t.memWf = true := by
  unfold execPowerCapTick at h
  cases h
  (with_reducible repeat' (first
      | assumption | intro _ | apply hf | apply stored_powerCap | apply stored_vinRead | apply stored_unlessHeld | apply stored_foldl
      | apply stored_foldl2 | simp only [stored_mk] | simp only [cl_mk] | apply cl_dmaFill | apply cl_resetCluster | apply cl_ctl
      | apply cl_reset | split | dsimp only | rfl))

theorem stored_execCurrentBrake (x0 x1 x2) (s t : State) (h : execCurrentBrake x0 x1 s x2 = .next t) (hW : s.memWf = true) : t.memWf = true := by
  unfold execCurrentBrake at h
  cases h
  (with_reducible repeat' (first
      | assumption | intro _ | apply hf | apply stored_brakeOn | apply stored_unlessHeld | apply stored_foldl | apply stored_foldl2
      | simp only [stored_mk] | simp only [cl_mk] | apply cl_dmaFill | apply cl_resetCluster | apply cl_ctl | apply cl_reset | split
      | dsimp only | rfl))

theorem stored_execBrakeRelease (x0) (s t : State) (h : execBrakeRelease x0 s = .next t) (hW : s.memWf = true) : t.memWf = true := by
  unfold execBrakeRelease at h
  cases h
  (with_reducible repeat' (first
      | assumption | intro _ | apply hf | apply stored_brakeOff | apply stored_unlessHeld | apply stored_foldl | apply stored_foldl2
      | simp only [stored_mk] | simp only [cl_mk] | apply cl_dmaFill | apply cl_resetCluster | apply cl_ctl | apply cl_reset | split
      | dsimp only | rfl))

theorem stored_execCpSample (x0) (s t : State) (h : execCpSample x0 s = .next t) (hW : s.memWf = true) : t.memWf = true := by
  unfold execCpSample at h
  cases h
  (with_reducible repeat' (first
      | assumption | intro _ | apply hf | apply stored_plateSample | apply stored_unlessHeld | apply stored_foldl
      | apply stored_foldl2 | simp only [stored_mk] | simp only [cl_mk] | apply cl_dmaFill | apply cl_resetCluster | apply cl_ctl
      | apply cl_reset | split | dsimp only | rfl))

theorem stored_execPcoolTick (x0 x1 x2 x3) (s t : State) (h : execPcoolTick x0 x1 x2 x3 s = .next t) (hW : s.memWf = true) : t.memWf = true := by
  unfold execPcoolTick at h
  cases h
  (with_reducible repeat' (first
      | assumption | intro _ | apply hf | apply stored_pcool | apply stored_unlessHeld | apply stored_foldl | apply stored_foldl2
      | simp only [stored_mk] | simp only [cl_mk] | apply cl_dmaFill | apply cl_resetCluster | apply cl_ctl | apply cl_reset | split
      | dsimp only | rfl))

theorem stored_execCoolantOvertemp  (s t : State) (h : execCoolantOvertemp  s = .next t) (hW : s.memWf = true) : t.memWf = true := by
  unfold execCoolantOvertemp at h
  cases h
  (with_reducible repeat' (first
      | assumption | intro _ | apply hf | apply stored_overtemp | apply stored_unlessHeld | apply stored_foldl | apply stored_foldl2
      | simp only [stored_mk] | simp only [cl_mk] | apply cl_dmaFill | apply cl_resetCluster | apply cl_ctl | apply cl_reset | split
      | dsimp only | rfl))

theorem stored_execRegionThermalSample (x0 x1 x2 x3 x4) (s t : State) (h : execRegionThermalSample x0 x1 x2 x3 x4 s = .next t) (hW : s.memWf = true) : t.memWf = true := by
  unfold execRegionThermalSample at h
  cases h
  (with_reducible repeat' (first
      | assumption | intro _ | apply hf | apply stored_regionSample | apply stored_unlessHeld | apply stored_foldl
      | apply stored_foldl2 | simp only [stored_mk] | simp only [cl_mk] | apply cl_dmaFill | apply cl_resetCluster | apply cl_ctl
      | apply cl_reset | split | dsimp only | rfl))

theorem stored_execTlimStep (x0) (s t : State) (h : execTlimStep x0 s = .next t) (hW : s.memWf = true) : t.memWf = true := by
  unfold execTlimStep at h
  cases h
  (with_reducible repeat' (first
      | assumption | intro _ | apply hf | apply stored_tlim | apply stored_unlessHeld | apply stored_foldl | apply stored_foldl2
      | simp only [stored_mk] | simp only [cl_mk] | apply cl_dmaFill | apply cl_resetCluster | apply cl_ctl | apply cl_reset | split
      | dsimp only | rfl))

theorem stored_execRegionTripClear (x0) (s t : State) (h : execRegionTripClear x0 s = .next t) (hW : s.memWf = true) : t.memWf = true := by
  unfold execRegionTripClear at h
  cases h
  (with_reducible repeat' (first
      | assumption | intro _ | apply hf | apply stored_tripClear | apply stored_unlessHeld | apply stored_foldl | apply stored_foldl2
      | simp only [stored_mk] | simp only [cl_mk] | apply cl_dmaFill | apply cl_resetCluster | apply cl_ctl | apply cl_reset | split
      | dsimp only | rfl))

theorem stored_execStackThermalSample (x0 x1 x2 x3 x4 x5) (s t : State) (h : execStackThermalSample x0 x1 x2 x3 x4 s x5 = .next t) (hW : s.memWf = true) : t.memWf = true := by
  unfold execStackThermalSample at h
  cases h
  (with_reducible repeat' (first
      | assumption | intro _ | apply hf | apply stored_stackSample | apply stored_onDieEcc | apply stored_unlessHeld
      | apply stored_foldl | apply stored_foldl2 | simp only [stored_mk] | simp only [cl_mk] | apply cl_dmaFill
      | apply cl_resetCluster | apply cl_ctl | apply cl_reset | split | dsimp only | rfl))

theorem stored_execStlimStep (x0) (s t : State) (h : execStlimStep x0 s = .next t) (hW : s.memWf = true) : t.memWf = true := by
  unfold execStlimStep at h
  cases h
  (with_reducible repeat' (first
      | assumption | intro _ | apply hf | apply stored_stlim | apply stored_unlessHeld | apply stored_foldl | apply stored_foldl2
      | simp only [stored_mk] | simp only [cl_mk] | apply cl_dmaFill | apply cl_resetCluster | apply cl_ctl | apply cl_reset | split
      | dsimp only | rfl))

theorem stored_execStackTripClear (x0) (s t : State) (h : execStackTripClear x0 s = .next t) (hW : s.memWf = true) : t.memWf = true := by
  unfold execStackTripClear at h
  cases h
  (with_reducible repeat' (first
      | assumption | intro _ | apply hf | apply stored_stackClear | apply stored_unlessHeld | apply stored_foldl
      | apply stored_foldl2 | simp only [stored_mk] | simp only [cl_mk] | apply cl_dmaFill | apply cl_resetCluster | apply cl_ctl
      | apply cl_reset | split | dsimp only | rfl))

theorem stored_execAlarmReceived  (s t : State) (h : execAlarmReceived  s = .next t) (hW : s.memWf = true) : t.memWf = true := by
  unfold execAlarmReceived at h
  cases h
  (with_reducible repeat' (first
      | assumption | intro _ | apply hf | apply stored_alarm | apply stored_emit | apply stored_unlessHeld | apply stored_foldl
      | apply stored_foldl2 | simp only [stored_mk] | simp only [cl_mk] | apply cl_dmaFill | apply cl_resetCluster | apply cl_ctl
      | apply cl_reset | split | dsimp only | rfl))

theorem stored_execBootGo (x0 x1 x2) (s t : State) (h : execBootGo x0 x1 x2 s = .next t) (hW : s.memWf = true) : t.memWf = true := by
  unfold execBootGo at h
  cases h
  (with_reducible repeat' (first
      | assumption | intro _ | apply hf | apply stored_accessWrite | apply stored_unlessHeld | apply stored_foldl
      | apply stored_foldl2 | simp only [stored_mk] | simp only [cl_mk] | apply cl_dmaFill | apply cl_resetCluster | apply cl_ctl
      | apply cl_reset | split | dsimp only | rfl))

theorem stored_execClockSeed  (s t : State) (h : execClockSeed  s = .next t) (hW : s.memWf = true) : t.memWf = true := by
  unfold execClockSeed at h
  cases h
  (with_reducible repeat' (first
      | assumption | intro _ | apply hf | apply stored_clockSeed | apply stored_unlessHeld | apply stored_foldl | apply stored_foldl2
      | simp only [stored_mk] | simp only [cl_mk] | apply cl_dmaFill | apply cl_resetCluster | apply cl_ctl | apply cl_reset | split
      | dsimp only | rfl))

theorem stored_execRegionWavefront (x0 x1) (s t : State) (h : execRegionWavefront x0 x1 s = .next t) (hW : s.memWf = true) : t.memWf = true := by
  unfold execRegionWavefront at h
  cases h
  (with_reducible repeat' (first
      | assumption | intro _ | apply hf | apply stored_wavefront | apply stored_unlessHeld | apply stored_foldl | apply stored_foldl2
      | simp only [stored_mk] | simp only [cl_mk] | apply cl_dmaFill | apply cl_resetCluster | apply cl_ctl | apply cl_reset | split
      | dsimp only | rfl))

theorem stored_execStackBringup (x0) (s t : State) (h : execStackBringup x0 s = .next t) (hW : s.memWf = true) : t.memWf = true := by
  unfold execStackBringup at h
  cases h
  (with_reducible repeat' (first
      | assumption | intro _ | apply hf | apply stored_stacksUp | apply stored_unlessHeld | apply stored_foldl | apply stored_foldl2
      | simp only [stored_mk] | simp only [cl_mk] | apply cl_dmaFill | apply cl_resetCluster | apply cl_ctl | apply cl_reset | split
      | dsimp only | rfl))

theorem stored_execLinkStage  (s t : State) (h : execLinkStage  s = .next t) (hW : s.memWf = true) : t.memWf = true := by
  unfold execLinkStage at h
  cases h
  (with_reducible repeat' (first
      | assumption | intro _ | apply hf | apply stored_linksUp | apply stored_unlessHeld | apply stored_foldl | apply stored_foldl2
      | simp only [stored_mk] | simp only [cl_mk] | apply cl_dmaFill | apply cl_resetCluster | apply cl_ctl | apply cl_reset | split
      | dsimp only | rfl))

theorem stored_execKnownAnswerRuns (x0 x1 x2 x3 x4) (s t : State) (h : execKnownAnswerRuns x0 x1 x2 x3 x4 s = .next t) (hW : s.memWf = true) : t.memWf = true := by
  unfold execKnownAnswerRuns at h
  cases h
  (with_reducible repeat' (first
      | assumption | intro _ | apply hf | apply stored_knownAnswers | apply stored_unlessHeld | apply stored_foldl
      | apply stored_foldl2 | simp only [stored_mk] | simp only [cl_mk] | apply cl_dmaFill | apply cl_resetCluster | apply cl_ctl
      | apply cl_reset | split | dsimp only | rfl))

theorem stored_execBringupReady  (s t : State) (h : execBringupReady  s = .next t) (hW : s.memWf = true) : t.memWf = true := by
  unfold execBringupReady at h
  cases h
  (with_reducible repeat' (first
      | assumption | intro _ | apply hf | apply stored_ready | apply stored_unlessHeld | apply stored_foldl | apply stored_foldl2
      | simp only [stored_mk] | simp only [cl_mk] | apply cl_dmaFill | apply cl_resetCluster | apply cl_ctl | apply cl_reset | split
      | dsimp only | rfl))

theorem stored_execFback (x0 x1 x2) (s t : State) (h : execFback x0 x1 x2 s = .next t) (hW : s.memWf = true) : t.memWf = true := by
  unfold execFback at h
  cases h
  (with_reducible repeat' (first
      | assumption | intro _ | apply hf | apply stored_accessWrite | apply stored_unlessHeld | apply stored_foldl
      | apply stored_foldl2 | simp only [stored_mk] | simp only [cl_mk] | apply cl_dmaFill | apply cl_resetCluster | apply cl_ctl
      | apply cl_reset | split | dsimp only | rfl))

theorem stored_execFaultResend (x0) (s t : State) (h : execFaultResend x0 s = .next t) (hW : s.memWf = true) : t.memWf = true := by
  unfold execFaultResend at h
  cases h
  (with_reducible repeat' (first
      | assumption | intro _ | apply hf | apply stored_resend | apply stored_unlessHeld | apply stored_foldl | apply stored_foldl2
      | simp only [stored_mk] | simp only [cl_mk] | apply cl_dmaFill | apply cl_resetCluster | apply cl_ctl | apply cl_reset | split
      | dsimp only | rfl))

theorem stored_execErrlogHoldExpiry (x0) (s t : State) (h : execErrlogHoldExpiry x0 s = .next t) (hW : s.memWf = true) : t.memWf = true := by
  unfold execErrlogHoldExpiry at h
  cases h
  (with_reducible repeat' (first
      | assumption | intro _ | apply hf | apply stored_holdExpire | apply stored_unlessHeld | apply stored_foldl
      | apply stored_foldl2 | simp only [stored_mk] | simp only [cl_mk] | apply cl_dmaFill | apply cl_resetCluster | apply cl_ctl
      | apply cl_reset | split | dsimp only | rfl))

theorem stored_execElogHead (x0 x1) (s t : State) (h : execElogHead x0 x1 s = .next t) (hW : s.memWf = true) : t.memWf = true := by
  unfold execElogHead at h
  cases h
  (with_reducible repeat' (first
      | assumption | intro _ | apply hf | apply stored_accessWrite | apply stored_unlessHeld | apply stored_foldl
      | apply stored_foldl2 | simp only [stored_mk] | simp only [cl_mk] | apply cl_dmaFill | apply cl_resetCluster | apply cl_ctl
      | apply cl_reset | split | dsimp only | rfl))

theorem stored_execAddressToken (x0) (s t : State) (h : execAddressToken x0 s = .next t) (hW : s.memWf = true) : t.memWf = true := by
  unfold execAddressToken at h
  cases h
  (with_reducible repeat' (first
      | assumption | intro _ | apply hf | apply stored_chainIn | apply stored_addressTake | apply stored_unlessHeld
      | apply stored_foldl | apply stored_foldl2 | simp only [stored_mk] | simp only [cl_mk] | apply cl_dmaFill
      | apply cl_resetCluster | apply cl_ctl | apply cl_reset | split | dsimp only | rfl))

theorem stored_execTimePulse  (s t : State) (h : execTimePulse  s = .next t) (hW : s.memWf = true) : t.memWf = true := by
  unfold execTimePulse at h
  cases h
  (with_reducible repeat' (first
      | assumption | intro _ | apply hf | apply stored_chainIn | apply stored_pulseTake | apply stored_unlessHeld
      | apply stored_foldl | apply stored_foldl2 | simp only [stored_mk] | simp only [cl_mk] | apply cl_dmaFill
      | apply cl_resetCluster | apply cl_ctl | apply cl_reset | split | dsimp only | rfl))

theorem stored_execBootclose (x0 x1) (s t : State) (h : execBootclose x0 x1 s = .next t) (hW : s.memWf = true) : t.memWf = true := by
  unfold execBootclose at h
  cases h
  (with_reducible repeat' (first
      | assumption | intro _ | apply hf | apply stored_quivorRequest | apply stored_frame | apply stored_unlessHeld
      | apply stored_foldl | apply stored_foldl2 | simp only [stored_mk] | simp only [cl_mk] | apply cl_dmaFill
      | apply cl_resetCluster | apply cl_ctl | apply cl_reset | split | dsimp only | rfl))

theorem stored_execBootWindowTimeout  (s t : State) (h : execBootWindowTimeout  s = .next t) (hW : s.memWf = true) : t.memWf = true := by
  unfold execBootWindowTimeout at h
  cases h
  (with_reducible repeat' (first
      | assumption | intro _ | apply hf | apply stored_windowTimeout | apply stored_unlessHeld | apply stored_foldl
      | apply stored_foldl2 | simp only [stored_mk] | simp only [cl_mk] | apply cl_dmaFill | apply cl_resetCluster | apply cl_ctl
      | apply cl_reset | split | dsimp only | rfl))

theorem stored_execRead (x0 x1) (s t : State) (h : execRead x0 x1 s = .next t) (hW : s.memWf = true) : t.memWf = true := by
  unfold execRead at h
  cases h
  (with_reducible repeat' (first
      | assumption | intro _ | apply hf | apply stored_quivorRequest | apply stored_frame | apply stored_unlessHeld
      | apply stored_foldl | apply stored_foldl2 | simp only [stored_mk] | simp only [cl_mk] | apply cl_dmaFill
      | apply cl_resetCluster | apply cl_ctl | apply cl_reset | split | dsimp only | rfl))

theorem stored_execWrite (x0 x1) (s t : State) (h : execWrite x0 x1 s = .next t) (hW : s.memWf = true) : t.memWf = true := by
  unfold execWrite at h
  cases h
  (with_reducible repeat' (first
      | assumption | intro _ | apply hf | apply stored_quivorRequest | apply stored_frame | apply stored_unlessHeld
      | apply stored_foldl | apply stored_foldl2 | simp only [stored_mk] | simp only [cl_mk] | apply cl_dmaFill
      | apply cl_resetCluster | apply cl_ctl | apply cl_reset | split | dsimp only | rfl))

theorem stored_execNotifyTimer  (s t : State) (h : execNotifyTimer  s = .next t) (hW : s.memWf = true) : t.memWf = true := by
  unfold execNotifyTimer at h
  cases h
  (with_reducible repeat' (first
      | assumption | intro _ | apply hf | apply stored_notifyTick | apply stored_unlessHeld | apply stored_foldl
      | apply stored_foldl2 | simp only [stored_mk] | simp only [cl_mk] | apply cl_dmaFill | apply cl_resetCluster | apply cl_ctl
      | apply cl_reset | split | dsimp only | rfl))

theorem stored_execSync (x0) (s t : State) (h : execSync x0 s = .next t) (hW : s.memWf = true) : t.memWf = true := by
  unfold execSync at h
  cases h
  (with_reducible repeat' (first
      | assumption | intro _ | apply hf | apply stored_syncTake | apply stored_unlessHeld | apply stored_foldl | apply stored_foldl2
      | simp only [stored_mk] | simp only [cl_mk] | apply cl_dmaFill | apply cl_resetCluster | apply cl_ctl | apply cl_reset | split
      | dsimp only | rfl))

theorem stored_execPeerDelayRequest (x0) (s t : State) (h : execPeerDelayRequest x0 s = .next t) (hW : s.memWf = true) : t.memWf = true := by
  unfold execPeerDelayRequest at h
  cases h
  (with_reducible repeat' (first
      | assumption | intro _ | apply hf | apply stored_peerDelay | apply stored_unlessHeld | apply stored_foldl | apply stored_foldl2
      | simp only [stored_mk] | simp only [cl_mk] | apply cl_dmaFill | apply cl_resetCluster | apply cl_ctl | apply cl_reset | split
      | dsimp only | rfl))

theorem stored_execOffsetTick  (s t : State) (h : execOffsetTick  s = .next t) (hW : s.memWf = true) : t.memWf = true := by
  unfold execOffsetTick at h
  cases h
  (with_reducible repeat' (first
      | assumption | intro _ | apply hf | apply stored_offsetStep | apply stored_unlessHeld | apply stored_foldl
      | apply stored_foldl2 | simp only [stored_mk] | simp only [cl_mk] | apply cl_dmaFill | apply cl_resetCluster | apply cl_ctl
      | apply cl_reset | split | dsimp only | rfl))

theorem stored_execQuoteGo (x0 x1) (s t : State) (h : execQuoteGo x0 x1 s = .next t) (hW : s.memWf = true) : t.memWf = true := by
  unfold execQuoteGo at h
  cases h
  (with_reducible repeat' (first
      | assumption | intro _ | apply hf | apply stored_quivorRequest | apply stored_frame | apply stored_unlessHeld
      | apply stored_foldl | apply stored_foldl2 | simp only [stored_mk] | simp only [cl_mk] | apply cl_dmaFill
      | apply cl_resetCluster | apply cl_ctl | apply cl_reset | split | dsimp only | rfl))

theorem stored_execQuoteDone  (s t : State) (h : execQuoteDone  s = .next t) (hW : s.memWf = true) : t.memWf = true := by
  unfold execQuoteDone at h
  cases h
  (with_reducible repeat' (first
      | assumption | intro _ | apply hf | apply stored_quoteEnd | apply stored_unlessHeld | apply stored_foldl | apply stored_foldl2
      | simp only [stored_mk] | simp only [cl_mk] | apply cl_dmaFill | apply cl_resetCluster | apply cl_ctl | apply cl_reset | split
      | dsimp only | rfl))

theorem stored_execCryQuote (req : Requester) (w : Word) (s t : State) (h : execCryQuote req w s = .next t) (hW : s.memWf = true) :
    t.memWf = true := by
  rw [← Host.Outcome.next.inj h]
  exact stored_cryPair _ _ _ _ hW

theorem stored_execSign (req : Requester) (w : Word) (s t : State) (h : execSign req w s = .next t) (hW : s.memWf = true) :
    t.memWf = true := by
  rw [← Host.Outcome.next.inj h]
  exact stored_cryPair _ _ _ _ hW

theorem stored_execUnwrap (req : Requester) (w : Word) (s t : State) (h : execUnwrap req w s = .next t) (hW : s.memWf = true) :
    t.memWf = true := by
  rw [← Host.Outcome.next.inj h]
  exact stored_cryPair _ _ _ _ hW

theorem stored_execWrap (req : Requester) (w : Word) (s t : State) (h : execWrap req w s = .next t) (hW : s.memWf = true) :
    t.memWf = true := by
  rw [← Host.Outcome.next.inj h]
  exact stored_cryPair _ _ _ _ hW

theorem stored_execErase (req : Requester) (w : Word) (s t : State) (h : execErase req w s = .next t) (hW : s.memWf = true) :
    t.memWf = true := by
  rw [← Host.Outcome.next.inj h]
  exact stored_cryPair _ _ _ _ hW

theorem stored_execFuseProgramSlot (req : Requester) (w : Word) (s t : State) (h : execFuseProgramSlot req w s = .next t) (hW : s.memWf = true) :
    t.memWf = true := by
  rw [← Host.Outcome.next.inj h]
  exact stored_fusePair _ _ _ _ hW

theorem stored_execFuseRevokeSlot (req : Requester) (w : Word) (s t : State) (h : execFuseRevokeSlot req w s = .next t) (hW : s.memWf = true) :
    t.memWf = true := by
  rw [← Host.Outcome.next.inj h]
  exact stored_fusePair _ _ _ _ hW

theorem stored_execFuseRaiseSvnmin (req : Requester) (w : Word) (s t : State) (h : execFuseRaiseSvnmin req w s = .next t) (hW : s.memWf = true) :
    t.memWf = true := by
  rw [← Host.Outcome.next.inj h]
  exact stored_fusePair _ _ _ _ hW

theorem stored_execCmclrGo (x0 x1) (s t : State) (h : execCmclrGo x0 x1 s = .next t) (hW : s.memWf = true) : t.memWf = true := by
  unfold execCmclrGo at h
  cases h
  (with_reducible repeat' (first
      | assumption | intro _ | apply hf | apply stored_accessWrite | apply stored_unlessHeld | apply stored_foldl
      | apply stored_foldl2 | simp only [stored_mk] | simp only [cl_mk] | apply cl_dmaFill | apply cl_resetCluster | apply cl_ctl
      | apply cl_reset | split | dsimp only | rfl))

theorem stored_execCmclrDone  (s t : State) (h : execCmclrDone  s = .next t) (hW : s.memWf = true) : t.memWf = true := by
  unfold execCmclrDone at h
  cases h
  (with_reducible repeat' (first
      | assumption | intro _ | apply hf | apply stored_clearEnd | apply stored_unlessHeld | apply stored_foldl | apply stored_foldl2
      | simp only [stored_mk] | simp only [cl_mk] | apply cl_dmaFill | apply cl_resetCluster | apply cl_ctl | apply cl_reset | split
      | dsimp only | rfl))

theorem stored_execSpflipArm (x0 x1 x2) (s t : State) (h : execSpflipArm x0 x1 x2 s = .next t) (hW : s.memWf = true) : t.memWf = true := by
  unfold execSpflipArm at h
  cases h
  (with_reducible repeat' (first
      | assumption | intro _ | apply hf | apply stored_accessWrite | apply stored_unlessHeld | apply stored_foldl
      | apply stored_foldl2 | simp only [stored_mk] | simp only [cl_mk] | apply cl_dmaFill | apply cl_resetCluster | apply cl_ctl
      | apply cl_reset | split | dsimp only | rfl))

theorem stored_execWtcrcTest (x0 x1 x2) (s t : State) (h : execWtcrcTest x0 x1 x2 s = .next t) (hW : s.memWf = true) : t.memWf = true := by
  unfold execWtcrcTest at h
  cases h
  (with_reducible repeat' (first
      | assumption | intro _ | apply hf | apply stored_accessWrite | apply stored_unlessHeld | apply stored_foldl
      | apply stored_foldl2 | simp only [stored_mk] | simp only [cl_mk] | apply cl_dmaFill | apply cl_resetCluster | apply cl_ctl
      | apply cl_reset | split | dsimp only | rfl))

theorem stored_execDflipArm (x0 x1 x2) (s t : State) (h : execDflipArm x0 x1 x2 s = .next t) (hW : s.memWf = true) : t.memWf = true := by
  unfold execDflipArm at h
  cases h
  (with_reducible repeat' (first
      | assumption | intro _ | apply hf | apply stored_accessWrite | apply stored_unlessHeld | apply stored_foldl
      | apply stored_foldl2 | simp only [stored_mk] | simp only [cl_mk] | apply cl_dmaFill | apply cl_resetCluster | apply cl_ctl
      | apply cl_reset | split | dsimp only | rfl))

theorem stored_execTagArrayWrite (x0 x1 x2 x3) (s t : State) (h : execTagArrayWrite x0 x1 x2 x3 s = .next t) (hW : s.memWf = true) : t.memWf = true := by
  unfold execTagArrayWrite at h
  cases h
  (with_reducible repeat' (first
      | assumption | intro _ | apply hf | apply stored_accessWrite | apply stored_unlessHeld | apply stored_foldl
      | apply stored_foldl2 | simp only [stored_mk] | simp only [cl_mk] | apply cl_dmaFill | apply cl_resetCluster | apply cl_ctl
      | apply cl_reset | split | dsimp only | rfl))

theorem stored_execRawWindowRead (x0 x1) (s t : State) (h : execRawWindowRead x0 x1 s = .next t) (hW : s.memWf = true) : t.memWf = true := by
  unfold execRawWindowRead at h
  cases h
  (with_reducible repeat' (first
      | assumption | intro _ | apply hf | apply stored_accessRead | apply stored_unlessHeld | apply stored_foldl
      | apply stored_foldl2 | simp only [stored_mk] | simp only [cl_mk] | apply cl_dmaFill | apply cl_resetCluster | apply cl_ctl
      | apply cl_reset | split | dsimp only | rfl))

theorem stored_execGpFirstHalf (x0 x1 x2) (s t : State) (h : execGpFirstHalf x0 x1 x2 s = .next t) (hW : s.memWf = true) : t.memWf = true := by
  unfold execGpFirstHalf at h
  cases h
  (with_reducible repeat' (first
      | assumption | intro _ | apply hf | apply stored_accessWrite | apply stored_unlessHeld | apply stored_foldl
      | apply stored_foldl2 | simp only [stored_mk] | simp only [cl_mk] | apply cl_dmaFill | apply cl_resetCluster | apply cl_ctl
      | apply cl_reset | split | dsimp only | rfl))

theorem stored_execGpLapse (x0) (s t : State) (h : execGpLapse x0 s = .next t) (hW : s.memWf = true) : t.memWf = true := by
  unfold execGpLapse at h
  cases h
  (with_reducible repeat' (first
      | assumption | intro _ | apply hf | apply stored_lapse | apply stored_unlessHeld | apply stored_foldl | apply stored_foldl2
      | simp only [stored_mk] | simp only [cl_mk] | apply cl_dmaFill | apply cl_resetCluster | apply cl_ctl | apply cl_reset | split
      | dsimp only | rfl))

theorem stored_execGpSecondHalfRefused (x0 x1 x2) (s t : State) (h : execGpSecondHalfRefused x0 x1 x2 s = .next t) (hW : s.memWf = true) : t.memWf = true := by
  unfold execGpSecondHalfRefused at h
  cases h
  (with_reducible repeat' (first
      | assumption | intro _ | apply hf | apply stored_accessWrite | apply stored_unlessHeld | apply stored_foldl
      | apply stored_foldl2 | simp only [stored_mk] | simp only [cl_mk] | apply cl_dmaFill | apply cl_resetCluster | apply cl_ctl
      | apply cl_reset | split | dsimp only | rfl))

theorem stored_execRegisterWrite (x0 x1 x2) (s t : State) (h : execRegisterWrite x0 x1 x2 s = .next t) (hW : s.memWf = true) : t.memWf = true := by
  unfold execRegisterWrite at h
  cases h
  (with_reducible repeat' (first
      | assumption | intro _ | apply hf | apply stored_accessWrite | apply stored_unlessHeld | apply stored_foldl
      | apply stored_foldl2 | simp only [stored_mk] | simp only [cl_mk] | apply cl_dmaFill | apply cl_resetCluster | apply cl_ctl
      | apply cl_reset | split | dsimp only | rfl))

theorem stored_execBadOpcode (x0 x1) (s t : State) (h : execBadOpcode x0 x1 s = .next t) (hW : s.memWf = true) : t.memWf = true := by
  unfold execBadOpcode at h
  cases h
  (with_reducible repeat' (first
      | assumption | intro _ | apply hf | apply stored_badAck | apply stored_consume
      | (have e := congrArg Prod.snd ‹State.consume _ _ = _›; dsimp only at e; subst e) | apply stored_unlessHeld
      | apply stored_foldl | apply stored_foldl2 | simp only [stored_mk] | simp only [cl_mk] | apply cl_dmaFill
      | apply cl_resetCluster | apply cl_ctl | apply cl_reset | split | dsimp only | rfl))

theorem stored_execPacketDiscard (x0 x1 x2) (s t : State) (h : execPacketDiscard x0 x1 x2 s = .next t) (hW : s.memWf = true) : t.memWf = true := by
  unfold execPacketDiscard at h
  cases h
  (with_reducible repeat' (first
      | assumption | intro _ | apply hf | apply stored_discardPacket | apply stored_unlessHeld | apply stored_foldl
      | apply stored_foldl2 | simp only [stored_mk] | simp only [cl_mk] | apply cl_dmaFill | apply cl_resetCluster | apply cl_ctl
      | apply cl_reset | split | dsimp only | rfl))

theorem stored_execBadpat  (s t : State) (h : execBadpat  s = .next t) (hW : s.memWf = true) : t.memWf = true := by
  unfold execBadpat at h
  cases h
  (with_reducible repeat' (first
      | assumption | intro _ | apply hf | apply stored_chainIn | apply stored_badPattern | apply stored_unlessHeld
      | apply stored_foldl | apply stored_foldl2 | simp only [stored_mk] | simp only [cl_mk] | apply cl_dmaFill
      | apply cl_resetCluster | apply cl_ctl | apply cl_reset | split | dsimp only | rfl))

theorem stored_execTbLoRead (x0) (s t : State) (h : execTbLoRead x0 s = .next t) (hW : s.memWf = true) : t.memWf = true := by
  unfold execTbLoRead at h
  cases h
  (with_reducible repeat' (first
      | assumption | intro _ | apply hf | apply stored_accessRead | apply stored_unlessHeld | apply stored_foldl
      | apply stored_foldl2 | simp only [stored_mk] | simp only [cl_mk] | apply cl_dmaFill | apply cl_resetCluster | apply cl_ctl
      | apply cl_reset | split | dsimp only | rfl))

theorem stored_execCryDone  (s t : State) (h : execCryDone  s = .next t) (hW : s.memWf = true) : t.memWf = true := by
  unfold execCryDone at h
  cases h
  (with_reducible repeat' (first
      | assumption | intro _ | apply hf | apply stored_cryEnd | apply stored_unlessHeld | apply stored_foldl | apply stored_foldl2
      | simp only [stored_mk] | simp only [cl_mk] | apply cl_dmaFill | apply cl_resetCluster | apply cl_ctl | apply cl_reset | split
      | dsimp only | rfl))

theorem stored_execHostLinkTrained (x0 x1) (s t : State) (h : execHostLinkTrained x0 x1 s = .next t) (hW : s.memWf = true) : t.memWf = true := by
  unfold execHostLinkTrained at h
  cases h
  (with_reducible repeat' (first
      | assumption | intro _ | apply hf | apply stored_setFld | apply stored_unlessHeld | apply stored_foldl | apply stored_foldl2
      | simp only [stored_mk] | simp only [cl_mk] | apply cl_dmaFill | apply cl_resetCluster | apply cl_ctl | apply cl_reset | split
      | dsimp only | rfl))

theorem stored_execHostLinkLost  (s t : State) (h : execHostLinkLost  s = .next t) (hW : s.memWf = true) : t.memWf = true := by
  unfold execHostLinkLost at h
  cases h
  (with_reducible repeat' (first
      | assumption | intro _ | apply hf | apply stored_setFld | apply stored_unlessHeld | apply stored_foldl | apply stored_foldl2
      | simp only [stored_mk] | simp only [cl_mk] | apply cl_dmaFill | apply cl_resetCluster | apply cl_ctl | apply cl_reset | split
      | dsimp only | rfl))

theorem stored_execRegionInputValid (x0 x1 x2) (s t : State) (h : execRegionInputValid x0 x1 x2 s = .next t) (hW : s.memWf = true) : t.memWf = true := by
  unfold execRegionInputValid at h
  cases h
  (with_reducible repeat' (first
      | assumption | intro _ | apply hf | apply stored_inputGain | apply stored_unlessHeld | apply stored_foldl | apply stored_foldl2
      | simp only [stored_mk] | simp only [cl_mk] | apply cl_dmaFill | apply cl_resetCluster | apply cl_ctl | apply cl_reset | split
      | dsimp only | rfl))

theorem stored_execClockSeedTimeout  (s t : State) (h : execClockSeedTimeout  s = .next t) (hW : s.memWf = true) : t.memWf = true := by
  unfold execClockSeedTimeout at h
  cases h
  (with_reducible repeat' (first
      | assumption | intro _ | apply hf | apply stored_clockSeedLate | apply stored_unlessHeld | apply stored_foldl
      | apply stored_foldl2 | simp only [stored_mk] | simp only [cl_mk] | apply cl_dmaFill | apply cl_resetCluster | apply cl_ctl
      | apply cl_reset | split | dsimp only | rfl))

theorem stored_execClockHoldTimeout (x0) (s t : State) (h : execClockHoldTimeout x0 s = .next t) (hW : s.memWf = true) : t.memWf = true := by
  unfold execClockHoldTimeout at h
  cases h
  (with_reducible repeat' (first
      | assumption | intro _ | apply hf | apply stored_clockHoldLate | apply stored_unlessHeld | apply stored_foldl
      | apply stored_foldl2 | simp only [stored_mk] | simp only [cl_mk] | apply cl_dmaFill | apply cl_resetCluster | apply cl_ctl
      | apply cl_reset | split | dsimp only | rfl))

theorem stored_execFusePgmDone (s t : State) (h : execFusePgmDone s = .next t) (hW : s.memWf = true) : t.memWf = true := by
  rw [← Host.Outcome.next.inj h]
  unfold State.fuseEnd
  split
  · exact stored_setFld _ _ _ (stored_setFld _ _ _ hW)
  · exact hW

/-- Every command keeps the canonical form of the memories. -/
theorem exec_stored (c : Instr) (s t : State) (h : exec c s = .next t) (hW : s.memWf = true) : t.memWf = true := by
  cases c with
  | idle _ _ => exact stored_execIdle _ _ s t h hW
  | loop _ _ _ => exact stored_execLoop _ _ _ s t h hW
  | segend _ => exact stored_execSegend _ s t h hW
  | mark _ _ => exact stored_execMark _ _ s t h hW
  | segmentBegin _ => exact stored_execSegmentBegin _ s t h hW
  | scheduleCycleExecutes _ _ => exact stored_execScheduleCycleExecutes _ _ s t h hW
  | queueTimeout _ => exact stored_execQueueTimeout _ s t h hW
  | pressRun _ _ _ _ _ => exact stored_execPressRun _ _ _ _ _ s t h hW
  | pourRun _ _ _ _ _ => exact stored_execPourRun _ _ _ _ _ s t h hW
  | cbload _ _ _ => exact stored_execCbload _ _ _ s t h hW
  | engineOpComplete _ => exact stored_execEngineOpComplete _ s t h hW
  | tileCrcComparison _ => exact stored_execTileCrcComparison _ s t h hW
  | fma _ _ _ _ _ _ => exact stored_execFma _ _ _ _ _ _ s t h hW
  | mul _ _ _ _ _ => exact stored_execMul _ _ _ _ _ s t h hW
  | add _ _ _ _ _ => exact stored_execAdd _ _ _ _ _ s t h hW
  | sub _ _ _ _ _ => exact stored_execSub _ _ _ _ _ s t h hW
  | max _ _ _ _ _ => exact stored_execMax _ _ _ _ _ s t h hW
  | min _ _ _ _ _ => exact stored_execMin _ _ _ _ _ s t h hW
  | cmpeq _ _ _ _ => exact stored_execCmpeq _ _ _ _ s t h hW
  | cmplt _ _ _ _ => exact stored_execCmplt _ _ _ _ s t h hW
  | cmple _ _ _ _ => exact stored_execCmple _ _ _ _ s t h hW
  | sel _ _ _ _ _ => exact stored_execSel _ _ _ _ _ s t h hW
  | iadd _ _ _ _ => exact stored_execIadd _ _ _ _ s t h hW
  | isub _ _ _ _ => exact stored_execIsub _ _ _ _ s t h hW
  | and _ _ _ _ => exact stored_execAnd _ _ _ _ s t h hW
  | or _ _ _ _ => exact stored_execOr _ _ _ _ s t h hW
  | xor _ _ _ _ => exact stored_execXor _ _ _ _ s t h hW
  | shl _ _ _ _ => exact stored_execShl _ _ _ _ s t h hW
  | shr _ _ _ _ => exact stored_execShr _ _ _ _ s t h hW
  | sar _ _ _ _ => exact stored_execSar _ _ _ _ s t h hW
  | laneid _ _ => exact stored_execLaneid _ _ s t h hW
  | bcast _ _ _ _ => exact stored_execBcast _ _ _ _ s t h hW
  | cvtw _ _ _ => exact stored_execCvtw _ _ _ s t h hW
  | cvtn _ _ _ => exact stored_execCvtn _ _ _ s t h hW
  | narrowt _ _ _ _ => exact stored_execNarrowt _ _ _ _ s t h hW
  | narrowu _ _ _ => exact stored_execNarrowu _ _ _ s t h hW
  | cvtb8 _ _ _ => exact stored_execCvtb8 _ _ _ s t h hW
  | cvtb5 _ _ _ => exact stored_execCvtb5 _ _ _ s t h hW
  | cvtbi _ _ _ => exact stored_execCvtbi _ _ _ s t h hW
  | widen _ _ _ _ => exact stored_execWiden _ _ _ _ s t h hW
  | exp2 _ _ _ => exact stored_execExp2 _ _ _ s t h hW
  | log2 _ _ _ => exact stored_execLog2 _ _ _ s t h hW
  | rcp _ _ _ => exact stored_execRcp _ _ _ s t h hW
  | rsqrt _ _ _ => exact stored_execRsqrt _ _ _ s t h hW
  | silu _ _ _ => exact stored_execSilu _ _ _ s t h hW
  | gelu _ _ _ => exact stored_execGelu _ _ _ s t h hW
  | rsum _ _ _ _ _ => exact stored_execRsum _ _ _ _ _ s t h hW
  | rmax _ _ _ _ _ => exact stored_execRmax _ _ _ _ _ s t h hW
  | rmin _ _ _ _ _ => exact stored_execRmin _ _ _ _ _ s t h hW
  | rlse _ _ _ _ _ _ => exact stored_execRlse _ _ _ _ _ _ s t h hW
  | topl _ _ _ _ _ _ _ => exact stored_execTopl _ _ _ _ _ _ _ s t h hW
  | xacc _ _ _ _ _ => exact stored_execXacc _ _ _ _ _ s t h hW
  | xmac _ _ _ _ _ _ _ => exact stored_execXmac _ _ _ _ _ _ _ s t h hW
  | xfold _ _ _ => exact stored_execXfold _ _ _ s t h hW
  | xcvt _ _ _ _ _ _ => exact stored_execXcvt _ _ _ _ _ _ s t h hW
  | xrst _ _ _ => exact stored_execXrst _ _ _ s t h hW
  | vecResult _ => exact stored_execVecResult _ s t h hW
  | xferFromScratchpad _ _ _ => exact stored_execXferFromScratchpad _ _ _ s t h hW
  | xferIntoScratchpad _ _ _ => exact stored_execXferIntoScratchpad _ _ _ s t h hW
  | fill _ _ => exact stored_execFill _ _ s t h hW
  | copy _ _ => exact stored_execCopy _ _ s t h hW
  | dmaCommand _ _ _ => exact stored_execDmaCommand _ _ _ s t h hW
  | dmaCompletion _ _ _ => exact stored_execDmaCompletion _ _ _ s t h hW
  | rel _ _ => exact stored_execRel _ _ s t h hW
  | transferComplete _ => exact stored_execTransferComplete _ s t h hW
  | routePass _ _ _ => exact stored_execRoutePass _ _ _ s t h hW
  | routeBinary32Sum _ _ _ => exact stored_execRouteBinary32Sum _ _ _ s t h hW
  | routeBf16InSum _ _ _ => exact stored_execRouteBf16InSum _ _ _ s t h hW
  | routeXsSum _ _ _ => exact stored_execRouteXsSum _ _ _ s t h hW
  | routeMax _ _ _ => exact stored_execRouteMax _ _ _ s t h hW
  | routeLseMerge _ _ _ => exact stored_execRouteLseMerge _ _ _ s t h hW
  | routeTopkMerge _ _ _ => exact stored_execRouteTopkMerge _ _ _ s t h hW
  | queueEntryVisible _ _ _ => exact stored_execQueueEntryVisible _ _ _ s t h hW
  | queueSlotVisible _ _ => exact stored_execQueueSlotVisible _ _ s t h hW
  | fenceApplied _ => exact stored_execFenceApplied _ s t h hW
  | rd _ _ _ _ _ _ => exact stored_execRd _ _ _ _ _ _ s t h hW
  | wr _ _ _ _ _ _ _ => exact stored_execWr _ _ _ _ _ _ _ s t h hW
  | rsp _ _ _ _ _ _ _ => exact stored_execRsp _ _ _ _ _ _ _ s t h hW
  | controlDma _ _ _ _ _ _ _ _ => exact stored_execControlDma _ _ _ _ _ _ _ _ s t h hW
  | dmadone _ _ _ _ _ _ => exact stored_execDmadone _ _ _ _ _ _ s t h hW
  | fault _ _ _ _ => exact stored_execFault _ _ _ _ s t h hW
  | errlog a b c d => exact stored_execErrlog a b c d s t h hW
  | segcmd _ _ _ _ => exact stored_execSegcmd _ _ _ _ s t h hW
  | token _ _ _ _ _ => exact stored_execToken _ _ _ _ _ s t h hW
  | halt _ _ _ _ => exact stored_execHalt _ _ _ _ s t h hW
  | sidebandTimeout _ _ => exact stored_execSidebandTimeout _ _ s t h hW
  | kvread _ _ => exact stored_execKvread _ _ s t h hW
  | kvwrite _ _ => exact stored_execKvwrite _ _ s t h hW
  | pfxLaunch _ _ => exact stored_execPfxLaunch _ _ s t h hW
  | pfxLookupDone _ => exact stored_execPfxLookupDone _ s t h hW
  | submit _ _ _ _ => exact stored_execSubmit _ _ _ _ s t h hW
  | abort _ _ => exact stored_execAbort _ _ s t h hW
  | tenant _ _ => exact stored_execTenant _ _ s t h hW
  | grammar _ _ _ => exact stored_execGrammar _ _ _ s t h hW
  | commit _ _ => exact stored_execCommit _ _ s t h hW
  | adv _ _ _ _ _ => exact stored_execAdv _ _ _ _ _ s t h hW
  | debit _ _ _ => exact stored_execDebit _ _ _ s t h hW
  | ring _ _ _ => exact stored_execRing _ _ _ s t h hW
  | adj _ _ _ => exact stored_execAdj _ _ _ s t h hW
  | slot _ _ _ => exact stored_execSlot _ _ _ s t h hW
  | decodeAdmission _ _ => exact stored_execDecodeAdmission _ _ s t h hW
  | prefillAdmission _ _ => exact stored_execPrefillAdmission _ _ s t h hW
  | budgetRefill => exact stored_execBudgetRefill s t h hW
  | feed _ _ => exact stored_execFeed _ _ s t h hW
  | sample _ _ => exact stored_execSample _ _ s t h hW
  | verify _ _ => exact stored_execVerify _ _ s t h hW
  | load _ _ _ => exact stored_execLoad _ _ _ s t h hW
  | loadSegment _ _ => exact stored_execLoadSegment _ _ s t h hW
  | swap _ _ _ _ => exact stored_execSwap _ _ _ _ s t h hW
  | stop _ _ => exact stored_execStop _ _ s t h hW
  | swpHoldArm _ _ _ => exact stored_execSwpHoldArm _ _ _ s t h hW
  | hello _ _ _ => exact stored_execHello _ _ _ s t h hW
  | transferQuote _ _ _ => exact stored_execTransferQuote _ _ _ s t h hW
  | sessionKey _ _ => exact stored_execSessionKey _ _ s t h hW
  | requestList _ => exact stored_execRequestList _ s t h hW
  | transferSegment _ => exact stored_execTransferSegment _ s t h hW
  | transferDone _ => exact stored_execTransferDone _ s t h hW
  | transferAbort _ => exact stored_execTransferAbort _ s t h hW
  | linkDataFlit _ _ _ _ => exact stored_execLinkDataFlit _ _ _ _ s t h hW
  | linkControlFlit _ _ _ _ => exact stored_execLinkControlFlit _ _ _ _ s t h hW
  | idleFlit _ _ _ => exact stored_execIdleFlit _ _ _ s t h hW
  | trainingFlit _ _ _ => exact stored_execTrainingFlit _ _ _ s t h hW
  | portEn _ _ _ => exact stored_execPortEn _ _ _ s t h hW
  | retrain _ _ _ => exact stored_execRetrain _ _ _ s t h hW
  | detectRetry _ _ => exact stored_execDetectRetry _ _ s t h hW
  | trainingPhaseComplete _ _ _ => exact stored_execTrainingPhaseComplete _ _ _ s t h hW
  | trainingPhaseLimit _ => exact stored_execTrainingPhaseLimit _ s t h hW
  | linkLoss _ => exact stored_execLinkLoss _ s t h hW
  | peerSilent _ => exact stored_execPeerSilent _ s t h hW
  | cableMated _ _ => exact stored_execCableMated _ _ s t h hW
  | cableRemoved _ => exact stored_execCableRemoved _ s t h hW
  | vcabOvercurrent _ => exact stored_execVcabOvercurrent _ s t h hW
  | hrd _ _ _ => exact stored_execHrd _ _ _ s t h hW
  | hrdd _ _ _ => exact stored_execHrdd _ _ _ s t h hW
  | hwr _ _ _ => exact stored_execHwr _ _ _ s t h hW
  | crd _ _ => exact stored_execCrd _ _ s t h hW
  | cwr _ _ _ => exact stored_execCwr _ _ _ s t h hW
  | crsp _ _ _ => exact stored_execCrsp _ _ _ s t h hW
  | irq _ _ => exact stored_execIrq _ _ s t h hW
  | hostMalformedRequest _ _ _ => exact stored_execHostMalformedRequest _ _ _ s t h hW
  | gopArrive _ _ => exact stored_execGopArrive _ _ s t h hW
  | gopBcast _ _ => exact stored_execGopBcast _ _ s t h hW
  | gopSnap _ _ => exact stored_execGopSnap _ _ s t h hW
  | gopQuiesce _ _ => exact stored_execGopQuiesce _ _ s t h hW
  | gopResume _ _ => exact stored_execGopResume _ _ s t h hW
  | markArrive _ _ => exact stored_execMarkArrive _ _ s t h hW
  | markRelease _ _ => exact stored_execMarkRelease _ _ s t h hW
  | markBcast _ _ _ _ => exact stored_execMarkBcast _ _ _ _ s t h hW
  | markSnap _ _ _ _ => exact stored_execMarkSnap _ _ _ _ s t h hW
  | markQuiesce _ _ _ _ => exact stored_execMarkQuiesce _ _ _ _ s t h hW
  | markResume _ _ _ _ => exact stored_execMarkResume _ _ _ _ s t h hW
  | moduleHeld => exact stored_execModuleHeld s t h hW
  | gopReset _ _ => exact stored_execGopReset _ _ s t h hW
  | domainResetDone => exact stored_execDomainResetDone s t h hW
  | gopTimeout => exact stored_execGopTimeout s t h hW
  | powerUp _ _ _ _ _ _ => exact stored_execPowerUp _ _ _ _ _ _ s t h hW
  | pwrEnFall b => exact stored_execPwrEnFall b s t h hW
  | inputUndervoltage => exact stored_execInputUndervoltage s t h hW
  | inputOvervoltage => exact stored_execInputOvervoltage s t h hW
  | inputCollapse => exact stored_execInputCollapse s t h hW
  | railFault _ _ => exact stored_execRailFault _ _ s t h hW
  | avsTick _ _ _ _ _ _ => exact stored_execAvsTick _ _ _ _ _ _ s t h hW
  | senseInvalid _ _ _ => exact stored_execSenseInvalid _ _ _ s t h hW
  | droop _ _ => exact stored_execDroop _ _ s t h hW
  | regionShort _ _ _ => exact stored_execRegionShort _ _ _ s t h hW
  | shortRetry _ => exact stored_execShortRetry _ s t h hW
  | regionFence _ _ _ => exact stored_execRegionFence _ _ _ s t h hW
  | vset _ _ _ => exact stored_execVset _ _ _ s t h hW
  | refLost _ => exact stored_execRefLost _ s t h hW
  | refValid _ => exact stored_execRefValid _ s t h hW
  | regionRefLost _ _ => exact stored_execRegionRefLost _ _ s t h hW
  | regionRelock _ _ => exact stored_execRegionRelock _ _ s t h hW
  | effStep _ _ => exact stored_execEffStep _ _ s t h hW
  | ceil _ _ _ => exact stored_execCeil _ _ _ s t h hW
  | ilimTick _ _ => exact stored_execIlimTick _ _ s t h hW
  | powerCapTick _ _ _ _ _ => exact stored_execPowerCapTick _ _ _ _ _ s t h hW
  | currentBrake _ _ _ => exact stored_execCurrentBrake _ _ _ s t h hW
  | brakeRelease _ => exact stored_execBrakeRelease _ s t h hW
  | cpSample _ => exact stored_execCpSample _ s t h hW
  | pcoolTick _ _ _ _ => exact stored_execPcoolTick _ _ _ _ s t h hW
  | coolantOvertemp => exact stored_execCoolantOvertemp s t h hW
  | regionThermalSample _ _ _ _ _ => exact stored_execRegionThermalSample _ _ _ _ _ s t h hW
  | tlimStep _ => exact stored_execTlimStep _ s t h hW
  | regionTripClear _ => exact stored_execRegionTripClear _ s t h hW
  | stackThermalSample _ _ _ _ _ _ => exact stored_execStackThermalSample _ _ _ _ _ _ s t h hW
  | stlimStep _ => exact stored_execStlimStep _ s t h hW
  | stackTripClear _ => exact stored_execStackTripClear _ s t h hW
  | alarmReceived => exact stored_execAlarmReceived s t h hW
  | bootGo _ _ _ => exact stored_execBootGo _ _ _ s t h hW
  | clockSeed => exact stored_execClockSeed s t h hW
  | regionWavefront _ _ => exact stored_execRegionWavefront _ _ s t h hW
  | stackBringup _ => exact stored_execStackBringup _ s t h hW
  | linkStage => exact stored_execLinkStage s t h hW
  | knownAnswerRuns _ _ _ _ _ => exact stored_execKnownAnswerRuns _ _ _ _ _ s t h hW
  | bringupReady => exact stored_execBringupReady s t h hW
  | fback _ _ _ => exact stored_execFback _ _ _ s t h hW
  | faultResend _ => exact stored_execFaultResend _ s t h hW
  | errlogHoldExpiry _ => exact stored_execErrlogHoldExpiry _ s t h hW
  | elogHead _ _ => exact stored_execElogHead _ _ s t h hW
  | addressToken _ => exact stored_execAddressToken _ s t h hW
  | timePulse => exact stored_execTimePulse s t h hW
  | bootclose _ _ => exact stored_execBootclose _ _ s t h hW
  | bootWindowTimeout => exact stored_execBootWindowTimeout s t h hW
  | read _ _ => exact stored_execRead _ _ s t h hW
  | write _ _ => exact stored_execWrite _ _ s t h hW
  | notifyTimer => exact stored_execNotifyTimer s t h hW
  | sync _ => exact stored_execSync _ s t h hW
  | peerDelayRequest _ => exact stored_execPeerDelayRequest _ s t h hW
  | offsetTick => exact stored_execOffsetTick s t h hW
  | quoteGo _ _ => exact stored_execQuoteGo _ _ s t h hW
  | quoteDone => exact stored_execQuoteDone s t h hW
  | cryQuote _ _ => exact stored_execCryQuote _ _ s t h hW
  | sign _ _ => exact stored_execSign _ _ s t h hW
  | unwrap _ _ => exact stored_execUnwrap _ _ s t h hW
  | wrap _ _ => exact stored_execWrap _ _ s t h hW
  | erase _ _ => exact stored_execErase _ _ s t h hW
  | fuseProgramSlot _ _ => exact stored_execFuseProgramSlot _ _ s t h hW
  | fuseRevokeSlot _ _ => exact stored_execFuseRevokeSlot _ _ s t h hW
  | fuseRaiseSvnmin _ _ => exact stored_execFuseRaiseSvnmin _ _ s t h hW
  | fusePgmDone => exact stored_execFusePgmDone s t h hW
  | cmclrGo _ _ => exact stored_execCmclrGo _ _ s t h hW
  | cmclrDone => exact stored_execCmclrDone s t h hW
  | spflipArm _ _ _ => exact stored_execSpflipArm _ _ _ s t h hW
  | wtcrcTest _ _ _ => exact stored_execWtcrcTest _ _ _ s t h hW
  | dflipArm _ _ _ => exact stored_execDflipArm _ _ _ s t h hW
  | tagArrayWrite _ _ _ _ => exact stored_execTagArrayWrite _ _ _ _ s t h hW
  | rawWindowRead _ _ => exact stored_execRawWindowRead _ _ s t h hW
  | gpFirstHalf _ _ _ => exact stored_execGpFirstHalf _ _ _ s t h hW
  | gpLapse _ => exact stored_execGpLapse _ s t h hW
  | gpSecondHalfRefused _ _ _ => exact stored_execGpSecondHalfRefused _ _ _ s t h hW
  | registerWrite _ _ _ => exact stored_execRegisterWrite _ _ _ s t h hW
  | badOpcode _ _ => exact stored_execBadOpcode _ _ s t h hW
  | packetDiscard _ _ _ => exact stored_execPacketDiscard _ _ _ s t h hW
  | badpat => exact stored_execBadpat s t h hW
  | tbLoRead _ => exact stored_execTbLoRead _ s t h hW
  | cryDone => exact stored_execCryDone s t h hW
  | hostLinkTrained _ _ => exact stored_execHostLinkTrained _ _ s t h hW
  | hostLinkLost => exact stored_execHostLinkLost s t h hW
  | regionInputValid _ _ _ => exact stored_execRegionInputValid _ _ _ s t h hW
  | clockSeedTimeout => exact stored_execClockSeedTimeout s t h hW
  | clockHoldTimeout _ => exact stored_execClockHoldTimeout _ s t h hW

end Sys2Proof.Machine
end

