-- ==== Sys2Proof/Laws/Vector.lean ====
section
/-!
SUPPORT. What the slot rows do, said once: a slot row that may issue, and a vector row that writes lanes.
-/
namespace Sys2Proof.Machine

theorem getMany_length {α : Type} (d : α) (m : List (Nat × α)) (a n : Nat) : (Store.getMany d m a n).length = n := by
  induction n generalizing a with
  | zero => rfl
  | succ n ih => simp [Store.getMany, ih]

/-- A vector register has 256 lanes (R71). -/
theorem State.vreg_length (s : State) (r c ctx g : Nat) : (s.vreg r c ctx g).length = 256 := getMany_length _ _ _ _

/-- A lane operation of two operands does not depend on the third register. -/
theorem map3_two (f : Word → Word → Word) : ∀ (a b c : Lanes), a.length ≤ c.length →
    map3 (fun x y _ => f x y) a b c = List.zipWith f a b
  | [], b, c, _ => by simp [map3]
  | x :: a, [], c, _ => by simp [map3]
  | x :: a, y :: b, [], h => by simp at h
  | x :: a, y :: b, z :: c, h => by
    have := map3_two f a b c (by simpa using h)
    simpa [map3] using this

theorem flatMap_singleton_map {α β : Type} (f : α → β) (l : List α) : l.flatMap (fun x => [f x]) = l.map f := by
  induction l with
  | nil => rfl
  | cons x l ih => simp [List.flatMap_cons, ih]

/-- A slot row that may issue and is allowed: effects that are due land and the operation issues (R85, R87). -/
theorem slotRow_next (p : Site) (ok : State → Nat → Bool) (f : State → Nat → Nat → State) (s : State)
    (h : s.canIssue p = true) (h' : ok s (s.region p.r).cycle = true) :
    slotRow p ok f s = .next (f (s.land p.r p.c (s.region p.r).cycle) (s.region p.r).cycle (s.cluster p.r p.c).pc) := by
  simp [slotRow, h, h']

/-- A vector row of an operation that writes lanes alone (R98, R99). -/
theorem vecRow_writes (p : Site) (v : VecSlot) (s : State) (h : s.canIssue p = true)
    (hok : s.vecOk p.r p.c v (s.region p.r).cycle = true) (h22 : v.op ≠ 0x22) (h27 : v.op ≠ 0x27)
    (hx : v.op < 0x50) (hs : State.sfuSpan v (s.region p.r).cycle = none) :
    let n := (s.region p.r).cycle
    let t := s.land p.r p.c n
    vecRow p v s = .next (t.addPend p.r p.c
      ((vecWrites v (t.widenPoint p.r p.c v.x) (t.vreg p.r p.c (n % 4) v.a) (t.vreg p.r p.c (n % 4) v.b)
        (t.vreg p.r p.c (n % 4) v.c)).map fun w =>
        ⟨n + vecLatency v.op v.m, (s.cluster p.r p.c).pc, 3, .vreg ((n % 4 * 32 + v.d + w.1) * 256 + w.2.1) w.2.2⟩)) := by
  intro n t
  rw [vecRow, slotRow_next p _ _ s h hok]
  have e2 : v.op ≠ 0x52 ∧ v.op ≠ 0x53 ∧ v.op ≠ 0x54 ∧ v.op ≠ 0x50 ∧ v.op ≠ 0x51 := by omega
  simp [State.vecIssue, h27, h22, hs, State.vecEffects, vecTerms, e2, Function.comp_def, n, t]

/-- A schedule cycle that executes leaves its region halted or in the next cycle (R163). -/
theorem State.executeCycle_cases (s : State) (r n : Nat) :
    ((s.executeCycle r n).region r).halted = true ∨ ((s.executeCycle r n).region r).cycle = n + 1 := by
  unfold State.executeCycle
  extract_lets
  repeat' split
  all_goals first | (left; assumption) | (right; simp [State.region_modRegion])

end Sys2Proof.Machine
end

