-- ==== Sys2Proof/Tests/Slice0.lean ====
section
/-!
SUPPORT. Small tests: ill-formed terms that the check refuses, steps whose results the specification gives, and for each
statement a concrete state and operands that meet its hypotheses.
-/
namespace Sys2Proof.Tests
open Sys2Proof Sys2Proof.Machine Sys2Proof.Claims
set_option Elab.async false

/-! ### Small states -/

/-- The module with its power on, right after that. -/
def on : State := { State.reset with power := { Power.reset with on := true, began := true, rails := Rails.upTo 4 } }

/-- The bridge of this module is active and its link is up. -/
def bridging : State := (on.setFld Rg.HB_CFG_ACTIVE 1).setFld Rg.HB_CFG_RATE 5

/-- Region 0 is ON and its cluster 0 enabled. -/
def one : State := (on.setFld (Rg.RPWR_STAT_STATE 0) 2).setFld (Rg.CL_STAT_EN 0 0) 1

/-- Cluster 0 of region 0. -/
def p0 : Site := ⟨0, 0⟩

/-- Cluster 0 changes. -/
def mk (s : State) (f : Cluster → Cluster) : State := s.modCluster 0 0 f

/-- Region 0 changes. -/
def mr (s : State) (f : Region → Region) : State := s.modRegion 0 f

/-- A program word of bytes. -/
def word (b : List Byte) : ProgWord := BitVec.ofNat 256 (leNat b)

/-- Word 16 of the program memory of cluster 0 holds these bytes. -/
def withWord (s : State) (b : List Byte) : State := mk s fun k => { k with prog := Store.put k.prog 16 ⟨word b, 0⟩ }

/-- Region 0 runs a segment. -/
def run0 : State := mr one fun g => { g with seg := some ⟨0, 0⟩ }

/-! ### Hypotheses of the statements are met -/

theorem test_arithmetic_hyps : one.canIssue p0 = true := by decide +kernel
theorem test_integer_hyps : run0.canIssue p0 = true := by decide +kernel
theorem test_conversion_hyps : one.canIssue p0 = true ∧ (1 : BitVec 8).toNat ≤ 4 ∧ (widenLanes 1 (operand p0 0 one)).isSome = true := by
  decide +kernel
theorem test_special_function_hyps : one.canIssue p0 = true ∧ sfuFree p0 (cyc p0 one) (cyc p0 one + 4) one
    ∧ sfuFree p0 (cyc p0 one) (cyc p0 one + 8) one := by
  refine ⟨by decide +kernel, fun q h => ?_, fun q h => ?_⟩ <;> cases h
theorem test_reduction_hyps : one.canIssue p0 = true ∧ (0 : BitVec 8).toNat % 2 ^ 8 = 0 ∧ (0 : BitVec 8).toNat + 2 ^ 8 ≤ 256
    ∧ sfuFree p0 (cyc p0 one + 4) (cyc p0 one + 4 + 64) one ∧ (7 : BitVec 8).toNat + 1 ≤ 2 ^ 8 := by
  refine ⟨by decide +kernel, by decide, by decide, ?_, by decide⟩
  intro q h
  cases h
theorem test_accumulator_hyps : one.canIssue p0 = true ∧ (8 : BitVec 8).toNat % 2 ^ 3 = 0 ∧ (8 : BitVec 8).toNat + 2 ^ 3 ≤ 256 := by
  decide +kernel
theorem test_ctl_hyps : one.canIssue p0 = true ∧ one.loader.job ≠ .swap ∧ one.loader.job ≠ .stop := by decide +kernel

/-- A section of the test images. -/
structure Sect where
  type : Nat
  region : Nat
  cluster : Nat
  body : List Byte

/-- An image of placement 0 with these sections: the header's first 128 bytes, the table, and the bodies in order. -/
def image (l : List Sect) : List Byte :=
  let rec table : Nat → List Sect → List Byte
    | _, [] => []
    | o, x :: xs => leBytes 2 x.type ++ leBytes 1 0 ++ leBytes 1 0 ++ leBytes 1 x.region ++ leBytes 1 x.cluster ++ leBytes 2 0
        ++ leBytes 8 o ++ leBytes 4 x.body.length ++ leBytes 4 0 ++ table (o + x.body.length) xs
  leBytes 12 0 ++ leBytes 2 1 ++ leBytes 2 l.length ++ leBytes 8 128 ++ leBytes 104 0
  ++ table (128 + 24 * l.length) l ++ l.flatMap Sect.body

/-- A segment table of the one segment 5. -/
def seg5 : Sect := ⟨3, 0xFF, 0xFF, leBytes 2 5 ++ leBytes 14 0⟩

/-- An image of segment 5 is READY and the segment command waits. -/
def ready5 : State :=
  let s := mr one fun g => { g with segq := [5] }
  ({ s with image := image [seg5] } : State).setFld Rg.IMG_STAT_STATE 3

theorem test_segment_hyps : ready5.mayBegin 0 = true ∧ (ready5.region 0).segq = [5] ∧ segIndex ready5.image ready5.place 5 = some 0 := by
  decide +kernel

/-- A stream that pops the queue at the west side of cluster 0 in this cycle. -/
def west (form : Bool) : Stream := Stream.start ⟨4, 3, 0xFF, 0, 1, 0, 0, 0⟩ 16 form 0 0 0 0 false

/-- Region 0 with that stream. -/
def popping : State := mk run0 fun k => { k with streams := [west false] }
/-- The queue it pops is fenced. -/
def poppingFenced : State := popping.setQueue (popKey 0 0 3) { Queue.empty with fenced := true }

theorem test_cycle_hyps :
    run0.running 0 = true ∧ (mr run0 fun g => { g with haltReq := some 7 }).running 0 = true
    ∧ (((mr run0 fun g => { g with haltReq := some 7 }).faultsAt 0 0 [] true).region 0).halted = true
    ∧ ((poppingFenced.dueOps 0 0).filter fun o => o.fenced).length = 1
    ∧ ((poppingFenced.faultsAt 0 0 (poppingFenced.dueOps 0 0) true).region 0).halted = true
    ∧ ((popping.dueOps 0 0).filter fun o => !o.asserted && !o.ready).length = 1
    ∧ ((popping.faultsAt 0 0 (popping.dueOps 0 0) false).region 0).halted = false
    ∧ run0.dueOps 0 0 = [] ∧ ((run0.faultsAt 0 0 [] true).region 0).halted = false
    ∧ ((run0.enabledClusters 0).all fun c => run0.bundleOk 0 c 0) = true := by decide +kernel

/-- A stall of two ACLK is due in cycle `n`, for the flow `f`. -/
def stalling (s : State) (n : Nat) (f : Option (Nat × Nat × Nat)) : State :=
  mr s fun g => { g with cycle := n, stallReqs := [⟨n, 2, 16, f⟩] }
/-- The first byte of a pending tile leaves the port. -/
def failing (s : State) : State := mk s fun k => { k with pend := [⟨0, 0, 1, .tileFirst 0 0⟩] }
/-- An excess-beat stall of the popping stream in cycle 1. -/
def excess : State := stalling popping 1 (some (0, 0, 0))

theorem test_stall_hyps :
    (let s := stalling run0 0 none
     (0 : Nat) < State.stallLen (s.region 0) 0 ∧ s.running 0 = true
       ∧ ((s.faultsAt 0 0 (s.dueOps 0 0) false).region 0).halted = false
       ∧ (s.stallPath 0 0 0).2.stallDue 0 0 (s.stallPath 0 0 0).1 = [])
    ∧ (let s := failing (stalling run0 0 none)
       (s.region 0).wstall < State.stallLen (s.region 0) 0 ∧ ((s.faultsAt 0 0 (s.dueOps 0 0) false).region 0).halted = true)
    ∧ (let s := excess
       let os := (s.stallPath 0 1 0).2.stallDue 0 0 (s.stallPath 0 1 0).1
       s.running 0 = true ∧ (s.region 0).wstall < State.stallLen (s.region 0) 1
         ∧ ((s.faultsAt 0 1 (s.dueOps 0 1) false).region 0).halted = false ∧ os.any (fun o => o.fenced) = false
         ∧ (os.filter fun o => !o.asserted && !o.ready).length = 1) := by decide +kernel

/-- A cycle that has stalled for 16 ACLK under a limit of 2^4. -/
def stalled16 : State := (mr popping fun g => { g with stall := 16 }).setFld (Rg.QCTL_LIMEXP 0) 4

theorem test_timeout_hyps : stalled16.running 0 = true
    ∧ ((if (stalled16.region 0).wstall < State.stallLen (stalled16.region 0) (stalled16.region 0).cycle
          then (stalled16.stallPath 0 0 0).2.stallDue 0 0 (stalled16.stallPath 0 0 0).1
          else stalled16.dueOps 0 (stalled16.region 0).cycle).filter fun o => !o.asserted && !o.ready).length = 1
    ∧ stalled16.fld (Rg.QCTL_LIMEXP 0) ≠ 0 ∧ 2 ^ stalled16.fld (Rg.QCTL_LIMEXP 0) ≤ (stalled16.region 0).stall := by decide +kernel

/-- A press descriptor: FP4 weights, BF16 activations, one row, one k-step, 32 units, one tile. -/
def press : List Byte := [1, 0, 1, 1, 1, 0, 32, 0, 32, 0, 0, 0, 0, 0, 0, 0, 1, 0, 0, 0]
/-- A pour descriptor with MX activations, whose first TAG a buffer of 255s makes reserved. -/
def pour : List Byte := [2, 1, 0, 1, 1, 0, 1, 0, 32, 0, 0, 0, 0, 0, 1, 0, 1, 0, 0, 0]
/-- A pour descriptor of codebook weights of length 4. -/
def pourCb : List Byte := [2, 5, 1, 1, 2, 0, 1, 0, 32, 0, 0, 0, 4, 0, 1, 0, 1, 0, 0, 0]

theorem test_press_hyps :
    let s := withWord one press
    let t := due p0 s
    let d := OpDesc.ofWord (t.progPeek 0 0 16)
    s.canIssue p0 = true ∧ s.engineOk 0 0 ⟨1, 16, false, 0, 0, 0⟩ 1 0 = true ∧ progClean p0 16 t ∧ isCb d.wfmt = false := by
  refine ⟨?_, ?_, ?_, ?_⟩ <;> (try unfold progClean) <;> decide +kernel

/-- The operation of this descriptor, of engine `kind`, before K-step `step`. -/
def operation (kind : Nat) (b : List Byte) (step : Nat) : EngRun :=
  ⟨kind, ⟨1, 16, false, 0, 0, 0⟩, OpDesc.ofWord (word b), 0, 0, [], [], step, 1, 0⟩
/-- Cluster 0 whose pour buffer holds a reserved TAG, and one whose tile 0 holds an index past the store's length. -/
def badBuf : State := mk one fun k => { k with abuf := [(65536 + 4096, 255)] }
def badTile : State := mk one fun k => { k with wt := (List.range 16).map (fun i => (i, 255)), proven := [(0, true)] }

theorem test_engine_hyps :
    (let x := operation 1 press 0
     badTag x.d (one.sampleSlots 0 0 x).1 = none ∧ badIdx x.d ((one.sampleSlots 0 0 x).2.engineTiles 0 0 0 x.d.ntiles) (fun j => one.tilePending 0 0 j) 0 = none)
    ∧ (let x := { operation 1 press 1 with issue := 0 }
       State.biasWords (one.handle 0 0 x.d.biash) x (x.d.dur) = [] ∧ x.d.ksteps ≤ x.step ∧ x.issue + x.d.dur ≤ x.d.dur)
    ∧ (badTag (operation 2 pour 0).d (badBuf.sampleSlots 0 0 (operation 2 pour 0)).1).isSome = true
    ∧ (let x := operation 2 pourCb 0
       badTag x.d (badTile.sampleSlots 0 0 x).1 = none
         ∧ (badIdx x.d ((badTile.sampleSlots 0 0 x).2.engineTiles 0 0 0 x.d.ntiles) (fun j => badTile.tilePending 0 0 j) 0).isSome = true)
    ∧ (withWord one pourCb).engineOk 0 0 ⟨1, 16, false, 0, 0, 0⟩ 2 0 = true
    ∧ (let e := OpDesc.ofWord ((due p0 (withWord one pourCb)).progPeek 0 0 16)
       isCb e.wfmt = true ∧ e.cblen ≠ ((due p0 (withWord one pourCb)).cluster 0 0).cbLen) := by decide +kernel

theorem test_codebook_hyps : one.canIssue p0 = true ∧ (4604 : BitVec 13).toNat + ((3 : BitVec 2).toNat + 1) ≤ 4608
    ∧ (one.cluster 0 0).pourEnd ≤ cyc p0 one := by decide +kernel

/-- A tile comparison is due. -/
def comparing : State := mk one fun k => { k with pend := [⟨0, 0, 1, .tileCmp 0 0⟩] }

theorem test_due_hyps : comparing.live 0 = true ∧ (comparing.dueCompare p0).isSome = true := by decide +kernel
theorem test_landed_hyps : one.flag (Rg.WTCRC_TEST_ARM 0 0) = false ∧ (one.setFld (Rg.WTCRC_TEST_ARM 0 0) 1).flag (Rg.WTCRC_TEST_ARM 0 0) = true
    ∧ (FVal.inf true, fun x : Acc => { x with ninf := true }).1 ∈ [FVal.nan, .inf true, .inf false] ∧ (3 : Nat) ≤ 3 := by decide +kernel

/-- A fill of 8 bytes. -/
def fill8 : List Byte := [2, 0, 0, 0, 0, 0, 0, 0, 0, 0, 0, 0, 8, 0, 0, 0]
/-- A route from the west side into the local buffer, one beat, passed on. -/
def route1 : List Byte := [4, 3, 0xFF, 0, 1, 0, 0, 0, 0, 0, 0, 0]

theorem test_transfer_hyps : (withWord one fill8).canIssue p0 = true ∧ (withWord one fill8).memFree 0 0 0 = true
    ∧ (XferDesc.ofWord ((withWord one fill8).progPeek 0 0 16)).ok false = true
    ∧ (XferDesc.ofWord ((withWord one fill8).progPeek 0 0 16)).kind = 2 ∧ progClean p0 16 (due p0 (withWord one fill8)) := by
  refine ⟨?_, ?_, ?_, ?_, ?_⟩ <;> (try unfold progClean) <;> decide +kernel

theorem test_route_hyps : (withWord one route1).canIssue p0 = true
    ∧ (withWord one route1).routeOk 0 0 16 0 (fun d => d.rmode == 0) = true ∧ progClean p0 16 (due p0 (withWord one route1)) := by
  refine ⟨?_, ?_, ?_⟩ <;> (try unfold progClean) <;> decide +kernel

theorem test_queue_hyps :
    ((one.setQueue (inKey 0 3) { Queue.empty with hid := [⟨⟨0, 0⟩, 0⟩] }).queue (inKey 0 3)).hid.length = 1
    ∧ (one.setFld (Rg.YMAP_CL_FENCED 5) 1).yFenced 5 = true ∧ one.powered 7 = false := by decide +kernel

theorem test_packet_hyps : one.pathOpen false 0x8000 (0x4000 + 0) = true ∧ on.pathOpen false 0x8000 (0x4000 + 0) = false
    ∧ ready5.fld Rg.IMG_STAT_STATE = 3 ∧ ready5.pathOpen false 0x8000 (0x4000 + 0) = true ∧ one.fld Rg.IMG_STAT_STATE ∉ [3, 4]
    ∧ Store.find one.bridge.out 3 = none ∧ (7 : BitVec 16).toNat ≠ 0x8000 := by decide +kernel

theorem test_error_log_hyps : one.power.on = true ∧ one.pathOpen false 0x4000 0x8000 = true ∧ on.pathOpen false 0x4000 0x8000 = false
    ∧ one.mg.elogAt = none
    ∧ (let t (n : Nat) : State := { one with mg := { one.mg with elogAt := some 0 }, time := ⟨n, 0⟩ }
       (t 14999999).time.cb < 0 + 10 * msCb ∧ 0 + 10 * msCb ≤ (t 15000000).time.cb) ∧ State.mergeCode 0x301 = true := by decide +kernel

/-- A KVREAD of layout 0 waits at the DMA engine of cluster 0; the image has a layout and SEQBASE names page 0. -/
def reading : State :=
  let s := mk one fun k => { k with dmaCmd := [⟨0, 0, [], 0⟩] }
  ({ s with image := image [⟨0x30, 0xFF, 0xFF, leBytes 8 1 ++ leBytes 32 0⟩] , loader := { s.loader with chans := [255] } } : State).wr Rg.SEQBASE 0

/-- Its stack is tripped. -/
def readingHeld : State := reading.setFld (Rg.STK_THERM_TTRIP 0) 1

/-- The command runs. -/
def ran (s : State) : List DmaWord × State := (s.modCluster 0 0 fun k => { k with dmaCmd := [] }).dmaRun ⟨0, 0, [], 0⟩ none

theorem test_dma_hyps : (reading.cluster 0 0).dmaCmd = [⟨0, 0, [], 0⟩] ∧ bits (0 : DWord).toNat 63 60 = 0
    ∧ (reading.cluster 0 0).dmaOut = [] ∧ reading.blocked = false ∧ readingHeld.blocked = false
    ∧ (ran reading).2.blocked = false ∧ (ran readingHeld).2.blocked = true
    ∧ ((kvLayouts (sectionOf reading.image 0x30 0xFF 0xFF reading.place))[(⟨0, 0, [], 0⟩ : DmaCmd).req.layout]?).isSome = true := by decide +kernel

/-- One prefix lookup runs whose record in control memory has no tokens. -/
def looking : State :=
  let s := on.cmSetBytes 64 (leBytes 32 0)
  { s with lookups := [(64, 1)] }

theorem test_prefix_hyps : on.answers (.core 0) = true ∧ on.lookups.length < 4
    ∧ 4 ≤ ({ on with lookups := [(0, 1), (32, 1), (64, 1), (96, 1)] } : State).lookups.length
    ∧ looking.lookups.find? (fun x => x.1 == 64) = some (64, 1)
    ∧ (({ looking with lookups := looking.lookups.erase (64, 1) } : State).cmTake 8 64 32).1 = some (leBytes 32 0)
    ∧ (let b := leBytes 32 0
       let u := (({ looking with lookups := looking.lookups.erase (64, 1) } : State).cmTake 8 64 32).2
       let x := u.pfxBlocks ⟨1, fieldAt b 12 2, byteAt b 14⟩ (fieldAt b 0 8) (fieldAt b 8 4) (fieldAt b 24 2) 4097 0 0xFFFFFFFF []
       (((x.2.2.cmSetBytes (fieldAt b 16 8) (x.1.flatMap (leBytes 4))).cmSetNum (64 + 28) 4 x.1.length).cmSetNum
         (64 + 26) 2 (0x8000 + x.2.1)).blocked) = false := by decide +kernel

theorem test_control_dma_path_hyps : one.pathOpen false 0x8000 (one.dmaNode 0x100000000000) = true
    ∧ on.pathOpen false 0x8000 (on.dmaNode 0x100000000000) = false := by decide +kernel
/-- A control DMA that fills 32 bytes of stack 0 with zeros: free, and with the stack tripped. -/
theorem test_control_dma_hyps : (({ one with loader := { one.loader with chans := [255] } } : State).ctlDma 0x100000000000 0 32 true true none).2.blocked = false
    ∧ ((({ one with loader := { one.loader with chans := [255] } } : State).setFld (Rg.STK_THERM_TTRIP 0) 1).ctlDma 0x100000000000 0 32 true true none).2.blocked = true := by decide +kernel

theorem test_write_hyps :
    one.answers (.core 0) = true ∧ ((on.setFld Rg.HB_CFG_ACTIVE 1).setFld Rg.HB_CFG_RATE 5).answers .host = true ∧ one.routed 2 = true ∧ one.routed 0x10100 = true ∧ one.routed Rg.KVSALT = true
    ∧ one.routed cmemBase = true ∧ one.routed (Rg.QRET_LO 0 1) = true ∧ one.routed (Rg.FRTAB_LO 0 0 1) = true ∧ one.routed (clusterBase 0 0) = true
    ∧ one.routed (clusterBase 0 1) = true
    ∧ on.pathOpen false 0x8000 (on.answerNode (Rg.QRET_LO 0 1)) = false ∧ (2 : BitVec 48).toNat % 4 ≠ 0 ∧ guardedFirst 0x10100 = false ∧ guardedSecond 0x10100 = false
    ∧ (match placeOf 0xFFFFFFC with | .none => true | _ => false) = true
    ∧ (match placeOf Rg.KVSALT with | .edgeReg w _ => decide (w.off ∉ starts) | _ => false) = true
    ∧ (match placeOf cmemBase with | .cmem _ => true | _ => false) = true
    ∧ (match placeOf (Rg.QRET_LO 0 1) with | .regionReg r w _ => decide (r = 0 ∧ w.off ∉ regionStarts) | _ => false) = true
    ∧ (match placeOf (Rg.FRTAB_LO 0 0 1) with | .clusterReg r c _ _ => decide (r = 0 ∧ c = 0) | _ => false) = true
    ∧ (match placeOf (clusterBase 0 0) with | .weight r c o => decide (r = 0 ∧ c = 0 ∧ o = 0) | _ => false) = true
    ∧ one.reachable 0 = true ∧ one.reachable 1 = false ∧ one.enabled 0 0 = true ∧ one.enabled 0 1 = false := by decide +kernel

/-- Is the address that of a register at this offset of the edge ring, or of region 0's controller? -/
def edgeAt (a off : Nat) : Bool := match placeOf a with | .edgeReg w _ => w.off == off | _ => false
def regionAt (a off : Nat) : Bool := match placeOf a with | .regionReg r w _ => r == 0 && w.off == off | _ => false
/-- Stack 0 has its channels in force and the regions at its quarters ON. -/
def stacked : State :=
  let s : State := { one with loader := { one.loader with chans := [0xFFFFFFFF] } }
  (List.range 4).foldl (fun s k => s.setFld (Rg.RPWR_STAT_STATE (quarterRegion 0 k)) 2) s
/-- How a write of a word to the start of stack 0 ends: 0 done, 1 absent, 2 fenced. -/
def stackEnd (s : State) : Nat := match (s.dramWrite 0 0 (leBytes 4 5)).1 with | .ok _ => 0 | .error (.fenced _) => 2 | .error _ => 1

theorem test_start_write_hyps : ([(Rg.HB_MEMBER 1, 0x22040), (Rg.CQHEAD 0, 0x1101C), (Rg.RCFG 0, 0x11010), (Rg.REF_CTL, 0x30100)].all fun e =>
      edgeAt e.1 e.2 && one.routed e.1 && !guardedFirst e.1 && !guardedSecond e.1) = true
    ∧ ([(Rg.AU_PEAK 0, 0x1F0000208), (Rg.REMAPSTAT 0, 0x1F0000300), (Rg.CLKSRC 0, 0x1F0000808)].all fun e =>
      regionAt e.1 e.2 && one.routed e.1) = true
    ∧ (one.setFld (Rg.RCFG_EN 0) 1).flag (Rg.RCFG_EN 0) = true ∧ one.flag (Rg.RCFG_EN 0) = false := by decide +kernel

theorem test_memory_window_hyps : ([0, 1].all fun c =>
      (match placeOf (clusterBase 0 c + 0x8000008) with | .spRaw r k o => r == 0 && k == c && o == 8 | _ => false)
      && (match placeOf (clusterBase 0 c + 0x9000020) with | .prog r k o => r == 0 && k == c && o == 32 | _ => false)
      && (match placeOf (clusterBase 0 c + 0xA000004) with | .tagArray r k t => r == 0 && k == c && t == 1 | _ => false)
      && one.routed (clusterBase 0 c + 0x8000008) && one.routed (clusterBase 0 c + 0x9000020) && one.routed (clusterBase 0 c + 0xA000004)) = true
    ∧ (match placeOf 0x100000000000 with | .stack n o => n == 0 && o == 0 | _ => false) = true
    ∧ [stackEnd stacked, stackEnd one, stackEnd (stacked.setFld (Rg.STK_THERM_TTRIP 0) 1),
       stackEnd ((List.range 4).foldl (fun s k => s.setFld (Rg.YMAP_CL_FENCED (quarterRegion 0 k)) 1) stacked)] = [0, 1, 1, 2]
    ∧ (stacked.setFld (Rg.STK_THERM_TTRIP 0) 1 |>.dramWrite 0 0 (leBytes 4 5)).2.blocked = true
    ∧ (one.dramWrite 0 0 (leBytes 4 5)).2.blocked = false := by decide +kernel

/-- A register with one bit of each access, and a counter. -/
def anyRow : RegRow := ⟨"R", 0, 4, 1, .const 0, 1, 2, 0, 4, 0, false, .none⟩

theorem test_written_hyps : anyRow.counter = false ∧ anyRow.rw.testBit 0 = true ∧ anyRow.w1c.testBit 0 = false
    ∧ anyRow.rwd.testBit 1 = true ∧ anyRow.rw.testBit 1 = false ∧ anyRow.w1c.testBit 1 = false
    ∧ anyRow.w1c.testBit 2 = true ∧ anyRow.rw.testBit 2 = false ∧ anyRow.rwd.testBit 2 = false
    ∧ anyRow.rw.testBit 3 = false ∧ anyRow.rwd.testBit 3 = false ∧ anyRow.w1c.testBit 3 = false
    ∧ ({ anyRow with counter := true } : RegRow).counter = true := by decide +kernel

/-- The block of the register at an address. -/
def blkOf (a : Nat) : Option Blk :=
  match placeOf a with
  | .edgeReg w _ => some w.blk
  | .regionReg _ w _ => some w.blk
  | .clusterReg _ _ w _ => some w.blk
  | _ => none
/-- Every block of R461 is enabled. -/
def enabled : State :=
  ((((one.setFld Rg.IMG_STAT_STATE 4).setFld (Rg.RCFG_EN 0) 1).setFld Rg.WLD_STAT_STATE 2).setFld Rg.BOOT_STAT_STATE 1)

theorem test_ignored_hyps : one.answers (.core 0) = true ∧ one.reachable 0 = true ∧ one.enabled 0 0 = true ∧ one.quiesced = false
    ∧ [Rg.KVSALT, Rg.TENTAB, Rg.SQBASE_LO 0, Rg.WLD_LIST, Rg.VYB_BIND 0, Rg.BOOT_FW_LO, Rg.RCFG 0, Rg.ENVELOPE 0, Rg.FRTAB_LO 0 0 5,
        Rg.WTREPAIR 0 0 5].map blkOf = [some .kv, some .serving, some .ring, some .loader, some .port, some .boot, some .ring, some .regionCtl,
        some .cluster, some .weightTier]
    ∧ ([Rg.KVSALT, Rg.TENTAB, Rg.SQBASE_LO 0, Rg.WLD_LIST, Rg.VYB_BIND 0, Rg.BOOT_FW_LO, Rg.RCFG 0, Rg.ENVELOPE 0, Rg.FRTAB_LO 0 0 5,
        Rg.WTREPAIR 0 0 5].all fun a => one.routed a && !guardedFirst a && !guardedSecond a) = true
    ∧ edgeAt (Rg.RCFG 0) 0x11010 = true ∧ enabled.flag (Rg.RCFG_EN 0) = true ∧ 2 ≤ enabled.fld Rg.IMG_STAT_STATE
    ∧ enabled.fld Rg.WLD_STAT_STATE ≠ 0 ∧ enabled.fld Rg.WLD_STAT_STATE ≠ 5 ∧ enabled.fld Rg.BOOT_STAT_STATE = 1
    ∧ (enabled.enabledClusters 0).isEmpty = false ∧ one.rd Rg.KVSALT ≠ (1 : Word).toNat
    ∧ one.rd (Rg.FRTAB_LO 0 0 5) &&& 0x800FFFFF = (0 : Word).toNat &&& 0x800FFFFF
    ∧ one.rd (Rg.FRTAB_LO 0 0 5) &&& 0x800FFFFF ≠ (1 : Word).toNat &&& 0x800FFFFF := by decide +kernel

/-- The pair of RPWR_VSET of region 14 is ARMED by core 0 with 850 mV (the example of R460). -/
def armed14 : State := { on with armed := [(Rg.RPWR_VSET 14, ⟨850, .core 0, 1024⟩)] }

theorem test_guarded_hyps : Rg.RPWR_VSET 14 ∈ guardedPairs ∧ on.answers (.core 0) = true ∧ armed14.answers (.core 1) = true ∧ on.armRefused (Rg.RPWR_VSET 14) = false
    ∧ Store.find on.armed (Rg.RPWR_VSET 14) = none
    ∧ (on.setFld (Rg.RPWR_STAT_STATE 14) 6).armRefused (Rg.RPWR_VSET 14) = true
    ∧ Store.find armed14.armed (Rg.RPWR_VSET 14) = some ⟨850, .core 0, 1024⟩ ∧ armed14.time.cb ≤ 1024
    ∧ Requester.core 0 ≠ Requester.core 1 ∧ (849 : Word) ≠ ~~~ 850
    ∧ [Rg.GOP_RESET, Rg.FUSE_PGM, Rg.CRY_CMD, Rg.RPWR_CTL 95, Rg.RPWR_VSET 95].all (fun a => decide (a ∈ guardedPairs)) = true := by decide +kernel
theorem test_guarded_complement_hyps : armedWith (.core 0) (Rg.RPWR_VSET 14) 850 armed14 := ⟨1024, by decide +kernel, by decide +kernel⟩

theorem test_window_hyps : one.answers (.core 0) = true ∧ one.routed (clusterBase 0 0 + 0xA000000) = true
    ∧ one.routed (clusterBase 0 1 + 0xA000000) = true ∧ one.reachable 0 = true ∧ (4607 : BitVec 13).toNat < 4608
    ∧ one.enabled 0 1 = false ∧ one.enabled 0 0 = true := by decide +kernel
/-- A word of control memory, of the scratchpad and of program memory in cluster 1 of region 0, and of stack 0, with this many bits wrong;
with `twin` false it is one that no code corrects. -/
def flawed (n : Nat) (twin : Bool) : State :=
  let p := 2 ^ n - 1
  let s : State := { stacked with cmem := [(0, ⟨9, BitVec.ofNat 72 p, twin⟩)], dram := [(State.dramKey 0 0 0, ⟨9, BitVec.ofNat 72 p⟩)] }
  s.modCluster 0 1 fun k => { k with sp := [(1, ⟨9, BitVec.ofNat 72 p, twin⟩)], prog := [(1, ⟨9, BitVec.ofNat 288 p⟩)] }
/-- Does the check correct what it finds? -/
def fixed : Ecc → Bool | .corrected _ => true | _ => false

theorem test_read_hyps : guardedSecond (Rg.GOP_RESET + 4) = true ∧ (match placeOf (Rg.GOP_RESET + 4) with | .none => true | _ => false) = true
    ∧ (match placeOf 0xFFFFFFC with | .none => true | _ => false) = true ∧ guardedSecond 0xFFFFFFC = false ∧ one.routed (Rg.GOP_RESET + 4) = true
    ∧ Rg.KVSALT ≠ Rg.TB_LO ∧ edgeAt Rg.KVSALT 0x10100 = true ∧ one.routed (Rg.QRET_LO 1 1) = false ∧ one.clearing 0 = false
    ∧ Store.find one.cmem 0 = none ∧ one.chanOf 0 0 = none ∧ one.blocked = false
    ∧ ([0, 1, 2].all fun n =>
        let s := flawed n true
        let is (e : Ecc) : Bool := if n = 0 then e == .clean else if n = 1 then fixed e else e == .bad
        (Store.find s.cmem 0).any (fun x => x.twin && is (eccOf 72 x.flip.toNat))
        && (Store.find (s.cluster 0 1).sp 1).any (fun x => x.twin && is (eccOf 72 x.flip.toNat))
        && is (eccOf 72 (State.progFlip (Store.get PCell.zero (s.cluster 0 1).prog 1) 0))
        && (match s.chanOf 0 0 with | some (ch, b) => is (eccOf 72 (s.dramCell 0 ch b).flip.toNat) && !s.chanFenced 0 ch | none => false)
        && !s.stackHolds 0 && !s.enabled 0 1) = true
    ∧ (Store.find (flawed 0 false).cmem 0).any (fun x => !x.twin) = true
    ∧ (stacked.setFld (Rg.STK_THERM_TTRIP 0) 1).stackHolds 0 = true
    ∧ ((stacked.chanOf 0 0).any fun e => ((List.range 4).foldl (fun s k => s.setFld (Rg.YMAP_CL_FENCED (quarterRegion 0 k)) 1) stacked).chanFenced 0 e.1)
      = true := by decide +kernel
theorem test_start_hyps : one.answers (.core 0) = true ∧ one.reachable 0 = true
    ∧ ([Rg.SPFLIP_CTL 0 0, Rg.WTCRC_TEST 0 0, Rg.DFLIP_CTL 0, Rg.SWP_HOLD 0, Rg.FBACK 0, Rg.CLKTUNE 0].all fun a => one.routed a) = true ∧ (0x80000000 : Word).toNat.testBit 31 = true := by decide +kernel
theorem test_gop_hyps : on.answers (.core 0) = true := by decide +kernel

/-- A quiesce holds the module. -/
def quiesced : State := on.setGop { on.gop with hold := 5, held := true }

theorem test_hold_hyps :
    (let s := on.setGop { on.gop with hold := 4 }
     s.gop.hold ≠ 0 ∧ s.gop.held = false ∧ s.gop.holdLate = false)
    ∧ (let s : State := { quiesced with armed := [(Rg.GOP_RESET, ⟨1, .core 0, 1024⟩)] }
       s.answers (.core 0) = true ∧ armedWith (.core 0) Rg.GOP_RESET 1 s ∧ s.gop.hold = 5 ∧ s.gop.held = true ∧ s.gop.late = false
         ∧ s.gop.holdLate = false ∧ s.gop.resetAt = none)
    ∧ (let s : State := { on with time := ⟨75000, 0⟩, gop := { on.gop with resetAt := some 0 } }
       s.gop.resetAt = some 0 ∧ 0 + 75000 ≤ s.time.cb)
    ∧ (let s : State := { on with time := ⟨1500000, 0⟩, gop := { on.gop with bar := true } }
       let u : State := { on with time := ⟨1500000, 0⟩, gop := { on.gop with hold := 4 } }
       s.fld Rg.GOP_TMO_US ≠ 0 ∧ s.gop.bar = true ∧ s.gop.since + s.fld Rg.GOP_TMO_US * 1500 ≤ s.time.cb ∧ s.gop.hold = 0
         ∧ u.gop.bar = false ∧ u.gop.hold ≠ 0 ∧ u.gop.held = false ∧ u.gop.holdLate = false
         ∧ u.gop.holdSince + u.fld Rg.GOP_TMO_US * 1500 ≤ u.time.cb) := by
  refine ⟨by decide +kernel, ⟨by decide +kernel, ⟨1024, by decide +kernel, by decide +kernel⟩, ?_⟩, by decide +kernel, by decide +kernel⟩
  decide +kernel

theorem test_region_pair_hyps : armed14.answers (.core 0) = true ∧ armedWith (.core 0) (Rg.RPWR_VSET 14) 850 armed14
    ∧ armedWith (.core 0) (Rg.RPWR_CTL 14) 0x80000000 { on with armed := [(Rg.RPWR_CTL 14, ⟨0x80000000, .core 0, 1024⟩)] } :=
  ⟨by decide +kernel, ⟨1024, by decide +kernel, by decide +kernel⟩, ⟨1024, by decide +kernel, by decide +kernel⟩⟩

/-- A command of the crypto engine is ARMED, an ERASE of slot 1 with nothing in it. -/
def crypting (v : Word) : State := { on with armed := [(Rg.CRY_CMD, ⟨v, .core 0, 1024⟩)] }

theorem test_crypto_hyps : (crypting 0x54000000).answers (.core 0) = true ∧ armedWith (.core 0) Rg.CRY_CMD 0x54000000 (crypting 0x54000000)
    ∧ bits (0x54000000 : Word).toNat 31 28 = 5
    ∧ (let c := on.crypto
       ({ c with jobs := [CryJob.network] } : Crypto).jobs = [.network]
       ∧ ({ c with jobs := [.command 1 0 0], body := [0] } : Crypto).body ≠ []
       ∧ ({ c with jobs := [.command 5 1 0] } : Crypto).jobs = [.command 5 1 0]
       ∧ (Store.find ({ c with jobs := [.command 3 1 0], slots := [(1, [])] } : Crypto).slots 1).isSome = true) := by
  refine ⟨by decide +kernel, ⟨1024, by decide +kernel, by decide +kernel⟩, by decide, by decide +kernel⟩

/-- Bring-up is done, nothing is loaded and SVNMIN is to be raised. -/
def fusing : State := { on.setFld Rg.BU_STAT_DONE 1 with armed := [(Rg.FUSE_PGM, ⟨0x30000005, .core 0, 1024⟩)] }

theorem test_fuse_hyps : fusing.answers (.core 0) = true ∧ armedWith (.core 0) Rg.FUSE_PGM 0x30000005 fusing
    ∧ bits (0x30000005 : Word).toNat 31 28 = 3
    ∧ (let u := (fusing.disarmPair Rg.FUSE_PGM).wr Rg.FUSE_PGM 0x30000005
       let b := ((fusing.setFld Rg.FUSE_STAT_STATE 1).disarmPair Rg.FUSE_PGM).wr Rg.FUSE_PGM 0x30000005
       let i := ((fusing.setFld Rg.IMG_STAT_STATE 4).disarmPair Rg.FUSE_PGM).wr Rg.FUSE_PGM 0x30000005
       u.fld Rg.FUSE_STAT_STATE ≠ 1 ∧ u.fld Rg.IMG_STAT_STATE = 0 ∧ u.flag Rg.BU_STAT_DONE = true
       ∧ b.fld Rg.FUSE_STAT_STATE = 1 ∧ i.fld Rg.FUSE_STAT_STATE ≠ 1 ∧ i.fld Rg.IMG_STAT_STATE ≠ 0)
    ∧ bits 0x12000000 27 24 = 2 ∧ bits 0x12000000 31 28 = 1 := by
  refine ⟨by decide +kernel, ⟨1024, by decide +kernel, by decide +kernel⟩, by decide, by decide +kernel, by decide, by decide⟩

theorem test_clear_hyps : ({ on.crypto with clear := some (64, 64, [70]) } : Crypto).clear = some (64, 64, [70]) := rfl

/-- Ring pair 0 is enabled, holds one submission entry and has a free completion entry. -/
def entered : State :=
  (((bridging.setFld (Rg.RCFG_EN 0) 1).setFld (Rg.SQTAIL_IDX 0) 1).setFld Rg.TENTAB_OFF 0x4000000)
/-- A sequence of bytes padded to an entry. -/
def entry (b : List Byte) : List Byte := padTo 64 b
/-- A SERVING section of two candidate passes, one variant whose pattern is segment 5 of one row, and MAXCTX 64. -/
def serving : Sect :=
  ⟨0x31, 0xFF, 0xFF, [1, 2, 0, 0, 0, 0, 0, 0] ++ leBytes 4 64 ++ leBytes 2 0 ++ leBytes 2 1 ++ leBytes 48 0
    ++ [1, 0] ++ leBytes 2 1 ++ leBytes 12 0 ++ leBytes 2 5 ++ leBytes 62 0⟩
/-- The image of that section runs, and tenant 1 is enabled. -/
def serves : State :=
  (({ entered with image := image [seg5, serving] } : State).setFld Rg.IMG_STAT_STATE 4).setTn 1 26 2 1
/-- A parameter block that takes the best token. -/
def greedy : List Byte := leBytes 4 0 ++ leBytes 4 0x3F800000 ++ leBytes 4 0 ++ leBytes 4 0x3F800000 ++ leBytes 48 0
/-- A SUBMIT of tenant 1 with a prompt of one token and one new token. -/
def submit1 : List Byte := entry ([1, 0] ++ leBytes 2 1 ++ leBytes 4 77 ++ leBytes 16 0 ++ leBytes 4 1 ++ leBytes 4 1)
/-- The request 0 decodes for tenant 1. -/
def decoding : State := ((serves.setRq 0 0 1 3).setRq 0 2 2 1).setRq 0 28 4 0
/-- Control-memory word `w` holds an uncorrectable error. -/
def spoil (s : State) (w : Nat) : State := { s with cmem := Store.put s.cmem w ⟨0, 0, false⟩ }
/-- A page of a prompt goes somewhere if some page takes it, whichever is tried first. -/
theorem promptPage_some (s : State) (bs : List Byte) (q : Nat) (hq : q < State.pageCount)
    (h : ∃ u, s.pageWrite q 0 bs ⟨0, 0, 0⟩ = (.ok (), u)) :
    ∀ n p, (∃ i, i < n ∧ (p + i) % State.pageCount = q) → ∃ w, s.promptPage bs n p = some w
  | 0, _, ⟨_, hi, _⟩ => absurd hi (by omega)
  | n + 1, p, ⟨i, hi, hp⟩ => by
    unfold State.promptPage
    rcases hx : s.pageWrite (p % State.pageCount) 0 bs ⟨0, 0, 0⟩ with ⟨_ | _, v⟩
    · by_cases hb : v.blocked = true
      · exact ⟨v, by simp [hb]⟩
      · simp only [hb]
        refine promptPage_some s bs q hq h n (p + 1) ⟨i - 1, ?_⟩
        rcases i with _ | i
        · obtain ⟨u, hu⟩ := h
          rw [Nat.add_zero] at hp
          rw [hp, hu] at hx
          cases hx
        · refine ⟨by omega, ?_⟩
          rw [show p + 1 + (i + 1 - 1) = p + (i + 1) by omega]
          exact hp
    · exact ⟨v, rfl⟩
/-- With no channel in force a prompt has nowhere to go. -/
theorem promptPage_none (s : State) (h : s.loader.chans = []) (hb : s.blocked = false) (bs : List Byte) :
    ∀ n p, s.promptPage bs n p = none
  | 0, _ => rfl
  | n + 1, p => by
    have e : s.pageWrite (p % State.pageCount) 0 bs ⟨0, 0, 0⟩ = (.error ⟨0, 0, 0⟩, s) := by
      have hp : s.pageExists (p % State.pageCount) = false := by
        have e : ∀ n, (s.usableChans n).length = 0 := by
          intro n
          have : (List.range 32).filter (fun _ => false) = [] := by decide
          simp [State.usableChans, h, bit, this]
        simp [State.pageExists, e]
      simp [State.pageWrite, hp]
    unfold State.promptPage
    rw [e]
    dsimp only
    rw [hb, promptPage_none s h hb bs n (p + 1)]
    rfl
/-- The request of a SUBMIT finds the channels of stack 0 in force, all regions being ON. -/
def housed : State :=
  let s := { serves with loader := { serves.loader with chans := [0xFFFFFFFF] } }
  (List.range 4).foldl (fun s k => s.setFld (Rg.RPWR_STAT_STATE (quarterRegion 0 k)) 2) s
theorem test_copied_hyps : (∃ w, housed.promptCopy (leBytes 4 5) 1 = some w) ∧ serves.promptCopy (leBytes 4 5) 1 = none := by
  refine ⟨?_, ?_⟩
  · have h : ∃ w, (housed.fresh 32).2.promptPage (leBytes 4 5) State.pageCount (housed.fresh 32).1 = some w := by
      refine promptPage_some _ _ 0 (by decide) ⟨_, rfl⟩ _ _ ⟨(State.pageCount - (housed.fresh 32).1 % State.pageCount) % State.pageCount, ?_, ?_⟩
      · exact Nat.mod_lt _ (by decide)
      · generalize (housed.fresh 32).1 = x
        have : State.pageCount = 37748736 := by decide
        rw [this]
        omega
    obtain ⟨w, hw⟩ := h
    refine ⟨w, ?_⟩
    unfold State.promptCopy
    dsimp only
    rw [show ((leBytes 4 5).take 65536) = leBytes 4 5 by decide, hw]
    rfl
  · unfold State.promptCopy
    dsimp only
    rw [promptPage_none _ (by decide +kernel) (by decide +kernel)]
theorem test_accepted_hyps : (housed.submitAccept 0 0 submit1 greedy [5]).1 = 0 := by decide +kernel
/-- What an ABORT of a handle commits. -/
def abort (h : Nat) : CommitCmd := ⟨h, 0xFF, 6, 0, 4, 0, 1, 0, 0, 6, 0, 0xFFFFFFFF, 0⟩
/-- The rings' other entries are in use. -/
def fullRing : State := decoding.setRing 0 ⟨255, []⟩

theorem test_entry_hyps : entered.nextRing = some 0 ∧ serves.nextRing = some 0 ∧ decoding.nextRing = some 0 ∧ fullRing.nextRing = some 0
    ∧ State.badEntry (entry [9]) = true ∧ State.badEntry (entry [1]) = false ∧ State.badEntry (entry [2]) = false
    ∧ State.badEntry (entry [3]) = false ∧ State.badEntry (entry [4]) = false
    ∧ (entered.consume 0).2.submitStatus submit1 (some greedy) (some [5]) = 9
    ∧ (serves.consume 0).2.submitStatus submit1 (some greedy) (some [5]) = 0
    ∧ ((serves.consume 0).2.firstFree 1048576 0).1 = some 0 := by decide +kernel

theorem test_abort_hyps : ((decoding.consume 0).2.commit false (abort 0)).1.status = 0
    ∧ ((fullRing.consume 0).2.commit false (abort 0)).1.status = 2
    ∧ ((decoding.consume 0).2.commit false (abort 1)).1.status = 1
    ∧ ((spoil decoding (decoding.rqAt 0 / 8)).commitReads (abort 0)).1 = false := by decide +kernel

theorem test_other_entry_hyps :
    State.tenantStatus (entry ([3, 0] ++ leBytes 2 1 ++ leBytes 20 0 ++ leBytes 2 1)) = 0
    ∧ State.tenantStatus (entry ([3, 0] ++ leBytes 2 4096)) = 4
    ∧ (serves.consume 0).2.grammarStatus (entry ([4, 0] ++ leBytes 2 0)) (some []) = 5
    ∧ (serves.consume 0).2.grammarStatus (entry ([4, 0] ++ leBytes 2 1)) (some []) = 0 := by decide +kernel

/-- A command that keeps request 0 in DECODE and reserves `n` completion entries. -/
def keep3 (h n : Nat) : CommitCmd := ⟨h, 3, 3, 0, 4, 0, n, 0, 0, 0, 0, 0xFFFFFFFF, 0⟩

theorem test_commit_hyps : let v := (decoding.commitReads (keep3 0 1)).2; let f := (fullRing.commitReads (keep3 0 1)).2
    (fullRing.commitReads (keep3 0 1)).1 = true ∧ (keep3 0 129).fieldsOk = false ∧ (keep3 0 128).fieldsOk = true
    ∧ (decoding.commitReads (keep3 0 1)).1 = true ∧ (2 ^ 20) / 2 ^ 20 ≠ v.rq 0 4 2 % 4096 ∧ v.rq 0 0 1 = 3 ∧ (keep3 0 1).req / 2 ^ 20 = v.rq 0 4 2 % 4096
    ∧ changeOk false 3 1 (v.rq 0 54 1) 0 (v.slotAfter { keep3 0 1 with dst := 1 } 0) = false
    ∧ changeOk false 3 3 (v.rq 0 54 1) 0 (v.slotAfter (keep3 0 1) 0) = true
    ∧ v.rq 0 6 1 < 64 ∧ v.rq 0 2 2 < 4096
    ∧ v.ringFree (v.rq 0 6 1) = 256 ∧ f.ringFree (f.rq 0 6 1) < 128 := by decide +kernel

theorem test_admission_hyps : on.answers (.core 0) = true ∧ on.flag Rg.ADM_RES_DONE = true
    ∧ (on.setFld Rg.ADM_RES_DONE 0).flag Rg.ADM_RES_DONE = false := by decide +kernel

/-- Region 0 runs segment 5, whose only row is of this KIND and DEPTH 0; 66-word records have arrived. -/
def rows (kind : Nat) (pass : Nat) (recs : List Nat) : State :=
  let s := mr one fun g => { g with seg := some ⟨5, 0⟩, feedSeq := 1, feedPass := pass,
                                    smpq := recs.flatMap fun p => BitVec.ofNat 64 (p * 65536) :: List.replicate 65 0 }
  let s : State := { s with image := image [seg5, serving], loader := { s.loader with chans := [255] } }
  ((s.wr (Rg.SEGSEQ 0) 1).wr Rg.CTXBASE 0).cmSetBytes 0
    (leBytes 20 0 ++ leBytes 2 0 ++ leBytes 1 1 ++ leBytes 1 kind ++ leBytes 8 0)

/-- The records that have arrived. -/
def arrivals (s : State) : List SmpRec := smpRecs (s.region 0).smpq.length (s.region 0).smpq
/-- The sampling unit has read the rows that records name. -/
def named (s : State) : Bool × State := s.rowsRead 0 (s.namedRows 0 (arrivals s))
/-- It reads row 0 and its request. -/
def taken (s : State) (w : RowEntry) : Bool × State := ((named s).2.rowRead 0 0 0).2.requestRead 0 0 w
/-- The records of the row among those that have arrived. -/
def theirs (s : State) (w : RowEntry) : List SmpRec := (arrivals s).filter ((taken s w).2.ofRow ((taken s w).2.segOf 0).2 0 w)

theorem test_feed_hyps : let s := rows 2 0 []; let t := rows 2 1 [0]; let u := rows 4 1 [0]
    (s.region 0).halted = false ∧ s.reachable 0 = true ∧ 0 < s.rowCount 0 ∧ (s.region 0).feedSeq = s.rd (Rg.SEGSEQ 0)
    ∧ (s.region 0).feedRow = 0 ∧ (s.rowRead 0 1 0).1.isSome = true ∧ (s.region 0).feedPass = 0
    ∧ ((spoil s (s.rowAt 0 0 / 8)).rowRead 0 1 0).1 = none
    ∧ (t.region 0).feedSeq = t.rd (Rg.SEGSEQ 0) ∧ 0 < (t.region 0).feedPass ∧ (t.region 0).feedPass < imgCandpass t.image t.place
    ∧ (t.rowRead 0 1 0).1.any (fun w => decide (w.positions ≤
        ((t.rowRecs (imgSampler t.image t.place (t.rowModel w)) 0 (t.rowModel w)).filter
          fun x => x.pass + 1 == (t.region 0).feedPass).length)) = true
    ∧ (u.rowRead 0 1 0).1.any (fun w => w.kind == 4 && (u.requestRead 0 1 w).1
        && !((spoil u (u.rqAt (w.req % 2 ^ 20) / 8)).requestRead 0 1 w).1) = true := by decide +kernel

theorem test_sample_hyps :
    (let s := rows 2 0 [1]
     (named s).1 = true ∧ (State.badRec ((named s).2.rowCount 0) ((named s).2.positionsOf 0) [] (arrivals s)).isSome = true
       ∧ (named (spoil s (s.rowAt 0 0 / 8))).1 = false)
    ∧ (let s := rows 2 0 []
       ((spoil s (s.rowAt 0 0 / 8)).rowRead 0 0 0).1 = none
         ∧ (State.badRec ((spoil s (s.rowAt 0 0 / 8)).rowCount 0) ((spoil s (s.rowAt 0 0 / 8)).positionsOf 0) [] []).isNone = true)
    ∧ (([0, 2, 4, 5].all fun k =>
        let s := rows k 0 [0, 1]
        (named s).1 && (State.badRec ((named s).2.rowCount 0) ((named s).2.positionsOf 0) [] (arrivals s)).isNone
        && ((named s).2.rowRead 0 0 0).1.any fun w =>
          w.kind == k && (taken s w).1 && (decide (k ≤ 1) || !(taken (spoil s (s.rqAt (w.req % 2 ^ 20) / 8)) w).1)
          && decide ((if ((taken s w).2.segOf 0).2 = 2 then 1 else
            imgCandpass (taken s w).2.image (taken s w).2.place) * w.positions ≤ (theirs s w).length)) = true)
    ∧ (let s := rows 5 0 [0, 1]
       ((named s).2.rowRead 0 0 0).1.any fun w =>
         (((taken s w).2.modRegion 0 fun g => { g with smpq := [] }).ctxHeader 0 0 w).1.isSome) = true := by decide +kernel

/-- Region 0 asks for a remap that no placement declares. -/
def asking : State := { on.setFld (Rg.REMAPSTAT_V0 0) 1 with loader := { on.loader with asked := [0] } }

/-- A placement that fences nothing and declares no remap. -/
def place0 : Sect := ⟨2, 0xFF, 0xFF, leBytes 128 0⟩
/-- An image of these sections whose header is well formed, for architecture revision 0. -/
def sealed (l : List Sect) : List Byte :=
  let b := image l
  let h := [0x4C, 0x57, 0x50, 0x49] ++ leBytes 2 1 ++ leBytes 2 0 ++ leBytes 2 1 ++ leBytes 2 0 ++ leBytes 2 1 ++ leBytes 2 l.length
    ++ leBytes 8 128 ++ leBytes 8 b.length ++ leBytes 32 0
  h ++ sha512 (h ++ leBytes 64 0 ++ b.drop 128) ++ b.drop 128
/-- Bring-up is done, in a module of architecture revision `rev`. -/
def doneUp (rev : Nat) : State := { on.setFld Rg.BU_STAT_DONE 1 with fuse := ⟨[], 0, rev, .m, 0, 0, 0, 0, 0, 0, [], 2⟩ }
/-- The code with which a check refuses, 0 if it does not. -/
def codeOf (x : Except LoadRefusal Nat) : Nat := match x with | .error e => e.code | .ok _ => 0

theorem test_load_hyps : (on.setFld Rg.IMG_STAT_STATE 4).fld Rg.IMG_STAT_STATE ≠ 0 ∧ on.fld Rg.IMG_STAT_STATE = 0
    ∧ asking.remapWrong (image []) 0 = some 0 ∧ on.remapWrong (image []) 0 = none := by decide +kernel
theorem test_head_check_hyps : on.flag Rg.BU_STAT_DONE = false ∧ (doneUp 0).flag Rg.BU_STAT_DONE = true ∧ headerOk (image []) = false
    ∧ headerOk (sealed [place0, seg5]) = true ∧ (clashes (imgSections (sealed [seg5, seg5]))).isEmpty = false
    ∧ codeOf ((doneUp 0).headCheck (sealed [seg5, seg5]) 0) = 0x101 ∧ codeOf ((doneUp 1).headCheck (sealed [place0, seg5]) 0) = 0x102
    ∧ codeOf ((doneUp 0).headCheck (sealed [seg5]) 0) = 0x103 ∧ codeOf ((doneUp 0).headCheck (sealed [place0, seg5]) 1) = 0x104
    ∧ ((doneUp 0).headCheck (sealed [place0, seg5]) 0).isOk = true := by decide +kernel
/-- A load of this image whose weights are written. -/
def checking (img : List Byte) : State :=
  { doneUp 0 with image := img, loader := { on.loader with job := .load, img := img } }
/-- A segment table whose segment is 64 cycles long. -/
def long5 : Sect := ⟨3, 0xFF, 0xFF, leBytes 2 5 ++ leBytes 2 0 ++ leBytes 4 64 ++ leBytes 8 0⟩
/-- The state in which the end of a load checks what it has written. -/
def written (s : State) : State :=
  let u := (s.reportRemaps.setImgState 2).wr Rg.WLD_STAT 0
  { u with loader := { u.loader with
      job := .none, models := [], sources := [], prev := some (u.image, u.place, u.holders u.image u.place), swapped := [], broken := false
      inForce := u.loader.models.foldl (fun l (m : ModelJob) => Store.put l m.m m.digest) u.loader.inForce } }
theorem test_load_check_hyps : (checking (sealed [place0, long5])).loader.job = .load ∧ (checking (sealed [place0, long5])).loader.sources = []
    ∧ (checking (sealed [place0, long5])).loader.models = [] ∧ (written (checking (sealed [place0, long5]))).loadCheck = none
    ∧ ((written (checking (sealed [place0, seg5]))).loadCheck).isSome = true := by decide +kernel

/-- An image whose cluster 0 of region 0 holds tiles 0 and 1 of model 0. -/
def mapped : List Byte := image [⟨0x10, 0, 0, []⟩, ⟨0x14, 0, 0, leBytes 8 1 ++ leBytes 4 0x20000 ++ leBytes 4 0⟩]
/-- The loader has two segments or records of model 0 to fetch. -/
def fetching (form : Nat) : State :=
  { on with loader := { on.loader with job := .load, img := mapped, models := [⟨0, 1, form, [], [], [], [], [0, 1], [], [], (0, 0)⟩] } }

theorem test_segment_fetch_hyps : ([1, 2].all fun f =>
      ((fetching f).loader.models.filter fun j => !j.todo.isEmpty).head? == some ⟨0, 1, f, [], [], [], [], [0, 1], [], [], (0, 0)⟩) = true
    ∧ (fetching 1).loader.job = .load
    ∧ ((mappedTiles mapped 0).filter fun t => t.model == 0)[0]? = some (0, 0, 0, 0, 0)
    ∧ fieldAt (leBytes 16 0) 4 4 = crc32c (bytesAt (leBytes 16 0) 16 16384)
    ∧ fieldAt (leBytes 4 0 ++ leBytes 4 1 ++ leBytes 8 0) 4 4 ≠ crc32c (bytesAt (leBytes 4 0 ++ leBytes 4 1 ++ leBytes 8 0) 16 16384)
    ∧ byteAt [1] 0 ≠ 0 ∧ 1 < [0, 1].length
    ∧ ([1, 2].all fun f => (fetching f).nextSegment ⟨0, 1, f, [], [], [], [], [0, 1], [], [], (0, 0)⟩ == some 0) = true
    ∧ (fetching 2).recordTile 0 0 = some (0, 0, 0, 0, 0) ∧ (fetching 2).recordTile 0 2 = none
    ∧ ({ fetching 1 with loader := { (fetching 1).loader with job := .swap, tiles := [(0, 0, 0, 0, 0)] } } : State).nextSegment
        ⟨0, 1, 1, [], [], [], [], [0], [], [], (0, 0)⟩ = none
    ∧ fieldAt (leBytes 16 0) 2 2 = 0 := by decide +kernel

/-- The list of sources names host memory for model 0; the loader has kept its tiles or must fetch them. -/
def sourcing (kept : Bool) (x : Source) : State :=
  { on with loader := { on.loader with job := .load, img := mapped, sources := [x], tiles := if kept then [] else [(0, 0, 0, 0, 0)] } }
/-- What `nextModels` makes of the only source. -/
def jobOf (kept : Bool) (x : Source) : Except Nat (Option ModelJob) :=
  let t := sourcing kept x
  t.sourceJob t.loader.img t.loader.place t.loader.tiles (mappedTiles t.loader.img t.loader.place)
    (!t.loader.tiles.any fun t => MappedTile.model t == x.m) x

theorem test_source_hyps :
    (match jobOf true ⟨0, 0, (0, 0), none⟩ with | .ok none => true | _ => false) = true
    ∧ (match jobOf false ⟨0, 1, (0, 0), none⟩ with | .error _ => true | _ => false) = true
    ∧ (match jobOf false ⟨0, 2, (0, 1), none⟩ with | .ok (some j) => !j.todo.isEmpty | _ => false) = true := by decide +kernel

/-- An image runs. -/
def runs (img : List Byte) : State := ({ on with image := img } : State).setFld Rg.IMG_STAT_STATE 4
/-- A swap to this companion, or its failure: the jobs of its models. -/
def jobsOf (s : State) (comp : List Byte) : Except (Nat × Nat) (List ModelJob) :=
  s.modelJobs comp s.place (mappedTiles comp s.place) (mappedTiles comp s.place) (s.sourceList [])
/-- The source of model 0 is host memory. -/
def hostSource : State := (runs (image [])).cmSetNum ((runs (image [])).fld Rg.WLD_LIST_OFF + 8) 1 1
/-- Are the jobs there? -/
def jobsOk : Except (Nat × Nat) (List ModelJob) → Option (List ModelJob)
  | .ok js => some js
  | .error _ => none

theorem test_swap_hyps : on.answers (.core 0) = true ∧ (on.setFld Rg.WLD_STAT_STATE 2).fld Rg.WLD_STAT_STATE = 2 ∧ on.fld Rg.WLD_STAT_STATE = 0
    ∧ on.fld Rg.IMG_STAT_STATE ≠ 4 ∧ (runs (image [])).fld Rg.IMG_STAT_STATE = 4
    ∧ State.companionEq (image []) 0 (image []) [] = false ∧ State.companionEq (image []) 0 (image []) (image []) = true
    ∧ jobsOk (jobsOf hostSource (image [])) = none ∧ jobsOk (jobsOf (runs (image [])) (image [])) = some []
    ∧ (runs (image [])).companionKeeps (image []) [] = true ∧ State.companionEq mapped 0 mapped mapped = true
    ∧ jobsOk (jobsOf (runs mapped) mapped) = some [] ∧ (runs mapped).companionKeeps mapped [] = false := by decide +kernel

/-- Sessions in these steps, with a job of model 0 in the loader. -/
def session (rx tx : Nat) : State :=
  { fetching 1 with rxSession := { Session.idle with step := rx }, txSession := { Session.idle with step := tx } }

theorem test_handshake_hyps : (session 1 0).txSession.step ≠ 2 ∧ (session 1 0).rxSession.step = 1 ∧ (session 0 2).txSession.step = 2
    ∧ (session 0 2).rxSession.step ≠ 1 ∧ (session 3 0).rxSession.step = 3 := by decide +kernel
theorem test_transfer_message_hyps : (session 0 4).txSession.step = 4 ∧ (session 5 0).rxSession.step = 5 ∧ (session 0 6).txSession.step = 6
    ∧ (session 5 0).loader.job = .load
    ∧ ((session 5 0).loader.models.find? fun j => j.m == (session 5 0).rxSession.model).isSome = true
    ∧ (session 5 0).partWaits [0] = false
    ∧ (let s := session 5 0
       let u : State := { s with loader := { s.loader with job := .swap, tiles := [(0, 0, 0, 0, 0)] } }
       u.partWaits [0] = true)
    ∧ (session 5 0).rxSession.step ≠ 0 ∧ (session 0 4).rxSession.step = 0 := by decide +kernel
/-- Port 0 is in a phase of its training since time 0, at this time, with this many identical words of its peer. -/
def training (ph : Phase) (t copies : Nat) (w : List Byte) : State :=
  { on with
    fuse := ⟨[], 0, 0, .m, 0, 0, 0, 0, 0, 0, [], 2⟩, regs := [(Rg.VYB_DOMVER, 0x22)], time := ⟨t, 0⟩
    ports := [(0, { Port.reset with phase := ph, since := 0, copies := copies, peer := w, lanes := 255 })] }
/-- A capability word like the port's own. -/
def peerWord : List Byte := leBytes 1 2 ++ leBytes 1 1 ++ leBytes 1 3 ++ leBytes 1 255 ++ leBytes 60 0
/-- A flit of the type, whole. -/
def flit (type seq : Nat) : List Byte := flitBytes type seq 0 0 0 false []

theorem test_training_hyps : on.answers (.core 0) = true ∧ on.flag (Rg.VYB_CTL_LOOP 0) = false ∧ (0xC0000000 : Word).toNat.testBit 31 = true ∧ (0xC0000000 : Word).toNat.testBit 30 = true
    ∧ on.flag (Rg.VYB_CTL_EN 1) = true ∧ (on.setFld (Rg.VYB_CTL_EN 0) 0).flag (Rg.VYB_CTL_EN 0) = false
    ∧ ((training .detect 14999999 0 []).port 0).phase = .detect
    ∧ (training .detect 14999999 0 []).time.cb < ((training .detect 14999999 0 []).port 0).since + 15000000
    ∧ ((training .detect 15000000 0 []).port 0).since + 15000000 ≤ (training .detect 15000000 0 []).time.cb
    ∧ ([Phase.equalise, .lock, .exchange, .check].all fun h => ((training h 0 0 []).port 0).phase == h) = true
    ∧ (training .detect 15000000 0 []).portLit 0 = true
    ∧ ((training .detect 15000000 0 []).setCable 0 ⟨true, true, false, true⟩).portLit 0 = false
    ∧ ((training .exchange 0 15 peerWord).port 0).copies < 16 ∧ 16 ≤ ((training .exchange 0 16 peerWord).port 0).copies
    ∧ (training .exchange 0 16 []).agreed 0 2 = none ∧ (training .exchange 0 16 peerWord).agreed 0 2 = some (2, 0xFF, 2)
    ∧ flitOk (flit 3 0) = true ∧ byteAt (flit 3 0) 0 % 16 = 3 
    ∧ ((training .exchange 0 0 []).fecSeen 0 (1, 0)).portUp 0 = false
    ∧ (((training .exchange 0 0 []).fecSeen 0 (1, 0)).port 0).phase = .exchange := by decide +kernel

/-- Port 0 is UP. -/
def up0 : State := on.setFld (Rg.VYB_STAT_STATE 0) 2

/-- Port 0 after the codewords of a flit are counted. -/
def seen0 : State := up0.fecSeen 0 (1, 0)

theorem test_flit_hyps : up0.power.on = true ∧ up0.portUp 0 = true ∧ up0.flag (Rg.VYB_CTL_LOOP 0) = false
    ∧ (up0.setFld (Rg.VYB_CTL_LOOP 0) 1).flag (Rg.VYB_CTL_LOOP 0) = true ∧ seen0.portUp 0 = true ∧ flitOk [] = false
    ∧ ([0, 1, 2, 3].all fun k => flitOk (flit k 0) && bits (byteAt (flit k 0) 0) 3 0 == k && (seen0.takeCredits 0 (flit k 0)).portUp 0) = true := by
  decide +kernel

/-- A header at its destination whose sender is one module to the west. -/
def arrived (len : Nat) : DWord := RelayHdr.flit ⟨0, 0, 1, 0, 1, 0, 0, len⟩ 0

theorem test_reach_hyps : one.portReach 0 = true ∧ on.portReach 8 = false := by
  refine ⟨by decide +kernel, ?_⟩
  refine List.all_eq_false.2 ⟨84, ?_, by decide +kernel⟩
  simp [portWay, rowRun]
theorem test_relay_hyps : ((List.range 32).all fun p =>
      ((on.setFld (Rg.VYB_STAT_STATE p) 2).edgePort (portSide p)) == some p) = true
    ∧ ([(1, 0, 1), (-1, 0, 3), (0, 1, 0), (0, -1, 2)].all fun (e : Int × Int × Nat) =>
        (RelayHdr.ofNat (RelayHdr.flit ⟨e.1, e.2.1, 0, 0, 4, 0, 0, 4⟩ 0).toNat).hop.any fun x => x.1 == e.2.2) = true
    ∧ (RelayHdr.ofNat (arrived 4096).toNat).hop = none ∧ (RelayHdr.ofNat (arrived 4096).toNat).len = 4096
    ∧ (RelayHdr.ofNat (arrived 48).toNat).len = 48 ∧ (RelayHdr.ofNat (arrived 63).toNat).len % 256 = 63
    ∧ (RelayHdr.ofNat (arrived 64).toNat).len % 256 = 64 ∧ (RelayHdr.ofNat (arrived 67).toNat).len % 256 = 67
    ∧ (on.setFld Rg.HB_CFG_ACTIVE 0).flag Rg.HB_CFG_ACTIVE = false ∧ bridging.flag Rg.HB_CFG_ACTIVE = true
    ∧ bridging.fld Rg.HB_CFG_RATE ≠ 0
    ∧ bridging.relaySender (RelayHdr.ofNat (arrived 4096).toNat) = none
    ∧ ((bridging.setFld (Rg.HB_MEMBER_EN 3) 1).setFld (Rg.HB_MEMBER_DX 3) 31).relaySender (RelayHdr.ofNat (arrived 4096).toNat) = some 3 := by
  decide +kernel

/-- Window 0 of the host is open to member 1. -/
def opened : State := (bridging.setFld (Rg.HB_WIN_LO_EN 0) 1).setFld (Rg.HB_WIN_LO_MEMBER 0) 1

theorem test_access_hyps : on.power.on = true ∧ Requester.core 0 ≠ .host ∧ (on.sentRead false 0x8000 (.core 0) Rg.KVSALT).1 = 0
    ∧ (on.sentRead false 0x8000 (.core 0) 2).1 = 1
    ∧ (on.sentRead false 0x8000 (.core 0) (Rg.SEGSEQ 0)).1 = 2 ∧ (on.sentWrite false 0x8000 (.core 0) (Rg.SEGSEQ 0) 0 none).1 = 2
    ∧ bridging.hostUp = true ∧ (2 : BitVec 48).toNat % 4 ≠ 0
    ∧ (0xFFFFFFC : BitVec 48).toNat < 0x10000000 ∧ (0x800000000000 : BitVec 48).toNat.testBit 47 = true
    ∧ bridging.hostWindow ((0x800000000000 : BitVec 48).toNat % 2 ^ 32) = none
    ∧ opened.hostWindow ((0x800000000000 : BitVec 48).toNat % 2 ^ 32) = some (1, 0) ∧ opened.flag (Rg.HB_MEMBER_EN 1) = false
    ∧ (opened.setFld (Rg.HB_MEMBER_EN 1) 1).flag (Rg.HB_MEMBER_EN 1) = true
    ∧ ((opened.setFld (Rg.HB_MEMBER_EN 1) 1).setFld (Rg.HB_MEMBER_DX 1) 1).memberRoute 1 ≠ (0, 0)
    ∧ (opened.setFld (Rg.HB_MEMBER_EN 1) 1).memberRoute 1 = (0, 0)
    ∧ (1 : DWord).toNat % 4 ≠ 0 ∧ bridging.power.on = true ∧ bridging.flag Rg.HB_CFG_ACTIVE = true := by decide +kernel

/-- What P3 finds in a good region 3. -/
def found : RegionBist := ⟨3, none, 800, true, true, true, 0, [], []⟩

theorem test_region_supply_hyps : one.powered 0 = true ∧ ((one.setFld (Rg.RPWR_STAT_SENSE 0) 0xF).fld (Rg.RPWR_STAT_SENSE 0)).testBit 3 = true
    ∧ on.fld (Rg.RPWR_STAT_STATE 0) ∉ [1, 2, 3, 5] ∧ one.fld (Rg.RPWR_STAT_STATE 0) ∈ [1, 2, 3, 5] ∧ (one.region 0).retried = false
    ∧ ((mr one fun g => { g with retried := true }).region 0).retried = true
    ∧ (let s := on.setFld (Rg.RPWR_STAT_STATE 3) 4
       found.r = 3 ∧ s.power.on = true ∧ s.power.down = none ∧ s.fld (Rg.RPWR_STAT_STATE 3) = 4 ∧ (s.region 3).retried = false
         ∧ (s.region 3).retryAt ≤ s.time.cb)
    ∧ (on.setFld (Rg.RPWR_STAT_STATE 3) 5).fld (Rg.RPWR_STAT_STATE 3) = 5
    ∧ (on.setFld (Rg.RPWR_STAT_STATE 3) 4).mayRamp 3 = true ∧ (on.setFld (Rg.RPWR_STAT_STATE 3) 5).mayRamp 3 = true
    ∧ (on.setFld (Rg.RPWR_STAT_STATE 3) 6).fencedOff 3 = true ∧ on.fencedOff 3 = false := by decide +kernel

/-- A module that went off at time 0, and is at time `t`. -/
def wasOff (t : Nat) : State := { State.reset with power := { Power.reset with offAt := some 0 }, time := ⟨t, 0⟩ }
/-- A module that powers down. -/
def goingDown : State := { on with power := { on.power with down := some ⟨none, some 0, 0⟩ } }

theorem test_module_power_hyps : (wasOff 1499999999).power.on = false ∧ (wasOff 1499999999).power.down = none
    ∧ (wasOff 1499999999).power.offAt = some 0 ∧ (wasOff 1499999999).time.cb < 0 + 1500000000 ∧ 0 + 1500000000 ≤ (wasOff 1500000000).time.cb
    ∧ State.reset.power.offAt = none ∧ on.power.on = true ∧ on.power.down = none ∧ goingDown.power.on = true
    ∧ goingDown.power.down ≠ none ∧ State.reset.power.on = false ∧ State.reset.power.down = none
    ∧ State.reset.power.began = false ∧ goingDown.power.began = true ∧ on.power.began = true
    ∧ on.power.rails.has 3 23 = true ∧ (wasOff 0).power.rails.has 0 0 = false
    ∧ (11399 : BitVec 16).toNat < 11400 ∧ 12600 < (12601 : BitVec 16).toNat ∧ ((on.setCable 0 ⟨true, true, true, false⟩).cable 0).on = true := by decide +kernel

/-- Region 0 is locked to its west input, code 3, and its north input, code 0, is good as well or not. -/
def locked0 (mask : Nat) : State :=
  ((mr one fun g => { g with depths := [2, 31, 31, 1] }).setFld (Rg.CLKSRC_VALID 0) mask).setFld (Rg.CLKSRC_SEL 0) (inputCode .w)
    |>.setFld (Rg.CLKSRC_DEPTH 0) 2 |>.setFld (Rg.CLKSRC_STATE 0) 0 |>.setFld (Rg.CLKSRC_INEN 0) 0xF |>.setFld (Rg.CLKSRC_ORDER 0) 0xE4
/-- All of its inputs but one are gone, and it holds. -/
def holding : State := (locked0 (2 ^ inputCode .w)).setFld (Rg.CLKSRC_STATE 0) 1

theorem test_clock_hyps : (on.setFld Rg.REF_STAT_VALID 1).fld Rg.REF_STAT_VALID = 1
    ∧ ((on.setFld Rg.REF_STAT_VALID 1).fld Rg.REF_STAT_VALID).testBit 0 = true
    ∧ ((on.setFld Rg.REF_STAT_VALID 1).fld Rg.REF_STAT_VALID).testBit 1 = false ∧ (locked0 0xF).powered 0 = true
    ∧ ((locked0 0xF).fld (Rg.CLKSRC_VALID 0)).testBit (inputCode .w) = true
    ∧ (locked0 0xF).inputInUse 0 (inputCode .n) = false ∧ (locked0 0xF).inputInUse 0 (inputCode .w) = true
    ∧ (let drop (s : State) : State := (s.setFld (Rg.CLKSRC_VALID 0) (s.fld (Rg.CLKSRC_VALID 0) - 2 ^ inputCode .w)).modRegion 0 fun g =>
         { g with depths := g.depths.set (inputCode .w) 31 }
       (drop ((locked0 0xF).setFld (Rg.CLKSRC_DEPTH 0) 31)).inputPick 0 31 ≠ none
       ∧ (drop (locked0 (2 ^ inputCode .w))).inputPick 0 ((drop (locked0 (2 ^ inputCode .w))).fld (Rg.CLKSRC_DEPTH 0)) = none)
    ∧ (let s := (locked0 (2 ^ inputCode .w)).setFld (Rg.CLKSRC_STATE 0) 2
       let t := (s.setFld (Rg.CLKSRC_VALID 0) 0).modRegion 0 fun g => { g with depths := g.depths.set (inputCode .w) 31 }
       s.inputInUse 0 (inputCode .w) = false ∧ t.fld (Rg.CLKSRC_STATE 0) = 2 ∧ t.inputPick 0 31 = none)
    ∧ (holding.fld (Rg.CLKSRC_STATE 0) = 1 ∧ (0 : BitVec 5).toNat < 31) ∧ holding.clockHold 0 = true ∧ holding.inputOn 0 (inputCode .w) = true ∧ holding.inputOk 0 (inputCode .w) = true := by decide +kernel

/-- Regions 0 to 2 are ON; PCAP is 500 W. -/
def capped : State :=
  { [0, 1, 2].foldl (fun s r => (s.setFld (Rg.RPWR_STAT_STATE r) 2).setFld (Rg.CLKTUNE_EFF r) 16) (one.setFld Rg.CP_CAP_PCOOL 0xFFFF) with
    fuse := ⟨[], 0, 0, .m, 500, 0, 0, 0, 0, 0, [], 2⟩ }
/-- The state at a tick of the power cap. -/
def sampled (s : State) (p : Nat) : State := s.setFld Rg.PM_POWER_PIN p
/-- All of its regions are at their lowest step. -/
def slowest : State := ((capped.setFld (Rg.CLKTUNE_EFF 0) 8).setFld (Rg.CLKTUNE_EFF 1) 8).setFld (Rg.CLKTUNE_EFF 2) 8

theorem test_limit_hyps : one.powered 0 = true
    ∧ ([7, 8].all fun l => ((one.setFld (Rg.CLKTUNE_EFF 0) l).setFld (Rg.CLKCAP_TCAP 0) 8).effTarget 0 == 8) = true
    ∧ (one.setFld (Rg.CLKTUNE_EFF 0) 7).eff 0 < 8 ∧ (one.setFld (Rg.CLKTUNE_EFF 0) 9).eff 0 > 8
    ∧ (({ one with time := ⟨3000, 0⟩ } : State).region 0).effAt + 3000 ≤ ({ one with time := ⟨3000, 0⟩ } : State).time.cb
    ∧ one.time.cb < (one.region 0).effAt + 3000
    ∧ (sampled slowest 501).pcapEff = 500 ∧ (sampled slowest 501).regionsOn.filter (fun r => decide (8 < (sampled slowest 501).eff r)) = []
    ∧ (sampled capped 501).regionsOn.filter (fun r => decide (8 < (sampled capped 501).eff r)) = [0, 1, 2]
    ∧ (State.bestBy (fun a b => decide (b ≤ a)) (fun r => (sampled capped 501).fld (Rg.RPWR_STAT_ICORE r)) [0, 1, 2]).isSome = true
    ∧ 485 * 100 = (sampled capped 485).pcapEff * 97 ∧ (sampled capped 484).power.calm < 99
    ∧ (sampled { capped with power := { capped.power with calm := 99 } } 484).power.calm = 99
    ∧ (State.bestBy (fun a b => decide (a < b)) (fun r => (sampled (capped.setFld (Rg.CLKCAP_PLIM 1) 63) 484).fld (Rg.CLKCAP_PLIM r))
        ((sampled (capped.setFld (Rg.CLKCAP_PLIM 1) 63) 484).regionsOn.filter fun r =>
          decide ((sampled (capped.setFld (Rg.CLKCAP_PLIM 1) 63) 484).fld (Rg.CLKCAP_PLIM r) < 64))) = some 1
    ∧ capped.power.on = true ∧ capped.power.brake = false ∧ capped.fuse.variant.current < (2000 : BitVec 16).toNat
    ∧ 1000 ≤ ({ capped with power := { capped.power with above := 1000 } } : State).power.above
    ∧ ({ capped with power := { capped.power with brake := true } } : State).pcapEff = 500 := by decide +kernel

/-- The plate has been read once: 120.0 L/min, in at 30.00 °C, out as given. -/
def plated (out : Int) : State := { on with plate := { on.plate with flows := [1200], inlets := [3000], outlet := [out], above := 1001 } }

theorem test_temperature_hyps : on.power.on = true ∧ on.plate.flows.length = 0 ∧ (plated 3100).plate.flows.length ≠ 0
    ∧ 100 * (plated 3100).plate.flows.length ≤ (3100 - 3000 : Int).toNat ∧ 1000 < (plated 3100).plate.above
    ∧ on.power.rails.vaux = true ∧ on.power.rails.vedge = true ∧ on.power.began = true ∧ on.fld Rg.MG_CHAIN_PHASE ≠ 2
    ∧ (on.setFld Rg.MG_CHAIN_PHASE 2).fld Rg.MG_CHAIN_PHASE = 2
    ∧ (let s : State := { State.reset with power := { Power.reset with rails := Rails.upTo 1 } }
       s.power.rails.vaux = true ∧ s.power.began = false)
    ∧ on.plate.above ≤ 1000 ∧ on.flag Rg.CP_STAT_ALARM = false
    ∧ (on.setFld Rg.CP_STAT_ALARM 1).flag Rg.CP_STAT_ALARM = true
    ∧ (on.setFld (Rg.STK_THERM_TTRIP 23) 1).stackHolds 23 = true
    ∧ 1000 < (({ on with heat := [(23, { on.stackHeat 23 with clear := 1001 })] } : State).stackHeat 23).clear ∧ one.powered 0 = true
    ∧ (one.setFld (Rg.THERM_STAT_TTRIP 0) 1).tripped 0 = true
    ∧ 50000 < ((mr one fun g => { g with clearRun := 50001 }).region 0).clearRun := by decide +kernel

/-- Bring-up is in stage `n`. -/
def staged (n : Nat) : State := { on with bring := { Bring.reset with stage := n } }

theorem test_bringup_hyps : (staged 1).answers (.core 0) = true ∧ (staged 1).power.on = true ∧ (staged 1).power.down = none ∧ (staged 1).bring.stage = 1
    ∧ (staged 1).fld Rg.BOOT_STAT_STATE = 0 ∧ ((staged 1).setFld Rg.BOOT_STAT_STATE 4).fld Rg.BOOT_STAT_STATE = 4
    ∧ ((staged 1).setFld Rg.HB_CFG_ACTIVE 1).bootPath = true ∧ ((staged 1).setFld Rg.HB_CFG_ACTIVE 0).bootPath = false
    ∧ ((staged 2).setFld Rg.REF_STAT_STATE 0).refHeld = true ∧ ((staged 2).setFld Rg.REF_STAT_STATE 2).refHeld = false
    ∧ (staged 2).bring.seedLate = false
    ∧ (staged 2).bring.stageAt + 1000 * msCb ≤ ({ staged 2 with time := ⟨1500000000, 0⟩ } : State).time.cb
    ∧ (let s : State := { staged 1 with bring := { (staged 1).bring with boot := some (none, none) } }
       s.bring.boot = some (none, none) ∧ (s.setFld Rg.BOOT_STAT_STATE 1).fld Rg.BOOT_STAT_STATE = 1 ∧ s.fld Rg.BOOT_STAT_STATE ≠ 1)
    ∧ (staged 3).bring.col = (0 : Fin 12).val
    ∧ ((List.range 8).foldl (fun s y => s.setFld (Rg.RPWR_STAT_STATE (12 * y)) 6) (staged 3)).columnSettled ((1 : Fin 12).val - 1) = true
    ∧ (let s := { holding with bring := { Bring.reset with stage := 6 }, time := ⟨1500000000, 0⟩ }
       s.power.on = true ∧ 3 ≤ s.bring.stage ∧ s.bring.stage ≤ 6 ∧ s.powered 0 = true ∧ s.fld (Rg.CLKSRC_STATE 0) = 1
         ∧ (s.region 0).holdAt + 1000 * msCb ≤ s.time.cb)
    ∧ ((List.range 24).all fun n => !(staged 4).flag (Rg.STK_THERM_TTRIP n)) = true
    ∧ ((List.range 32).all fun p => !(staged 5).flag (Rg.VYB_CTL_EN p) || (staged 5).fld (Rg.VYB_STAT_STATE p) == 2
        || (staged 5).fld (Rg.VYB_STAT_STATE p) == 3) = false
    ∧ (staged 5).time.cb < (staged 5).bring.stageAt + 300 * msCb
    ∧ (staged 5).bring.stageAt + 300 * msCb ≤ ({ staged 5 with time := ⟨450000000, 0⟩ } : State).time.cb
    ∧ (staged 7).flag Rg.BU_STAT_DONE = false := by decide +kernel

theorem test_pend_hyps :
    (let s := { staged 3 with bring := { (staged 3).bring with pend := [found] } }
       let f := s.setFld (Rg.RPWR_STAT_STATE 3) 6
       let l := [2, 4, 15].foldl (fun s r => s.setFld (Rg.RPWR_STAT_STATE r) 6) (((s.setFld (Rg.RPWR_STAT_STATE 3) 2).setFld (Rg.CLKSRC_STATE 3) 0).setFld (Rg.CLKSRC_DEPTH 3) 1)
       let first (u : State) := (u.bring.pend.find? fun g => u.p3Ready g.r || u.fencedOff g.r).map fun g => g.r
       first s = none ∧ first f = some 3 ∧ f.fencedOff 3 = true ∧ first l = some 3 ∧ l.fencedOff 3 = false) := by decide +kernel

/-- The module has node number 3. -/
def node3 : State := (on.setFld Rg.MG_NODE_VALID 1).setFld Rg.MG_NODE_NODE 3
/-- A request of source 40 with sequence number 9 to node 3 and `v`, of `len` bytes. -/
def request (op idx sub len v : Nat) : List Byte :=
  [1, BitVec.ofNat 8 op, 40, 3] ++ leBytes 2 9 ++ leBytes 2 idx ++ leBytes 1 sub ++ leBytes 1 0 ++ leBytes 2 len ++ leBytes 4 0 ++ leBytes len v
/-- The answer to it has been kept. -/
def keeping : State := { node3 with mg := { node3.mg with kept := [(40, 9, [1])] } }
/-- Is the request kept? -/
def keptOf (s : State) (f : List Byte) : Option (Nat × Nat × List Byte) :=
  s.mg.kept.find? fun e => e.1 == byteAt f 2 && e.2.1 == fieldAt f 4 2
/-- The status of the WRITE. -/
def statusOf (s : State) (idx sub len v : Nat) : Nat := s.writeStatus idx sub len v
/-- The journal holds 4,080 entries that nobody has fetched. -/
def journalFull : State := { node3 with mg := { node3.mg with jseq := 4080, dict := [(0x700004, 1)] } }

theorem test_quivor_hyps : node3.quivorFor 1 (request 1 0x1000 1 0 0) = true ∧ node3.quivorFor 1 [] = false
    ∧ node3.quivorFor 2 (request 2 0x4010 1 2 0) = true ∧ (keptOf keeping (request 1 0x1000 1 0 0)).isSome = true
    ∧ keptOf node3 (request 1 0x1000 1 0 0) = none
    ∧ statusOf node3 0x4010 1 2 1000 = 0 ∧ statusOf node3 0x18F0 1 1 1 = 0 ∧ statusOf { node3 with mg := { node3.mg with pgoodAt := some 0 } } 0x1200 3 1 1 = 0
    ∧ dictObj 0xFFFF 0 = none ∧ (dictObj 0x1000 1).any (fun o => o.acc == 0) = true
    ∧ (dictObj 0x4010 1).any (fun o => o.acc != 0 && o.size == 2) = true
    ∧ node3.dictInRange 0x4010 1 1000 = true ∧ node3.dictInRange 0x4010 1 1001 = false
    ∧ (dictObj 0x4010 1).any (fun o => !node3.writeBusy 0x4010 1 o) = true
    ∧ (dictObj 0x1200 3).any (fun o =>
        ({ node3 with crypto := { node3.crypto with jobs := [.network] } } : State).writeBusy 0x1200 3 o) = true
    ∧ journalFull.jmode = 1 ∧ journalFull.jhead + 4080 ≤ journalFull.mg.jseq
    ∧ (let s : State := { node3 with mg := { node3.mg with elogAt := some 0, elogDue := true }, time := ⟨15000000, 0⟩ }
       s.mg.elogAt = some 0 ∧ s.mg.elogDue = true ∧ 0 + 10 * msCb ≤ s.time.cb)
    ∧ (State.notifies node3, State.notifies { node3 with mg := { node3.mg with dict := [(0x500201, 1)] } }) = (false, true) := by decide +kernel

/-- The time base has been aligned at time 0, and a pulse gave this offset. -/
def aligned (off : Int) : State := { node3 with mg := { node3.mg with pulse := some off, alignedAt := some 0 } }

theorem test_chain_hyps : on.vaux = true ∧ State.reset.vaux = false ∧ on.fld Rg.MG_CHAIN_PHASE ≠ 2 ∧ (on.setFld Rg.MG_CHAIN_PHASE 1).fld Rg.MG_CHAIN_PHASE = 1
    ∧ (let t := ({ node3 with mg := { node3.mg with dict := [(0x401001, 5)] } } : State).emit (.chain .pulse)
       t.dict 0x4010 1 0 ≠ 0 ∧ t.flag Rg.MG_NODE_VALID = true)
    ∧ (on.emit (.chain .pulse)).dict 0x4010 1 0 = 0
    ∧ (let s : State := { on with mg := { on.mg with pgoodAt := some 0 }, time := ⟨15000000000, 0⟩ }
       s.mg.pgoodAt = some 0 ∧ 0 + 10000 * msCb ≤ s.time.cb ∧ s.flag Rg.MG_CHAIN_BOOTWIN = true)
    ∧ (aligned (-1000000)).offsetNow = some (-1000000, 2) ∧ (aligned (-1000001)).offsetNow = some (-1000001, 2)
    ∧ (aligned 0).mg.alignedAt.isSome = true ∧ (aligned 0).mg.ptp = none
    ∧ (let s : State := { on with mg := { on.mg with ptp := some 7 } }
       s.offsetNow = some (7, 1) ∧ s.mg.alignedAt = none ∧ s.mg.pulse = none)
    ∧ ({ on with mg := { on.mg with ptp := some 7, pulse := some 5 } } : State).mg.pulse = some 5
    ∧ (let s : State := { on with mg := { on.mg with alignedAt := some 0 } }
       s.offsetNow = none ∧ s.mg.alignedAt = some 0 ∧ s.mg.ptp = none)
    ∧ on.mg.ptp = none ∧ on.mg.alignedAt = none := by decide +kernel

theorem test_step_hyps : ({ on with pending := [.tlimStep 0] } : State).pending = [.tlimStep 0] ∧ on.pending = [] := ⟨rfl, rfl⟩

theorem test_fuse_invariant_hyps : FusesFrom Config.fuses.ofPart on ∧ step on = .next on.tick := by
  refine ⟨⟨?_, ?_⟩, rfl⟩
  · simp [Fuses.le, bitsWithin, on, State.reset]
  · intro v d h
    simp [on, State.reset, Crypto.reset] at h
theorem test_queue_kept_hyps : exec .badpat on = .next (on.setFld Rg.MG_CHAIN_BADPAT 1) := rfl
theorem test_memory_form_hyps : State.reset.memWf = true ∧ on.memWf = true ∧ (flawed 2 true).memWf = true
    ∧ step on = .next on.tick := ⟨by decide +kernel, by decide +kernel, by decide +kernel, rfl⟩
/-! ### Ill-formed commands are refused by the check -/

theorem test_wf_tile : (Instr.pressRun p0 16 false 0 4608).wf = false ∧ (Instr.pourRun p0 16 false 0 4608).wf = false
    ∧ (Instr.tagArrayWrite (.core 0) p0 4608 0).wf = false ∧ (Instr.cbload p0 4605 3).wf = false
    ∧ (Instr.cbload p0 4604 3).wf = true := by decide
theorem test_wf_span : (Instr.rsum p0 0 0 3 4).wf = false ∧ (Instr.rmax p0 0 0 3 4).wf = false ∧ (Instr.rmin p0 0 0 3 4).wf = false
    ∧ (Instr.xacc p0 0 0 3 4).wf = false ∧ (Instr.xmac p0 0 0 false 0 3 4).wf = false ∧ (Instr.xcvt p0 0 false 0 3 4).wf = false
    ∧ (Instr.rsum p0 0 0 3 8).wf = true := by decide
theorem test_wf_pair : (Instr.rlse p0 31 0 0 3 8).wf = false ∧ (Instr.topl p0 30 0 0 8 3 8).wf = false ∧ (Instr.widen p0 0 0 5).wf = false := by
  decide
theorem test_wf_entry : (Instr.submit 0 [1] none none).wf = false ∧ (Instr.abort 0 (entry [1])).wf = false ∧ (Instr.tenant 0 (entry [4])).wf = false
    ∧ (Instr.grammar 0 [] none).wf = false ∧ (Instr.badOpcode 0 [9]).wf = false ∧ (Instr.submit 0 submit1 (some []) none).wf = false
    ∧ (Instr.submit 0 submit1 (some greedy) none).wf = true := by decide +kernel
theorem test_wf_load : (Instr.load [] 0 []).wf = false ∧ (Instr.swap (.core 0) false none []).wf = false ∧ (Instr.hello [] [] []).wf = false
    ∧ (Instr.transferQuote [] [] []).wf = false ∧ (Instr.sessionKey [] []).wf = false := by decide
theorem test_wf_link : (Instr.linkDataFlit 0 [] 0 (0, 0)).wf = false ∧ (Instr.linkControlFlit 0 [] (0, 0)).wf = false ∧ (Instr.idleFlit 0 [] (0, 0)).wf = false
    ∧ (Instr.trainingFlit 0 [] (0, 0)).wf = false ∧ (Instr.portEn (.core 0) 0 0x40000000).wf = false ∧ (Instr.retrain (.core 0) 0 0x80000000).wf = false
    ∧ (Instr.hrdd 0 0 [0, 0, 0, 0, 0, 0, 0]).wf = false ∧ (Instr.hwr 0 0 [0, 0, 0, 0, 0, 0, 0]).wf = false := by decide
theorem test_wf_host : (Instr.hostMalformedRequest false 4 4).wf = false ∧ (Instr.hostLinkTrained 0 16).wf = false ∧ (Instr.hostLinkTrained 6 3).wf = false
    ∧ (Instr.rawWindowRead (.core 0) 0x20C000000000).wf = false := by decide
theorem test_wf_power : (Instr.railFault 0 1).wf = false ∧ (Instr.powerCapTick 0 [] 0 []).wf = false ∧ (Instr.regionInputValid 0 .n 31).wf = false
    ∧ (Instr.regionWavefront 1 [found]).wf = false ∧ (Instr.regionWavefront 3 [found]).wf = true := by decide

/-! ### Values that the specification gives -/

/-- R3 and R131's examples: the window of F(3,2).13 and the scratchpad of F(5,3).20 begin here. -/
theorem test_windows : clusterBase 27 13 = 0x2036D0000000 ∧ clusterBase 41 20 = 0x205340000000 := by decide
/-- The reference entries of R117. -/
theorem test_tables : [tabT 0, tabT 64, tabT 128, tabT 192].map r47 = [0x3F800000, 0x3F9837F0, 0x3FB504F3, 0x3FD744FD]
    ∧ [tabG 0, tabG 128].map r47 = [0x3F800000, 0x3F2AAAAB] ∧ [tabL 0, tabL 128].map r47 = [0, 0x3F15C01A] := by decide +kernel
/-- R119's example: EXP2 of −3.25. -/
theorem test_exp2 : r47 (sfExp2 (f32 0xC0500000)) = 0x3DD744FD := by decide +kernel
/-- R136's example: word 85 of handle 12, with bank 6 retired and with none. -/
theorem test_banks : (⟨false, false, false, 16, 4, 0x100, 1024⟩ : Handle).word 0x40 85 = some (10 * 8192 + 0x105)
    ∧ (⟨false, false, false, 16, 4, 0x100, 1024⟩ : Handle).word 0 85 = some (9 * 8192 + 0x105)
    ∧ (⟨false, false, false, 16, 4, 0x100, 1024⟩ : Handle).rows 0 1023 = 64 := by decide +kernel
/-- R96's examples: a press of 64 K-steps at RSV 2 takes 68 cycles, a pour of 2 tiles at 2,560 bytes 13. -/
theorem test_durations : pressD ⟨1, 0, 0, 8, 64, 0, 2, 0, 0, 0, 0, 0⟩ = 68 ∧ pourD ⟨2, 0, 1, 1, 1, 1, 0, 0, 0, 0, 2560, 2⟩ = 13 := by decide
/-- R110's example: a framed group of 32 blocks is allotted 5 beats at RSV 2, and fills 6 with 7 wide blocks. -/
theorem test_frames : frameAllot 2 32 = 5 ∧ frameBeats 32 7 = 6 := by decide
/-- R314's example: the port that faces VL21 is VL2. -/
theorem test_facing : facingPort 21 = 2 ∧ facingPort 2 = 21 := by decide
/-- The example of R460 at address 0x310E8: the host's second half sets 720 mV with the override. -/
theorem test_guarded_second : Rg.RPWR_VSET 14 = 0x310E8
    ∧ (match exec (.vset .host 14 0x7FFFFD2F) { bridging.setFld (Rg.RPWR_STAT_SENSE 14) 0xF with armed := [(0x310E8, ⟨0x800002D0, .host, 1024⟩)] } with
       | .next t => (t.fld (Rg.RPWR_VSET_MV 14), t.flag (Rg.RPWR_VSET_OVR 14), t.armed) == (720, true, [])
       | _ => false) = true := by decide +kernel
/-- In the same example, core 2's first half meets a bus error while the pair is ARMED for the host. -/
theorem test_guarded_other : (match exec (.gpFirstHalf (.core 2) 0x310E8 0x800002BC) { on with armed := [(0x310E8, ⟨0x800002D0, .host, 1024⟩)] } with
       | .next t => t.sent == [.access (.core 2) 1 none] && t.armed.length == 1
       | _ => false) = true := by decide +kernel
/-- The check value of CRC-32C, as the tile codes of R122 use it. -/
theorem test_crc : crc32c [0x31, 0x32, 0x33, 0x34, 0x35, 0x36, 0x37, 0x38, 0x39] = 0xE3069283 := by decide +kernel

end Sys2Proof.Tests
end

section
/-!
PROOFS. The format faults of the engines (R36, R39, R60, R92, R204): a RUN whose codebook table the store does not hold, and a
K-step that meets a reserved TAG or a codebook index past the table.
-/
namespace Sys2Proof.Machine

/-- A slot that may issue and whose encoding is legal acts on the state in which the due effects have landed (R87, R91). -/
theorem slotRow_issues {p : Site} {ok : State → Nat → Bool} {f : State → Nat → Nat → State} {s : State}
    (hi : s.canIssue p = true) (hok : ok s (Claims.cyc p s) = true) :
    slotRow p ok f s = .next (f (Claims.due p s) (Claims.cyc p s) (s.cluster p.r p.c).pc) := by
  unfold Claims.cyc at hok
  simp only [slotRow, hi, hok, if_true]
  rfl

theorem exec_pressRun (p : Site) (daddr : BitVec 14) (half : Bool) (accb : BitVec 8) (tile : BitVec 13) (s : State) :
    exec (.pressRun p daddr half accb tile) s =
      slotRow p (fun s n => s.engineOk p.r p.c ⟨1, daddr.toNat, half, accb.toNat, tile.toNat, 0⟩ 1 n)
        (fun s n b => s.engineIssue p.r p.c ⟨1, daddr.toNat, half, accb.toNat, tile.toNat, 0⟩ 1 n b) s := rfl

theorem exec_pourRun (p : Site) (daddr : BitVec 14) (half : Bool) (accb : BitVec 8) (tile : BitVec 13) (s : State) :
    exec (.pourRun p daddr half accb tile) s =
      slotRow p (fun s n => s.engineOk p.r p.c ⟨1, daddr.toNat, half, accb.toNat, tile.toNat, 0⟩ 2 n)
        (fun s n b => s.engineIssue p.r p.c ⟨1, daddr.toNat, half, accb.toNat, tile.toNat, 0⟩ 2 n b) s := rfl

/-- PRESS_RUN and POUR_RUN that may issue, with a free engine and a legal descriptor, issue their engine's operation (R92). -/
theorem exec_run_issues {p : Site} {daddr : BitVec 14} {half : Bool} {accb : BitVec 8} {tile : BitVec 13} {kind : Nat}
    {run : Instr} {s : State}
    (hrun : (kind, run) ∈ [(1, Instr.pressRun p daddr half accb tile), (2, .pourRun p daddr half accb tile)])
    (hi : s.canIssue p = true)
    (hok : s.engineOk p.r p.c ⟨1, daddr.toNat, half, accb.toNat, tile.toNat, 0⟩ kind (Claims.cyc p s) = true) :
    exec run s = .next ((Claims.due p s).engineIssue p.r p.c ⟨1, daddr.toNat, half, accb.toNat, tile.toNat, 0⟩ kind
      (Claims.cyc p s) (s.cluster p.r p.c).pc) := by
  simp only [List.mem_cons, List.not_mem_nil, or_false, Prod.mk.injEq] at hrun
  obtain ⟨rfl, rfl⟩ | ⟨rfl, rfl⟩ := hrun
  · exact (exec_pressRun ..).trans (slotRow_issues hi hok)
  · exact (exec_pourRun ..).trans (slotRow_issues hi hok)

namespace State

/-- A codebook operation whose table length is not the store's raises the fault of R60 instead of running. -/
theorem engineIssue_tableLength {s : State} {r c : Nat} {e : EngSlot} {kind n bundle : Nat}
    (hclean : (Store.get PCell.zero (s.cluster r c).prog e.daddr).flip = 0)
    (hcb : isCb (OpDesc.ofWord (s.progPeek r c e.daddr)).wfmt = true)
    (hlen : (OpDesc.ofWord (s.progPeek r c e.daddr)).cblen ≠ (s.cluster r c).cbLen) :
    s.engineIssue r c e kind n bundle = s.engineFault r c kind bundle 0 5 (s.cluster r c).cbLen := by
  have hbad : (isCb (OpDesc.ofWord (s.progPeek r c e.daddr)).wfmt
      && (OpDesc.ofWord (s.progPeek r c e.daddr)).cblen != (s.cluster r c).cbLen) = true := by
    rw [hcb, Bool.true_and, bne_iff_ne]
    exact hlen
  unfold engineIssue
  rw [progFetch_clean s r c e.daddr kind hclean]
  exact if_pos hbad

/-- A K-step whose sampled slots hold a reserved TAG ends the operation with the fault of R36, R39. -/
theorem engineStep_badTag {s : State} {r c n : Nat} {x : EngRun} {tag : Nat}
    (h : badTag x.d (s.sampleSlots r c x).1 = some tag) :
    s.engineStep r c n x =
      (none, ((s.sampleSlots r c x).2.originQh r c (some (engPort x.kind x.e.half))).2.engineFault r c x.kind x.bundle
        ((s.sampleSlots r c x).2.originQh r c (some (engPort x.kind x.e.half))).1 1 tag) := by
  simp only [engineStep, h]

/-- A K-step of sound slots whose weights hold a codebook index past the table ends the operation with the fault of R60. -/
theorem engineStep_badIdx {s : State} {r c n : Nat} {x : EngRun} {i : Nat}
    (htag : badTag x.d (s.sampleSlots r c x).1 = none)
    (h : Machine.badIdx x.d ((s.sampleSlots r c x).2.engineTiles r c x.e.tile x.d.ntiles)
      (fun j => (s.sampleSlots r c x).2.tilePending r c (x.e.tile + j)) x.step = some i) :
    s.engineStep r c n x =
      (none, ((s.sampleSlots r c x).2.originQh r c none).2.engineFault r c x.kind x.bundle
        ((s.sampleSlots r c x).2.originQh r c none).1 2 i) := by
  simp only [engineStep, htag, h]

end State

/-- Settles O12: at the issue by the table's length, in a K-step by what its slots and its weights hold. -/
theorem engineFormatFaultsHaltTheRegion : Obligations.EngineFormatFaultsHaltTheRegion := by
  refine ⟨?issue, fun r c n x s => ⟨?tag, ?index⟩⟩
  case issue =>
    intro p daddr half accb tile kind run s hrun t pc d hi hok hclean hcb hlen u
    refine ⟨?_, State.raise_halted _ _ _⟩
    calc exec run s
        = .next (t.engineIssue p.r p.c ⟨1, daddr.toNat, half, accb.toNat, tile.toNat, 0⟩ kind (Claims.cyc p s) pc) :=
          exec_run_issues hrun hi hok
      _ = .next u := congrArg _ (State.engineIssue_tableLength hclean hcb hlen)
  case tag => exact fun tag htag => ⟨State.engineStep_badTag htag, State.raise_halted _ _ _⟩
  case index => exact fun i htag hidx => ⟨State.engineStep_badIdx htag hidx, State.raise_halted _ _ _⟩

end Sys2Proof.Machine
end

section
/-!
PROOFS. The reductions and the accumulator group of the VEC slot (R67, R70, R73, R99 to R102): what a slot with a span issues,
and the effects that each of its opcodes leaves waiting.
-/
namespace Sys2Proof.Machine
open Sys2Proof.Claims

/-! ### A slot with a span -/

/-- The state in which a vector slot has been issued and its effects wait, each with its latency. -/
def vecWaits (p : Site) (es : List (Nat × Eff)) (s : State) : State :=
  (due p s).addPend p.r p.c (es.map fun e => ⟨cyc p s + e.1, (s.cluster p.r p.c).pc, 3, e.2⟩)

/-- Waiting register writes are waiting effects. -/
theorem vecWaits_writes (p : Site) (ws : List (Nat × Nat × Nat × List Word)) (s : State) :
    vecWaits p (ws.map fun w => (w.1, .vreg ((cyc p s % 4 * 32 + w.2.1) * 256 + w.2.2.1) w.2.2.2)) s = vecPends p ws s := by
  simp only [vecWaits, vecPends, List.map_map, Function.comp_def]

/-- Effects of one latency wait together. -/
theorem vecWaits_same (p : Site) (lat : Nat) (es : List Eff) (s : State) :
    vecWaits p (es.map fun e => (lat, e)) s =
      (due p s).addPend p.r p.c (es.map fun e => ⟨cyc p s + lat, (s.cluster p.r p.c).pc, 3, e⟩) := by
  simp only [vecWaits, List.map_map, Function.comp_def]

/-- The special-function unit of cluster `p` is taken for a span of cycles, if one is given (R100). -/
def sfuTaken (p : Site) (n : Nat) (span : Option (Nat × Nat)) (s : State) : State :=
  span.elim s fun q => s.modCluster p.r p.c fun k => { k with sfu := (k.sfu.filter fun u => decide (n < u.2)) ++ [q] }

/-- A slot with a span is legal when its span is aligned and inside the register and its other fields keep the rows' bounds
(R98, R99, R102). -/
theorem VecSlot.ok_of_span {v : VecSlot}
    (hop : 0x40 ≤ v.op ∧ v.op ≤ 0x44 ∨ 0x50 ≤ v.op ∧ v.op ≤ 0x54)
    (hm : v.m ≤ 8) (halign : v.l0 % 2 ^ v.m = 0) (hend : v.l0 + 2 ^ v.m ≤ 256)
    (hfold : v.op = 0x52 → v.m ≤ 7) (hpair : v.p = 0 ∨ v.p = 1 ∧ (v.op = 0x51 ∨ v.op = 0x53))
    (hd : v.op = 0x43 ∨ v.op = 0x44 → v.d ≤ 30) (hx : v.op = 0x44 → v.x + 1 ≤ 2 ^ v.m) : v.ok = true := by
  have hrange : 0x40 ≤ v.op ∧ v.op ≠ 0x27 := by omega
  have hcode : vecOpcodes.contains v.op = true := by
    simp only [vecOpcodes, List.contains_iff_mem, List.mem_cons, List.not_mem_nil, or_false]
    omega
  simp only [VecSlot.ok, hcode, vecSpan, hrange, decide_true, if_true, Bool.and_eq_true, Bool.or_eq_true, decide_eq_true_eq,
    beq_iff_eq, bne_iff_ne, true_and]
  refine ⟨⟨⟨⟨⟨⟨⟨hm, ?fold⟩, halign⟩, hend⟩, ?pair⟩, ?reg⟩, ?cand⟩, .inl hrange.2⟩
  all_goals omega

/-- The unit is free for a legal slot whose occupation, if it has one, meets no other. -/
theorem State.vecOk_of_free {p : Site} {v : VecSlot} {s : State} (hok : v.ok = true)
    (hfree : ∀ f e, sfuSpan v (cyc p s) = some (f, e) → sfuFree p f e s) : s.vecOk p.r p.c v (cyc p s) = true := by
  rw [State.vecOk, hok, Bool.true_and]
  split
  next => rfl
  next q hq => simpa only [List.all_eq_true, Bool.or_eq_true, decide_eq_true_eq, sfuFree] using hfree q.1 q.2 hq

/-- A slot with a span that issues leaves its effects waiting and occupies the special-function unit as R100 says. -/
theorem State.vecIssue_span {p : Site} {v : VecSlot} (s : State) (hop : 0x40 ≤ v.op) :
    (due p s).vecIssue p.r p.c v (cyc p s) (s.cluster p.r p.c).pc =
      sfuTaken p (cyc p s) (sfuSpan v (cyc p s)) (vecWaits p ((due p s).vecEffects p.r p.c v (cyc p s)) s) := by
  have h22 : v.op ≠ 0x22 := by omega
  have h27 : v.op ≠ 0x27 := by omega
  simp only [State.vecIssue, h22, h27, false_and, if_false]
  cases sfuSpan v (cyc p s) <;> rfl

/-- A legal slot with a span whose special-function unit is free issues (R90, R100). -/
theorem vecRow_span {p : Site} {v : VecSlot} {s : State} (hi : s.canIssue p = true) (hop : 0x40 ≤ v.op) (hok : v.ok = true)
    (hfree : ∀ f e, State.sfuSpan v (cyc p s) = some (f, e) → sfuFree p f e s) :
    vecRow p v s = .next (sfuTaken p (cyc p s) (State.sfuSpan v (cyc p s))
      (vecWaits p ((due p s).vecEffects p.r p.c v (cyc p s)) s)) :=
  (slotRow_issues hi (State.vecOk_of_free hok hfree)).trans (congrArg _ (State.vecIssue_span s hop))

/-- Of the opcodes with a span RLSE alone uses the special-function unit (R100). -/
theorem State.sfuSpan_none {v : VecSlot} (n : Nat) (hop : 0x40 ≤ v.op) (hne : v.op ≠ 0x43) : sfuSpan v n = none := by
  have h : ¬(0x30 ≤ v.op ∧ v.op ≤ 0x33) ∧ ¬(v.op = 0x34 ∨ v.op = 0x35) := by omega
  simp only [sfuSpan, h, hne, false_and, if_false]

/-- A slot with a span that leaves the special-function unit alone: only its effects wait. -/
theorem vecRow_waits {p : Site} {v : VecSlot} {s : State} {es : List (Nat × Eff)} (hi : s.canIssue p = true)
    (hop : 0x40 ≤ v.op) (hne : v.op ≠ 0x43) (hok : v.ok = true)
    (hes : (due p s).vecEffects p.r p.c v (cyc p s) = es) : vecRow p v s = .next (vecWaits p es s) := by
  have hnone := State.sfuSpan_none (cyc p s) hop hne
  have hfree : ∀ f e, State.sfuSpan v (cyc p s) = some (f, e) → sfuFree p f e s := by simp [hnone]
  rw [vecRow_span hi hop hok hfree, hnone, hes]
  rfl

/-! ### Reductions -/

/-- The slot of a reduction row: `x` is used by TOPL alone. -/
def reductionSlot (op : Nat) (d a b : Fin 32) (m : Fin 9) (l0 x : BitVec 8) : VecSlot :=
  ⟨op, d, a, b, 0, 0, m, l0.toNat, x.toNat⟩

/-- The effects of a reduction are its register writes. -/
theorem vecEffects_reduction {p : Site} {op : Nat} {d a b : Fin 32} {m : Fin 9} {l0 x : BitVec 8} {s : State}
    {ws : List (Nat × Nat × Lanes)} (hop : op < 0x50)
    (hws : ∀ wd cc, vecWrites (reductionSlot op d a b m l0 x) wd (operand p a s) (operand p b s) cc = ws) :
    vecWaits p ((due p s).vecEffects p.r p.c (reductionSlot op d a b m l0 x) (cyc p s)) s =
      vecPends p (ws.map fun w => (vecLatency op m, d + w.1, w.2)) s := by
  have hfile : op ≠ 0x50 ∧ op ≠ 0x51 ∧ op ≠ 0x52 ∧ op ≠ 0x53 ∧ op ≠ 0x54 := by omega
  unfold operand at hws
  rw [← vecWaits_writes]
  simp only [State.vecEffects, vecTerms, reductionSlot] at hws ⊢
  simp only [hws, hfile, or_false, if_false, List.map_nil, List.append_nil, List.map_map, Function.comp_def, Nat.add_assoc]

theorem vecWrites_tree {op : Nat} {f : Word → Word → Word} (d a b : Fin 32) (m : Fin 9) (l0 x : BitVec 8) (wd : WidenDesc)
    (A B C : Lanes) (hf : (op, f) ∈ [(0x40, addWord), (0x41, maxWord), (0x42, minWord)]) :
    vecWrites (reductionSlot op d a b m l0 x) wd A B C =
      [(0, l0.toNat, (treeReduce f m (spanOf l0.toNat m A)).map canonWord)] := by
  simp only [List.mem_cons, List.not_mem_nil, or_false, Prod.mk.injEq] at hf
  obtain ⟨rfl, rfl⟩ | ⟨rfl, rfl⟩ | ⟨rfl, rfl⟩ := hf <;> simp [vecWrites, reductionSlot]

theorem vecWrites_rlse (d a b : Fin 32) (m : Fin 9) (l0 x : BitVec 8) (wd : WidenDesc) (A B C : Lanes) :
    vecWrites (reductionSlot 0x43 d a b m l0 x) wd A B C =
      let t := treeReduce mergeWords m (List.zip (spanOf l0.toNat m A) (spanOf l0.toNat m B))
      [(0, l0.toNat, t.map fun e => canonWord e.1), (1, l0.toNat, t.map fun e => canonWord e.2)] := by
  simp [vecWrites, reductionSlot]

theorem vecWrites_topl (d a b : Fin 32) (m : Fin 9) (l0 x : BitVec 8) (wd : WidenDesc) (A B C : Lanes) :
    vecWrites (reductionSlot 0x44 d a b m l0 x) wd A B C =
      let t := (candSort (List.zip (spanOf l0.toNat m A) (spanOf l0.toNat m B))).take (x.toNat + 1)
      [(0, l0.toNat, t.map fun e => canonWord e.1), (1, l0.toNat, t.map Prod.snd)] := by
  simp [vecWrites, reductionSlot]

section
variable {p : Site} {d a b : Fin 32} {x : BitVec 8} {m : Fin 9} {l0 : BitVec 8} {s : State}
  (hi : s.canIssue p = true) (halign : l0.toNat % 2 ^ m.val = 0) (hend : l0.toNat + 2 ^ m.val ≤ 256)
include hi halign hend

/-- A reduction over an aligned span leaves its register writes waiting (R98, R99). -/
theorem vecRow_reduction {op : Nat} {ws : List (Nat × Nat × Lanes)} (hop : 0x40 ≤ op ∧ op ≤ 0x44)
    (hd : op = 0x43 ∨ op = 0x44 → d.val ≤ 30) (hx : op = 0x44 → x.toNat + 1 ≤ 2 ^ m.val)
    (hfree : ∀ f e, State.sfuSpan (reductionSlot op d a b m l0 x) (cyc p s) = some (f, e) → sfuFree p f e s)
    (hws : ∀ wd cc, vecWrites (reductionSlot op d a b m l0 x) wd (operand p a s) (operand p b s) cc = ws) :
    vecRow p (reductionSlot op d a b m l0 x) s =
      .next (sfuTaken p (cyc p s) (State.sfuSpan (reductionSlot op d a b m l0 x) (cyc p s))
        (vecPends p (ws.map fun w => (vecLatency op m, d + w.1, w.2)) s)) := by
  have hm : m.val ≤ 8 := by omega
  have hfold : op = 0x52 → m.val ≤ 7 := fun h => by omega
  rw [vecRow_span hi hop.1 (VecSlot.ok_of_span (.inl hop) hm halign hend hfold (.inl rfl) hd hx) hfree,
    vecEffects_reduction (by omega) hws]

/-- A reduction other than RLSE leaves the special-function unit alone (R100). -/
theorem vecRow_reduction_noSfu {op : Nat} {ws : List (Nat × Nat × Lanes)} (hop : 0x40 ≤ op ∧ op ≤ 0x44) (hne : op ≠ 0x43)
    (hd : op = 0x44 → d.val ≤ 30) (hx : op = 0x44 → x.toNat + 1 ≤ 2 ^ m.val)
    (hws : ∀ wd cc, vecWrites (reductionSlot op d a b m l0 x) wd (operand p a s) (operand p b s) cc = ws) :
    vecRow p (reductionSlot op d a b m l0 x) s = .next (vecPends p (ws.map fun w => (vecLatency op m, d + w.1, w.2)) s) := by
  have hnone : State.sfuSpan (reductionSlot op d a b m l0 x) (cyc p s) = none := State.sfuSpan_none _ hop.1 hne
  rw [vecRow_reduction hi halign hend hop (fun h => hd (h.resolve_left hne)) hx (by simp [hnone]) hws, hnone]
  rfl

/-- A one-register reduction over an aligned span writes what the fixed tree of its opcode gives (R73). -/
theorem vecRow_tree {op : Nat} {f : Word → Word → Word} (hf : (op, f) ∈ [(0x40, addWord), (0x41, maxWord), (0x42, minWord)]) :
    vecRow p (reductionSlot op d a 0 m l0 0) s =
      .next (vecPends p [(4 * (1 + (m.val + 1) / 2), d, l0.toNat,
        (treeReduce f m (spanOf l0.toNat m (operand p a s))).map canonWord)] s) := by
  have hop : 0x40 ≤ op ∧ op ≤ 0x42 := by
    simp only [List.mem_cons, List.not_mem_nil, or_false, Prod.mk.injEq] at hf
    omega
  have hlat : vecLatency op m = 4 * (1 + (m.val + 1) / 2) := by
    rw [vecLatency, if_neg (by omega), if_neg (by omega), if_neg (by omega), if_pos hop]
  rw [vecRow_reduction_noSfu hi halign hend (by omega) (by omega) (by omega) (by omega)
    fun wd cc => vecWrites_tree d a 0 m l0 0 wd _ _ cc hf, hlat]
  rfl

/-- RLSE over an aligned span merges the pairs of its two registers by the fixed tree (R101), and takes the
special-function unit when there is a pair to merge (R100). -/
theorem exec_rlse (hd : d.val ≤ 30) (hfree : 0 < m.val → sfuFree p (cyc p s + 4) (cyc p s + 4 + 8 * m) s) :
    let t := treeReduce mergeWords m (List.zip (spanOf l0.toNat m (operand p a s)) (spanOf l0.toNat m (operand p b s)))
    exec (.rlse p d a b m l0) s =
      .next (sfuTaken p (cyc p s) (if 0 < m.val then some (cyc p s + 4, cyc p s + 4 + 8 * m) else none)
        (vecPends p [(4 + 28 * m, d, l0.toNat, t.map fun e => canonWord e.1),
          (4 + 28 * m, d + 1, l0.toNat, t.map fun e => canonWord e.2)] s)) := by
  intro t
  have hspan : State.sfuSpan (reductionSlot 0x43 d a b m l0 0) (cyc p s)
      = if 0 < m.val then some (cyc p s + 4, cyc p s + 4 + 8 * m) else none := by simp [State.sfuSpan, reductionSlot]
  have hunit : ∀ f e, State.sfuSpan (reductionSlot 0x43 d a b m l0 0) (cyc p s) = some (f, e) → sfuFree p f e s := by
    rw [hspan]
    rintro f e h
    obtain ⟨hm, h⟩ := Option.ite_none_right_eq_some.mp h
    cases h
    exact hfree hm
  have hrow := vecRow_reduction hi halign hend (by omega) (fun _ => hd) (by omega) hunit
    fun wd cc => vecWrites_rlse d a b m l0 0 wd _ _ cc
  rw [hspan] at hrow
  exact hrow

/-- TOPL over an aligned span keeps the first entries of the ordered candidates (R102). -/
theorem exec_topl (hd : d.val ≤ 30) (hx : x.toNat + 1 ≤ 2 ^ m.val) :
    let t := (candSort (List.zip (spanOf l0.toNat m (operand p a s)) (spanOf l0.toNat m (operand p b s)))).take (x.toNat + 1)
    exec (.topl p d a b x m l0) s =
      .next (vecPends p [(4 * (2 + m), d, l0.toNat, t.map fun e => canonWord e.1),
        (4 * (2 + m), d + 1, l0.toNat, t.map Prod.snd)] s) :=
  vecRow_reduction_noSfu hi halign hend (by omega) (by omega) (fun _ => hd) (fun _ => hx)
    fun wd cc => vecWrites_topl d a b m l0 x wd _ _ cc

end

/-- Settles O5: the rows of one register by their shared tree, RLSE with and without the special-function unit, and TOPL. -/
theorem reductionsFollowTheFixedTree : Obligations.ReductionsFollowTheFixedTree := by
  intro p d a b x m l0 s hi halign hend A B n
  refine ⟨?rsum, ?rmax, ?rmin, ?rlse, ?single, ?topl⟩
  case rsum => exact vecRow_tree (op := 0x40) (f := addWord) hi halign hend (by simp)
  case rmax => exact vecRow_tree (op := 0x41) (f := maxWord) hi halign hend (by simp)
  case rmin => exact vecRow_tree (op := 0x42) (f := minWord) hi halign hend (by simp)
  case rlse =>
    intro hd hm hfree t
    rw [exec_rlse hi halign hend hd fun _ => hfree, if_pos hm]
    rfl
  case single =>
    intro hd hm
    obtain rfl : m = 0 := Fin.ext hm
    exact exec_rlse hi halign hend hd fun h => absurd h (Nat.lt_irrefl 0)
  case topl => exact fun hd hx => exec_topl hi halign hend hd hx

/-! ### The accumulator file -/

/-- A slot of the accumulator group over an aligned span leaves its effects waiting (R98, R99). -/
theorem vecRow_accumulator {p : Site} {v : VecSlot} {es : List (Nat × Eff)} {s : State} (hi : s.canIssue p = true)
    (hop : 0x50 ≤ v.op ∧ v.op ≤ 0x54) (hm : v.m ≤ 8) (halign : v.l0 % 2 ^ v.m = 0) (hend : v.l0 + 2 ^ v.m ≤ 256)
    (hfold : v.op = 0x52 → v.m ≤ 7) (hpair : v.p = 0 ∨ v.p = 1 ∧ (v.op = 0x51 ∨ v.op = 0x53))
    (hes : (due p s).vecEffects p.r p.c v (cyc p s) = es) : vecRow p v s = .next (vecWaits p es s) :=
  vecRow_waits hi (by omega) (by omega)
    (VecSlot.ok_of_span (.inr hop) hm halign hend hfold hpair (fun h => by omega) (fun h => by omega)) hes

namespace State

section
variable {s : State} {r c n : Nat} {v : VecSlot}

/-- XACC adds the exact value of each lane of its span to an accumulator (R67). -/
theorem vecEffects_xacc (hop : v.op = 0x50) :
    s.vecEffects r c v n = ((List.range (2 ^ v.m)).map fun i =>
      Eff.accAdd ((v.x + i) % 256) (f32 ((s.vreg r c (n % 4) v.a).getD (v.l0 + i) 0))).map fun e => (4, e) := by
  simp [vecEffects, vecWrites, vecLatency, hop, vecTerms, xaccTerm, flatMap_singleton_map]

/-- XMAC adds the exact products of each lane of its span to an accumulator (R67). -/
theorem vecEffects_xmac (hop : v.op = 0x51) :
    s.vecEffects r c v n = ((List.range (2 ^ v.m)).flatMap fun i =>
      (xmacTerms v.p ((s.vreg r c (n % 4) v.a).getD (v.l0 + i) 0) ((s.vreg r c (n % 4) v.b).getD (v.l0 + i) 0)).map fun t =>
        Eff.accAdd ((v.x + i) % 256) t).map fun e => (4, e) := by
  simp [vecEffects, vecWrites, vecLatency, hop, vecTerms, List.map_flatMap, Function.comp_def]

/-- XFOLD adds the upper half of its accumulators to the lower (R70). -/
theorem vecEffects_xfold (hop : v.op = 0x52) :
    s.vecEffects r c v n = ((List.range (2 ^ v.m)).map fun i =>
      Eff.accFold ((v.x + i) % 256) (s.acc r c (v.x + 2 ^ v.m + i))).map fun e => (4, e) := by
  simp [vecEffects, vecWrites, vecLatency, hop, vecTerms]

/-- XCVT writes each accumulator, rounded once, to its lane (R43). -/
theorem vecEffects_xcvt (hop : v.op = 0x53) :
    s.vecEffects r c v n = [(8, Eff.vreg ((n % 4 * 32 + v.d) * 256 + v.l0)
      ((List.range (2 ^ v.m)).map fun i => xcvtLane v.p (s.acc r c (v.x + i))))] := by
  simp [vecEffects, vecWrites, vecLatency, hop, vecTerms]

/-- XRST resets its accumulators (R99). -/
theorem vecEffects_xrst (hop : v.op = 0x54) :
    s.vecEffects r c v n = ((List.range (2 ^ v.m)).map fun i => Eff.accSet ((v.x + i) % 256) Acc.reset).map fun e => (4, e) := by
  simp [vecEffects, vecWrites, vecLatency, hop, vecTerms]

end

end State

/-- Settles O6: each row has a legal slot, and the effects of its opcode wait. -/
theorem accumulatorFileTakesExactTerms : Obligations.AccumulatorFileTakesExactTerms := by
  intro p d a b pair x m k l0 s hi halign hend pend lane
  have hm : m.val ≤ 8 := by omega
  have hk : k.val ≤ 7 := by omega
  have hfits : ∀ j ≤ 8, 0 + 2 ^ j ≤ 256 := by decide
  have hpair : ∀ op, op = 0x51 ∨ op = 0x53 → pairBit pair = 0 ∨ pairBit pair = 1 ∧ (op = 0x51 ∨ op = 0x53) := by
    cases pair <;> simp [pairBit]
  refine ⟨?xacc, ?xmac, ?xfold, ?xcvt, ?xrst⟩
  case xacc =>
    calc exec (.xacc p a x m l0) s
        = .next (vecWaits p _ s) :=
          vecRow_accumulator hi (by simp) hm halign hend (by simp) (.inl rfl) (State.vecEffects_xacc rfl)
      _ = _ := congrArg _ (vecWaits_same p 4 _ s)
  case xmac =>
    calc exec (.xmac p a b pair x m l0) s
        = .next (vecWaits p _ s) :=
          vecRow_accumulator hi (by simp) hm halign hend (by simp) (hpair _ (.inl rfl)) (State.vecEffects_xmac rfl)
      _ = _ := congrArg _ (vecWaits_same p 4 _ s)
  case xfold =>
    calc exec (.xfold p x k) s
        = .next (vecWaits p _ s) :=
          vecRow_accumulator hi (by simp) (Nat.le_trans hk (by decide)) (Nat.zero_mod _) (hfits k (by omega)) (fun _ => hk) (.inl rfl)
            (State.vecEffects_xfold rfl)
      _ = _ := congrArg _ (vecWaits_same p 4 _ s)
  case xcvt =>
    calc exec (.xcvt p d pair x m l0) s
        = .next (vecWaits p _ s) :=
          vecRow_accumulator hi (by simp) hm halign hend (by simp) (hpair _ (.inr rfl)) (State.vecEffects_xcvt rfl)
      _ = _ := rfl
  case xrst =>
    calc exec (.xrst p x m) s
        = .next (vecWaits p _ s) :=
          vecRow_accumulator hi (by simp) hm (Nat.zero_mod _) (hfits m hm) (by simp) (.inl rfl) (State.vecEffects_xrst rfl)
      _ = _ := congrArg _ (vecWaits_same p 4 _ s)

end Sys2Proof.Machine
end

section
/-!
PROOFS. The rows of the VEC slot without a span (R98 to R100, R103, R113 to R116, R119): what a legal slot issues, and the lanes
that each group of opcodes writes.
-/
namespace Sys2Proof.Machine
open Sys2Proof.Claims

/-! ### A slot without a span -/

/-- The slot of a row without a span: `q` is its pair bit, `x` its widening point, lane or record form. -/
def laneSlot (op : Nat) (d a b c : Fin 32) (q x : Nat) : VecSlot := ⟨op, d, a, b, c, q, 0, 0, x⟩

/-- A slot without a span is legal when its opcode is one of R99 and its other fields keep the rows' bounds (R98, R103). -/
theorem laneSlot_ok {op : Nat} (d a b c : Fin 32) {q x : Nat} (hop : op ∈ vecOpcodes) (hlow : op < 0x40)
    (hq : q = 0 ∨ q = 1 ∧ op ≤ 0x06) (hx : op = 0x27 → x ≤ 4) : (laneSlot op d a b c q x).ok = true := by
  have hcode : vecOpcodes.contains op = true := List.contains_iff_mem.mpr hop
  have hspan : ¬0x40 ≤ op := by omega
  unfold laneSlot
  simp only [VecSlot.ok, hcode, vecSpan, hspan, decide_false, Bool.false_eq_true, if_false, Bool.and_eq_true,
    Bool.or_eq_true, decide_eq_true_eq, beq_iff_eq, bne_iff_ne, true_and]
  refine ⟨⟨⟨?pair, ?reg⟩, ?cand⟩, ?form⟩
  all_goals omega

/-- The effects of a slot without a span are its register writes. -/
theorem vecWaits_lanes {p : Site} {op : Nat} {d a b c : Fin 32} {q x : Nat} {l : Lanes} {s : State} (hlow : op < 0x40)
    (hws : vecWrites (laneSlot op d a b c q x) ((due p s).widenPoint p.r p.c x) (operand p a s) (operand p b s) (operand p c s)
      = [(0, 0, l)]) :
    vecWaits p ((due p s).vecEffects p.r p.c (laneSlot op d a b c q x) (cyc p s)) s = vecPends p [(vecLatency op 0, d, 0, l)] s := by
  have hfile : op ≠ 0x50 ∧ op ≠ 0x51 ∧ op ≠ 0x52 ∧ op ≠ 0x53 ∧ op ≠ 0x54 := by omega
  unfold operand at hws
  rw [← vecWaits_writes]
  simp only [State.vecEffects, vecTerms, laneSlot] at hws ⊢
  simp only [hws, hfile, or_false, if_false, List.map_nil, List.map_cons, List.append_nil, Nat.add_zero]

/-- A slot without a span whose operation has no format fault leaves its effects waiting and occupies the special-function unit
as R100 says; NARROWT also counts its blocks (R54). -/
theorem State.vecIssue_lanes {p : Site} {op : Nat} {d a b c : Fin 32} {q x : Nat} (s : State)
    (h27 : op = 0x27 → (widenLanes x (operand p a s)).isSome = true) :
    (due p s).vecIssue p.r p.c (laneSlot op d a b c q x) (cyc p s) (s.cluster p.r p.c).pc =
      let t := sfuTaken p (cyc p s) (sfuSpan (laneSlot op d a b c q x) (cyc p s))
        (vecWaits p ((due p s).vecEffects p.r p.c (laneSlot op d a b c q x) (cyc p s)) s)
      if op = 0x22 then
        (t.count (Rg.WP_TESTED p.r p.c x) 8).count (Rg.WP_WIDENED p.r p.c x)
          (widenedBlocks ((due p s).widenPoint p.r p.c x) (operand p a s))
      else t := by
  have hvalid : ¬(op = 0x27 ∧ (widenLanes x ((due p s).vreg p.r p.c (cyc p s % 4) a)).isNone = true) := by
    rintro ⟨hop, hnone⟩
    have hsome := h27 hop
    rw [operand, ← Option.not_isNone, hnone] at hsome
    cases hsome
  simp only [State.vecIssue, laneSlot, hvalid, if_false]
  cases sfuSpan _ _ <;> rfl

section
variable {p : Site} {op : Nat} {d a b c : Fin 32} {q x : Nat} {l : Lanes} {s : State}
  (hi : s.canIssue p = true) (hop : op ∈ vecOpcodes)
  (hws : vecWrites (laneSlot op d a b c q x) ((due p s).widenPoint p.r p.c x) (operand p a s) (operand p b s) (operand p c s)
    = [(0, 0, l)])
include hi hop hws

/-- A legal slot without a span whose special-function unit is free writes its lanes (R90, R98 to R100). -/
theorem vecRow_lanes (hlow : op < 0x40) (hq : q = 0 ∨ q = 1 ∧ op ≤ 0x06) (hx : op = 0x27 → x ≤ 4)
    (h27 : op = 0x27 → (widenLanes x (operand p a s)).isSome = true)
    (hfree : ∀ f e, State.sfuSpan (laneSlot op d a b c q x) (cyc p s) = some (f, e) → sfuFree p f e s) :
    vecRow p (laneSlot op d a b c q x) s = .next (
      let t := sfuTaken p (cyc p s) (State.sfuSpan (laneSlot op d a b c q x) (cyc p s)) (vecPends p [(vecLatency op 0, d, 0, l)] s)
      if op = 0x22 then
        (t.count (Rg.WP_TESTED p.r p.c x) 8).count (Rg.WP_WIDENED p.r p.c x)
          (widenedBlocks ((due p s).widenPoint p.r p.c x) (operand p a s))
      else t) := by
  have hok := State.vecOk_of_free (laneSlot_ok d a b c hop hlow hq hx) hfree
  rw [vecRow, slotRow_issues hi hok, State.vecIssue_lanes s h27, vecWaits_lanes hlow hws]

/-- A slot below the special functions leaves their unit alone (R100). -/
theorem vecRow_lanes_noSfu (hlow : op < 0x30) (hq : q = 0 ∨ q = 1 ∧ op ≤ 0x06) (hx : op = 0x27 → x ≤ 4)
    (h27 : op = 0x27 → (widenLanes x (operand p a s)).isSome = true) :
    vecRow p (laneSlot op d a b c q x) s = .next (
      let t := vecPends p [(vecLatency op 0, d, 0, l)] s
      if op = 0x22 then
        (t.count (Rg.WP_TESTED p.r p.c x) 8).count (Rg.WP_WIDENED p.r p.c x)
          (widenedBlocks ((due p s).widenPoint p.r p.c x) (operand p a s))
      else t) := by
  have hnone : State.sfuSpan (laneSlot op d a b c q x) (cyc p s) = none := by
    have hrange : ¬(0x30 ≤ op ∧ op ≤ 0x33) ∧ ¬(op = 0x34 ∨ op = 0x35) ∧ ¬(op = 0x43 ∧ 0 < 0) := by omega
    simp only [State.sfuSpan, laneSlot, hrange, if_false]
  rw [vecRow_lanes hi hop hws (by omega) hq hx h27 (by simp [hnone]), hnone]
  rfl

/-- A slot of an elementwise operation of latency 4 (R99). -/
theorem vecRow_elementwise (hlow : op ≤ 0x21) (hq : q = 0 ∨ q = 1 ∧ op ≤ 0x06) :
    vecRow p (laneSlot op d a b c q x) s = .next (vecPends p [(4, d, 0, l)] s) := by
  have hlat : vecLatency op 0 = 4 := by
    have hrange : ¬(op = 0x22 ∨ op = 0x23 ∨ op = 0x24 ∨ op = 0x25 ∨ op = 0x26 ∨ op = 0x27 ∨ op = 0x53) ∧
      ¬(0x30 ≤ op ∧ op ≤ 0x33) ∧ ¬(op = 0x34 ∨ op = 0x35) ∧ ¬(0x40 ≤ op ∧ op ≤ 0x42) ∧ op ≠ 0x43 ∧ op ≠ 0x44 := by omega
    simp only [vecLatency, hrange, if_false]
  rw [vecRow_lanes_noSfu hi hop hws (by omega) hq (by omega) (by omega), hlat]
  exact congrArg _ (if_neg (by omega))

end

/-! ### Arithmetic, comparisons and integer operations -/

/-- An operation of the arithmetic rows on lanes: a BF16 pair or a binary32 (R72). -/
def laneForm (pair : Bool) (f : FVal → FVal → FVal → FVal) : Word → Word → Word → Word := if pair then lane16 f else lane32 f

theorem vecWrites_arith {op : Nat} (d a b c : Fin 32) (pair : Bool) (x : Nat) (wd : WidenDesc) (A B C : Lanes)
    (hop : 0x01 ≤ op ∧ op ≤ 0x06) :
    vecWrites (laneSlot op d a b c (pairBit pair) x) wd A B C = [(0, 0, map3 (laneForm pair (arith op)) A B C)] := by
  cases pair <;> simp [vecWrites, laneSlot, hop, pairBit, laneForm]

theorem vecWrites_laneInt {op : Nat} (d a b c : Fin 32) (x : Nat) (wd : WidenDesc) (A B C : Lanes)
    (hop : (0x08 ≤ op ∧ op ≤ 0x0B) ∨ (0x10 ≤ op ∧ op ≤ 0x17)) :
    vecWrites (laneSlot op d a b c 0 x) wd A B C = [(0, 0, map3 (laneInt op) A B C)] := by
  have harith : ¬(0x01 ≤ op ∧ op ≤ 0x06) := by omega
  simp only [vecWrites, laneSlot, harith, hop, if_true, if_false]

/-- An operation that leaves its third operand aside is one of the two others, whatever lanes stand in the third. -/
theorem laneForm_two (pair : Bool) {f : FVal → FVal → FVal → FVal} {g : FVal → FVal → FVal} (hf : ∀ x y z, f x y z = g x y) :
    laneForm pair f = fun x y _ => laneForm pair (fun x y _ => g x y) x y 0 := by
  obtain rfl : f = fun x y _ => g x y := by
    funext x y z
    exact hf x y z
  cases pair <;> rfl

/-- Lane by lane over three registers, of an operation that leaves the third aside. -/
theorem map3_operand (p : Site) (f : Word → Word → Word) (a b c : Fin 32) (s : State) :
    map3 (fun x y _ => f x y) (operand p a s) (operand p b s) (operand p c s) =
      List.zipWith f (operand p a s) (operand p b s) :=
  map3_two f _ _ _ (by simp only [operand, State.vreg_length, Nat.le_refl])

section
variable {p : Site} {op : Nat} (d a b c : Fin 32) {s : State} (hi : s.canIssue p = true)
include hi

/-- FMA to MIN write their operation of three registers (R99, R113, R114). -/
theorem vecRow_arith (hop : 0x01 ≤ op ∧ op ≤ 0x06) (pair : Bool) :
    vecRow p (laneSlot op d a b c (pairBit pair) 0) s =
      .next (vecPends p [(4, d, 0, map3 (laneForm pair (arith op)) (operand p a s) (operand p b s) (operand p c s))] s) := by
  have hcode : op ∈ vecOpcodes := by
    simp only [vecOpcodes, List.mem_cons, List.not_mem_nil, or_false]
    omega
  have hpair : pairBit pair = 0 ∨ pairBit pair = 1 ∧ op ≤ 0x06 := by cases pair <;> simp [pairBit, hop]
  exact vecRow_elementwise hi hcode (vecWrites_arith d a b c pair 0 _ _ _ _ hop) (by omega) hpair

/-- The arithmetic rows of two operands (R99, R113, R114). -/
theorem vecRow_arith_two (hop : 0x01 ≤ op ∧ op ≤ 0x06) (pair : Bool) (g : FVal → FVal → FVal)
    (hg : ∀ x y z, arith op x y z = g x y) :
    vecRow p (laneSlot op d a b 0 (pairBit pair) 0) s =
      .next (vecPends p [(4, d, 0, List.zipWith (fun x y => laneForm pair (fun x y _ => g x y) x y 0)
        (operand p a s) (operand p b s))] s) := by
  rw [vecRow_arith d a b 0 hi hop pair, laneForm_two pair hg, map3_operand]

/-- The comparisons, the selection and the integer operations (R99, R114, R116). -/
theorem vecRow_laneInt (hop : (0x08 ≤ op ∧ op ≤ 0x0B) ∨ (0x10 ≤ op ∧ op ≤ 0x17)) :
    vecRow p (laneSlot op d a b c 0 0) s =
      .next (vecPends p [(4, d, 0, map3 (laneInt op) (operand p a s) (operand p b s) (operand p c s))] s) := by
  have hcode : op ∈ vecOpcodes := by
    simp only [vecOpcodes, List.mem_cons, List.not_mem_nil, or_false]
    omega
  exact vecRow_elementwise hi hcode (vecWrites_laneInt d a b c 0 _ _ _ _ hop) (by omega) (.inl rfl)

/-- The comparisons and the integer operations of two operands (R99, R114, R116). -/
theorem vecRow_laneInt_two (hop : (0x08 ≤ op ∧ op ≤ 0x0B) ∨ (0x10 ≤ op ∧ op ≤ 0x17)) (g : Word → Word → Word)
    (hg : laneInt op = fun x y _ => g x y) :
    vecRow p (laneSlot op d a b 0 0 0) s =
      .next (vecPends p [(4, d, 0, List.zipWith g (operand p a s) (operand p b s))] s) := by
  rw [vecRow_laneInt d a b 0 hi hop, hg, map3_operand]

end

theorem vecWrites_laneid (d a b c : Fin 32) (q x : Nat) (wd : WidenDesc) (A B C : Lanes) :
    vecWrites (laneSlot 0x19 d a b c q x) wd A B C = [(0, 0, (List.range 256).map (BitVec.ofNat 32))] := rfl

theorem vecWrites_bcast (d a b c : Fin 32) (q x : Nat) (wd : WidenDesc) (A B C : Lanes) :
    vecWrites (laneSlot 0x1A d a b c q x) wd A B C = [(0, 0, List.replicate 256 (A.getD x 0))] := rfl

/-- Settles O2: the rows of three and of two operands by their group, LANEID and BCAST by their writes. -/
theorem integerLanesWrapModulo2To32 : Obligations.IntegerLanesWrapModulo2To32 := by
  intro p d a b c x s hi A B
  refine ⟨?sel, ?iadd, ?isub, ?and, ?or, ?xor, ?shl, ?shr, ?sar, ?laneid, ?bcast⟩
  case sel => exact vecRow_laneInt (op := 0x0B) d a b c hi (by omega)
  case iadd => exact vecRow_laneInt_two (op := 0x10) d a b hi (by omega) _ rfl
  case isub => exact vecRow_laneInt_two (op := 0x11) d a b hi (by omega) _ rfl
  case and => exact vecRow_laneInt_two (op := 0x12) d a b hi (by omega) _ rfl
  case or => exact vecRow_laneInt_two (op := 0x13) d a b hi (by omega) _ rfl
  case xor => exact vecRow_laneInt_two (op := 0x14) d a b hi (by omega) _ rfl
  case shl => exact vecRow_laneInt_two (op := 0x15) d a b hi (by omega) _ rfl
  case shr => exact vecRow_laneInt_two (op := 0x16) d a b hi (by omega) _ rfl
  case sar => exact vecRow_laneInt_two (op := 0x17) d a b hi (by omega) _ rfl
  case laneid =>
    exact vecRow_elementwise (op := 0x19) (a := 0) (b := 0) (c := 0) (q := 0) (x := 0) hi (by decide) (vecWrites_laneid ..)
      (by omega) (.inl rfl)
  case bcast =>
    exact vecRow_elementwise (op := 0x1A) (b := 0) (c := 0) (q := 0) hi (by decide) (vecWrites_bcast ..)
      (by omega) (.inl rfl)

/-! ### The order of exact values (R114) -/

theorem ltV_of_nan {x y : FVal} (h : x = .nan ∨ y = .nan) : ltV x y = false := by
  obtain rfl | rfl := h
  · rfl
  · cases x <;> rfl

theorem isNan_of_nan {x y : FVal} (h : x = .nan ∨ y = .nan) : (x.isNan || y.isNan) = true := by
  obtain rfl | rfl := h
  · rfl
  · exact Bool.or_true _

theorem isNan_eq_false {x : FVal} (h : x ≠ .nan) : x.isNan = false := by
  cases x with
  | nan => exact absurd rfl h
  | inf _ => rfl
  | fin _ _ _ => rfl

/-- The signed integer of a value over a common exponent is its number of units of it (R37). -/
theorem alignTo_eq_inUnits (neg : Bool) (m : Nat) (e q : Int) : alignTo neg m e q = inUnits neg m e q := by
  cases neg <;> simp [alignTo, inUnits, Nat.shiftLeft_eq]

/-- A finer unit multiplies the number of units (R37). -/
theorem inUnits_finer (neg : Bool) (m : Nat) {e q q' : Int} (hq : q ≤ q') (he : q' ≤ e) :
    inUnits neg m e q = inUnits neg m e q' * 2 ^ (q' - q).toNat := by
  have hsplit : (e - q).toNat = (e - q').toNat + (q' - q).toNat := by omega
  rw [inUnits, inUnits, hsplit, Int.pow_add, Int.mul_assoc, Int.mul_assoc]

/-- Finite values compare by their numbers of any common unit (R114). -/
theorem ltV_fin_iff (a : Bool) (m : Nat) (j : Int) (b : Bool) (n : Nat) (k : Int) {q : Int} (hj : q ≤ j) (hk : q ≤ k) :
    ltV (.fin a m j) (.fin b n k) = true ↔ inUnits a m j q < inUnits b n k q := by
  have hfine : q ≤ min j k := by omega
  have hleft : min j k ≤ j := by omega
  have hright : min j k ≤ k := by omega
  have hpos : (0 : Int) < 2 ^ (min j k - q).toNat := Int.pow_pos (by decide)
  simp only [ltV, decide_eq_true_eq, alignTo_eq_inUnits]
  rw [inUnits_finer a m hfine hleft, inUnits_finer b n hfine hright]
  exact (Int.mul_lt_mul_right hpos).symm

theorem inUnits_zero (neg : Bool) (e q : Int) : inUnits neg 0 e q = 0 := by simp [inUnits]

/-- The comparison of values is asymmetric. -/
theorem ltV_asymm {x y : FVal} (h : ltV x y = true) : ltV y x = false := by
  cases x with
  | nan => cases h
  | inf a =>
    cases y with
    | nan => cases h
    | inf b => cases a <;> cases b <;> simp_all [ltV]
    | fin b n k =>
      have ha : a = true := h
      rw [ha]
      rfl
  | fin a m j =>
    cases y with
    | nan => cases h
    | inf b =>
      have hb : (!b) = true := h
      simpa [ltV] using hb
    | fin b n k =>
      have hleft : min j k ≤ j := by omega
      have hright : min j k ≤ k := by omega
      rw [← Bool.not_eq_true, ltV_fin_iff b n k a m j hright hleft]
      exact Int.lt_asymm ((ltV_fin_iff a m j b n k hleft hright).mp h)

/-- Zeros are equal whatever their signs (R114). -/
theorem ltV_zeros {x y : FVal} (hx : x.isZero = true) (hy : y.isZero = true) : ltV x y = false := by
  obtain ⟨a, j, rfl⟩ : ∃ a j, x = .fin a 0 j := by
    unfold FVal.isZero at hx
    split at hx
    next a j => exact ⟨a, j, rfl⟩
    next => cases hx
  obtain ⟨b, k, rfl⟩ : ∃ b k, y = .fin b 0 k := by
    unfold FVal.isZero at hy
    split at hy
    next b k => exact ⟨b, k, rfl⟩
    next => cases hy
  have hleft : min j k ≤ j := by omega
  have hright : min j k ≤ k := by omega
  rw [← Bool.not_eq_true, ltV_fin_iff a 0 j b 0 k hleft hright, inUnits_zero, inUnits_zero]
  exact Int.lt_irrefl 0

theorem not_isNan_of_ltV {x y : FVal} (h : ltV x y = true) : (x.isNan || y.isNan) = false := by
  rw [← Bool.not_eq_true, Bool.or_eq_true]
  rintro (hx | hy)
  · cases x <;> simp_all [FVal.isNan, ltV]
  · cases y <;> cases x <;> simp_all [FVal.isNan, ltV]

theorem not_zeros_of_ltV {x y : FVal} (h : ltV x y = true) : (x.isZero && y.isZero) = false := by
  rw [← Bool.not_eq_true, Bool.and_eq_true]
  rintro ⟨hx, hy⟩
  rw [ltV_zeros hx hy] at h
  cases h

/-- MAX of operands that are neither NaN nor both zero is the greater, and the first of two equal ones (R114). -/
theorem maxV_ordered {x y : FVal} (hnan : (x.isNan || y.isNan) = false) (hzero : (x.isZero && y.isZero) = false) :
    maxV x y = if ltV x y then y else x := by
  simp only [maxV, hnan, hzero, Bool.false_eq_true, if_false]

/-- MIN of operands that are neither NaN nor both zero is the less, and the first of two equal ones (R114). -/
theorem minV_ordered {x y : FVal} (hnan : (x.isNan || y.isNan) = false) (hzero : (x.isZero && y.isZero) = false) :
    minV x y = if ltV y x then y else x := by
  simp only [minV, hnan, hzero, Bool.false_eq_true, if_false]

/-- Operands are equal when neither is a NaN nor less than the other (R114). -/
theorem eqV_iff {x y : FVal} :
    eqV x y = true ↔ (x.isNan || y.isNan) = false ∧ ltV x y = false ∧ ltV y x = false := by
  simp only [eqV, Bool.and_eq_true, Bool.not_eq_true', Bool.or_eq_false_iff, and_assoc]

theorem extrema_of_nan {x y : FVal} (h : x = .nan ∨ y = .nan) :
    maxV x y = .nan ∧ minV x y = .nan ∧ eqV x y = false ∧ ltV x y = false := by
  have hnan := isNan_of_nan h
  refine ⟨if_pos hnan, if_pos hnan, ?_, ltV_of_nan h⟩
  rw [← Bool.not_eq_true, eqV_iff, hnan]
  simp

theorem extrema_of_zeros {a b : Bool} (j k : Int) (hab : a ≠ b) :
    maxV (.fin a 0 j) (.fin b 0 k) = .fin false 0 0 ∧ minV (.fin a 0 j) (.fin b 0 k) = .fin true 0 0 ∧
      eqV (.fin a 0 j) (.fin b 0 k) = true ∧ ltV (.fin a 0 j) (.fin b 0 k) = false := by
  have hsigns : (a && b) = false ∧ (a || b) = true := by
    revert a b
    decide
  refine ⟨?max, ?min, eqV_iff.mpr ⟨rfl, ltV_zeros rfl rfl, ltV_zeros rfl rfl⟩, ltV_zeros rfl rfl⟩
  case max =>
    simp only [maxV, FVal.isNan, FVal.isZero, FVal.neg, hsigns, Bool.or_self, Bool.and_self, Bool.false_eq_true, if_true, if_false]
  case min =>
    simp only [minV, FVal.isNan, FVal.isZero, FVal.neg, hsigns, Bool.or_self, Bool.and_self, Bool.false_eq_true, if_true, if_false]

theorem extrema_of_lt {x y : FVal} (h : ltV x y = true) : maxV x y = y ∧ minV x y = x := by
  rw [maxV_ordered (not_isNan_of_ltV h) (not_zeros_of_ltV h), minV_ordered (not_isNan_of_ltV h) (not_zeros_of_ltV h), h,
    ltV_asymm h]
  exact ⟨rfl, rfl⟩

theorem extrema_of_gt {x y : FVal} (h : ltV y x = true) : maxV x y = x ∧ minV x y = y := by
  have hnan : (x.isNan || y.isNan) = false := (Bool.or_comm _ _).trans (not_isNan_of_ltV h)
  have hzero : (x.isZero && y.isZero) = false := (Bool.and_comm _ _).trans (not_zeros_of_ltV h)
  rw [maxV_ordered hnan hzero, minV_ordered hnan hzero, h, ltV_asymm h]
  exact ⟨rfl, rfl⟩

theorem extrema_of_eq {x y : FVal} (h : eqV x y = true) (hx : x.isZero = false) : maxV x y = x ∧ minV x y = x := by
  obtain ⟨hnan, hlt, hgt⟩ := eqV_iff.mp h
  have hzero : (x.isZero && y.isZero) = false := by rw [hx, Bool.false_and]
  rw [maxV_ordered hnan hzero, minV_ordered hnan hzero, hlt, hgt]
  exact ⟨rfl, rfl⟩

/-- Settles O1: the rows by their group, and the comparison by its order of exact values. -/
theorem arithmeticLanesCarryOneRounding : Obligations.ArithmeticLanesCarryOneRounding := by
  refine ⟨?rows, by decide, by decide, fun x y => ⟨extrema_of_nan, ?zeros, extrema_of_lt, extrema_of_gt, ?equal, extrema_of_eq,
    ?finite, ?infinite⟩⟩
  case rows =>
    intro p d a b c pair s hi lane A B
    refine ⟨?fma, ?mul, ?add, ?sub, ?max, ?min, ?cmpeq, ?cmplt, ?cmple⟩
    case fma => exact vecRow_arith (op := 0x01) d a b c hi (by omega) pair
    case mul =>
      exact vecRow_arith_two (op := 0x02) d a b hi (by omega) pair (fun x y => addV (mulV x y) (.fin true 0 0)) fun _ _ _ => rfl
    case add => exact vecRow_arith_two (op := 0x03) d a b hi (by omega) pair (fun x y => addV (mulV x .one) y) fun _ _ _ => rfl
    case sub =>
      exact vecRow_arith_two (op := 0x04) d a b hi (by omega) pair (fun x y => addV (mulV y (.fin true 1 0)) x) fun _ _ _ => rfl
    case max => exact vecRow_arith_two (op := 0x05) d a b hi (by omega) pair maxV fun _ _ _ => rfl
    case min => exact vecRow_arith_two (op := 0x06) d a b hi (by omega) pair minV fun _ _ _ => rfl
    case cmpeq => exact vecRow_laneInt_two (op := 0x08) d a b hi (by omega) _ rfl
    case cmplt => exact vecRow_laneInt_two (op := 0x09) d a b hi (by omega) _ rfl
    case cmple => exact vecRow_laneInt_two (op := 0x0A) d a b hi (by omega) _ rfl
  case zeros =>
    rintro a j b k rfl rfl hab
    exact extrema_of_zeros j k hab
  case equal =>
    intro hx hy
    simp only [eqV_iff, isNan_eq_false hx, isNan_eq_false hy, Bool.or_self, true_and]
  case finite =>
    rintro a m j b n k rfl rfl q hj hk
    exact ltV_fin_iff a m j b n k hj hk
  case infinite =>
    rintro a rfl
    refine ⟨?_, ?_⟩
    · rintro b rfl
      rfl
    · rintro b n k rfl
      exact ⟨rfl, rfl⟩

/-! ### Conversions and special functions -/

theorem vecWrites_laneFun {op : Nat} (d a b c : Fin 32) (q x : Nat) (wd : WidenDesc) (A B C : Lanes)
    (hop : op = 0x20 ∨ op = 0x21 ∨ (0x30 ≤ op ∧ op ≤ 0x35)) :
    vecWrites (laneSlot op d a b c q x) wd A B C = [(0, 0, A.map (laneFun op))] := by
  have hother : ¬(0x01 ≤ op ∧ op ≤ 0x06) ∧ ¬((0x08 ≤ op ∧ op ≤ 0x0B) ∨ (0x10 ≤ op ∧ op ≤ 0x17)) ∧ op ≠ 0x19 ∧ op ≠ 0x1A := by omega
  simp only [vecWrites, laneSlot, hother, hop, if_true, if_false]

theorem vecWrites_block {op : Nat} (d a b c : Fin 32) (q x : Nat) (wd : WidenDesc) (A B C : Lanes)
    (hop : 0x22 ≤ op ∧ op ≤ 0x26) :
    vecWrites (laneSlot op d a b c q x) wd A B C = [(0, 0, convLanes op wd A)] := by
  have hother : ¬(0x01 ≤ op ∧ op ≤ 0x06) ∧ ¬((0x08 ≤ op ∧ op ≤ 0x0B) ∨ (0x10 ≤ op ∧ op ≤ 0x17)) ∧ op ≠ 0x19 ∧ op ≠ 0x1A ∧
    ¬(op = 0x20 ∨ op = 0x21 ∨ (0x30 ≤ op ∧ op ≤ 0x35)) := by omega
  simp only [vecWrites, laneSlot, hother, hop, if_true, if_false, and_self]

theorem vecWrites_widen (d a b c : Fin 32) (q x : Nat) (wd : WidenDesc) {A l : Lanes} (B C : Lanes) (hl : widenLanes x A = some l) :
    vecWrites (laneSlot 0x27 d a b c q x) wd A B C = [(0, 0, l)] := by
  simp [vecWrites, laneSlot, hl]

section
variable {p : Site} {op : Nat} (d a : Fin 32) {s : State} (hi : s.canIssue p = true)
include hi

/-- CVTW and CVTN convert each lane (R99, R115). -/
theorem vecRow_laneFun (hop : op = 0x20 ∨ op = 0x21) :
    vecRow p (laneSlot op d a 0 0 0 0) s = .next (vecPends p [(4, d, 0, (operand p a s).map (laneFun op))] s) := by
  have hcode : op ∈ vecOpcodes := by
    simp only [vecOpcodes, List.mem_cons, List.not_mem_nil, or_false]
    omega
  exact vecRow_elementwise hi hcode (vecWrites_laneFun d a 0 0 0 0 _ _ _ _ (by omega)) (by omega) (.inl rfl)

/-- The block conversions write their records after 8 cycles, and NARROWT counts its blocks (R54, R103). -/
theorem vecRow_block (hop : 0x22 ≤ op ∧ op ≤ 0x26) (x : Nat) :
    vecRow p (laneSlot op d a 0 0 0 x) s = .next (
      let t := vecPends p [(8, d, 0, convLanes op ((due p s).widenPoint p.r p.c x) (operand p a s))] s
      if op = 0x22 then
        (t.count (Rg.WP_TESTED p.r p.c x) 8).count (Rg.WP_WIDENED p.r p.c x)
          (widenedBlocks ((due p s).widenPoint p.r p.c x) (operand p a s))
      else t) := by
  have hcode : op ∈ vecOpcodes := by
    simp only [vecOpcodes, List.mem_cons, List.not_mem_nil, or_false]
    omega
  have hlat : vecLatency op 0 = 8 := if_pos (by omega)
  rw [vecRow_lanes_noSfu hi hcode (vecWrites_block d a 0 0 0 x _ _ _ _ hop) (by omega) (.inl rfl) (by omega) (by omega), hlat]

/-- An untested block conversion writes its compact records (R103). -/
theorem vecRow_compact {f : MxFmt} (hop : (f, op) ∈ [(MxFmt.fp4, 0x23), (.e4m3, 0x24), (.e5m2, 0x25), (.int8, 0x26)]) :
    vecRow p (laneSlot op d a 0 0 0 0) s = .next (vecPends p [(8, d, 0, bytesLanes 256 ((List.range 8).flatMap fun g =>
      compact f (mxConvert f (blockLanes (operand p a s) g))))] s) := by
  simp only [List.mem_cons, List.not_mem_nil, or_false, Prod.mk.injEq] at hop
  rw [vecRow_block d a hi (by omega)]
  obtain ⟨rfl, rfl⟩ | ⟨rfl, rfl⟩ | ⟨rfl, rfl⟩ | ⟨rfl, rfl⟩ := hop <;> rfl

/-- WIDEN writes the values of its records when none of its slots has a reserved TAG (R36, R103). -/
theorem vecRow_widen {x : Nat} (hx : x ≤ 4) {l : Lanes} (hl : widenLanes x (operand p a s) = some l) :
    vecRow p (laneSlot 0x27 d a 0 0 0 x) s = .next (vecPends p [(8, d, 0, l)] s) := by
  have hsome : (widenLanes x (operand p a s)).isSome = true := by rw [hl]; rfl
  exact vecRow_lanes_noSfu hi (by decide) (vecWrites_widen d a 0 0 0 x _ _ _ hl) (by omega) (.inl rfl) (fun _ => hx) fun _ => hsome

/-- A special function of each lane, with the unit taken from its issue for the cycles of its group (R99, R100, R119). -/
theorem vecRow_special (hop : 0x30 ≤ op ∧ op ≤ 0x35) {e lat : Nat}
    (hspan : State.sfuSpan (laneSlot op d a 0 0 0 0) (cyc p s) = some (cyc p s, cyc p s + e)) (hlat : vecLatency op 0 = lat)
    (hfree : sfuFree p (cyc p s) (cyc p s + e) s) :
    vecRow p (laneSlot op d a 0 0 0 0) s = .next (sfuTaken p (cyc p s) (some (cyc p s, cyc p s + e))
      (vecPends p [(lat, d, 0, (operand p a s).map (laneFun op))] s)) := by
  have hcode : op ∈ vecOpcodes := by
    simp only [vecOpcodes, List.mem_cons, List.not_mem_nil, or_false]
    omega
  have hunit : ∀ f g, State.sfuSpan (laneSlot op d a 0 0 0 0) (cyc p s) = some (f, g) → sfuFree p f g s := by
    rw [hspan]
    rintro f g ⟨⟩
    exact hfree
  rw [vecRow_lanes hi hcode (vecWrites_laneFun d a 0 0 0 0 _ _ _ _ (by omega)) (by omega) (.inl rfl) (by omega) (by omega) hunit,
    hspan, hlat]
  exact congrArg _ (if_neg (by omega))

/-- EXP2, LOG2, RCP and RSQRT take the unit for 4 cycles (R100). -/
theorem vecRow_special_short (hop : 0x30 ≤ op ∧ op ≤ 0x33) (hfree : sfuFree p (cyc p s) (cyc p s + 4) s) :
    vecRow p (laneSlot op d a 0 0 0 0) s = .next (sfuTaken p (cyc p s) (some (cyc p s, cyc p s + 4))
      (vecPends p [(12, d, 0, (operand p a s).map (laneFun op))] s)) := by
  have hlat : vecLatency op 0 = 12 := by rw [vecLatency, if_neg (by omega), if_pos hop]
  exact vecRow_special d a hi (by omega) (if_pos hop) hlat hfree

/-- SILU and GELU take the unit for 8 cycles (R100). -/
theorem vecRow_special_long (hop : op = 0x34 ∨ op = 0x35) (hfree : sfuFree p (cyc p s) (cyc p s + 8) s) :
    vecRow p (laneSlot op d a 0 0 0 0) s = .next (sfuTaken p (cyc p s) (some (cyc p s, cyc p s + 8))
      (vecPends p [(24, d, 0, (operand p a s).map (laneFun op))] s)) := by
  have hlat : vecLatency op 0 = 24 := by rw [vecLatency, if_neg (by omega), if_neg (by omega), if_pos hop]
  have hspan : State.sfuSpan (laneSlot op d a 0 0 0 0) (cyc p s) = some (cyc p s, cyc p s + 8) := by
    have hshort : ¬(0x30 ≤ op ∧ op ≤ 0x33) := by omega
    simp only [State.sfuSpan, laneSlot, hshort, hop, if_true, if_false]
  exact vecRow_special d a hi (by omega) hspan hlat hfree

end

/-- Settles O3: conversions of lanes, the tested and the untested ones of blocks, and WIDEN of sound records. -/
theorem conversionsWriteTheirRecords : Obligations.ConversionsWriteTheirRecords := by
  intro p d a x s hi A wd
  refine ⟨?cvtw, ?cvtn, ?narrowt, ?compact, ?widen⟩
  case cvtw => exact vecRow_laneFun (op := 0x20) d a hi (.inl rfl)
  case cvtn => exact vecRow_laneFun (op := 0x21) d a hi (.inr rfl)
  case narrowt => exact vecRow_block (op := 0x22) d a hi (by omega) x.toNat
  case compact =>
    intro f i hrow
    simp only [List.mem_cons, List.not_mem_nil, or_false, Prod.mk.injEq] at hrow
    obtain ⟨rfl, rfl⟩ | ⟨rfl, rfl⟩ | ⟨rfl, rfl⟩ | ⟨rfl, rfl⟩ := hrow
    · exact vecRow_compact (op := 0x23) d a hi (by simp)
    · exact vecRow_compact (op := 0x24) d a hi (by simp)
    · exact vecRow_compact (op := 0x25) d a hi (by simp)
    · exact vecRow_compact (op := 0x26) d a hi (by simp)
  case widen => exact fun l hx hl => vecRow_widen d a hi hx hl

/-- Settles O4: the functions of 4 and of 8 cycles of the unit. -/
theorem specialFunctionsOccupyTheUnit : Obligations.SpecialFunctionsOccupyTheUnit := by
  intro p d a s hi n busy
  refine ⟨?short, ?long⟩
  case short =>
    intro hfree f i hrow
    simp only [List.mem_cons, List.not_mem_nil, or_false, Prod.mk.injEq] at hrow
    obtain ⟨rfl, rfl⟩ | ⟨rfl, rfl⟩ | ⟨rfl, rfl⟩ | ⟨rfl, rfl⟩ := hrow
    · exact vecRow_special_short (op := 0x30) d a hi (by omega) hfree
    · exact vecRow_special_short (op := 0x31) d a hi (by omega) hfree
    · exact vecRow_special_short (op := 0x32) d a hi (by omega) hfree
    · exact vecRow_special_short (op := 0x33) d a hi (by omega) hfree
  case long =>
    intro hfree f i hrow
    simp only [List.mem_cons, List.not_mem_nil, or_false, Prod.mk.injEq] at hrow
    obtain ⟨rfl, rfl⟩ | ⟨rfl, rfl⟩ := hrow
    · exact vecRow_special_long (op := 0x34) d a hi (.inl rfl) hfree
    · exact vecRow_special_long (op := 0x35) d a hi (.inr rfl) hfree

end Sys2Proof.Machine
end

section
/-!
PROOFS. The slots that govern and start things: CTL (R91, R465), the segment pop (R176), the engines' operations and codebook
loads (R60, R92 to R97), MEM (R104 to R106, R141) and ROUTE (R107, R108).
-/
namespace Sys2Proof.Machine
open Sys2Proof.Claims

/-! ### The CTL slot and the segment pop -/

/-- A CTL row of a cluster that may issue acts. -/
theorem ctlRow_acts {p : Site} {f : State → State} {s : State} (hi : s.canIssue p = true) : ctlRow p f s = .next (f s) :=
  congrArg _ (if_pos hi)

/-- LOOP pushes the frame of the bundles that follow, which run `cnt` times more after their first (R91). -/
theorem Cluster.ctlLoop_succ (k : Cluster) (len cnt : Nat) :
    k.ctlLoop len (cnt + 1) = { k with pc := (k.pc + 1) % 16384, loops := ⟨(k.pc + 1) % 16384, len, cnt⟩ :: k.loops } := rfl

/-- Outside a swap and a stop the barrier has no last step (R294, R299). -/
theorem State.holdFinish_idle {s : State} (hswap : s.loader.job ≠ .swap) (hstop : s.loader.job ≠ .stop) : s.holdFinish = s := by
  unfold State.holdFinish
  split
  next h => exact absurd h hswap
  next h => exact absurd h hstop
  next => rfl

/-- MARK's word of a 16-bit value (R465). -/
theorem State.ctlMark_value (s : State) (r c : Nat) (v : BitVec 16) :
    s.ctlMark r c v.toNat =
      (((s.wr (Rg.TRACE r (4 * s.fld (Rg.TRACE_IDX_IDX r))) (s.region r).cycle).wr
        (Rg.TRACE r (4 * s.fld (Rg.TRACE_IDX_IDX r) + 1)) (v.toNat * 65536 + c)).wr
        (Rg.TRACE r (4 * s.fld (Rg.TRACE_IDX_IDX r) + 2)) (((s.region r).seg.map SegRun.no).getD 0x7FFF)).setFld
        (Rg.TRACE_IDX_IDX r) ((s.fld (Rg.TRACE_IDX_IDX r) + 1) % 256) := by
  rw [State.ctlMark, Nat.mod_eq_of_lt v.isLt]

theorem exec_idle (p : Site) (n : BitVec 16) (s : State) :
    exec (.idle p n) s = ctlRow p (fun s => s.modCluster p.r p.c fun k => k.ctlIdle n.toNat) s := rfl

theorem exec_loop (p : Site) (len : BitVec 10) (cnt : BitVec 16) (s : State) :
    exec (.loop p len cnt) s = ctlRow p (fun s => s.modCluster p.r p.c fun k => k.ctlLoop (len.toNat + 1) (cnt.toNat + 1)) s := rfl

theorem exec_segend (p : Site) (s : State) : exec (.segend p) s = ctlRow p (fun s => s.ctlSegend p.r) s := rfl

theorem exec_mark (p : Site) (v : BitVec 16) (s : State) :
    exec (.mark p v) s = ctlRow p (fun s => (s.ctlMark p.r p.c v.toNat).modCluster p.r p.c Cluster.advance) s := rfl

/-- Settles O7: each row by what its slot does to the cluster, the region or the trace buffer. -/
theorem ctlSlotsGovernTheNextBundle : Obligations.CtlSlotsGovernTheNextBundle := by
  intro p n cnt v len s hi i g
  have hsegend : exec (.segend p) s = .next (s.modRegion p.r fun g => { g with seg := none }).holdFinish :=
    (exec_segend p s).trans (ctlRow_acts hi)
  refine ⟨?idle, ?loop, hsegend, ?segend, ?mark⟩
  case idle =>
    have hzero : n.toNat = 0 ↔ n = 0 := by rw [← BitVec.toNat_inj]; rfl
    rw [exec_idle, ctlRow_acts hi]
    simp only [Cluster.ctlIdle, hzero]
  case loop =>
    rw [exec_loop, ctlRow_acts hi]
    simp only [Cluster.ctlLoop_succ]
  case segend => exact fun hswap hstop => hsegend.trans (congrArg _ (State.holdFinish_idle hswap hstop))
  case mark => rw [exec_mark, ctlRow_acts hi, State.ctlMark_value]

/-- A region that may begin a segment of the image in force begins it (R176). -/
theorem State.beginSegment_listed {s : State} {r no idx : Nat} {rest : List Nat} (hq : (s.region r).segq = no :: rest)
    (hidx : segIndex s.image s.place no = some idx) :
    s.beginSegment r =
      let cs := s.enabledClusters r
      let last := (s.region r).cycle + 2 ^ 33
      let t := allClusters (fun s c => s.landSel r c last fun p => !isDeliver p) cs s
      let u := allClusters (fun s c => s.landSel r c (last + 4) fun p => !isDeliver p) cs t
      let v := (allClusters (fun s c => s.enterCluster r c idx) cs u).modRegion r fun g =>
        { g with seg := some ⟨no, idx⟩, cycle := 0, segq := rest, stall := 0, wstall := 0, stallReqs := [] }
      let w := v.wr (Rg.SEGSEQ r) (v.rd (Rg.SEGSEQ r) + 1)
      if w.fld Rg.IMG_STAT_STATE = 3 then w.setImgState 4 else w := by
  simp only [State.beginSegment, hq, hidx]

/-- Settles O8: the pop of a listed segment, cluster by cluster. -/
theorem segmentPopEntersEveryCluster : Obligations.SegmentPopEntersEveryCluster := by
  intro r no idx rest s hbegin hq hidx last land u enter v w
  have hrow : exec (.segmentBegin r) s = .next (s.beginSegment r) := congrArg _ (if_pos hbegin)
  rw [hrow, State.beginSegment_listed hq hidx]
  rfl

/-! ### Engine operations and codebook loads -/

namespace State

/-- An engine operation of a sound descriptor whose table, if it has one, the store holds streams its tiles and occupies its
engine (R92, R96). -/
theorem engineIssue_runs {s : State} {r c : Nat} {e : EngSlot} {kind n bundle : Nat}
    (hclean : (Store.get PCell.zero (s.cluster r c).prog e.daddr).flip = 0)
    (htable : isCb (OpDesc.ofWord (s.progPeek r c e.daddr)).wfmt = false
      ∨ (OpDesc.ofWord (s.progPeek r c e.daddr)).cblen = (s.cluster r c).cbLen) :
    s.engineIssue r c e kind n bundle =
      let d := OpDesc.ofWord (s.progPeek r c e.daddr)
      (s.addPend r c (tileEvents (portCycle d n) e.tile d.ntiles bundle kind (s.segNo r))).modCluster r c fun k =>
        { k with runs := k.runs ++ [⟨kind, e, d, n, bundle, [], [], 0, n + 1, groupSlack d 0⟩],
                 pressEnd := if kind = 1 then n + d.dur else k.pressEnd,
                 pourEnd := if kind = 1 then k.pourEnd else n + d.dur } := by
  have hgood : ¬(isCb (OpDesc.ofWord (s.progPeek r c e.daddr)).wfmt
      && (OpDesc.ofWord (s.progPeek r c e.daddr)).cblen != (s.cluster r c).cbLen) = true := by
    rw [Bool.and_eq_true, bne_iff_ne]
    rintro ⟨hcb, hlen⟩
    exact htable.elim (fun h => Bool.noConfusion (h.symm.trans hcb)) hlen
  unfold engineIssue
  rw [progFetch_clean s r c e.daddr kind hclean]
  exact if_neg hgood

/-- A K-step of sound slots and sound weights goes on to the next: a wide one takes its second pass from the group's slack, or
stalls the region and is counted (R79, R80, R94). -/
theorem engineStep_sound {s : State} {r c n : Nat} {x : EngRun} (htag : badTag x.d (s.sampleSlots r c x).1 = none)
    (hidx : Machine.badIdx x.d ((s.sampleSlots r c x).2.engineTiles r c x.e.tile x.d.ntiles)
      (fun j => (s.sampleSlots r c x).2.tilePending r c (x.e.tile + j)) x.step = none) :
    s.engineStep r c n x =
      let slots := (s.sampleSlots r c x).1
      let u := (s.sampleSlots r c x).2
      let left := if x.step % 32 = 0 then groupSlack x.d x.step else x.slack
      let wide := x.kind = 1 ∧ wideStep x.d slots = true
      (some { x with buf := x.buf ++ slots, step := x.step + 1, slack := if wide ∧ 0 < left then left - 1 else left,
                     at_ := stepAt x.d x.issue (x.step + 1) x.at_ (if wide ∧ 0 < left then 2 else 1) },
       if wide ∧ left = 0 then (u.askStall r ⟨n + 1, 1, 16, none⟩).count (Rg.XSTEP_COUNT r c) 1 else u) := by
  simp only [engineStep, htag, hidx, Bool.and_eq_true, beq_iff_eq, decide_eq_true_eq]

/-- An operation whose K-steps are done begins none (R94). -/
theorem engineSteps_done (s : State) (r c n : Nat) {x : EngRun} (hdone : x.d.ksteps ≤ x.step) :
    ∀ f, s.engineSteps r c n f x = (some x, s)
  | 0 => rfl
  | _ + 1 => if_pos (.inl hdone)

/-- An operation that reads no bias word and whose K-steps and cycles are over leaves its results (R95, R96). -/
theorem engineRun_over {s : State} {r c n : Nat} {x : EngRun} (hbias : biasWords (s.handle r c x.d.biash) x n = [])
    (hdone : x.d.ksteps ≤ x.step) (hover : x.issue + x.d.dur ≤ n) : s.engineRun r c n x = (none, s.engineFinish r c x) := by
  have hsteps := engineSteps_done s r c n (x := { x with bias := x.bias ++ [] }) hdone x.d.ksteps
  simp only [List.append_nil] at hsteps
  simp only [engineRun, hbias, List.append_nil, hsteps, hover, if_true]

end State

/-- Settles O11: at the issue, in a K-step, and at the end. -/
theorem engineRunMakesItsResults : Obligations.EngineRunMakesItsResults := by
  refine ⟨?issue, fun r c n x s => ⟨?step, ?finish⟩⟩
  case issue =>
    intro p daddr half accb tile kind run s hrun t n pc d e hi hok hclean htable
    calc exec run s
        = .next (t.engineIssue p.r p.c e kind n pc) := exec_run_issues hrun hi hok
      _ = _ := congrArg _ (State.engineIssue_runs hclean htable)
  case step => exact fun htag hidx => State.engineStep_sound htag hidx
  case finish => exact fun hbias hdone hover => State.engineRun_over hbias hdone hover

theorem exec_cbload (p : Site) (tile : BitVec 13) (nt : BitVec 2) (s : State) :
    exec (.cbload p tile nt) s = slotRow p (fun s n => s.cbOk p.r p.c tile.toNat (nt.toNat + 1) n)
      (fun s n b => s.cbIssue p.r p.c tile.toNat (nt.toNat + 1) n b) s := rfl

/-- Settles O13: a CBLOAD inside the weight tier with a free pour port issues. -/
theorem codebookLoadFillsTheStore : Obligations.CodebookLoadFillsTheStore := by
  intro p tile nt s hi htiles hport n m pc len
  have hok : s.cbOk p.r p.c tile.toNat m n = true := by
    simp only [State.cbOk, Bool.and_eq_true, decide_eq_true_eq]
    exact ⟨htiles, hport⟩
  calc exec (.cbload p tile nt) s
      = .next ((due p s).cbIssue p.r p.c tile.toNat m n pc) := (exec_cbload p tile nt s).trans (slotRow_issues hi hok)
    _ = _ := rfl

/-! ### MEM and ROUTE -/

/-- A transfer whose descriptor has been fetched joins the MEM path (R104, R106). -/
theorem State.xferIssue_fetched {s : State} {r c taddr : Nat} {w : ProgWord} (form : Bool) (n bundle : Nat)
    (hfetch : s.progFetch r c taddr 4 = (some w, s)) :
    s.xferIssue r c taddr form n bundle = s.modCluster r c fun k =>
      { k with mem := k.mem ++ [{ d := XferDesc.ofWord w, rel := false, form := form, issue := n, bundle := bundle, buf := [] }] } := by
  unfold State.xferIssue
  rw [hfetch]

/-- A transfer of a legal descriptor of its kind takes the free MEM path (R90, R106). -/
theorem xferRow_issues {p : Site} {taddr : BitVec 14} {form : Bool} {kind : Nat} {s : State} (hi : s.canIssue p = true)
    (hfree : s.memFree p.r p.c (cyc p s) = true) (hok : (XferDesc.ofWord (s.progPeek p.r p.c taddr.toNat)).ok form = true)
    (hkind : (XferDesc.ofWord (s.progPeek p.r p.c taddr.toNat)).kind = kind) (hclean : progClean p taddr.toNat (due p s)) :
    xferRow p taddr form kind s = .next ((due p s).modCluster p.r p.c fun k =>
      { k with mem := k.mem ++ [{ d := XferDesc.ofWord ((due p s).progPeek p.r p.c taddr.toNat), rel := false, form := form,
                                  issue := cyc p s, bundle := (s.cluster p.r p.c).pc, buf := [] }] }) := by
  have hsel : s.xferOk p.r p.c taddr.toNat (cyc p s) form (fun d => d.kind == kind) = true := by
    simp only [State.xferOk, hok, hkind, hfree, beq_self_eq_true, Bool.and_self]
  calc xferRow p taddr form kind s
      = .next ((due p s).xferIssue p.r p.c taddr.toNat form (cyc p s) (s.cluster p.r p.c).pc) := slotRow_issues hi hsel
    _ = _ := congrArg _ (State.xferIssue_fetched form _ _ (State.progFetch_clean _ _ _ _ _ hclean))

theorem exec_rel (p : Site) (h : Fin 64) (s : State) :
    exec (.rel p h) s = slotRow p (fun s n => s.memFree p.r p.c n) (fun s n b => s.relIssue p.r p.c h n b) s := rfl

/-- Settles O16: a release by itself, and the six rows of a transfer. -/
theorem transfersTakeTheMemPath : Obligations.TransfersTakeTheMemPath := by
  intro p taddr form h s hi hfree n pc
  refine ⟨?release, ?transfer⟩
  case release =>
    calc exec (.rel p h) s
        = .next ((due p s).relIssue p.r p.c h n pc) := (exec_rel p h s).trans (slotRow_issues hi hfree)
      _ = _ := rfl
  case transfer =>
    intro kind i f hrow hok hkind hclean
    have hrun : exec i s = xferRow p taddr f kind s := by
      simp only [List.mem_cons, List.not_mem_nil, or_false, Prod.mk.injEq] at hrow
      obtain ⟨rfl, rfl, rfl⟩ | ⟨rfl, rfl, rfl⟩ | ⟨rfl, rfl, rfl⟩ | ⟨rfl, rfl, rfl⟩ | ⟨rfl, rfl, rfl⟩ | ⟨rfl, rfl, rfl⟩ := hrow <;> rfl
    exact hrun.trans (xferRow_issues hi hfree hok hkind hclean)

/-- A ROUTE whose descriptor has been fetched starts its stream, unless that has been brought in for this cycle (R107, R158). -/
theorem State.routeIssue_fetched {s : State} {r c raddr : Nat} {w : ProgWord} (form : Bool) (n bundle : Nat)
    (hfetch : s.progFetch r c raddr 5 = (some w, s)) :
    s.routeIssue r c raddr form n bundle =
      if (s.cluster r c).streams.any (fun x => x.issue == n) then s
      else s.modCluster r c fun k => { k with streams := k.streams ++ [s.newStream r c raddr w form n bundle] } := by
  unfold State.routeIssue
  rw [hfetch]

/-- Settles O17: the seven modes are one row. -/
theorem routesStartTheirStreams : Obligations.RoutesStartTheirStreams := by
  intro p raddr form m i s hi hrow hok hclean d fe st
  have hrun : exec i s = routeRow p raddr form m s := by
    simp only [List.mem_cons, List.not_mem_nil, or_false, Prod.mk.injEq] at hrow
    obtain ⟨rfl, rfl⟩ | ⟨rfl, rfl⟩ | ⟨rfl, rfl⟩ | ⟨rfl, rfl⟩ | ⟨rfl, rfl⟩ | ⟨rfl, rfl⟩ | ⟨rfl, rfl⟩ := hrow <;> rfl
  calc exec i s
      = .next ((due p s).routeIssue p.r p.c raddr.toNat form (cyc p s) (s.cluster p.r p.c).pc) :=
        hrun.trans (slotRow_issues hi hok)
    _ = _ := congrArg _ (State.routeIssue_fetched form _ _ (State.progFetch_clean _ _ _ _ _ hclean))

end Sys2Proof.Machine
end

section
/-!
PROOFS. The landing of effects (R87): which effects each completion row lands, and what each kind of effect leaves (R41, R67, R69,
R70, R105, R125, R128, R130 to R132, R143, R144).
-/
namespace Sys2Proof.Machine
open Sys2Proof.Claims

/-! ### The completion rows -/

/-- A completion row of a cluster whose region is live acts. -/
theorem live_acts {s t : State} {r : Nat} (h : s.live r = true) : (.next (if s.live r then t else s) : Out) = .next t :=
  congrArg _ (if_pos h)

theorem exec_tileCrcComparison {p : Site} {s : State} {e : Pend} (hlive : s.live p.r = true) (he : s.dueCompare p = some e) :
    exec (.tileCrcComparison p) s =
      .next ((s.modCluster p.r p.c fun k => { k with pend := k.pend.erase e }).landEff p.r p.c (cyc p s) e) := by
  show execTileCrcComparison p s = _
  simp only [execTileCrcComparison, he, hlive, if_true]
  rfl

/-- Settles O14: three rows land the effects that they select, the fourth the oldest comparison. -/
theorem dueResultsLandInOrder : Obligations.DueResultsLandInOrder := by
  intro p s hlive n pend landed
  refine ⟨?vector, ?engine, ?transfer, fun e he => exec_tileCrcComparison hlive he⟩
  case vector => exact live_acts hlive
  case engine => exact live_acts hlive
  case transfer => exact live_acts hlive

/-! ### Accumulators -/

theorem accInRange_iff {a : Int} : accInRange a = true ↔ -(2 ^ 639 : Int) ≤ a ∧ a < 2 ^ 639 := by
  simp only [accInRange, Bool.and_eq_true, decide_eq_true_eq]

/-- An addition adds on the accumulator grid, in the 640-bit range alone (R41, R69). -/
theorem Acc.add_fin (x : Acc) (sg : Bool) (m : Nat) (e : Int) :
    x.add (.fin sg m e) = if -(2 ^ 639 : Int) ≤ x.a + gridInt sg m e ∧ x.a + gridInt sg m e < 2 ^ 639
      then some { x with a := x.a + gridInt sg m e } else none := by
  simp only [Acc.add, accInRange_iff]

/-- A fold adds the integers and joins the flags, in the 640-bit range alone (R69, R70). -/
theorem Acc.fold_eq (x y : Acc) :
    x.fold y = if -(2 ^ 639 : Int) ≤ x.a + y.a ∧ x.a + y.a < 2 ^ 639
      then some ⟨x.a + y.a, x.pinf || y.pinf, x.ninf || y.ninf, x.nan || y.nan⟩ else none := by
  simp only [Acc.fold, accInRange_iff]

namespace State

variable (s : State) (r c n due b sl : Nat)

/-- An addition into an accumulator that stays in the 640-bit range changes its integer; one that would leave it faults (R41, R67,
R69). -/
theorem landEff_accAdd_fin (i : Nat) (sg : Bool) (m : Nat) (e : Int) :
    s.landEff r c n ⟨due, b, sl, .accAdd i (.fin sg m e)⟩ =
      let a := (s.acc r c i).a + gridInt sg m e
      if -(2 ^ 639 : Int) ≤ a ∧ a < 2 ^ 639 then
        s.modCluster r c fun k => { k with accs := Store.set Acc.reset k.accs i { s.acc r c i with a := a } }
      else s.raise r { code := 0x20A, cluster := c, bundle := b, slot := sl, detail := i } := by
  simp only [landEff, Acc.add_fin]
  by_cases hrange : -(2 ^ 639 : Int) ≤ (s.acc r c i).a + gridInt sg m e ∧ (s.acc r c i).a + gridInt sg m e < 2 ^ 639
  · simp only [if_pos hrange]
  · simp only [if_neg hrange]

/-- A fold of an accumulator into another adds their integers and joins their flags, or faults (R69, R70). -/
theorem landEff_accFold (i : Nat) (y : Acc) :
    s.landEff r c n ⟨due, b, sl, .accFold i y⟩ =
      let x := s.acc r c i
      if -(2 ^ 639 : Int) ≤ x.a + y.a ∧ x.a + y.a < 2 ^ 639 then
        let sum : Acc := ⟨x.a + y.a, x.pinf || y.pinf, x.ninf || y.ninf, x.nan || y.nan⟩
        s.modCluster r c fun k => { k with accs := Store.set Acc.reset k.accs i sum }
      else s.raise r { code := 0x20A, cluster := c, bundle := b, slot := sl, detail := i } := by
  simp only [landEff, Acc.fold_eq]
  by_cases hrange : -(2 ^ 639 : Int) ≤ (s.acc r c i).a + y.a ∧ (s.acc r c i).a + y.a < 2 ^ 639
  · simp only [if_pos hrange]
  · simp only [if_neg hrange]

/-! ### Ports -/

/-- Bytes that arrive at a buffer half (R105). -/
theorem landEff_buffer {port : Nat} (hport : port ≤ 3) (sel o h : Nat) (bs : List Byte) :
    s.landEff r c n ⟨due, b, sl, .port port sel o h bs⟩ = s.modCluster r c fun k =>
      { k with abuf := Store.setMany 0 k.abuf (bufBase port + o) (bs.take (portSize port 0 - o)),
               from_ := Store.put k.from_ port h } := by
  simp only [landEff, portLand, portName, hport, if_true]

/-! ### Bank accesses and comparisons -/

/-- The bank access of a write takes the flip mask that is armed for its bank, which disarms it, and its word is visible four
cycles later (R130, R143). -/
theorem landEff_spAccess (a : Nat) (w : DWord) :
    s.landEff r c n ⟨due, b, sl, .spAccess a w⟩ =
      let armed := s.flag (Rg.SPFLIP_CTL_ARM r c) = true ∧ s.fld (Rg.SPFLIP_CTL_BANK r c) = a / 8192
      let mask := s.rd (Rg.SPFLIP_D0 r c) + s.rd (Rg.SPFLIP_D1 r c) * 2 ^ 32 + s.fld (Rg.SPFLIP_CTL_CHK r c) * 2 ^ 64
      let t := if armed then s.setFld (Rg.SPFLIP_CTL_ARM r c) 0 else s
      t.addPend r c [⟨n + 4, b, sl, .spVisible a (if armed then ⟨w, BitVec.ofNat 72 mask, true⟩ else ⟨w, 0, true⟩)⟩] := by
  simp only [landEff, spCell, Bool.and_eq_true, beq_iff_eq]
  split <;> rfl

theorem cluster_setFld (f : Fld) (v : Nat) : (s.setFld f v).cluster r c = s.cluster r c := by
  simp only [cluster, setFld_clusters]

/-- A tile's comparison, its CRC inverted in bit 0 when the test is armed for it, faults on a mismatch (R125, R144). -/
theorem landEff_tileCmp (t seg : Nat) :
    s.landEff r c n ⟨due, b, sl, .tileCmp t seg⟩ =
      let armed := s.flag (Rg.WTCRC_TEST_ARM r c) = true ∧ s.fld (Rg.WTCRC_TEST_TILE r c) = t
      let crc := if armed then crc32c (s.tileBytes r c t) ^^^ 1 else crc32c (s.tileBytes r c t)
      let u := if armed then s.setFld (Rg.WTCRC_TEST_ARM r c) 0 else s
      let tag := (Store.get 0 (s.cluster r c).tags t).toNat
      if crc = tag then u else (u.count (Rg.WT_CHK_COUNT r c) 1).raiseAt r seg (due % 2 ^ 32)
        { code := 0x204, cluster := c, bundle := b, slot := sl, qh := 0x8000 + t, detail := crc, aux := tag } := by
  simp only [landEff, tileCompare, Bool.and_eq_true, beq_iff_eq]
  by_cases harmed : s.flag (Rg.WTCRC_TEST_ARM r c) = true ∧ s.fld (Rg.WTCRC_TEST_TILE r c) = t
  · simp only [if_pos harmed, cluster_setFld]
  · simp only [if_neg harmed]

end State

/-- Settles O15: kind by kind; the rules of accumulators, buffers, bank accesses and comparisons are the lemmas above. -/
theorem landedEffectsLeaveTheirValues : Obligations.LandedEffectsLeaveTheirValues := by
  intro r c n due b sl s land
  refine ⟨?vreg, ?buffer, ?register, ?spBad, ?spFixed, ?format, ?accSet, ?pacc, ?qacc, ?accAdd, ?accFlag, ?accFold, ?file,
    ?spAccess, ?cbStore, ?deliver, ?spClear, ?spVisible, ?tileFirst, ?tileCmp⟩
  case vreg => exact fun _ _ => rfl
  case buffer => exact fun port sel o h bs hport => s.landEff_buffer r c n due b sl hport sel o h bs
  case register => exact fun _ _ _ _ => rfl
  case spBad => exact fun _ _ => rfl
  case spFixed => exact fun _ _ => rfl
  case format => exact fun _ _ _ => rfl
  case accSet => exact fun _ _ => rfl
  case pacc => exact fun _ _ => rfl
  case qacc => exact fun _ _ => rfl
  case accAdd => exact fun i sg m e => s.landEff_accAdd_fin r c n due b sl i sg m e
  case accFlag =>
    intro i v f hflag
    simp only [List.mem_cons, List.not_mem_nil, or_false, Prod.mk.injEq] at hflag
    obtain ⟨rfl, rfl⟩ | ⟨rfl, rfl⟩ | ⟨rfl, rfl⟩ := hflag <;> rfl
  case accFold => exact fun i y => s.landEff_accFold r c n due b sl i y
  case file => exact fun _ _ _ _ => rfl
  case spAccess => exact fun a w => s.landEff_spAccess r c n due b sl a w
  case cbStore => exact fun _ _ => rfl
  case deliver => exact fun _ _ _ _ _ => rfl
  case spClear => exact fun _ => rfl
  case spVisible => exact fun _ _ => rfl
  case tileFirst => exact fun _ _ => rfl
  case tileCmp => exact fun t seg => s.landEff_tileCmp r c n due b sl t seg

end Sys2Proof.Machine
end

section
/-!
PROOFS. Writes of the test, release and clear registers (R125, R143, R213, R295, R354, R402, R403, R470): where the access leads,
and what the register's row or its own rule leaves.
-/
namespace Sys2Proof.Machine
open Sys2Proof.Claims

namespace State

/-! ### What a write leaves at its register -/

/-- A register that is no counter and has neither configuration bits nor bits that a 1 clears takes the bits of its mask (R455). -/
theorem regWrite_plain (s : State) (p : Place) {w : RegRow} (req : Requester) (a v : Nat) (hcounter : w.counter = false)
    (hrwd : w.rwd = 0) (hw1c : w.w1c = 0) : s.regWrite p w req a v = s.wr a (maskInto (s.rd a) w.rw v) := by
  have hwritten (en : Bool) (old : Nat) : w.written en old v = maskInto old w.rw v := by
    simp [RegRow.written, hcounter, hrwd, hw1c]
  have hignored (en : Bool) (old : Nat) : w.ignored en old v = false := by
    simp [RegRow.ignored, hrwd]
  simp only [regWrite, hwritten, hignored, Bool.false_eq_true, if_false]

theorem regionWrite_dflipCtl (s : State) (r i : Nat) {w : RegRow} (req : Requester) (a v : Nat) (hoff : w.off = 0x1F0004024)
    (hcounter : w.counter = false) (hrwd : w.rwd = 0) (hw1c : w.w1c = 0) :
    s.regionWrite r w i req a v = s.wr a (maskInto (s.rd a) w.rw v) := by
  simp only [regionWrite, hoff, s.regWrite_plain _ req a v hcounter hrwd hw1c]

theorem regionWrite_swpHold (s : State) (r i : Nat) {w : RegRow} (req : Requester) (a v : Nat) (hoff : w.off = 0x1F0000320) :
    s.regionWrite r w i req a v = (s.setFld (Rg.SWP_HOLD_ARM r) (bits v 31 31)).holdFinish := by
  simp only [regionWrite, hoff, swpHoldWrite]

theorem regionWrite_fback (s : State) (r i : Nat) {w : RegRow} (req : Requester) (a v : Nat) (hoff : w.off = 0x1F0002404) :
    s.regionWrite r w i req a v = s.modRegion r fun g => { g with faults := g.faults.drop (bits v 5 0) } := by
  simp only [regionWrite, hoff, release]

theorem regionWrite_clktune (s : State) (r i : Nat) {w : RegRow} (req : Requester) (a v : Nat) (hoff : w.off = 0x1F0000800) :
    s.regionWrite r w i req a v =
      (if v.testBit 31 = true then s.setFld (Rg.CLKTUNE_CEILREF r) 0 else s).ceilWrite r (bits v 6 0) := by
  simp only [regionWrite, hoff, clktuneWrite, bit]
  rfl

theorem edgeWrite_fback (s : State) (i : Nat) {w : RegRow} (req : Requester) (a v : Nat) (h : Option HostAns)
    (hoff : w.off = 0x51404) :
    s.edgeWrite w i req a v h = s.modRegion 96 fun g => { g with faults := g.faults.drop (bits v 5 0) } := by
  simp only [edgeWrite, hoff, release]

theorem edgeWrite_elogHead (s : State) (i : Nat) {w : RegRow} (req : Requester) (a v : Nat) (h : Option HostAns)
    (hoff : w.off = 0x50004) : s.edgeWrite w i req a v h = s.elogAdvance v := by
  simp only [edgeWrite, hoff]

/-- GO clears the range that OFF and LEN name in whole units of 512 bytes, unless it leaves control memory or is empty, or a clear
runs: REFUSED says so (R470). -/
theorem edgeWrite_cmclrGo (s : State) (i : Nat) {w : RegRow} (req : Requester) (a v : Nat) (h : Option HostAns)
    (hoff : w.off = 0x72008) (hgo : v.testBit 31 = true) :
    s.edgeWrite w i req a v h =
      let off := s.fld Rg.CMCLR_OFF_OFF / 512 * 512
      let len := s.fld Rg.CMCLR_LEN_LEN / 512 * 512
      if 0x10000000 < off + len ∨ len = 0 ∨ s.flag Rg.CMCLR_STAT_BUSY then s.setFld Rg.CMCLR_STAT_REFUSED 1
      else { (s.setFld Rg.CMCLR_STAT_REFUSED 0).setFld Rg.CMCLR_STAT_BUSY 1 with
        crypto := { s.crypto with clear := some (off / 8, len / 8, []) } } := by
  simp only [edgeWrite, hoff, clearGo, bit, hgo, Bool.not_true, Bool.false_eq_true, if_false]

/-! ### Accesses by their row -/

/-- A plain register of a cluster, written through an open path, takes the bits of its mask. -/
theorem accessWrite_plainCluster {s : State} {req : Requester} {o i : Nat} {w : RegRow} (p : Site) (v : Word)
    (hon : s.answers req = true) (hreach : s.reachable p.r = true) (hpath : s.routed (clusterBase p.r p.c + o) = true)
    (hrange : 0xA004800 ≤ o ∧ o < 0x10000000 ∧ o % 4 = 0) (hrow : findRow o clusterRows = some (w, i))
    (hcounter : w.counter = false) (hrwd : w.rwd = 0) (hw1c : w.w1c = 0) :
    s.accessWrite req (clusterBase p.r p.c + o) v none =
      answered req (s.wr (clusterBase p.r p.c + o) (maskInto (s.rd (clusterBase p.r p.c + o)) w.rw v.toNat)) := by
  obtain ⟨hlo, hhi, halign⟩ := hrange
  rw [s.accessWrite_cluster req p.r p.c o v none w i hon p.r.isLt p.c.isLt hlo hhi halign hrow hreach hpath,
    s.regWrite_plain _ req _ _ hcounter hrwd hw1c, answered]

/-- A write of a region's own register, through an open path, has the effect of its row (R465). -/
theorem accessWrite_ownRegister {s t : State} {req : Requester} {o i : Nat} {w : RegRow} (r : Fin 96) (v : Word)
    (hon : s.answers req = true) (hreach : s.reachable r = true) (hpath : s.routed (regionBase r + o) = true)
    (hrange : 0x1C0000000 ≤ o ∧ o < 0x200000000 ∧ o % 4 = 0) (hrow : findRow o regionRows = some (w, i))
    (heffect : s.regionWrite r w i req (regionBase r + o) v.toNat = t) :
    s.accessWrite req (regionBase r + o) v none = answered req t := by
  obtain ⟨hlo, hhi, halign⟩ := hrange
  rw [s.accessWrite_region req r o v none w i hon r.isLt hlo hhi halign hrow hreach hpath, heffect, answered]

/-- A write of a register of the edge window that is not guarded has the effect of its row (R456). -/
theorem accessWrite_edgeRegister {s t : State} {req : Requester} {a i : Nat} {w : RegRow} (v : Word) (hon : s.answers req = true)
    (hrange : a < cmemBase ∧ a % 4 = 0) (hguard : guardedFirst a = false ∧ guardedSecond a = false)
    (hrow : findRow a edgeRows = some (w, i)) (heffect : s.edgeWrite w i req a v.toNat none = t) :
    s.accessWrite req a v none = answered req t := by
  obtain ⟨hhi, halign⟩ := hrange
  rw [s.accessWrite_edge req a v none w i hon halign hguard.1 hguard.2 (placeOf_edge a hhi w i hrow), heffect, answered]

end State

/-! ### Each command is one write of its register -/

theorem exec_spflipArm (req : Requester) (p : Site) (v : Word) (s : State) :
    exec (.spflipArm req p v) s = .next (s.accessWrite req (clusterBase p.r p.c + 0xF000418) v none) := rfl

theorem exec_wtcrcTest (req : Requester) (p : Site) (v : Word) (s : State) :
    exec (.wtcrcTest req p v) s = .next (s.accessWrite req (clusterBase p.r p.c + 0xF000420) v none) := rfl

theorem exec_dflipArm (req : Requester) (r : Fin 96) (v : Word) (s : State) :
    exec (.dflipArm req r v) s = .next (s.accessWrite req (regionBase r + 0x1F0004024) v none) := rfl

theorem exec_swpHoldArm (req : Requester) (r : Fin 96) (v : Word) (s : State) :
    exec (.swpHoldArm req r v) s = .next (s.accessWrite req (regionBase r + 0x1F0000320) v none) := rfl

theorem exec_fback_region (req : Requester) (r : Fin 96) (v : Word) (s : State) :
    exec (.fback req (some r) v) s = .next (s.accessWrite req (regionBase r + 0x1F0002404) v none) := rfl

theorem exec_fback_edge (req : Requester) (v : Word) (s : State) :
    exec (.fback req none v) s = .next (s.accessWrite req 0x51404 v none) := rfl

theorem exec_elogHead (req : Requester) (v : Word) (s : State) :
    exec (.elogHead req v) s = .next (s.accessWrite req 0x50004 v none) := rfl

theorem exec_ceil (req : Requester) (r : Fin 96) (v : Word) (s : State) :
    exec (.ceil req r v) s = .next (s.accessWrite req (regionBase r + 0x1F0000800) v none) := rfl

theorem exec_cmclrGo (req : Requester) (v : Word) (s : State) :
    exec (.cmclrGo req v) s = .next (s.accessWrite req 0x72008 v none) := rfl

/-! ### The obligation -/

/-- Settles O29: the plain registers take the bits of their mask, every other one acts by the rule of its offset. -/
theorem registersThatStartSomething : Obligations.RegistersThatStartSomething := by
  intro req p r v s hon hsite hreach hpath
  simp only [List.forall_mem_cons] at hpath
  obtain ⟨hspflip, hwtcrc, hdflip, hhold, hfback, hclktune, -⟩ := hpath
  refine ⟨?spflip, ?wtcrc, ?dflip, ?hold, ?fback, ?edgeFback, ?elogHead, ?ceil, ?clear⟩
  case spflip =>
    rw [exec_spflipArm, State.accessWrite_plainCluster (i := 0) p v hon hsite hspflip (by decide) rfl rfl rfl rfl]
    rfl
  case wtcrc =>
    rw [exec_wtcrcTest, State.accessWrite_plainCluster (i := 0) p v hon hsite hwtcrc (by decide) rfl rfl rfl rfl]
    rfl
  case dflip =>
    rw [exec_dflipArm, State.accessWrite_ownRegister (i := 0) r v hon hreach hdflip (by decide) rfl
      (s.regionWrite_dflipCtl r 0 req _ _ rfl rfl rfl rfl)]
    rfl
  case hold =>
    rw [exec_swpHoldArm, State.accessWrite_ownRegister (i := 0) r v hon hreach hhold (by decide) rfl
      (s.regionWrite_swpHold r 0 req _ _ rfl)]
  case fback =>
    rw [exec_fback_region, State.accessWrite_ownRegister (i := 0) r v hon hreach hfback (by decide) rfl
      (s.regionWrite_fback r 0 req _ _ rfl)]
  case edgeFback =>
    rw [exec_fback_edge, State.accessWrite_edgeRegister (i := 0) v hon (by decide) ⟨rfl, rfl⟩ rfl
      (s.edgeWrite_fback 0 req _ _ none rfl)]
  case elogHead =>
    rw [exec_elogHead, State.accessWrite_edgeRegister (i := 0) v hon (by decide) ⟨rfl, rfl⟩ rfl
      (s.edgeWrite_elogHead 0 req _ _ none rfl)]
  case ceil =>
    rw [exec_ceil, State.accessWrite_ownRegister (i := 0) r v hon hreach hclktune (by decide) rfl
      (s.regionWrite_clktune r 0 req _ _ rfl)]
  case clear =>
    intro hgo off len
    rw [exec_cmclrGo, State.accessWrite_edgeRegister (i := 0) v hon (by decide) ⟨rfl, rfl⟩ rfl
      (s.edgeWrite_cmclrGo 0 req _ _ none rfl hgo)]

end Sys2Proof.Machine
end

section
/-!
PROOFS. The schedule cycle of a region (R110 to R112, R163 to R167): the faults of an ACLK, and what an ACLK without a fault does,
stall or execute; and the queue-stall timeout (R165).
-/
namespace Sys2Proof.Machine
namespace State

/-! ### The faults of an ACLK -/

/-- A HALT packet that waits takes effect (R173). -/
def haltTaken (s : State) (r : Nat) : State :=
  match (s.region r).haltReq with
  | some src => (s.modRegion r fun g => { g with haltReq := none }).raise r { code := 0x20D, detail := src }
  | none => s

/-- Is the ACLK the one that executes the pending cycle, its faults apart: no stall holds it (R111, R163)? -/
def unheld (s : State) (r : Nat) : Bool :=
  let g := s.region r
  !decide (g.wstall < stallLen g g.cycle) && (blockers (s.dueOps r g.cycle)).isEmpty

/-- The state in which the faults of the pending cycle's ACLK have been gathered (R112). -/
def gathered (s : State) (r : Nat) : State :=
  let n := (s.region r).cycle
  s.faultsAt r n (s.dueOps r n) (s.unheld r)

theorem unheld_iff (s : State) (r : Nat) :
    s.unheld r = true ↔ stallLen (s.region r) (s.region r).cycle ≤ (s.region r).wstall
      ∧ blockers (s.dueOps r (s.region r).cycle) = [] := by
  simp only [unheld, Bool.and_eq_true, Bool.not_eq_true', decide_eq_false_iff_not, Nat.not_lt, List.isEmpty_iff]

/-- An ACLK gathers the faults of its opening, of fenced queues, of asserted operations where nothing holds the cycle, and of a HALT
that waits (R112). -/
theorem gathered_eq (s : State) (r : Nat) {P : Prop} [Decidable P] (hP : s.unheld r = true ↔ P) :
    s.gathered r =
      let n := (s.region r).cycle
      let ops := s.dueOps r n
      let a := ((s.openBatch r).opening r n).fenceFaults r ops
      (if P then (unready ops).foldl (fun s q => s.assertFault r q) a else a).haltTaken r :=
  congrArg (haltTaken · r) (ite_congr (propext hP) (fun _ => rfl) fun _ => rfl)

/-! ### One ACLK -/

/-- An ACLK's faults take effect before a stall begins or goes on, and before the cycle executes (R112). -/
theorem aclk_eq (s : State) (r : Nat) :
    s.aclk r =
      let g := s.region r
      let ops := s.dueOps r g.cycle
      if ((s.gathered r).region r).halted then ((s.gathered r).flush r).setWaits r []
      else if decide (g.wstall < stallLen g g.cycle) then s.wideStall r g.cycle
      else if (blockers ops).isEmpty then (s.gathered r).executeCycle r g.cycle
      else s.queueStall r ops := rfl

section
variable {s : State} {r : Nat}

theorem aclk_faulted (hfault : ((s.gathered r).region r).halted = true) :
    s.aclk r = ((s.gathered r).flush r).setWaits r [] := by
  rw [aclk_eq]
  exact if_pos hfault

/-- A widening or excess-beat stall that is not over takes the ACLK (R163). -/
theorem aclk_wide (hgood : ((s.gathered r).region r).halted = false)
    (hstall : (s.region r).wstall < stallLen (s.region r) (s.region r).cycle) : s.aclk r = s.wideStall r (s.region r).cycle := by
  simp [aclk_eq, hgood, hstall]

/-- A blocking operation that is not ready takes the ACLK once that stall is over (R110). -/
theorem aclk_queue (hgood : ((s.gathered r).region r).halted = false)
    (hover : stallLen (s.region r) (s.region r).cycle ≤ (s.region r).wstall)
    (hheld : blockers (s.dueOps r (s.region r).cycle) ≠ []) :
    s.aclk r = s.queueStall r (s.dueOps r (s.region r).cycle) := by
  simp [aclk_eq, hgood, Nat.not_lt.mpr hover, hheld]

/-- Where nothing holds the cycle, it executes (R163). -/
theorem aclk_unheld (hgood : ((s.gathered r).region r).halted = false) (hfree : s.unheld r = true) :
    s.aclk r = (s.gathered r).executeCycle r (s.region r).cycle := by
  obtain ⟨hover, hheld⟩ := (s.unheld_iff r).mp hfree
  simp [aclk_eq, hgood, Nat.not_lt.mpr hover, hheld]

/-- The ACLK that executes the cycle is the one that nothing holds and that has no fault. -/
theorem executes_iff : s.executes r = true ↔ s.unheld r = true ∧ ((s.gathered r).region r).halted = false := by
  constructor
  · intro h
    obtain ⟨⟨hover, hheld⟩, hgood⟩ := by simpa [executes] using h
    have hfree : s.unheld r = true := (s.unheld_iff r).mpr ⟨hover, hheld⟩
    exact ⟨hfree, by simpa only [gathered, hfree] using hgood⟩
  · rintro ⟨hfree, hgood⟩
    obtain ⟨hover, hheld⟩ := (s.unheld_iff r).mp hfree
    simp only [gathered, hfree] at hgood
    simp [executes, hover, hheld, hgood]

end

/-- The activity of a stall ACLK does not depend on the counts of stall ACLK (R191). -/
theorem stallAu_modRegion (s : State) (r n k : Nat) {f : Region → Region} (hf : ∀ g, (f g).stallReqs = g.stallReqs) :
    stallAu ((s.modRegion r f).region r) n k = stallAu (s.region r) n k := by
  rw [region_modRegion, if_pos rfl, stallAu, hf, stallAu]

/-- A widening or excess-beat stall of which a queue is not ready waits, and shows the queues that it waits on (R158, R161). -/
theorem wideStall_waits {s u : State} {r n : Nat} {fs : List FlowAt} (hpath : s.stallPath r n (s.region r).wstall = (fs, u))
    (hfence : (u.stallDue r (n - 1) fs).any QDue.fenced = false) (hheld : blockers (u.stallDue r (n - 1) fs) ≠ []) :
    s.wideStall r n = ((u.modRegion r fun g => { g with stall := g.stall + 1 }).count (Rg.WSTALL_COUNT r) 1).setWaits r
      ((blockers (u.stallDue r (n - 1) fs)).filterMap QDue.inq) := by
  simp [wideStall, hpath, hfence, hheld]

/-- A widening or excess-beat stall whose queues are ready moves its passes and beats, and is counted with their activity (R80,
R158, R164, R191). -/
theorem wideStall_moves {s u : State} {r n : Nat} {fs : List FlowAt} (hpath : s.stallPath r n (s.region r).wstall = (fs, u))
    (hfence : (u.stallDue r (n - 1) fs).any QDue.fenced = false) (hheld : blockers (u.stallDue r (n - 1) fs) = []) :
    s.wideStall r n =
      let v := ((u.modRegion r fun g => { g with stall := g.stall + 1, wstall := g.wstall + 1 }).count (Rg.WSTALL_COUNT r) 1).count
        (Rg.STALL_AU r) (stallAu (u.region r) n (u.region r).wstall)
      let w := (unready (u.stallDue r (n - 1) fs)).foldl (fun s q => s.assertFault r q) (v.openBatch r)
      (if (w.region r).halted then w else w.stallMove r (n - 1) fs).flush r := by
  have hau := u.stallAu_modRegion r n (u.region r).wstall
    (f := fun g => { g with stall := g.stall + 1, wstall := g.wstall + 1 }) fun _ => rfl
  simp [wideStall, hpath, hfence, hheld, stallStep, hau]

/-- A cycle that executes halts its region or advances the cycle counter (R85, R163). -/
theorem executeCycle_outcome (s : State) (r n : Nat) :
    ((s.executeCycle r n).region r).halted = true ∨ ((s.executeCycle r n).region r).cycle = n + 1 := by
  unfold executeCycle
  extract_lets cs waits due landed issued moved taken
  split
  next hhalt => exact .inl hhalt
  next => exact .inr (by rw [region_modRegion, if_pos rfl])

end State

/-- The command is one ACLK of the region, unless it would execute a cycle of which a bundle is not allowed (R90, R163). -/
theorem exec_scheduleCycleExecutes {r : Fin 96} {errs : List (Fin 28 × Fin 4 × BitVec 1096)} {s : State}
    (hrun : s.running r = true)
    (hok : (s.linkErrors r errs).executes r = false ∨ (((s.linkErrors r errs).enabledClusters r).all fun c =>
      (s.linkErrors r errs).bundleOk r c ((s.linkErrors r errs).region r).cycle) = true) :
    exec (.scheduleCycleExecutes r errs) s = .next ((s.linkErrors r errs).aclk r).portsRun := by
  show execScheduleCycleExecutes r s errs = _
  obtain hstay | hlegal := hok
  · simp [execScheduleCycleExecutes, hrun, hstay]
  · simp [execScheduleCycleExecutes, hrun, hlegal]

/-- Settles O9: the faults of the ACLK first, then the stall that holds the cycle, then the cycle itself. -/
theorem scheduleCycleStallsOrAdvances : Obligations.ScheduleCycleStallsOrAdvances := by
  intro r errs s0 hrun s g n ops run fence asserted wait held a b o
  have ho : o = s.gathered r := (s.gathered_eq r (s.unheld_iff r)).symm
  have hstays (h : ¬(s.unheld r = true ∧ ((s.gathered r).region r).halted = false)) : run = .next (s.aclk r).portsRun :=
    exec_scheduleCycleExecutes hrun (.inl (Bool.eq_false_iff.mpr fun hx => h (State.executes_iff.mp hx)))
  rw [ho]
  refine ⟨fun hfault => ?faulted, fun hgood =>
    ⟨fun hstall => ?wide, fun hover => ⟨fun hheld => ?queue, fun hheld hok => ?cycle⟩⟩⟩
  case faulted =>
    rw [hstays fun h => Bool.noConfusion (h.2.symm.trans hfault), State.aclk_faulted hfault]
  case wide =>
    intro fs u os hfence
    have hpath : s.stallPath r n (s.region r).wstall = (fs, u) := rfl
    rw [hstays fun h => Nat.not_lt.mpr ((s.unheld_iff r).mp h.1).1 hstall, State.aclk_wide hgood hstall]
    exact ⟨fun hheld => congrArg (fun t : State => Host.Outcome.next t.portsRun) (State.wideStall_waits hpath hfence hheld),
      fun hheld => congrArg (fun t : State => Host.Outcome.next t.portsRun) (State.wideStall_moves hpath hfence hheld)⟩
  case queue =>
    rw [hstays fun h => hheld ((s.unheld_iff r).mp h.1).2, State.aclk_queue hgood hover hheld]
    rfl
  case cycle =>
    have hrow : run = .next (s.aclk r).portsRun := exec_scheduleCycleExecutes hrun (.inr hok)
    rw [hrow, State.aclk_unheld hgood ((s.unheld_iff r).mpr ⟨hover, hheld⟩)]
    exact ⟨rfl, State.executeCycle_outcome _ _ _⟩

/-! ### The queue-stall timeout -/

/-- The first operation that holds the pending cycle raises the timeout once the stall has reached the limit (R165). -/
theorem State.queueTimeout_raises {s : State} {r : Nat} {q : State.QDue} {qs : List State.QDue} (hheld : s.heldUp r = q :: qs)
    (hlim : s.fld (Rg.QCTL_LIMEXP r) ≠ 0) (hreached : 2 ^ s.fld (Rg.QCTL_LIMEXP r) ≤ (s.region r).stall) :
    s.queueTimeout r = s.raise r { code := 0x202, cluster := q.c, bundle := q.bundle, slot := q.slot, qh := q.qh,
                                   detail := (s.region r).stall, aux := q.slot } := by
  have hnot : ¬(s.fld (Rg.QCTL_LIMEXP r) = 0 ∨ (s.region r).stall < 2 ^ s.fld (Rg.QCTL_LIMEXP r)) :=
    not_or.mpr ⟨hlim, Nat.not_lt.mpr hreached⟩
  simp only [State.queueTimeout, hheld, hnot, if_false]

/-- The operations that hold the pending cycle: those of the stall in progress, otherwise the cycle's own (R163, R165). -/
theorem State.heldUp_eq (s : State) (r : Nat) :
    s.heldUp r =
      let g := s.region r
      let x := s.stallPath r g.cycle g.wstall
      State.blockers
        (if g.wstall < State.stallLen g g.cycle then x.2.stallDue r (g.cycle - 1) x.1 else s.dueOps r g.cycle) :=
  (apply_ite State.blockers _ _ _).symm

/-- Settles O10: the first operation that holds the cycle is named by the fault, and a fault halts its region. -/
theorem queueTimeoutHaltsTheRegion : Obligations.QueueTimeoutHaltsTheRegion := by
  intro r q qs s hrun g x hheld hlim hreached
  have hrow : exec (.queueTimeout r) s =
      .next (s.raise r { code := 0x202, cluster := q.c, bundle := q.bundle, slot := q.slot, qh := q.qh, detail := g.stall,
                         aux := q.slot }) :=
    calc exec (.queueTimeout r) s
        = .next (s.queueTimeout r) := congrArg _ (if_pos hrun)
      _ = _ := congrArg _ (State.queueTimeout_raises ((s.heldUp_eq r).trans hheld) hlim hreached)
  refine ⟨hrow, fun t ht => ?_⟩
  obtain rfl := Host.Outcome.next.inj (hrow.symm.trans ht)
  exact State.raise_halted _ _ _

end Sys2Proof.Machine
end

section
/-!
PROOFS. The ends of a region-boundary queue (R160, R162, R167): entries and slots that become visible, and the fence that empties
the queues of a region's crossings.
-/
namespace Sys2Proof.Machine
namespace State

/-- The oldest entry that is not yet visible becomes visible with the errors of its storage (R160, R162). -/
theorem queueShow_oldest {s : State} {key : Nat} {e : QEntry} {es : List QEntry} (hhid : (s.queue key).hid = e :: es)
    (flip : BitVec 1096) :
    s.queueShow key flip = s.setQueue key { s.queue key with
      vis := (s.queue key).vis ++ [⟨⟨e.beat.data, e.beat.flip ^^^ flip⟩, e.slot⟩], hid := es } := by
  simp only [queueShow, hhid]

/-- Fencing a list of queues empties and fences those of the list and no other (R167). -/
theorem queue_foldl_fenceQueue (k : Nat) (ks : List Nat) (s : State) :
    (ks.foldl (fun t j => t.fenceQueue j) s).queue k = if k ∈ ks then { Queue.empty with fenced := true } else s.queue k := by
  induction ks generalizing s with
  | nil => rfl
  | cons j ks ih =>
    rw [List.foldl_cons, ih, fenceQueue, queue_setQueue]
    by_cases hks : k ∈ ks
    · rw [if_pos hks, if_pos (List.mem_cons_of_mem j hks)]
    · simp only [hks, if_false, List.mem_cons, or_false]

/-- The fence of a region reaches every queue of its crossings (R167). -/
theorem queue_fenceRegion (s : State) {r k : Nat} (hk : k ∈ queuesOf r) :
    (s.fenceRegion r).queue k = { Queue.empty with fenced := true } :=
  (queue_foldl_fenceQueue k (queuesOf r) s).trans (if_pos hk)

end State

/-- A region that is fenced or without power has its fence applied by its neighbours (R167). -/
theorem exec_fenceApplied {r : Fin 96} {s : State} (h : s.yFenced r = true ∨ s.powered r = false) :
    exec (.fenceApplied r) s = .next (s.fenceRegion r) := by
  have hcond : (s.yFenced r || !s.powered r) = true := by
    rwa [Bool.or_eq_true, Bool.not_eq_true']
  show execFenceApplied r s = _
  rw [execFenceApplied, if_pos hcond]

/-- Settles O18: the reader's end, the writer's end, and the fence. -/
theorem queueEndsSeeEachOtherInOrder : Obligations.QueueEndsSeeEachOtherInOrder := by
  intro r q s k
  refine ⟨?entry, rfl, fun hfence => ⟨exec_fenceApplied hfence, fun t ht k hk => ?fenced⟩⟩
  case entry => exact fun e es hhid flip => congrArg _ (State.queueShow_oldest hhid flip)
  case fenced =>
    obtain rfl := Host.Outcome.next.inj ((exec_fenceApplied hfence).symm.trans ht)
    rw [s.queue_fenceRegion hk]
    exact ⟨rfl, rfl, rfl⟩

end Sys2Proof.Machine
end

section
/-!
PROOFS. Sideband packets at their unit (R170, R173, R174, R176, R196, R227, R272): the segment command and the entry of a full
queue, the packets that only arrive, the request without an answer, and the packet that no unit takes.
-/
namespace Sys2Proof.Machine
namespace State

/-- A packet with an uncorrectable flit leaves the entry 0x0402 of its router (R170). -/
theorem carried_lost {s : State} (ord : Bool) (src dest type : Nat) (node : BitVec 16) (f : State → State)
    (hon : s.power.on = true) : s.carried ord src dest type (some node) f = s.flitLost node.toNat type := if_pos hon

/-- A segment command that finds the queue full leaves the entry 0x0404, which is sent at once (R176, R401). -/
theorem segPush_eq (s : State) {r : Nat} (hr : r < 96) (no : Nat) :
    s.segPush r no =
      if s.fld Rg.IMG_STAT_STATE ≠ 3 ∧ s.fld Rg.IMG_STAT_STATE ≠ 4 then s
      else if (s.region r).segq.length < 16 then s.modRegion r fun g => { g with segq := g.segq ++ [no] }
      else s.packet 7 0x8000 (0x4000 + r) 0 0 (recFlits (LogRec.image { code := 0x404, region := r, loc0 := no } s.ns)) := by
  have hentry : s.logRegion r 0x404 no 0 0 =
      s.packet 7 0x8000 (0x4000 + r) 0 0 (recFlits (LogRec.image { code := 0x404, region := r, loc0 := no } s.ns)) := by
    rw [logRegion, log_sent _ _ _ (by decide : mergeCode 0x404 = false) (by decide : (0x404 : Nat) % 65536 ≠ 0x305),
      bufNode, if_pos hr, nodeOfRegion]
  rw [segPush, hentry]

/-- A request that is no relayed access of the bridge returns status 2 to its requester (R170). -/
theorem timedOut_requester {s : State} {src tag : Nat} (h : src ≠ 0x8000 ∨ Store.find s.bridge.out tag = none) :
    s.timedOut src tag = s.receive (.response src tag 2 none) := by
  have hnone : (if src = 0x8000 then Store.find s.bridge.out tag else none) = none := by
    split
    next hsrc => exact h.resolve_left (not_not_intro hsrc)
    next => rfl
  simp only [timedOut, hnone]

/-- A packet that no unit can take leaves the entry 0x0403 of the router or of the edge ring (R173, R399). -/
theorem discardPacket_sent (s : State) (place type reason : Nat) :
    s.discardPacket place type reason =
      let w := if reason = 1 then discardSource place else (96, 0xFF, 0xFE)
      s.packet 7 0x8000 (bufNode w.1) 0 0 (recFlits (LogRec.image
        { code := 0x403, region := w.2.1, cluster := w.2.2, loc0 := place, loc1 := type, detail := reason } s.ns)) := by
  rw [discardPacket]
  exact log_sent _ _ _ (by decide : mergeCode 0x403 = false) (by decide : (0x403 : Nat) % 65536 ≠ 0x305)

end State

/-- Settles O19: each of the five packets is carried to its unit, the others by their answer or their entry. -/
theorem packetsReachTheirUnitsOrAreReported : Obligations.PacketsReachTheirUnitsOrAreReported := by
  refine ⟨?carried, fun src tag place type reason s => ⟨?timeout, ?discard⟩⟩
  case carried =>
    intro r no src dest tag status tag32 data f0 f1 ord took command halt rows type p q i f hrow s
    have hcommand : command = fun s => s.segPush r no.toNat := funext fun s => (s.segPush_eq r.isLt no.toNat).symm
    have hcarried (l : Option (BitVec 16)) : exec (i l) s = .next (s.carried ord p q type l f) := by
      simp only [rows, List.mem_cons, List.not_mem_nil, or_false, Prod.mk.injEq] at hrow
      obtain ⟨rfl, rfl, rfl, rfl, rfl⟩ | ⟨rfl, rfl, rfl, rfl, rfl⟩ | ⟨rfl, rfl, rfl, rfl, rfl⟩ | ⟨rfl, rfl, rfl, rfl, rfl⟩
        | ⟨rfl, rfl, rfl, rfl, rfl⟩ := hrow
      · rw [hcommand]; rfl
      all_goals rfl
    refine ⟨hcarried none, fun node hon => ?_⟩
    exact (hcarried (some node)).trans (congrArg _ (State.carried_lost ord p q type node f hon))
  case timeout => exact fun h => congrArg _ (State.timedOut_requester h)
  case discard =>
    intro w
    have hw : (if reason.val + 1 = 1 then State.discardSource place.toNat else (96, 0xFF, 0xFE)) = w :=
      ite_congr (propext Nat.succ_inj) (fun _ => rfl) fun _ => rfl
    calc exec (.packetDiscard place type reason) s
        = .next (s.discardPacket place.toNat type.toNat (reason + 1)) := rfl
      _ = _ := by rw [State.discardPacket_sent, hw]; rfl

end Sys2Proof.Machine
end

section
/-!
PROOFS. Accesses from the sideband and from the host (R170, R173, R318, R319, R321): the response of an RD and of a WR, and the
host's accesses through BAR0 and through the windows of BAR2.
-/
namespace Sys2Proof.Machine
namespace State

/-! ### Requests on the sideband -/

section
variable {s : State} {ord : Bool} {src : Nat} {req : Requester} {a : Nat} (hon : s.power.on = true)
include hon

/-- A read that succeeds is answered with its data (R173). -/
theorem rdTake_ok (tag : Nat) (h : (s.sentRead ord src req a).1 = 0) :
    s.rdTake src ord tag req a = (s.sentRead ord src req a).2.2.emit
      (.packet ⟨3, src, s.answerNode a, tag, 0 * 256, [BitVec.ofNat 64 (s.sentRead ord src req a).2.1], ord⟩) := by
  simp [rdTake, hon, h]

/-- A read that meets a bus error is answered with status 1 and a free data flit (R173). -/
theorem rdTake_busError (tag : Nat) (h : (s.sentRead ord src req a).1 = 1) :
    s.rdTake src ord tag req a = ((s.sentRead ord src req a).2.2.fresh 32).2.emit
      (.packet ⟨3, src, s.answerNode a, tag, 1 * 256, [BitVec.ofNat 64 ((s.sentRead ord src req a).2.2.fresh 32).1], ord⟩) := by
  simp [rdTake, hon, h]

/-- A read that nothing answers leaves no response (R170, R174). -/
theorem rdTake_silent (tag : Nat) (h : (s.sentRead ord src req a).1 = 2) :
    s.rdTake src ord tag req a = (s.sentRead ord src req a).2.2 := by
  simp [rdTake, hon, h]

/-- A write is answered with its status, unless nothing answers (R173, R174). -/
theorem wrTake_eq (tag : Nat) (v : Word) :
    s.wrTake src ord tag req a v =
      let x := s.sentWrite ord src req a v none
      if x.1 = 2 then x.2 else x.2.emit (.packet ⟨3, src, s.answerNode a, tag, x.1 * 256, [], ord⟩) := by
  simp [wrTake, hon]

/-- A lost request that is no read of the host leaves its entry alone (R170). -/
theorem requestLost_eq {type : Nat} (node : Nat) (h : req ≠ .host ∨ type ≠ 1) :
    s.requestLost type node req = s.flitLost node type := by
  have hnot : ¬(req = .host ∧ type = 1 ∧ (s.flitLost node type).hostUp = true) :=
    fun ⟨hreq, htype, _⟩ => h.elim (fun hne => hne hreq) (fun hne => hne htype)
  simp [requestLost, hon, hnot]

end

/-! ### Accesses of the host -/

/-- An offset in BAR0 is none of BAR2 (R319). -/
theorem bar0_bit {a : Nat} (h : a < 0x10000000) : bit a 47 = false :=
  Nat.testBit_lt_two_pow (Nat.lt_trans h (by decide))

section
variable {s : State} {a : Nat} (hup : s.hostUp = true)
include hup

theorem hostRead_misaligned (h4 : a % 4 ≠ 0) : s.hostRead a = s.emit (.hostDone 2 none) := by
  simp [hostRead, hup, h4]

theorem hostStore_misaligned (v : Word) (h4 : a % 4 ≠ 0) : s.hostStore a v = s.emit (.hostDone 3 none) := by
  simp [hostStore, hup, h4]

variable (h4 : a % 4 = 0)
include h4

theorem hostRead_bar0 (hlow : a < 0x10000000) : s.hostRead a = s.hostReadHere a := by
  simp [hostRead, hup, h4, bar0_bit hlow, hlow]

theorem hostStore_bar0 (v : Word) (hlow : a < 0x10000000) : s.hostStore a v = (s.sentWrite false 0x8000 .host a v none).2 := by
  simp [hostStore, hup, h4, bar0_bit hlow, hlow]

variable (h47 : bit a 47 = true)
include h47

/-- A closed window reads as zero (R319). -/
theorem hostRead_closed (hw : s.hostWindow (a % 2 ^ 32) = none) : s.hostRead a = s.emit (.hostDone 0 (some 0)) := by
  simp [hostRead, hup, h4, h47, hw, -Nat.reducePow]

theorem hostStore_closed (v : Word) (hw : s.hostWindow (a % 2 ^ 32) = none) : s.hostStore a v = s := by
  simp [hostStore, hup, h4, h47, hw, -Nat.reducePow]

/-- A read through an open window: refused without its member, served here, or relayed (R319, R321). -/
theorem hostRead_window {m b : Nat} (hw : s.hostWindow (a % 2 ^ 32) = some (m, b)) :
    s.hostRead a =
      if s.flag (Rg.HB_MEMBER_EN m) = false then s.emit (.hostDone 1 none)
      else if s.memberRoute m = (0, 0) then s.hostReadHere b else s.hostRelay m 4 b [] := by
  simp [hostRead, hup, h4, h47, hw, -Nat.reducePow]

/-- A write through an open window: without effect where its member does not exist, made here, or relayed (R319, R321). -/
theorem hostStore_window (v : Word) {m b : Nat} (hw : s.hostWindow (a % 2 ^ 32) = some (m, b)) :
    s.hostStore a v =
      if s.flag (Rg.HB_MEMBER_EN m) = false then s
      else if s.memberRoute m = (0, 0) then (s.sentWrite false 0x8000 .host b v none).2
      else s.hostRelay m 5 b [BitVec.ofNat 64 v.toNat] := by
  simp [hostStore, hup, h4, h47, hw, -Nat.reducePow]

end

/-- A read of this module by the host completes with its data or with Completer Abort (R319). -/
theorem hostReadHere_eq (s : State) (a : Nat) :
    s.hostReadHere a =
      let x := s.sentRead false 0x8000 .host a
      x.2.2.emit (if x.1 = 0 then .hostDone 0 (some (BitVec.ofNat 32 x.2.1)) else .hostDone 1 none) :=
  (apply_ite _ _ _ _).symm

end State

/-! ### The commands -/

section
variable (src : BitVec 16) (tag : Byte) (a : BitVec 48) (v : Word) (ord : Bool) (s : State)

theorem exec_rd_sideband {req : Requester} (hreq : req ≠ .host) :
    exec (.rd src tag req a ord none) s = .next (s.rdTake src.toNat ord tag.toNat req a.toNat) := by
  cases req with
  | host => exact absurd rfl hreq
  | _ => rfl

theorem exec_wr_sideband {req : Requester} (hreq : req ≠ .host) :
    exec (.wr src tag req a v ord none) s = .next (s.wrTake src.toNat ord tag.toNat req a.toNat v) := by
  cases req with
  | host => exact absurd rfl hreq
  | _ => rfl

theorem exec_rd_host : exec (.rd src tag .host a ord none) s = .next (s.hostRead a.toNat) := rfl

theorem exec_wr_host : exec (.wr src tag .host a v ord none) s = .next (s.hostStore a.toNat v) := rfl

theorem exec_rd_lost (req : Requester) (node : BitVec 16) :
    exec (.rd src tag req a ord (some node)) s = .next (s.requestLost 1 node.toNat req) := rfl

theorem exec_wr_lost (req : Requester) (node : BitVec 16) :
    exec (.wr src tag req a v ord (some node)) s = .next (s.requestLost 2 node.toNat req) := rfl

end

/-- Settles O48: requests on the sideband, lost ones, the host's accesses by BAR and window, and its link. -/
theorem requestersAndTheHostAreAnswered : Obligations.RequestersAndTheHostAreAnswered := by
  intro src ord tag req a v s rd wr host rsp
  refine ⟨fun hon hreq => ⟨?ok, ?busError, ?silent, ?write⟩, fun hon node => ⟨fun hreq => ?lostRead, ?lostWrite⟩,
    fun hup h4 => ?misaligned, fun hup h4 hlow => ?bar0, fun hup h4 h47 => ⟨fun hw => ?closed, fun m b hw => ?window⟩,
    fun w x n hup hbad => congrArg _ (if_pos ⟨hup, hbad⟩),
    fun rate width hon hactive => ⟨congrArg _ (if_pos ⟨hon, hactive⟩), congrArg _ (if_pos hactive)⟩⟩
  case ok => exact fun h => (exec_rd_sideband _ _ _ _ _ hreq).trans (congrArg _ (State.rdTake_ok hon _ h))
  case busError => exact fun h => (exec_rd_sideband _ _ _ _ _ hreq).trans (congrArg _ (State.rdTake_busError hon _ h))
  case silent => exact fun h => (exec_rd_sideband _ _ _ _ _ hreq).trans (congrArg _ (State.rdTake_silent hon _ h))
  case write => exact (exec_wr_sideband _ _ _ _ _ _ hreq).trans (congrArg _ (State.wrTake_eq hon _ _))
  case lostRead => exact (exec_rd_lost ..).trans (congrArg _ (State.requestLost_eq hon _ (.inl hreq)))
  case lostWrite => exact (exec_wr_lost ..).trans (congrArg _ (State.requestLost_eq hon _ (.inr (by decide))))
  case misaligned =>
    rw [exec_rd_host, exec_wr_host, State.hostRead_misaligned hup h4, State.hostStore_misaligned hup v h4]
    exact ⟨rfl, rfl⟩
  case bar0 =>
    rw [exec_rd_host, exec_wr_host, State.hostRead_bar0 hup h4 hlow, State.hostStore_bar0 hup h4 v hlow, State.hostReadHere_eq]
    exact ⟨rfl, rfl⟩
  case closed =>
    rw [exec_rd_host, exec_wr_host, State.hostRead_closed hup h4 h47 hw, State.hostStore_closed hup h4 h47 v hw]
    exact ⟨rfl, rfl⟩
  case window =>
    rw [exec_rd_host, exec_wr_host, State.hostRead_window hup h4 h47 hw, State.hostStore_window hup h4 h47 v hw]
    refine ⟨fun hgone => ?_, fun hthere haway => ?_, fun hthere hhere => ?_⟩
    · exact ⟨congrArg _ (if_pos hgone), congrArg _ (if_pos hgone)⟩
    · simp [hthere, haway]
    · simp [hthere, hhere]

end Sys2Proof.Machine
end

section
/-!
PROOFS. The load of a placement image (R178, R183, R186, R196 to R198, R286, R416, R464): the failure that is reported first, the
header's exits, the next source, the checks once the weights are written, and what a refusal leaves.
-/
namespace Sys2Proof.Machine

/-! ### The item that is checked first (R198) -/

/-- The place of an item in the order of R198: region, then cluster, then word. -/
def LoadRefusal.rank (x : LoadRefusal) : Nat := (x.region * 256 + x.cluster) * 65536 + x.word

theorem LoadRefusal.before_eq_false {x y : LoadRefusal} : y.before x = false ↔ x.rank ≤ y.rank := by
  simp only [before, rank, decide_eq_false_iff_not, Nat.not_lt]

theorem LoadRefusal.ite_before_eq_minOn (x y : LoadRefusal) : (if y.before x then y else x) = minOn rank x y := by
  cases h : y.before x with
  | false => rw [minOn_eq_left (before_eq_false.1 h), if_neg Bool.false_ne_true]
  | true =>
    have hgt : ¬ x.rank ≤ y.rank := fun hle => Bool.false_ne_true ((before_eq_false.2 hle).symm.trans h)
    rw [minOn_eq_right hgt, if_pos rfl]

/-- The first item of R198 is the earliest-listed one of the least place. -/
theorem firstItem_eq_minOn (l : List LoadRefusal) : firstItem l = l.minOn? LoadRefusal.rank := by
  cases l with
  | nil => rfl
  | cons x xs => simp only [firstItem, LoadRefusal.ite_before_eq_minOn, List.minOn?]

theorem firstItem_mem {l : List LoadRefusal} {x : LoadRefusal} (h : firstItem l = some x) : x ∈ l :=
  List.minOn?_mem ((firstItem_eq_minOn l).symm.trans h)

theorem firstItem_least {l : List LoadRefusal} {x y : LoadRefusal} (h : firstItem l = some x) (hy : y ∈ l) :
    y.before x = false := by
  have hx : l.minOn LoadRefusal.rank (List.ne_nil_of_mem hy) = x :=
    List.minOn_eq_of_minOn?_eq_some ((firstItem_eq_minOn l).symm.trans h)
  exact LoadRefusal.before_eq_false.2 (hx ▸ List.apply_minOn_le_of_mem hy)

theorem firstItem_eq_none {l : List LoadRefusal} : firstItem l = none ↔ l = [] := by
  cases l with
  | nil => exact ⟨fun _ => rfl, fun _ => rfl⟩
  | cons x xs => exact ⟨nofun, nofun⟩

/-! ### The header and the sections (R178 to R183) -/

/-- The entries of the section table for which R179 refuses the image, in their order. -/
def badEntries (img : List Byte) : List Section :=
  ((imgSections img).filter fun x => !entryOk img x) ++ clashes (imgSections img)

/-- The sections for which R180 and R182 refuse the image: unknown ones that it needs, and missing ones. -/
def lackedSections (img : List Byte) : List LoadRefusal :=
  ((imgSections img).filter fun x => x.flags % 2 == 1 && !sectionTypes.contains x.type).map (fun x =>
    ({ code := 0x103, region := x.region, cluster := x.cluster, sect := x.idx } : LoadRefusal)) ++ missing img

/-- Does placement `p` fence region `r` and yet use it, or declare a queue of it that a fenced region reads or writes (R182)? -/
def fenceClash (img : List Byte) (p r : Nat) : Bool :=
  (bit (placeFence img p) r && (List.range 28).any fun c => imgUsed img p r c) || State.declaresFenced img p r

namespace State

section
variable {s : State} {img : List Byte} {want : Nat}

theorem headCheck_beforeBringUp (h : s.flag Rg.BU_STAT_DONE = false) : s.headCheck img want = .error { code := 0x104 } := by
  simp [headCheck, h]

theorem headCheck_badHeader (hdone : s.flag Rg.BU_STAT_DONE = true) (h : headerOk img = false) :
    s.headCheck img want = .error { code := 0x101 } := by
  simp [headCheck, hdone, h]

variable (hdone : s.flag Rg.BU_STAT_DONE = true) (hhead : headerOk img = true)
include hdone hhead

theorem headCheck_badEntry {x : Section} {ys : List Section} (h : badEntries img = x :: ys) :
    s.headCheck img want = .error { code := 0x101, sect := x.idx } := by
  unfold badEntries at h
  simp [headCheck, hdone, hhead, h]

theorem headCheck_otherRevision (hbad : badEntries img = []) (h : byteAt img 6 ≠ s.fuse.archrev) :
    s.headCheck img want = .error { code := 0x102 } := by
  unfold badEntries at hbad
  simp only [headCheck, hdone, hhead, hbad, if_pos h]
  rfl

theorem headCheck_lacks (hbad : badEntries img = []) (hrev : byteAt img 6 = s.fuse.archrev) {x : LoadRefusal}
    (h : firstItem (lackedSections img) = some x) : s.headCheck img want = .error x := by
  unfold badEntries at hbad
  cases hl : lackedSections img with
  | nil => rw [hl] at h; cases h
  | cons y ys =>
    rw [hl] at h
    unfold lackedSections at hl
    simp only [headCheck, hdone, hhead, hbad, hrev, hl, h, Bool.not_true, Bool.false_eq_true, if_false, ne_eq, not_true_eq_false,
      Option.getD_some]

theorem headCheck_noPlacement (hbad : badEntries img = []) (hrev : byteAt img 6 = s.fuse.archrev)
    (hlacks : lackedSections img = []) (h : s.selectPlace img want = none) :
    s.headCheck img want = .error { code := 0x104 } := by
  unfold badEntries at hbad
  unfold lackedSections at hlacks
  simp only [headCheck, hdone, hhead, hbad, hrev, hlacks, h, Bool.not_true, Bool.false_eq_true, if_false, ne_eq, not_true_eq_false]

end

section
variable {s : State} {img : List Byte} {want p : Nat}

/-- A header is accepted only with its selected placement, no region of which clashes with a fence. -/
theorem headCheck_ok (h : s.headCheck img want = .ok p) :
    s.selectPlace img want = some p ∧ (List.range 96).find? (fenceClash img p) = none := by
  unfold headCheck at h
  extract_lets xs at h
  repeat' split at h
  all_goals cases h
  next hselected hclash => exact ⟨hselected, hclash⟩

theorem selectPlace_some (h : s.selectPlace img want = some p) : s.accepts img p = true ∧ (want = 15 ∨ want = p) := by
  unfold selectPlace at h
  split at h
  next hauto => exact ⟨List.find?_some h, .inl hauto⟩
  next =>
    split at h
    next haccepts => cases h; exact ⟨haccepts.2, .inr rfl⟩
    next => cases h

end

theorem fenced_unused {img : List Byte} {p r c : Nat} (h : (List.range 96).find? (fenceClash img p) = none)
    (hr : r < 96) (hfence : (placeFence img p).testBit r = true) (hc : c < 28) : imgUsed img p r c = false := by
  have hclash := List.find?_eq_none.1 h r (List.mem_range.2 hr)
  refine Bool.eq_false_iff.2 fun hused => hclash ?_
  simp only [fenceClash, bit, hfence, Bool.true_and, Bool.or_eq_true, List.any_eq_true, List.mem_range]
  exact .inl ⟨c, hc, hused⟩

/-! ### The sources, in ascending m (R286, R287) -/

/-- What the loader makes of the source that it comes to: a model none of whose tiles are needed may be kept (R286). -/
def nextJob (s : State) (x : Source) : Except Nat (Option ModelJob) :=
  s.sourceJob s.loader.img s.loader.place s.loader.tiles (mappedTiles s.loader.img s.loader.place)
    (!s.loader.tiles.any fun t => MappedTile.model t == x.m) x

section
variable {s : State} {x : Source} (xs : List Source)

theorem nextModels_wrong {c : Nat} (h : s.nextJob x = .error c) : s.nextModels (x :: xs) = s.loadFail c x.m := by
  unfold nextJob at h
  simp only [nextModels, h]

theorem nextModels_kept (h : s.nextJob x = .ok none) : s.nextModels (x :: xs) = s.nextModels xs := by
  unfold nextJob at h
  simp only [nextModels, h]

theorem nextModels_fetches {j : ModelJob} (h : s.nextJob x = .ok (some j)) (htodo : j.todo ≠ []) :
    s.nextModels (x :: xs) = { s with loader := { s.loader with models := s.loader.models ++ [j], sources := xs } } := by
  unfold nextJob at h
  simp only [nextModels, h, List.isEmpty_iff, htodo, if_false]

end

/-! ### The checks of codes 0x0105 to 0x0117 (R186, R198) -/

theorem mem_checkCodes {k : Nat} : k ∈ checkCodes ↔ 0x105 ≤ k ∧ k ≤ 0x117 := by
  simp only [checkCodes, List.mem_map, List.mem_range]
  exact ⟨fun ⟨i, hi, hk⟩ => by omega, fun hk => ⟨k - 0x105, by omega, by omega⟩⟩

/-- The list of codes is ascending: what is lower than one of them stands before it. -/
theorem mem_before_of_lt {l l' : List Nat} {code k : Nat} (hl : checkCodes = l ++ code :: l') (hk : 0x105 ≤ k) (hlt : k < code) :
    k ∈ l := by
  have hsorted : (l ++ code :: l').Pairwise (· < ·) := hl ▸ (by decide : checkCodes.Pairwise (· < ·))
  have hcode : code ∈ checkCodes := hl ▸ List.mem_append_right l List.mem_cons_self
  have hmem : k ∈ l ++ code :: l' := hl ▸ mem_checkCodes.2 ⟨hk, Nat.le_of_lt (Nat.lt_of_lt_of_le hlt (mem_checkCodes.1 hcode).2)⟩
  obtain ⟨-, htail, -⟩ := List.pairwise_append.1 hsorted
  rcases List.mem_append.1 hmem with h | h
  · exact h
  · rcases List.mem_cons.1 h with rfl | h
    · exact absurd hlt (Nat.lt_irrefl _)
    · exact absurd (List.rel_of_pairwise_cons htail h) (Nat.lt_asymm hlt)

variable (s : State)

/-- What a code's check finds first, declaration by declaration. -/
def firstOf (code : Nat) : Option LoadRefusal := s.checked.findSome? fun e => firstItem (s.items e.1 e.2.1 e.2.2 code)

theorem loadCheck_eq : s.loadCheck = checkCodes.findSome? s.firstOf := rfl

theorem firstOf_eq_none {s : State} {code : Nat} :
    s.firstOf code = none ↔ ∀ d ∈ s.checked, s.items d.1 d.2.1 d.2.2 code = [] := by
  simp only [firstOf, List.findSome?_eq_none_iff, firstItem_eq_none]

theorem loadCheck_eq_none :
    s.loadCheck = none ↔ ∀ k, 0x105 ≤ k → k ≤ 0x117 → ∀ d ∈ s.checked, s.items d.1 d.2.1 d.2.2 k = [] := by
  simp only [loadCheck_eq, List.findSome?_eq_none_iff, mem_checkCodes, firstOf_eq_none, and_imp]

variable {s}

/-- A code's first failure is the first item of the first declaration at which the code finds any. -/
theorem firstOf_eq_some {code : Nat} {x : LoadRefusal} (h : s.firstOf code = some x) :
    ∃ before_ after e, s.checked = before_ ++ e :: after ∧ firstItem (s.items e.1 e.2.1 e.2.2 code) = some x
      ∧ ∀ d ∈ before_, s.items d.1 d.2.1 d.2.2 code = [] := by
  obtain ⟨before_, e, after, hsplit, hx, hbefore⟩ := List.findSome?_eq_some_iff.1 h
  exact ⟨before_, after, e, hsplit, hx, fun d hd => firstItem_eq_none.1 (hbefore d hd)⟩

/-- The failure of a load is that of the lowest code at which anything fails. -/
theorem loadCheck_eq_some {x : LoadRefusal} (h : s.loadCheck = some x) :
    ∃ code, (0x105 ≤ code ∧ code ≤ 0x117) ∧ s.firstOf code = some x
      ∧ ∀ k, 0x105 ≤ k → k < code → ∀ d ∈ s.checked, s.items d.1 d.2.1 d.2.2 k = [] := by
  obtain ⟨lower, code, higher, hsplit, hx, hlower⟩ := List.findSome?_eq_some_iff.1 (s.loadCheck_eq ▸ h)
  have hcode : code ∈ checkCodes := hsplit ▸ List.mem_append_right lower List.mem_cons_self
  exact ⟨code, mem_checkCodes.1 hcode, hx, fun k hk hlt => firstOf_eq_none.1 (hlower k (mem_before_of_lt hsplit hk hlt))⟩

/-! ### The end of a load (R197, R464) -/

/-- The state in which the checks run: the weights are written and the loader is done with them (R197 step 4). -/
def weightsDone (s : State) : State :=
  let s := (s.reportRemaps.setImgState 2).wr Rg.WLD_STAT 0
  { s with loader := { s.loader with
                       job := .none, models := [], sources := []
                       prev := some (s.image, s.place, s.holders s.image s.place), swapped := [], broken := false
                       inForce := s.loader.models.foldl (fun l (m : ModelJob) => Store.put l m.m m.digest) s.loader.inForce } }

/-- The image is enabled where every check passes, and refused with the first failure where one does not. -/
theorem runChecks_eq (s : State) :
    s.runChecks = s.weightsDone.loadCheck.elim s.weightsDone.enableImage s.weightsDone.checkFailed := by
  unfold runChecks
  extract_lets u l v
  have hv : v = s.weightsDone := rfl
  clear_value v
  subst hv
  generalize s.weightsDone.loadCheck = failure
  cases failure <;> simp only [Option.elim]

theorem checkFailed_eq (s : State) (x : LoadRefusal) :
    s.checkFailed x =
      ((imgUsedList s.image s.place).foldl (fun u k => u.showCheck k (if s.failedAt.contains k then 3 else 2)) s).refuseLoad x := rfl

theorem nextModels_nil (h : s.loader.sources = []) : s.nextModels [] = s := by
  simp only [nextModels, ← h]

/-- A load that has nothing left to fetch goes on with its checks (R197). -/
theorem loadAdvance_checks (hjob : s.loader.job = .load) (hsources : s.loader.sources = [])
    (hmodels : ∀ j ∈ s.loader.models, j.todo = []) : s.loadAdvance = s.runChecks := by
  have hfetched : s.fetched = true := by
    simp only [fetched, List.all_eq_true, List.isEmpty_iff]
    exact hmodels
  simp only [loadAdvance, hfetched, if_true, hsources, nextModels_nil hsources, hjob]

/-! ### What a refusal leaves (R197, R198) -/

theorem signal_regs (idx sub : Nat) : (s.signal idx sub).regs = s.regs := by
  simp only [signal, receive_regs, notify, frame]
  repeat' split
  all_goals rfl

/-- IMG_STAT takes the value, and no other register changes: the event of R441 leaves them alone. -/
theorem rd_setImg (s : State) (v a : Nat) : (s.setImg v).rd a = (s.wr Rg.IMG_STAT v).rd a := by
  unfold setImg
  extract_lets s'
  split
  · rfl
  · simp only [rd, reg, signal_regs, s']

theorem fld_withLoader (s : State) (img : List Byte) (l : Loader) (f : Fld) :
    ({ s with image := img, loader := l } : State).fld f = s.fld f := rfl

theorem fld_setImg_state (s : State) (x v : Nat) (hx : x < 2 ^ 32) :
    (s.setImg (setBits x 31 28 v)).fld Rg.IMG_STAT_STATE = v % 16 := by
  have hlt : setBits x 31 28 v < 2 ^ 32 := setBits_lt x 31 28 v 32 (by decide) (by decide) hx
  simp only [fld, rd_setImg, rd_wr, Rg.IMG_STAT_STATE, if_true, Nat.mod_eq_of_lt hlt]
  exact bits_setBits x 31 28 v (by decide)

theorem refuseLoad_image (s : State) (x : LoadRefusal) : (s.refuseLoad x).image = [] := rfl

theorem refuseLoad_job (s : State) (x : LoadRefusal) : (s.refuseLoad x).loader.job = .none := rfl

theorem refuseLoad_wldState (s : State) (x : LoadRefusal) : (s.refuseLoad x).fld Rg.WLD_STAT_STATE = 0 :=
  fld_setFld _ Rg.WLD_STAT_STATE 0 (by decide) (by decide)

theorem refuseLoad_imgState (s : State) (x : LoadRefusal) : (s.refuseLoad x).fld Rg.IMG_STAT_STATE = 0 := by
  unfold refuseLoad
  extract_lets f u v w
  have hother : Rg.IMG_STAT_STATE.addr ≠ Rg.WLD_STAT_STATE.addr := by decide
  have hcode : setBits (v.rd Rg.IMG_STAT) 15 0 x.code < 2 ^ 32 :=
    setBits_lt _ 15 0 x.code 32 (by decide) (by decide) (v.rd_lt _)
  rw [fld_setFld_ne (f := Rg.WLD_STAT_STATE) (g := Rg.IMG_STAT_STATE) (h := hother), fld_withLoader]
  exact v.fld_setImg_state _ 0 hcode

end State

/-- Settles O40: the load's command, the placement's writing, the sources, the header's exits, the order of the checks, the end of
the load by their outcome, and the refusal. -/
theorem loadsCheckThenWriteThePlacement : Obligations.LoadsCheckThenWriteThePlacement := by
  intro img place headers s
  refine ⟨fun h => congrArg _ (if_neg h), fun h => congrArg _ (if_pos h), fun t p => ⟨fun r h => ?wrongRemap, fun h => ?placed⟩,
    fun t x xs => ⟨fun c h => State.nextModels_wrong xs h, State.nextModels_kept xs, fun j h => State.nextModels_fetches xs h⟩,
    fun t want => ⟨State.headCheck_beforeBringUp, fun hdone => ⟨State.headCheck_badHeader hdone, fun hhead => ?sections⟩,
      fun p h => ?accepted⟩,
    fun t x h => ?firstFailure, State.loadCheck_eq_none, fun t hjob hsources hmodels => ?checks,
    fun t x => ⟨rfl, t.refuseLoad_image x, t.refuseLoad_job x, t.refuseLoad_wldState x, t.refuseLoad_imgState x⟩⟩
  case wrongRemap => simp only [State.loadPlaced, h]
  case placed =>
    simp only [State.loadPlaced, h]
    rfl
  case sections =>
    exact ⟨fun x ys => State.headCheck_badEntry hdone hhead, State.headCheck_otherRevision hdone hhead,
      fun hbad hrev => ⟨fun x => State.headCheck_lacks hdone hhead hbad hrev, State.headCheck_noPlacement hdone hhead hbad hrev⟩⟩
  case accepted =>
    obtain ⟨hselected, hclash⟩ := State.headCheck_ok h
    obtain ⟨haccepts, hwant⟩ := State.selectPlace_some hselected
    exact ⟨haccepts, hwant, fun r hr hfence c hc => State.fenced_unused hclash hr hfence hc⟩
  case firstFailure =>
    obtain ⟨code, ⟨hlo, hhi⟩, hfirst, hlower⟩ := State.loadCheck_eq_some h
    obtain ⟨before_, after, e, hsplit, hx, hbefore⟩ := State.firstOf_eq_some hfirst
    exact ⟨code, before_, after, e, hlo, hhi, hsplit, firstItem_mem hx, fun y => firstItem_least hx, hbefore, hlower⟩
  case checks =>
    intro u v used show_
    have hv : v = t.weightsDone := rfl
    have hshow : show_ = State.showCheck := rfl
    clear_value v show_
    subst hv hshow
    rw [State.loadAdvance_checks hjob hsources hmodels]
    refine ⟨fun x h => ?_, fun h => ?_⟩
    · rw [t.runChecks_eq, h, Option.elim_some, State.checkFailed_eq]
    · rw [t.runChecks_eq, h, Option.elim_none]
      rfl

end Sys2Proof.Machine
end

section
/-!
PROOFS. The stacks' engines (R223 to R227, R229, R236, R369): the front command of a DMA engine, lookups in the tree, and control DMA.
-/
namespace Sys2Proof.Machine
open Sys2Proof.Claims
namespace State

/-! ### What a tripped stack holds (R369) -/

theorem unlessHeld_ran {s t : State} (hran : t.blocked = false) : s.unlessHeld t = t :=
  if_neg (hran ▸ Bool.false_ne_true)

theorem unlessHeld_held {s t : State} (hs : s.blocked = false) (hheld : t.blocked = true) : s.unlessHeld t = s := by
  have hsame : ({ s with blocked := false } : State) = s := hs ▸ rfl
  rw [unlessHeld, if_pos hheld, hsame]

/-! ### The DMA engine of a cluster -/

/-- The engine takes its front command once the words before it are out (R224). -/
theorem dmaNext_runs {s : State} {r c opc : Nat} (net : Option Nat) {cmd : DmaCmd} {rest : List DmaCmd}
    (hfront : (s.cluster r c).dmaCmd = cmd :: rest) (hopc : bits cmd.const.toNat 63 60 = opc) (hout : (s.cluster r c).dmaOut = []) :
    s.dmaNext r c opc net =
      let x := (s.modCluster r c fun k => { k with dmaCmd := rest }).dmaRun cmd net
      x.2.dmaDeliver r c x.1 := by
  simp only [dmaNext, hfront, hopc, hout, and_self, if_true]

/-- A walk whose first transaction meets an error on the memory network ends with it (R226). -/
theorem walkRoot_netFails (s : State) (q : DmaReq) :
    s.walkRoot q (some 0) = (.error (s.netErr (s.rd Rg.SEQBASE + q.req / 4096) (16 * (q.req % 4096))), none, s) := by
  simp only [walkRoot, netRead, if_true]

/-- Such a command leaves one fault word 0x0210 (R226). -/
theorem dmaRun_netFails {s : State} {cmd : DmaCmd} {l : KvLayout}
    (hl : (kvLayouts (sectionOf s.image 0x30 0xFF 0xFF s.place))[cmd.req.layout]? = some l) :
    ∃ d a, s.dmaRun cmd (some 0) = ([.bad 0x210 d a cmd.bundle], s) := by
  let e := s.netErr (s.rd Rg.SEQBASE + cmd.req.req / 4096) (16 * (cmd.req.req % 4096))
  refine ⟨e.detail, e.aux, ?_⟩
  simp only [dmaRun, hl, walkRoot_netFails]
  rfl

/-! ### Lookups in the tree -/

theorem pfxEnd_read {s u : State} {a : Nat} (epoch : Nat) {b : List Byte} (hread : s.cmTake 8 a 32 = (some b, u)) :
    s.pfxEnd a epoch =
      let x := u.pfxBlocks ⟨epoch, fieldAt b 12 2, byteAt b 14⟩ (fieldAt b 0 8) (fieldAt b 8 4) (fieldAt b 24 2) 4097 0 0xFFFFFFFF []
      ((x.2.2.cmSetBytes (fieldAt b 16 8) (x.1.flatMap (leBytes 4))).cmSetNum (a + 28) 4 x.1.length).cmSetNum
        (a + 26) 2 (0x8000 + x.2.1) := by
  simp only [pfxEnd, hread]

/-- The launch register starts a lookup or answers BUSY (R236). -/
theorem accessWrite_pfxLaunch {s : State} {req : Requester} (v : Word) (hon : s.answers req = true) :
    s.accessWrite req Rg.PFX_LAUNCH v none = answered req (s.pfxStart v.toNat) :=
  accessWrite_edgeRegister (i := 0) v hon (by decide) ⟨rfl, rfl⟩ rfl rfl

/-! ### Control DMA -/

theorem dmaServe_held {s : State} (src : Nat) {f0 peer f2 : DWord} (tag : Word) {host : Option (List Byte)}
    (hheld : (s.ctlDma (bits f0.toNat 47 0) peer.toNat (bits f2.toNat 31 0) (bit f2.toNat 32) (bit f2.toNat 33) host).2.blocked = true) :
    s.dmaServe src f0 peer f2 tag host = s.hold (.dma src f0 peer f2 tag host) := if_pos hheld

/-- A control DMA that nothing holds is answered by DMADONE, once host memory that it wrote has completed ring entries (R227, R253). -/
theorem dmaServe_answered {s : State} (src : Nat) {f0 peer f2 : DWord} (tag : Word) {host : Option (List Byte)}
    (hran : (s.ctlDma (bits f0.toNat 47 0) peer.toNat (bits f2.toNat 31 0) (bit f2.toNat 32) (bit f2.toNat 33) host).2.blocked = false) :
    s.dmaServe src f0 peer f2 tag host =
      let len := bits f2.toNat 31 0
      let x := s.ctlDma (bits f0.toNat 47 0) peer.toNat len (bit f2.toNat 32) (bit f2.toNat 33) host
      let u := if x.1 = 0 ∧ (!bit f2.toNat 32 && !bit f2.toNat 33) = true ∧
          (peer.toNat < cmemBase ∨ cmemBase + 0x10000000 ≤ peer.toNat) then x.2.hostWritten peer.toNat len else x.2
      u.packet 5 src (u.dmaNode (bits f0.toNat 47 0)) 0 0 [BitVec.ofNat 64 (tag.toNat + 2 ^ 32 * x.1)] :=
  if_neg (hran ▸ Bool.false_ne_true)

/-- A packet on its way has its effect where its path is open, and none where it is not (R174). -/
theorem carried_arrives {s : State} {ord : Bool} {src dest : Nat} (type : Nat) (f : State → State)
    (hopen : s.pathOpen ord src dest = true) : s.carried ord src dest type none f = f s := if_pos hopen

theorem carried_discarded {s : State} {ord : Bool} {src dest : Nat} (type : Nat) (f : State → State)
    (hclosed : s.pathOpen ord src dest = false) : s.carried ord src dest type none f = s :=
  if_neg (hclosed ▸ Bool.false_ne_true)

end State

/-! ### The commands -/

theorem exec_dma {p : Site} {net : Option Nat} {opc : Nat} {i : Instr} (s : State)
    (hi : (opc, i) ∈ [(0, Instr.kvread p net), (1, .kvwrite p net)]) :
    exec i s = .next (s.unlessHeld (s.dmaNext p.r p.c opc net)) := by
  simp only [List.mem_cons, List.not_mem_nil, or_false, Prod.mk.injEq] at hi
  obtain ⟨rfl, rfl⟩ | ⟨rfl, rfl⟩ := hi
  · rfl
  · rfl

theorem exec_pfxLaunch (req : Requester) (v : Word) (s : State) :
    exec (.pfxLaunch req v) s = .next (s.accessWrite req Rg.PFX_LAUNCH v none) := rfl

theorem exec_pfxLookupDone {v : Word} {s : State} {e : Nat × Nat} (hfind : s.lookups.find? (fun x => x.1 == v.toNat) = some e) :
    exec (.pfxLookupDone v) s = .next (s.unlessHeld (({ s with lookups := s.lookups.erase e } : State).pfxEnd e.1 e.2)) := by
  show execPfxLookupDone v s = _
  rw [execPfxLookupDone, hfind]

theorem exec_controlDma (src : BitVec 16) (f0 peer f2 : DWord) (tag : Word) (host : Option (List Byte)) (ord : Bool)
    (lost : Option (BitVec 16)) (s : State) :
    exec (.controlDma src f0 peer f2 tag host ord lost) s =
      .next (s.carried ord src.toNat (s.dmaNode (bits f0.toNat 47 0)) 4 lost
        fun s => s.dmaServe src.toNat f0 peer f2 tag host) := rfl

/-! ### The obligations -/

/-- Settles O21: the front command runs, unless its walk is held; a walk whose first transaction fails leaves one fault word. -/
theorem dmaEngineAnswersItsFrontCommand : Obligations.DmaEngineAnswersItsFrontCommand := by
  intro p net opc i cmd rest s hi hfront hopc hout hfree u x gone
  have hexec : exec i s = .next (s.unlessHeld (gone x.2 x.1)) := by
    rw [exec_dma s hi, State.dmaNext_runs net hfront hopc hout]
    rfl
  have hblocked (t : State) (ws : List DmaWord) : (gone t ws).blocked = t.blocked := State.modCluster_blocked ..
  refine ⟨fun hran => ?ran, fun hheld => ?held, fun l hl hnet => ?netFails⟩
  case ran => rw [hexec, State.unlessHeld_ran ((hblocked ..).trans hran)]
  case held => rw [hexec, State.unlessHeld_held hfree ((hblocked ..).trans hheld)]
  case netFails =>
    subst hnet
    obtain ⟨d, a, hx⟩ : ∃ d a, x = ([.bad 0x210 d a cmd.bundle], u) := State.dmaRun_netFails hl
    refine ⟨d, a, ?_⟩
    rw [hexec, hx, State.unlessHeld_ran ((hblocked u _).trans hfree)]

/-- Settles O22: a launch by the number of lookups that run, and a lookup's end by the record that it read. -/
theorem prefixLookupsReportAtTheirEnd : Obligations.PrefixLookupsReportAtTheirEnd := by
  intro req rec_ s a
  refine ⟨fun hon hroom => ?starts, fun hon hfull => ?busy, fun e b u hfind hread => ?ends⟩
  case starts =>
    rw [exec_pfxLaunch, State.accessWrite_pfxLaunch rec_ hon, State.pfxStart, if_pos hroom]
    rfl
  case busy =>
    rw [exec_pfxLaunch, State.accessWrite_pfxLaunch rec_ hon, State.pfxStart, if_neg (Nat.not_lt.mpr hfull)]
    rfl
  case ends =>
    intro x t hran
    have hend : ({ s with lookups := s.lookups.erase e } : State).pfxEnd e.1 e.2 = t := State.pfxEnd_read e.2 hread
    rw [exec_pfxLookupDone hfind, hend, State.unlessHeld_ran hran]

/-- Settles O23: the packet's way decides whether it arrives; one that arrives is held or answered. -/
theorem controlDmaIsAnsweredOrHeld : Obligations.ControlDmaIsAnsweredOrHeld := by
  intro src f0 peer f2 tag host ord s addr len x way
  refine ⟨fun hclosed => ?closed, fun node hon => ?lost, fun hopen hheld => ?held, fun hopen hran => ?answered⟩
  case closed => rw [exec_controlDma, State.carried_discarded 4 _ hclosed]
  case lost => rw [exec_controlDma, State.carried_lost _ _ _ _ _ _ hon]
  case held =>
    rw [exec_controlDma, State.carried_arrives 4 _ hopen, State.dmaServe_held _ _ hheld]
    rfl
  case answered => rw [exec_controlDma, State.carried_arrives 4 _ hopen, State.dmaServe_answered _ _ hran]

end Sys2Proof.Machine
end

section
/-!
PROOFS. The commit assist (R251, R252, R413): the command of a window, and the order of its checks.
-/
namespace Sys2Proof.Machine
namespace State

/-! ### The window of a core -/

/-- The first `n` words of a command are written to core `k`'s window (R252). -/
def writeWindow (s : State) (k cmd n : Nat) : State :=
  (List.range n).foldl (fun s w => s.wr (Rg.CMT_CMD k w) (bits cmd (32 * w + 31) (32 * w))) s

theorem writeWindow_succ (s : State) (k cmd n : Nat) :
    s.writeWindow k cmd (n + 1) = (s.writeWindow k cmd n).wr (Rg.CMT_CMD k n) (bits cmd (32 * n + 31) (32 * n)) := by
  simp only [writeWindow, List.range_succ, List.foldl_append, List.foldl_cons, List.foldl_nil]

theorem cmtCmd_inj {k i j : Nat} : Rg.CMT_CMD k i = Rg.CMT_CMD k j ↔ i = j := by
  simp only [Rg.CMT_CMD]
  omega

/-- Each word that is written reads as written: no two words of a window share an address. -/
theorem rd_writeWindow (s : State) (k cmd n : Nat) {i : Nat} (hi : i < n) :
    (s.writeWindow k cmd n).rd (Rg.CMT_CMD k i) = bits cmd (32 * i + 31) (32 * i) := by
  induction n with
  | zero => omega
  | succ n ih =>
    have hword : bits cmd (32 * n + 31) (32 * n) < 2 ^ 32 := by
      simpa only [show 32 * n + 31 + 1 - 32 * n = 32 by omega] using bits_lt cmd (32 * n + 31) (32 * n)
    rw [writeWindow_succ, rd_wr]
    by_cases hlast : i = n
    · rw [if_pos (cmtCmd_inj.mpr hlast), Nat.mod_eq_of_lt hword, hlast]
    · rw [if_neg (mt cmtCmd_inj.mp hlast), ih (by omega)]

/-- The words of a number make up the number. -/
theorem sum_words (x n : Nat) :
    ((List.range n).map fun w => bits x (32 * w + 31) (32 * w) * 2 ^ (32 * w)).foldl (· + ·) 0 = x % 2 ^ (32 * n) := by
  induction n with
  | zero => simp [Nat.mod_one]
  | succ n ih =>
    have hword : bits x (32 * n + 31) (32 * n) = x / 2 ^ (32 * n) % 2 ^ 32 := by
      rw [bits, Nat.shiftRight_eq_div_pow, show 32 * n + 31 + 1 - 32 * n = 32 by omega]
    rw [List.range_succ, List.map_append, List.foldl_append, ih, show 32 * (n + 1) = 32 * n + 32 by omega, Nat.pow_add, Nat.mod_mul]
    simp only [List.map_cons, List.map_nil, List.foldl_cons, List.foldl_nil, hword]
    rw [Nat.mul_comm (2 ^ (32 * n))]

/-- A window holds the command that has been written to it. -/
theorem windowCmd_writeWindow (s : State) (k cmd : Nat) :
    (s.writeWindow k cmd 8).windowCmd k = CommitCmd.ofNat (cmd % 2 ^ 256) := by
  have hwords : ((List.range 8).map fun w => (s.writeWindow k cmd 8).rd (Rg.CMT_CMD k w) * 2 ^ (32 * w))
      = (List.range 8).map fun w => bits cmd (32 * w + 31) (32 * w) * 2 ^ (32 * w) :=
    List.map_congr_left fun w hw => by rw [s.rd_writeWindow k cmd 8 (List.mem_range.mp hw)]
  rw [windowCmd, hwords, sum_words]

/-- A command in a window is executed and RES shows its outcome (R252). -/
theorem commitFrom_eq (s : State) (k cmd : Nat) :
    s.commitFrom k cmd =
      let c := CommitCmd.ofNat (cmd % 2 ^ 256)
      let x := (s.writeWindow k cmd 8).commit false c
      (x.2.wr (Rg.CMT_RES k) x.1.word).failover c x.1 := by
  show (s.writeWindow k cmd 8).commitWindow k = _
  rw [commitWindow, windowCmd_writeWindow]

/-! ### The checks, in their order -/

/-- The second check of a command (R252): its generation, its state FROM, where 0xFF is any live one, or its EXPN is not the request's. -/
def Stale (s : State) (c : CommitCmd) : Prop :=
  let j := c.req % 2 ^ 20
  let st := s.rq j 0 1
  c.req / 2 ^ 20 ≠ s.rq j 4 2 % 4096 ∨ (c.frm = 0xFF ∧ liveState st = false) ∨ (c.frm ≠ 0xFF ∧ c.frm ≠ st)
    ∨ (c.expn ≠ 0xFFFFFFFF ∧ c.expn ≠ s.rq j 24 4)

/-- The assist's own test of the second check is `Stale`. -/
theorem stale_iff (s : State) (c : CommitCmd) :
    (c.req / 2 ^ 20 ≠ s.rq (c.req % 2 ^ 20) 4 2 % 4096
      ∨ !(if c.frm = 0xFF then liveState (s.rq (c.req % 2 ^ 20) 0 1) else decide (c.frm = s.rq (c.req % 2 ^ 20) 0 1))
      ∨ (c.expn ≠ 0xFFFFFFFF ∧ c.expn ≠ s.rq (c.req % 2 ^ 20) 24 4)) ↔ s.Stale c := by
  by_cases hany : c.frm = 0xFF
  · simp [Stale, hany]
  · simp [Stale, hany]

theorem commitRun_stale {s : State} (adm : Bool) {c : CommitCmd} (h : s.Stale c) : s.commitRun adm c = (⟨1, false, 0⟩, s) :=
  if_pos ((s.stale_iff c).mpr h)

theorem commitRun_notAllowed {s : State} {adm : Bool} {c : CommitCmd} (hfresh : ¬ s.Stale c)
    (hchange : changeOk adm (s.rq (c.req % 2 ^ 20) 0 1) c.dst (s.holdr (c.req % 2 ^ 20)) c.hold (s.slotAfter c (c.req % 2 ^ 20)) = false) :
    s.commitRun adm c = (⟨3, false, 0⟩, s) := by
  simp only [commitRun, if_neg (mt (s.stale_iff c).mp hfresh), hchange, Bool.not_false, true_or, if_true]

theorem commitRun_allowed {s : State} {adm : Bool} {c : CommitCmd} (hfresh : ¬ s.Stale c)
    (hchange : changeOk adm (s.rq (c.req % 2 ^ 20) 0 1) c.dst (s.holdr (c.req % 2 ^ 20)) c.hold (s.slotAfter c (c.req % 2 ^ 20)) = true)
    (hring : s.rq (c.req % 2 ^ 20) 6 1 < 64) (htenant : s.rq (c.req % 2 ^ 20) 2 2 < 4096) :
    s.commitRun adm c =
      if c.ops.testBit 2 ∧ s.ringFree (s.rq (c.req % 2 ^ 20) 6 1) < c.nent then (⟨2, false, 0⟩, s) else s.commitApply c := by
  simp only [commitRun, if_neg (mt (s.stale_iff c).mp hfresh), hchange, Bool.not_true, Bool.false_eq_true, Nat.not_le.mpr hring,
    Nat.not_le.mpr htenant, or_self, if_false]
  rfl

theorem commit_badFields (s : State) (adm : Bool) {c : CommitCmd} (h : c.fieldsOk = false) :
    s.commit adm c = (⟨3, false, 0⟩, s) := by
  simp only [commit, h, Bool.not_false, if_true]

theorem commit_unread {s v : State} (adm : Bool) {c : CommitCmd} (hfields : c.fieldsOk = true)
    (hreads : s.commitReads c = (false, v)) : s.commit adm c = (⟨4 + (v.fresh 8).1 % 12, false, 0⟩, (v.fresh 8).2) := by
  simp only [commit, hfields, hreads, Bool.not_true, Bool.false_eq_true, if_false, commitUnread]

theorem commit_read {s v : State} (adm : Bool) {c : CommitCmd} (hfields : c.fieldsOk = true)
    (hreads : s.commitReads c = (true, v)) : s.commit adm c = v.commitRun adm c := by
  simp only [commit, hfields, hreads, Bool.not_true, Bool.false_eq_true, if_false]

end State

/-! ### The commands -/

theorem exec_commit (core : Fin 8) (cmd : BitVec 256) (s : State) :
    exec (.commit core cmd) s = .next (s.commitFrom core cmd.toNat) := rfl

theorem exec_adv (core : Fin 8) (req : Word) (nadv : Fin 10) (lasttok expn : Word) (s : State) :
    exec (.adv core req nadv lasttok expn) s =
      .next (s.commitFrom core (s.keepCmd req.toNat 0 nadv 0 0 lasttok.toNat expn.toNat 0)) := rfl

theorem exec_debit (core : Fin 8) (req : Word) (nadv : Fin 10) (s : State) :
    exec (.debit core req nadv) s = .next (s.commitFrom core (s.keepCmd req.toNat 1 nadv 0 0 0 0xFFFFFFFF 0)) := rfl

theorem exec_ring (core : Fin 8) (req : Word) (nent : Fin 129) (s : State) :
    exec (.ring core req nent) s = .next (s.commitFrom core (s.keepCmd req.toNat 2 0 nent 0 0 0xFFFFFFFF 0)) := rfl

theorem exec_adj (core : Fin 8) (req chg : Word) (s : State) :
    exec (.adj core req chg) s = .next (s.commitFrom core (s.keepCmd req.toNat 3 0 0 0 0 0xFFFFFFFF chg.toNat)) := rfl

theorem exec_slot (core : Fin 8) (req slotNo : Word) (s : State) :
    exec (.slot core req slotNo) s = .next (s.commitFrom core (s.keepCmd req.toNat 4 0 0 slotNo.toNat 0 0xFFFFFFFF 0)) := rfl

/-! ### The obligation -/

/-- Settles O37: the six rows write their command to the window and submit it; a command's checks are met one after another. -/
theorem commitsTakeEveryEffectOrNone : Obligations.CommitsTakeEveryEffectOrNone := by
  intro core s run
  have hrun (cmd : Nat) : s.commitFrom core cmd = run cmd := s.commitFrom_eq core cmd
  refine ⟨fun cmd => ?commit, fun req nadv lasttok expn => ?adv, fun req nadv => ?debit, fun req nent => ?ring,
    fun req chg => ?adj, fun req slot => ?slot, ?checks⟩
  case commit => rw [exec_commit, hrun]
  case adv => rw [exec_adv, hrun]
  case debit => rw [exec_debit, hrun]
  case ring => rw [exec_ring, hrun]
  case adj => rw [exec_adj, hrun]
  case slot => rw [exec_slot, hrun]
  case checks =>
    intro u c v j st stale
    refine ⟨fun hbad => u.commit_badFields false hbad, fun hfields hunread => ?unread, fun hfields hread => ?read⟩
    case unread =>
      exact ⟨4 + (v.fresh 8).1 % 12, Nat.le_add_right .., State.commit_unread false hfields (Prod.ext hunread rfl)⟩
    case read =>
      rw [State.commit_read false hfields (Prod.ext hread rfl)]
      exact ⟨State.commitRun_stale false, State.commitRun_notAllowed, State.commitRun_allowed⟩

end Sys2Proof.Machine
end

section
/-!
PROOFS. Submission entries (R242, R244, R245, R248, R256, R257, R413): consumption, and how each of the four is answered.
-/
namespace Sys2Proof.Machine
namespace State

/-! ### An entry is consumed (R242, R244) -/

theorem ring_setRing (s : State) (r q : Nat) (x : Ring) : (s.setRing r x).ring q = if q = r then x else s.ring q := by
  simp [setRing, ring, Store.get_set]

theorem consume_head (s : State) (r : Nat) :
    (s.consume r).2.fld (Rg.SQHEAD_IDX r) = (s.fld (Rg.SQHEAD_IDX r) + 1) % 2 ^ 24 := by
  rw [consume, fld_setFld _ _ _ (Nat.zero_le _) (by decide : (23 : Nat) < 32)]
  exact Nat.mod_mod _ _

theorem consume_next (s : State) (r : Nat) : ((s.consume r).2.ring r).next = ((s.ring r).next + 1) % 2 ^ 24 := by
  show ((s.setRing r { s.ring r with next := ((s.ring r).next + 1) % 2 ^ 24 }).ring r).next = _
  rw [ring_setRing, if_pos rfl]

/-! ### SUBMIT (R248) -/

/-- The first status of a list of checks that fails, 0 where none does. -/
def firstFailing (checks : List (Nat × Bool)) : Nat := ((checks.find? fun e => e.2).map fun e => e.1).getD 0

theorem firstFailing_nil : firstFailing [] = 0 := rfl

theorem firstFailing_cons (k : Nat) (fails : Bool) (checks : List (Nat × Bool)) :
    firstFailing ((k, fails) :: checks) = if fails = true then k else firstFailing checks := by
  cases fails
  · rfl
  · rfl

/-- The checks of a SUBMIT, in the order of R248. -/
def submitChecks (s : State) (b : List Byte) (params : Option (List Byte)) (prompt : Option (List Word)) : List (Nat × Bool) :=
  let ten := fieldAt b 2 2
  let spec := (byteAt b 1).testBit 1
  let draft := byteAt b 42
  let gram := fieldAt b 40 2
  let np := fieldAt b 24 4
  [(9, s.fld Rg.IMG_STAT_STATE != 3 && s.fld Rg.IMG_STAT_STATE != 4), (4, decide (4095 < ten) || !s.tenantOn ten),
   (12, params.isNone || prompt.isNone),
   (5, fieldAt b 28 4 == 0 || decide (4 < draft) || (draft != 0 && !spec)
        || !paramsOk (params.getD []) (64 * imgCandpass s.image s.place)),
   (6, gram != 0 && !Store.has s.serve.grammars gram),
   (7, spec && (draft == 0 || decide (imgNdraft s.image s.place < draft) || !imgMaps s.image s.place draft)),
   (8, np == 0 || decide (imgMaxctx s.image s.place < np + fieldAt b 28 4))]

theorem submitStatus_eq (s : State) (b : List Byte) (params : Option (List Byte)) (prompt : Option (List Word)) :
    s.submitStatus b params prompt = firstFailing (s.submitChecks b params prompt) := by
  simp only [submitStatus, submitChecks, firstFailing_cons, firstFailing_nil, bit, Bool.and_eq_true, Bool.or_eq_true, bne_iff_ne,
    beq_iff_eq, decide_eq_true_eq, or_assoc]
  rfl

/-- The search for a FREE entry looks at one entry, then at those after it; one that cannot be read is not FREE (R250, R413). -/
theorem firstFree_succ {s v : State} {j : Nat} {x : Option DWord} (n : Nat) (hread : s.cmRead (s.rqAt j / 8) 8 = (x, v)) :
    s.firstFree (n + 1) j = if (x.map fun d => d.toNat % 256) = some 0 then (some j, v) else v.firstFree n (j + 1) := by
  cases x with
  | none => simp only [firstFree, hread, Option.map_none, reduceCtorEq, if_false]
  | some d => simp only [firstFree, hread, Option.map_some, Option.some.injEq]

section Submit
variable {s u v : State} {r ack j : Nat} {b : List Byte} {params : Option (List Byte)} {prompt : Option (List Word)}

theorem submit_unread (hreads : s.submitReads (fieldAt b 2 2) = (false, u)) :
    s.submit r ack b params prompt = u.submitFree r ack b := by
  simp only [submit, hreads]

theorem submit_refused {k : Nat} (hreads : s.submitReads (fieldAt b 2 2) = (true, u))
    (hstatus : u.submitStatus b params prompt = k) (hfails : k ≠ 0) :
    s.submit r ack b params prompt = u.ackWrite r ack 1 k (entryCtag b) 0 := by
  obtain ⟨n, rfl⟩ := Nat.exists_eq_succ_of_ne_zero hfails
  simp only [submit, hreads, hstatus]

theorem submit_full (hreads : s.submitReads (fieldAt b 2 2) = (true, u)) (hstatus : u.submitStatus b params prompt = 0)
    (hfull : u.firstFree 1048576 0 = (none, v)) : s.submit r ack b params prompt = v.ackWrite r ack 1 3 (entryCtag b) 0 := by
  simp only [submit, hreads, hstatus, hfull]

theorem submit_makes (hreads : s.submitReads (fieldAt b 2 2) = (true, u)) (hstatus : u.submitStatus b params prompt = 0)
    (hfree : u.firstFree 1048576 0 = (some j, v)) :
    s.submit r ack b params prompt = v.submitMake r ack j b (params.getD []) (prompt.getD []) := by
  simp only [submit, hreads, hstatus, hfree]

end Submit

theorem submitMake_noPage {s : State} {b : List Byte} {prompt : List Word} (r ack j : Nat) (params : List Byte)
    (hcopy : s.promptCopy ((prompt.take (fieldAt b 24 4)).flatMap fun t => leBytes 4 t.toNat) (ceilDiv (fieldAt b 24 4) 16384) = none) :
    s.submitMake r ack j b params prompt = s.submitFree r ack b := by
  simp only [submitMake, hcopy]

theorem submitMake_copied {s w : State} {b : List Byte} {prompt : List Word} (r ack j : Nat) (params : List Byte)
    (hcopy : s.promptCopy ((prompt.take (fieldAt b 24 4)).flatMap fun t => leBytes 4 t.toNat) (ceilDiv (fieldAt b 24 4) 16384) = some w) :
    s.submitMake r ack j b params prompt =
      let z := w.submitAccept r j b params prompt
      if z.1 = 0 then z.2.2.ackWrite r ack 1 0 (entryCtag b) z.2.1 else z.2.2.submitFree r ack b := by
  simp only [submitMake, hcopy]

/-! ### ABORT (R256) -/

/-- The commit of an ABORT: any live state to ABORTED, with one ring entry. -/
def abortCommit (s : State) (handle : Nat) : CommitRes × State :=
  s.commit false ⟨handle, 0xFF, 6, 0, 4, 0, 1, 0, 0, 6, 0, 0xFFFFFFFF, 0⟩

section Abort
variable {s : State} {a : WaitAbort}

theorem abortRun_ended (h : (s.abortCommit a.handle).1.status = 0) :
    s.abortRun a =
      let x := s.abortCommit a.handle
      (x.2.endWrite (a.handle % 2 ^ 20) x.1.idx 6).ackWrite a.ring a.ack 2 0 a.ctag a.handle := by
  rw [abortCommit] at h
  simp only [abortRun, abortCommit, h]

theorem abortRun_waits (h : (s.abortCommit a.handle).1.status = 2) :
    s.abortRun a =
      let t := (s.abortCommit a.handle).2
      { t with serve := { t.serve with aborts := t.serve.aborts ++ [a] } } := by
  rw [abortCommit] at h
  simp only [abortRun, abortCommit, h]

theorem abortRun_refused (h : (s.abortCommit a.handle).1.status = 1) :
    s.abortRun a =
      let t := (s.abortCommit a.handle).2
      let j := a.handle % 2 ^ 20
      t.ackWrite a.ring a.ack 2 (if a.handle / 2 ^ 20 = t.rq j 4 2 % 4096 ∧ t.rq j 0 1 ≠ 0 then 1 else 2) a.ctag a.handle := by
  rw [abortCommit] at h
  simp only [abortRun, abortCommit, h]
  exact (apply_ite (fun k => State.ackWrite _ _ _ 2 k _ _) _ 1 2).symm

theorem abortRun_unread (h : 2 < (s.abortCommit a.handle).1.status) :
    s.abortRun a =
      let y := (s.abortCommit a.handle).2.fresh 8
      y.2.ackWrite a.ring a.ack 2 y.1 a.ctag a.handle := by
  obtain ⟨n, hn⟩ := Nat.exists_eq_add_of_lt h
  rw [abortCommit] at hn
  simp only [abortRun, abortCommit, hn, show 2 + n + 1 = n + 3 by omega]

end Abort

/-! ### TENANT (R257) -/

section Tenant
variable {s u : State} {r ack : Nat} {b : List Byte}

theorem tenant_refused (hfails : tenantStatus b ≠ 0) :
    s.tenant r ack b = s.ackWrite r ack 3 (tenantStatus b) (entryCtag b) 0 := by
  obtain ⟨n, hn⟩ := Nat.exists_eq_succ_of_ne_zero hfails
  simp only [tenant, hn]

theorem tenant_written (hstatus : tenantStatus b = 0) (hreads : s.tenantReads (fieldAt b 2 2) = (true, u)) :
    s.tenant r ack b = (u.tenantWrite b).ackWrite r ack 3 0 (entryCtag b) 0 := by
  simp only [tenant, hstatus, hreads]

theorem tenant_unread (hstatus : tenantStatus b = 0) (hreads : s.tenantReads (fieldAt b 2 2) = (false, u)) :
    s.tenant r ack b = (u.fresh 8).2.ackWrite r ack 3 (1 + (u.fresh 8).1 % 255) (entryCtag b) 0 := by
  simp only [tenant, hstatus, hreads]

end Tenant

/-! ### GRAMMAR (R245, R248) -/

section Grammar
variable {s u : State} {r ack : Nat} {b : List Byte} {body : Option (List Byte)}

theorem grammar_unread (hreads : s.cmProbe 8 (if fieldAt b 2 2 = 0 then [] else s.grammarWords) = (false, u)) :
    s.grammar r ack b body = (u.fresh 8).2.ackWrite r ack 4 (1 + (u.fresh 8).1 % 255) (entryCtag b) 0 := by
  simp only [grammar, hreads]

theorem grammar_refused {k : Nat} (hreads : s.cmProbe 8 (if fieldAt b 2 2 = 0 then [] else s.grammarWords) = (true, u))
    (hstatus : u.grammarStatus b body = k) (hfails : k ≠ 0) :
    s.grammar r ack b body = u.ackWrite r ack 4 k (entryCtag b) 0 := by
  simp only [grammar, hreads, hstatus, hfails, if_false]

theorem grammar_stored (hreads : s.cmProbe 8 (if fieldAt b 2 2 = 0 then [] else s.grammarWords) = (true, u))
    (hstatus : u.grammarStatus b body = 0) :
    s.grammar r ack b body =
      let object := padTo (fieldAt b 16 4) ((body.getD []).take (fieldAt b 16 4))
      ({ u with serve := { u.serve with grammars := Store.put u.serve.grammars (fieldAt b 2 2) object } } : State).ackWrite
        r ack 4 0 (entryCtag b) 0 := by
  simp only [grammar, hreads, hstatus, if_true]

end Grammar

end State

/-! ### The commands -/

section Entry
variable {ring : Fin 64} {entry : List Byte} {s : State} (hturn : s.nextRing = some ring.val)
include hturn

/-- An entry that R245 does not allow is answered with status 10. -/
theorem exec_badOpcode (hbad : State.badEntry (padTo 64 (entry.take 64)) = true) :
    exec (.badOpcode ring entry) s =
      .next ((s.consume ring).2.badAck ring (s.consume ring).1 (padTo 64 (entry.take 64))) :=
  congrArg Host.Outcome.next (if_pos ⟨hbad, hturn⟩)

/-- An allowed entry at the ring pair whose turn it is is consumed and answered, unless a tripped stack holds it (R369). -/
theorem entryRow_answered {opc : Nat} (hallowed : State.badEntry (padTo 64 (entry.take 64)) = false)
    (hopc : byteAt (padTo 64 (entry.take 64)) 0 = opc) (f : State → Nat → List Byte → State) :
    entryRow ring opc entry s f =
      .next (s.unlessHeld (f (s.consume ring).2 (s.consume ring).1 (padTo 64 (entry.take 64)))) := by
  simp only [entryRow, hallowed, hopc, hturn, and_self, if_true, Bool.false_eq_true, if_false]

end Entry

theorem exec_submit (ring : Fin 64) (entry : List Byte) (params : Option (List Byte)) (prompt : Option (List Word)) (s : State) :
    exec (.submit ring entry params prompt) s =
      entryRow ring 1 entry s fun s ack b => s.submit ring ack b params prompt := rfl

theorem exec_abort (ring : Fin 64) (entry : List Byte) (s : State) :
    exec (.abort ring entry) s =
      entryRow ring 2 entry s fun s ack b => s.abortRun ⟨ring, ack, State.entryCtag b, fieldAt b 8 4⟩ := rfl

theorem exec_tenant (ring : Fin 64) (entry : List Byte) (s : State) :
    exec (.tenant ring entry) s = entryRow ring 3 entry s fun s ack b => s.tenant ring ack b := rfl

theorem exec_grammar (ring : Fin 64) (entry : List Byte) (body : Option (List Byte)) (s : State) :
    exec (.grammar ring entry body) s = entryRow ring 4 entry s fun s ack b => s.grammar ring ack b body := rfl

/-! ### The obligation -/

/-- Settles O36: the entry is consumed, and each of the four operations is answered by what it reads and by its first failing check. -/
theorem submissionEntriesAreAnswered : Obligations.SubmissionEntriesAreAnswered := by
  intro ring entry s hturn b i t ctag ten np open_
  refine ⟨s.consume_head ring, s.consume_next ring, fun hbad => exec_badOpcode hturn hbad, ?submit, ?checks, ?free, ?abort, ?tenant,
    ?grammar⟩
  case submit =>
    intro hallowed hopc params prompt answers ok u
    have hanswer {w : State} (h : t.submit ring i b params prompt = w) : answers w :=
      h ▸ (exec_submit ..).trans (entryRow_answered hturn hallowed hopc _)
    refine ⟨fun hunread => hanswer (State.submit_unread (Prod.ext hunread rfl)), fun hread k hstatus hfails => ?refused,
      fun hread hstatus => ⟨fun hnone => ?full, fun j hfree => ?makes⟩⟩
    case refused => exact hanswer (State.submit_refused (Prod.ext hread rfl) hstatus hfails)
    case full => exact hanswer (State.submit_full (Prod.ext hread rfl) hstatus (Prod.ext hnone rfl))
    case makes =>
      have hmakes := State.submit_makes (r := ring) (ack := i) (Prod.ext hread rfl) hstatus (Prod.ext hfree rfl)
      exact ⟨fun hcopy => hanswer (hmakes.trans (State.submitMake_noPage _ _ _ _ hcopy)),
        fun w hcopy => hanswer (hmakes.trans (State.submitMake_copied _ _ _ _ hcopy))⟩
  case checks => exact fun u params prompt => u.submitStatus_eq b params prompt
  case free => exact fun u v n j x hread => State.firstFree_succ n hread
  case abort =>
    intro hallowed hopc h j x answers
    have hanswer {w : State} (hw : t.abortRun ⟨ring, i, ctag, h⟩ = w) : answers w :=
      hw ▸ (exec_abort ..).trans (entryRow_answered hturn hallowed hopc _)
    exact ⟨fun hended => hanswer (State.abortRun_ended hended), fun hfull => hanswer (State.abortRun_waits hfull),
      fun hstale => hanswer (State.abortRun_refused hstale), fun hunread => hanswer (State.abortRun_unread hunread)⟩
  case tenant =>
    intro hallowed hopc answers
    have hanswer {w : State} (h : t.tenant ring i b = w) : answers w :=
      h ▸ (exec_tenant ..).trans (entryRow_answered hturn hallowed hopc _)
    exact ⟨fun hfails => hanswer (State.tenant_refused hfails),
      fun hstatus hread => hanswer (State.tenant_written hstatus (Prod.ext hread rfl)),
      fun hstatus hunread => hanswer (State.tenant_unread hstatus (Prod.ext hunread rfl))⟩
  case grammar =>
    intro hallowed hopc body answers x
    have hanswer {w : State} (h : t.grammar ring i b body = w) : answers w :=
      h ▸ (exec_grammar ..).trans (entryRow_answered hturn hallowed hopc _)
    exact ⟨fun hunread => hanswer (State.grammar_unread (Prod.ext hunread rfl)),
      fun hread k hstatus hfails => hanswer (State.grammar_refused (Prod.ext hread rfl) hstatus hfails),
      fun hread hstatus => hanswer (State.grammar_stored (Prod.ext hread rfl) hstatus)⟩

end Sys2Proof.Machine
end

section
/-!
PROOFS. Admission commands (R259, R263, R369) and the millisecond's refill of the budgets (R258, R413).
-/
namespace Sys2Proof.Machine
open Sys2Proof.Claims

namespace State

/-- A write of ADM_CMD while no command runs begins the admission of its KIND (R259). -/
theorem admCmd_idle {s : State} (v : Nat) (hdone : s.flag Rg.ADM_RES_DONE = true) :
    s.admCmd v = (s.setFld Rg.ADM_RES_IGN 0).admitOrHold (if v.testBit 31 then 0 else 1) (bits v 20 0) := if_pos hdone

/-- One that comes while a command runs is ignored and sets IGN (R263). -/
theorem admCmd_busy {s : State} (v : Nat) (hruns : s.flag Rg.ADM_RES_DONE = false) : s.admCmd v = s.setFld Rg.ADM_RES_IGN 1 :=
  if_neg (hruns ▸ Bool.false_ne_true)

/-- An access to ADM_CMD is its write, answered. -/
theorem accessWrite_admCmd {s : State} {req : Requester} (v : Word) (hon : s.answers req = true) :
    s.accessWrite req Rg.ADM_CMD v none = answered req (s.admCmd v.toNat) :=
  accessWrite_edgeRegister (i := 0) v hon (by decide) ⟨rfl, rfl⟩ rfl rfl

/-- The refill of one tenant (R258): only the first four words of its record are read. -/
theorem refillOne_eq (s : State) (k : Nat) :
    s.refillOne k =
      let x := s.cmProbe 8 ((s.tnWords k).take 4)
      let u := x.2
      if x.1 = true ∧ u.tenantOn k = true ∧ u.budget k < (u.tn k 12 4 : Int) then
        u.setBudget k (min (u.tn k 12 4 : Int) (u.budget k + u.tn k 8 4))
      else u := rfl

end State

/-! ### The command words -/

/-- ADM_CMD of decode kind: N in bits [20:0], KIND clear (R263). -/
theorem decodeWord_fields (n : BitVec 21) :
    (BitVec.ofNat 32 n.toNat).toNat.testBit 31 = false ∧ bits (BitVec.ofNat 32 n.toNat).toNat 20 0 = n.toNat := by
  have hn : n.toNat < 2 ^ 21 := n.isLt
  have hword : (BitVec.ofNat 32 n.toNat).toNat = n.toNat := by
    rw [BitVec.toNat_ofNat, Nat.mod_eq_of_lt (by omega)]
  rw [hword, bits, Nat.shiftRight_zero, Nat.mod_eq_of_lt hn]
  exact ⟨Nat.testBit_lt_two_pow (by omega), rfl⟩

/-- ADM_CMD of prefill kind: N in bits [20:0], KIND set (R263). -/
theorem prefillWord_fields (n : BitVec 21) :
    (BitVec.ofNat 32 (2 ^ 31 + n.toNat)).toNat.testBit 31 = true ∧ bits (BitVec.ofNat 32 (2 ^ 31 + n.toNat)).toNat 20 0 = n.toNat := by
  have hn : n.toNat < 2 ^ 21 := n.isLt
  have hword : (BitVec.ofNat 32 (2 ^ 31 + n.toNat)).toNat = 2 ^ 31 + n.toNat := by
    rw [BitVec.toNat_ofNat, Nat.mod_eq_of_lt (by omega)]
  refine ⟨?kind, ?count⟩
  case kind => rw [hword, Nat.testBit_two_pow_add_eq, Nat.testBit_lt_two_pow (by omega), Bool.not_false]
  case count =>
    rw [hword, bits, Nat.shiftRight_zero]
    omega

/-! ### The commands -/

theorem exec_decodeAdmission (req : Requester) (n : BitVec 21) (s : State) :
    exec (.decodeAdmission req n) s = .next (s.accessWrite req Rg.ADM_CMD (BitVec.ofNat 32 n.toNat) none) := rfl

theorem exec_prefillAdmission (req : Requester) (n : BitVec 21) (s : State) :
    exec (.prefillAdmission req n) s = .next (s.accessWrite req Rg.ADM_CMD (BitVec.ofNat 32 (2 ^ 31 + n.toNat)) none) := rfl

theorem exec_budgetRefill (s : State) : exec .budgetRefill s = .next ((List.range 4096).foldl State.refillOne s) := rfl

/-! ### The obligation -/

/-- Settles O38: both kinds are one write of ADM_CMD, which DONE lets pass or not; the refill is that of each tenant in turn. -/
theorem admissionsRunAndBudgetsRefill : Obligations.AdmissionsRunAndBudgetsRefill := by
  intro req n s
  refine ⟨fun hon => ⟨fun hdone => ⟨?decode, ?prefill⟩, fun hruns => ⟨?decodeIgnored, ?prefillIgnored⟩⟩, ?refill⟩
  case decode =>
    obtain ⟨hkind, hcount⟩ := decodeWord_fields n
    rw [exec_decodeAdmission, State.accessWrite_admCmd _ hon, State.admCmd_idle _ hdone, hkind, hcount]
    rfl
  case prefill =>
    obtain ⟨hkind, hcount⟩ := prefillWord_fields n
    rw [exec_prefillAdmission, State.accessWrite_admCmd _ hon, State.admCmd_idle _ hdone, hkind, hcount]
    rfl
  case decodeIgnored => rw [exec_decodeAdmission, State.accessWrite_admCmd _ hon, State.admCmd_busy _ hruns]
  case prefillIgnored => rw [exec_prefillAdmission, State.accessWrite_admCmd _ hon, State.admCmd_busy _ hruns]
  case refill =>
    rw [exec_budgetRefill, show State.refillOne = _ from funext fun t => funext fun k => t.refillOne_eq k]

end Sys2Proof.Machine
end

section
/-!
PROOFS. Feeders and the sampling unit (R264 to R266, R269, R275, R413): what a row's command reads before it serves the row, and what
it does then.
-/
namespace Sys2Proof.Machine
namespace State

/-! ### The feeder (R266) -/

section Feed
variable {s t u : State} {r row : Nat} {w : RowEntry}

/-- The turn of region `r`'s feeder passes from row `row` of its pass to the next row, or to row 0 of the next pass (R266). -/
def feedTurn (s : State) (r row : Nat) : Nat × Nat :=
  if row + 1 < s.rowCount r then ((s.region r).feedPass, row + 1) else ((s.region r).feedPass + 1, 0)

/-- The feeder's turn becomes `turn`. -/
def passTurn (s : State) (r : Nat) (turn : Nat × Nat) : State :=
  s.modRegion r fun g => { g with feedPass := turn.1, feedRow := turn.2 }

/-- The records of pass `pass` that have arrived of a row at its sampling region (R266, R268). -/
def passRecs (s : State) (row : Nat) (w : RowEntry) (pass : Nat) : List SmpRec :=
  (s.rowRecs (imgSampler s.image s.place (s.rowModel w)) row (s.rowModel w)).filter fun x => x.pass + 1 == pass

variable (hseq : (s.region r).feedSeq = s.rd (Rg.SEGSEQ r)) (hturn : (s.region r).feedRow = row) (hrow : row < s.rowCount r)
include hseq hturn hrow

theorem feed_rowUnread (hread : s.rowRead r 1 row = (none, t)) : s.feed r row = t := by
  simp only [feed, hseq, hturn, Nat.not_le.mpr hrow, hread, ne_eq, not_true_eq_false, or_self, if_true, if_false]

/-- In the first pass a row's declared records are fed. -/
theorem feed_declared (hread : s.rowRead r 1 row = (some w, t)) (hpass : (s.region r).feedPass = 0) :
    s.feed r row = (t.feedsFor r (s.segOf r).2).foldl (fun s d => s.feedDecl r w d) (t.passTurn r (s.feedTurn r row)) := by
  simp only [feed, hseq, hturn, Nat.not_le.mpr hrow, hread, hpass, ne_eq, not_true_eq_false, or_self, if_true, if_false, passTurn,
    feedTurn]

section Later
variable (hread : s.rowRead r 1 row = (some w, t)) (hlater : 0 < (s.region r).feedPass)
  (hlast : (s.region r).feedPass < imgCandpass t.image t.place)
include hread hlater hlast

theorem feed_requestUnread (hrequest : (if w.kind = 4 then t.requestRead r 1 w else (true, t)) = (false, u)) : s.feed r row = u := by
  simp only [feed, hseq, hturn, Nat.not_le.mpr hrow, hread, Nat.ne_of_gt hlater, Nat.not_le.mpr hlast, hrequest, ne_eq,
    not_true_eq_false, or_self, if_true, if_false]

/-- In a later pass the FLOOR records of the pass before are fed, once they have all arrived (R266, R268). -/
theorem feed_floor (hrequest : (if w.kind = 4 then t.requestRead r 1 w else (true, t)) = (true, u))
    (harrived : w.positions ≤ (u.passRecs row w (s.region r).feedPass).length) :
    s.feed r row = ((u.feedsFor r (s.segOf r).2).filter fun d => d.recs.testBit 3).foldl
      (fun s' d => s'.floorPush r d (u.passRecs row w (s.region r).feedPass)) (u.passTurn r (s.feedTurn r row)) := by
  rw [passRecs] at harrived
  simp only [feed, hseq, hturn, Nat.not_le.mpr hrow, hread, Nat.ne_of_gt hlater, Nat.not_le.mpr hlast, hrequest,
    Nat.not_lt.mpr harrived, ne_eq, not_true_eq_false, or_self, if_true, if_false, passTurn, feedTurn, passRecs, bit]

end Later
end Feed

/-! ### The sampling unit takes a row (R269, R273, R413) -/

/-- The whole records in the queue of region `r`'s sampling unit. -/
def queued (s : State) (r : Nat) : List SmpRec := smpRecs (s.region r).smpq.length (s.region r).smpq

/-- The first bad record of `recs`, by the rows of region `r`'s segment (R273). -/
def firstBad (s : State) (r : Nat) (recs : List SmpRec) : Option SmpRec := badRec (s.rowCount r) (s.positionsOf r) [] recs

section Take
variable {s t t' u : State} {r row : Nat} {w : RowEntry} {want : Nat → Bool} {f : State → RowEntry → List SmpRec → State}
  (hrun : (s.region r).halted = false) (hreach : s.reachable r = true) (hrow : row < s.rowCount r)
include hrun hreach hrow

theorem takeRow_rowsUnread (hrows : s.rowsRead r (s.namedRows r (s.queued r)) = (false, t)) : s.takeRow r row want f = t := by
  rw [queued] at hrows
  simp only [takeRow, hrun, hreach, Nat.not_le.mpr hrow, hrows, Bool.not_true, decide_false, Bool.or_self, Bool.false_eq_true, if_false]

section Rows
variable (hrows : s.rowsRead r (s.namedRows r (s.queued r)) = (true, t))
include hrows

/-- A bad record raises reason 1 of fault 0x0218 (R273). -/
theorem takeRow_badRec {x : SmpRec} (hbad : t.firstBad r (s.queued r) = some x) :
    s.takeRow r row want f = t.samplerFault r 0 1 (t.badIdx r x) 0 := by
  rw [firstBad, queued] at hbad
  rw [queued] at hrows
  simp only [takeRow, hrun, hreach, Nat.not_le.mpr hrow, hrows, hbad, Bool.not_true, decide_false, Bool.or_self, Bool.false_eq_true,
    if_false]

variable (hgood : t.firstBad r (s.queued r) = none)
include hgood

theorem takeRow_rowUnread (hread : t.rowRead r 0 row = (none, u)) : s.takeRow r row want f = u := by
  rw [firstBad, queued] at hgood
  rw [queued] at hrows
  simp only [takeRow, hrun, hreach, Nat.not_le.mpr hrow, hrows, hgood, hread, Bool.not_true, decide_false, Bool.or_self,
    Bool.false_eq_true, if_false]

variable (hread : t.rowRead r 0 row = (some w, t')) (hkind : want w.kind = true)
include hread hkind

theorem takeRow_requestUnread (hrequest : t'.requestRead r 0 w = (false, u)) : s.takeRow r row want f = u := by
  rw [firstBad, queued] at hgood
  rw [queued] at hrows
  simp only [takeRow, hrun, hreach, Nat.not_le.mpr hrow, hrows, hgood, hread, hkind, hrequest, Bool.not_true, decide_false, Bool.or_self,
    Bool.false_eq_true, if_false]

/-- Once the records of every pass of every position have arrived they leave the queue and the row is decided (R266, R269). -/
theorem takeRow_arrived (hrequest : t'.requestRead r 0 w = (true, u))
    (harrived : (if (u.segOf r).2 = 2 then 1 else imgCandpass u.image u.place) * w.positions
      ≤ ((s.queued r).filter (u.ofRow (u.segOf r).2 row w)).length) :
    s.takeRow r row want f =
      let mine := u.ofRow (u.segOf r).2 row w
      f (u.modRegion r fun g => { g with smpq := smpDrop mine g.smpq.length g.smpq }) w ((s.queued r).filter mine) := by
  rw [firstBad, queued] at hgood
  rw [queued] at hrows harrived
  simp only [takeRow, hrun, hreach, Nat.not_le.mpr hrow, hrows, hgood, hread, hkind, hrequest, Nat.not_lt.mpr harrived, queued,
    Bool.not_true, decide_false, Bool.or_self, Bool.false_eq_true, if_false]

end Rows
end Take

/-! ### What the two commands do with a row -/

/-- A row of KIND 0 or 1 is discarded, one of KIND 2 to 4 decided (R264, R269). -/
def sampled (s : State) (r : Nat) (w : RowEntry) (recs : List SmpRec) : State :=
  if w.kind ≤ 1 then s else s.sampleRow r w recs

/-- The drafts of a row of KIND 5 are tested, once the header of its context has been read (R265, R275). -/
def verified (s : State) (r : Nat) (w : RowEntry) (recs : List SmpRec) : State :=
  match s.ctxHeader r 0 w with
  | (none, s) => s
  | (some h, s) => s.verifyFrom r w (SmpParams.ofHeader h) (imgCandpass s.image s.place) recs w.depth 0

end State

/-! ### The commands -/

theorem exec_feed {r : Fin 96} {s : State} (row : Fin 4096) (hrun : (s.region r).halted = false) (hreach : s.reachable r = true) :
    exec (.feed r row) s = .next (s.unlessHeld (s.feed r row)) := by
  show execFeed r row s = _
  simp only [execFeed, hrun, hreach, Bool.not_true, Bool.or_self, Bool.false_eq_true, if_false]

theorem exec_sample (r : Fin 96) (row : Fin 4096) (s : State) :
    exec (.sample r row) s =
      .next (s.unlessHeld (s.takeRow r row (fun k => decide (k ≤ 4)) fun s w recs => s.sampled r w recs)) := rfl

theorem exec_verify (r : Fin 96) (row : Fin 4096) (s : State) :
    exec (.verify r row) s =
      .next (s.unlessHeld (s.takeRow r row (fun k => k == 5) fun s w recs => s.verified r w recs)) := rfl

/-- A row's command, of either kind, is one taking of the row; the KINDs that it serves are those of `sample` or of `verify`. -/
theorem exec_takesRow {r : Fin 96} {row : Fin 4096} {i : Instr} (s : State) (hi : i ∈ [Instr.sample r row, .verify r row]) :
    ∃ (want : Nat → Bool) (f : State → RowEntry → List SmpRec → State),
      exec i s = .next (s.unlessHeld (s.takeRow r row want f))
      ∧ ∀ k, (i = .sample r row ∧ k ≤ 4) ∨ (i = .verify r row ∧ k = 5) → want k = true := by
  simp only [List.mem_cons, List.not_mem_nil, or_false] at hi
  obtain rfl | rfl := hi
  · exact ⟨_, _, exec_sample r row s, by simp⟩
  · exact ⟨_, _, exec_verify r row s, by simp⟩

/-! ### The obligation -/

/-- Settles O39: what is read comes first, and ends the command where it fails; then the row is fed, decided, tested or discarded. -/
theorem rowsAreFedAndDecided : Obligations.RowsAreFedAndDecided := by
  intro r row s hrun hreach hrow
  refine ⟨fun hseq hturn => ?feeder, ?sampler⟩
  case feeder =>
    intro pass turn served fed
    have hfed {t : State} (h : s.feed r row = t) : fed t := h ▸ exec_feed row hrun hreach
    refine ⟨fun t hread => hfed (State.feed_rowUnread hseq hturn hrow hread), fun w t hread =>
      ⟨fun hfirst => hfed (State.feed_declared hseq hturn hrow hread hfirst), fun ok u hrequest hlater hlast => ⟨?unread, ?floor⟩⟩⟩
    case unread =>
      rintro rfl
      exact hfed (State.feed_requestUnread hseq hturn hrow hread hlater hlast hrequest)
    case floor =>
      rintro rfl harrived
      exact hfed (State.feed_floor hseq hturn hrow hread hlater hlast hrequest harrived)
  case sampler =>
    intro words both
    have htakes {t : State} (h : ∀ want f, s.takeRow r row want f = t) : both t := by
      intro i hi
      obtain ⟨want, f, hexec, -⟩ := exec_takesRow s hi
      rw [hexec, h]
    refine ⟨fun t hrows => htakes fun want f => State.takeRow_rowsUnread hrun hreach hrow hrows, fun t hrows => ?rows⟩
    intro bad
    refine ⟨fun x hbad => htakes fun want f => State.takeRow_badRec hrun hreach hrow hrows hbad,
      fun u hgood hread => htakes fun want f => State.takeRow_rowUnread hrun hreach hrow hrows hgood hread, ?row⟩
    intro w t' hgood hread fit
    refine ⟨fun u i hrequest hfit => ?unread, fun u hrequest => ?arrived⟩
    case unread =>
      have hi : i ∈ [Instr.sample r row, .verify r row] := by
        obtain ⟨rfl, -⟩ | ⟨rfl, -⟩ := hfit
        · simp
        · simp
      obtain ⟨want, f, hexec, hserves⟩ := exec_takesRow s hi
      rw [hexec, State.takeRow_requestUnread hrun hreach hrow hrows hgood hread (hserves _ hfit) hrequest]
    case arrived =>
      intro mine recs v harrived
      have htaken {want : Nat → Bool} {f : State → RowEntry → List SmpRec → State} (hkind : want w.kind = true) :
          s.takeRow r row want f = f v w recs :=
        State.takeRow_arrived hrun hreach hrow hrows hgood hread hkind hrequest harrived
      refine ⟨fun hdiscard => ?discarded, fun hmin hmax => ?decided, fun hverify h x hheader => ?tested⟩
      case discarded =>
        rw [exec_sample, htaken (decide_eq_true (by omega)), State.sampled, if_pos hdiscard]
      case decided =>
        rw [exec_sample, htaken (decide_eq_true hmax), State.sampled, if_neg (by omega)]
      case tested =>
        rw [exec_verify, htaken (want := fun k => k == 5) (beq_iff_eq.mpr hverify), State.verified, hheader]
        cases h with
        | none => rfl
        | some h => rfl

end Sys2Proof.Machine
end

section
/-!
PROOFS. The weight phase's commands: a fetched segment or tile record (R281, R284, R287, R288, R294), and WLD_CTL's swap and stop
(R289, R293, R294, R299).
-/
namespace Sys2Proof.Machine
open Sys2Proof.Claims

namespace State

/-! ### A fetched segment or record (R287) -/

/-- In a swap STATE shows that segments are fetched (R289, R294). -/
def fetchShown (s : State) : State := if s.loader.job = .swap then s.setFld Rg.WLD_STAT_STATE 3 else s

/-- What the loader makes of segment or record `k` of a job (R281, R284, R288): a read that failed ends the operation. -/
def fetchTaken (s : State) (j : ModelJob) (k : Nat) : Option (List Byte) → State
  | none => s.loadFail 8 k
  | some d => if j.form = 1 then s.sealedSegment j k d else s.layoutRecord j k d

section Fetch
variable {s : State} {j : ModelJob} {m k : Nat}

/-- What comes for another model than the one whose turn it is, or before its regions are IDLE, changes nothing. -/
theorem loadSegment_ignored (hturn : (s.loader.models.filter fun j => !j.todo.isEmpty).head? = some j)
    (hnone : j.m ≠ m ∨ j.src ≠ 1 ∨ s.nextSegment j = none) (data : Option (List Byte)) : s.loadSegment m data = s := by
  simp only [loadSegment, hturn]
  by_cases hother : j.m ≠ m ∨ j.src ≠ 1
  · rw [if_pos hother]
  · have hwaits : s.nextSegment j = none := (or_assoc.mpr hnone).resolve_left hother
    rw [if_neg hother, hwaits]

/-- What is fetched next is taken once STATE shows the fetch. -/
theorem loadSegment_taken (hturn : (s.loader.models.filter fun j => !j.todo.isEmpty).head? = some j) (hm : j.m = m)
    (hsrc : j.src = 1) (hnext : s.nextSegment j = some k) (data : Option (List Byte)) :
    s.loadSegment m data = s.fetchShown.fetchTaken j k data := by
  simp only [loadSegment, hturn]
  rw [if_neg (not_or.mpr ⟨not_not_intro hm, not_not_intro hsrc⟩), hnext]
  cases data with
  | none => rfl
  | some d => rfl

theorem fetchTaken_sealed (hform : j.form = 1) (d : List Byte) : s.fetchTaken j k (some d) = s.sealedSegment j k d := if_pos hform

/-- A segment that authenticates is written to the tiles of its model that lie in it, and is no more to be fetched (R281, R287). -/
theorem sealedSegment_authentic {d pt : List Byte}
    (hopen : Config.gcmOpen j.key (j.nonce ++ leBytes 8 k) (leBytes 8 k) (d.take 1048576) (bytesAt d 1048576 16) = some pt) :
    s.sealedSegment j k d =
      ((s.writeSegment j.m pt fun t => if t.mtile / 64 = k then some (t.mtile % 64) else none).modJob j.m fun j =>
        { j with todo := j.todo.erase k }).loadAdvance := by
  rw [sealedSegment, hopen]

theorem sealedSegment_refused {d : List Byte}
    (hopen : Config.gcmOpen j.key (j.nonce ++ leBytes 8 k) (leBytes 8 k) (d.take 1048576) (bytesAt d 1048576 16) = none) :
    s.sealedSegment j k d = s.segmentRetry j k := by
  rw [sealedSegment, hopen]

/-- A record for which the model maps no tile ends the operation (R284, R288). -/
theorem fetchTaken_unmappedRecord (hform : j.form ≠ 1) (hrecord : s.recordTile j.m k = none) (d : List Byte) :
    s.fetchTaken j k (some d) = s.loadFail 7 k := by
  refine (if_neg hform).trans ?_
  unfold layoutRecord
  rw [hrecord]

theorem fetchTaken_record {t : MappedTile} (hform : j.form ≠ 1) (hrecord : s.recordTile j.m k = some t) (d : List Byte) :
    s.fetchTaken j k (some d) = s.layoutTile j k d t := by
  refine (if_neg hform).trans ?_
  unfold layoutRecord
  rw [hrecord]

/-- Does a record name the tile (R284)? -/
def recordNames (d : List Byte) (t : MappedTile) : Prop := byteAt d 0 = t.1 ∧ byteAt d 1 = t.2.1 ∧ fieldAt d 2 2 = t.2.2.1

/-- The loader compares a record's fields one after another. -/
theorem misnamed_iff {d : List Byte} {t : MappedTile} :
    byteAt d 0 ≠ t.1 ∨ byteAt d 1 ≠ t.2.1 ∨ fieldAt d 2 2 ≠ t.2.2.1 ↔ ¬ recordNames d t := by
  simp only [recordNames, Decidable.not_and_iff_or_not]

theorem layoutTile_misnamed {d : List Byte} {t : MappedTile} (hnamed : ¬ recordNames d t) : s.layoutTile j k d t = s.loadFail 7 k :=
  if_pos (misnamed_iff.mpr hnamed)

section Named
variable {d : List Byte} {t : MappedTile} (hnamed : recordNames d t)
include hnamed

/-- A wrong CRC ends the operation, with the tile's data written and not tagged (R287, R288). -/
theorem layoutTile_wrongCrc (hcrc : fieldAt d 4 4 ≠ crc32c (bytesAt d 16 16384)) :
    s.layoutTile j k d t =
      (if s.loader.tiles.contains t then s.putTile t (bytesAt d 16 16384) else s).loadFail 6 k := by
  rw [layoutTile, if_neg fun h => misnamed_iff.mp h hnamed]
  exact if_pos hcrc

/-- With the right CRC the tile is tagged, and LAYDIG is checked at the model's last record (R284, R287). -/
theorem layoutTile_rightCrc (hcrc : fieldAt d 4 4 = crc32c (bytesAt d 16 16384)) :
    s.layoutTile j k d t =
      let bs := bytesAt d 16 16384
      let u := if s.loader.tiles.contains t then s.putTile t bs else s
      let w := ((if s.loader.tiles.contains t then u.tagTile t bs else u).modJob j.m fun j =>
        { j with todo := j.todo.drop 1, body := j.body ++ d }).countSeg
      if j.todo.length = 1 ∧ sha512 (j.body ++ d) ≠ j.laydig then w.loadFail 7 k else w.loadAdvance := by
  rw [layoutTile, if_neg fun h => misnamed_iff.mp h hnamed]
  exact if_neg (not_not_intro hcrc)

end Named
end Fetch

/-! ### WLD_CTL (R289) -/

/-- A command of WLD_CTL goes on as `begun` when no operation runs and the image is RUNNING; else it sets cause 13 (R288, R289). -/
def wldTaken (s begun : State) : State :=
  let st := s.fld Rg.WLD_STAT_STATE
  if st ≠ 0 ∧ st ≠ 5 then s.setFld Rg.WLD_STAT_CAUSE 13
  else if s.fld Rg.IMG_STAT_STATE ≠ 4 then s.wr Rg.WLD_STAT (5 * 2 ^ 28 + 13)
  else begun

section Taken
variable {s : State} (begun : State)

theorem wldTaken_busy (hbusy : s.fld Rg.WLD_STAT_STATE ≠ 0) (hfailed : s.fld Rg.WLD_STAT_STATE ≠ 5) :
    s.wldTaken begun = s.setFld Rg.WLD_STAT_CAUSE 13 := if_pos ⟨hbusy, hfailed⟩

/-- In IDLE and in FAILED no operation runs (R289). -/
theorem not_running {n : Nat} (hfree : n = 0 ∨ n = 5) : ¬ (n ≠ 0 ∧ n ≠ 5) := fun ⟨hbusy, hfailed⟩ => hfree.elim hbusy hfailed

variable (hfree : s.fld Rg.WLD_STAT_STATE = 0 ∨ s.fld Rg.WLD_STAT_STATE = 5)
include hfree

theorem wldTaken_noImage (himage : s.fld Rg.IMG_STAT_STATE ≠ 4) : s.wldTaken begun = s.wr Rg.WLD_STAT (5 * 2 ^ 28 + 13) := by
  rw [wldTaken, if_neg (not_running hfree), if_pos himage]

theorem wldTaken_running (himage : s.fld Rg.IMG_STAT_STATE = 4) : s.wldTaken begun = begun := by
  rw [wldTaken, if_neg (not_running hfree), if_neg (not_not_intro himage)]

end Taken

/-- The loader as a swap's checks find it: progress cleared, the treatment chosen, no model in hand (R289, R293). -/
def swapReady (s : State) (resume : Bool) : State :=
  { s.clearProgress with loader := { s.loader with job := .none, resume := resume, form := s.weightForm, models := [] } }

/-- The stop as it begins: STATE shows STOPPING until every region is IDLE (R299). -/
def stopBegin (s : State) (resume : Bool) : State :=
  (({ s.clearProgress with
      loader := { s.loader with job := .stop, resume := if s.loader.broken then s.loader.resume else resume } } : State).wr
    Rg.WLD_STAT (4 * 2 ^ 28)).holdFinish

theorem swapStart_eq (s : State) (resume : Bool) (comp : Option (List Byte)) (headers : List (Option (List Byte))) :
    s.swapStart resume comp headers = s.wldTaken ((s.swapReady resume).swapCheck headers comp) := rfl

theorem stopStart_eq (s : State) (resume : Bool) : s.stopStart resume = s.wldTaken (s.stopBegin resume) := rfl

theorem swapReady_image (s : State) (resume : Bool) : (s.swapReady resume).image = s.image := rfl

section Check
variable {s : State} {comp : List Byte} {headers : List (Option (List Byte))}

/-- The jobs of a swap's models, by the source list and the companion (R293). -/
def swapModels (s : State) (comp : List Byte) (headers : List (Option (List Byte))) : Except (Nat × Nat) (List ModelJob) :=
  s.modelJobs comp s.place (mappedTiles comp s.place) (mappedTiles comp s.place) (s.sourceList headers)

theorem swapCheck_differs (hdiffers : companionEq s.image 0 s.image comp = false) :
    s.swapCheck headers (some comp) = s.loadFail 12 0 :=
  if_pos (by simp [hdiffers])

variable (hequal : companionEq s.image 0 s.image comp = true)
include hequal

theorem swapCheck_equal : s.swapCheck headers (some comp) = s.srcRead.swapJobs comp (s.swapModels comp headers) :=
  if_neg (by simp [hequal])

theorem swapCheck_badJob {c m : Nat} (hjobs : s.swapModels comp headers = .error (c, m)) :
    s.swapCheck headers (some comp) = s.srcRead.loadFail c m := by
  rw [swapCheck_equal hequal, hjobs, swapJobs]

theorem swapCheck_otherModel {js : List ModelJob} (hjobs : s.swapModels comp headers = .ok js)
    (hkeeps : s.srcRead.companionKeeps comp js = false) : s.swapCheck headers (some comp) = s.srcRead.loadFail 12 0 := by
  rw [swapCheck_equal hequal, hjobs, swapJobs, hkeeps, Bool.not_false, if_pos rfl]

theorem swapCheck_passes {js : List ModelJob} (hjobs : s.swapModels comp headers = .ok js)
    (hkeeps : s.srcRead.companionKeeps comp js = true) : s.swapCheck headers (some comp) = s.srcRead.swapBegin comp js := by
  rw [swapCheck_equal hequal, hjobs, swapJobs, hkeeps, Bool.not_true, if_neg Bool.false_ne_true]

end Check

/-- An access to WLD_CTL is its write, answered. -/
theorem accessWrite_wldCtl {s : State} {req : Requester} (v : Word) (h : Option HostAns) (hon : s.answers req = true) :
    s.accessWrite req Rg.WLD_CTL v h = answered req (s.wldCtl v.toNat h) := by
  obtain ⟨w, i, hplace, hoff⟩ := placeOf_edge_at Rg.WLD_CTL (by decide) rfl
  have heffect : s.edgeWrite w i req Rg.WLD_CTL v.toNat h = s.wldCtl v.toNat h := by
    simp only [edgeWrite, hoff, Rg.WLD_CTL]
  rw [s.accessWrite_edge req Rg.WLD_CTL v h w i hon rfl rfl rfl hplace, heffect, answered]

/-- GO with OP 1 starts a swap, its treatment in RESUME. -/
theorem wldCtl_swap (s : State) (resume : Bool) (h : HostAns) :
    s.wldCtl (if resume then 0x98000000 else 0x90000000 : Word).toNat (some h) = s.swapStart resume h.fst h.headers := by
  cases resume with
  | false => rfl
  | true => rfl

/-- GO with OP 2 starts a stop, its treatment in RESUME. -/
theorem wldCtl_stop (s : State) (resume : Bool) :
    s.wldCtl (if resume then 0xA8000000 else 0xA0000000 : Word).toNat none = s.stopStart resume := by
  cases resume with
  | false => rfl
  | true => rfl

end State

/-! ### The commands -/

theorem exec_loadSegment (m : Fin 5) (data : Option (List Byte)) (s : State) :
    exec (.loadSegment m data) s = .next (s.loadSegment m data) := rfl

section Command
variable {req : Requester} {s : State} (resume : Bool) (hon : s.answers req = true)
include hon

theorem exec_swap (comp : Option (List Byte)) (headers : List (Option (List Byte))) :
    exec (.swap req resume comp headers) s =
      .next (answered req (s.wldTaken ((s.swapReady resume).swapCheck headers comp))) := by
  have haccess : exec (.swap req resume comp headers) s = .next
    (s.accessWrite req Rg.WLD_CTL (if resume then 0x98000000 else 0x90000000) (some ⟨comp, none, headers⟩)) := rfl
  rw [haccess, State.accessWrite_wldCtl _ _ hon, State.wldCtl_swap, State.swapStart_eq]

theorem exec_stop : exec (.stop req resume) s = .next (answered req (s.wldTaken (s.stopBegin resume))) := by
  have haccess : exec (.stop req resume) s = .next
    (s.accessWrite req Rg.WLD_CTL (if resume then 0xA8000000 else 0xA0000000) none) := rfl
  rw [haccess, State.accessWrite_wldCtl _ _ hon, State.wldCtl_stop, State.stopStart_eq]

/-- A swap and a stop are taken alike. -/
theorem exec_wldTaken {i : Instr} {comp : Option (List Byte)} {headers : List (Option (List Byte))}
    (hi : i ∈ [Instr.swap req resume comp headers, .stop req resume]) :
    ∃ begun, exec i s = .next (answered req (s.wldTaken begun)) := by
  simp only [List.mem_cons, List.not_mem_nil, or_false] at hi
  obtain rfl | rfl := hi
  · exact ⟨_, exec_swap resume hon comp headers⟩
  · exact ⟨_, exec_stop resume hon⟩

end Command

/-! ### The obligations -/

/-- Settles O41: what is not the loader's next is ignored; what is next is taken by its form, a segment by its authentication, a
record by the tile that it names and by its CRC. -/
theorem weightSegmentsAreAuthenticated : Obligations.WeightSegmentsAreAuthenticated := by
  intro j m s hturn
  refine ⟨fun hnone data => ?ignored, fun k hm hsrc hnext => ?taken⟩
  case ignored => rw [exec_loadSegment, State.loadSegment_ignored hturn hnone data]
  case taken =>
    intro v
    have htaken {data : Option (List Byte)} {t : State} (h : v.fetchTaken j k data = t) : exec (.loadSegment m data) s = .next t := by
      rw [exec_loadSegment, State.loadSegment_taken hturn hm hsrc hnext]
      exact congrArg _ h
    refine ⟨htaken rfl, fun d hform => ?sealed, fun d hform => ?record⟩
    case sealed =>
      refine htaken ((State.fetchTaken_sealed hform d).trans ?_)
      split
      next pt hopen => exact State.sealedSegment_authentic hopen
      next hopen => exact State.sealedSegment_refused hopen
    case record =>
      intro bs
      refine ⟨fun hrecord => htaken (State.fetchTaken_unmappedRecord hform hrecord d), fun t hrecord => ?named⟩
      intro named mapped u
      have hlayout {w : State} (h : v.layoutTile j k d t = w) : exec (.loadSegment m (some d)) s = .next w :=
        htaken ((State.fetchTaken_record hform hrecord d).trans h)
      exact ⟨fun hother => hlayout (State.layoutTile_misnamed hother),
        fun hnamed hcrc => hlayout (State.layoutTile_wrongCrc hnamed hcrc),
        fun hnamed hcrc => hlayout (State.layoutTile_rightCrc hnamed hcrc)⟩

/-- Settles O42: both commands are taken alike; a swap then goes by its companion, its models' jobs and the models that it keeps. -/
theorem swapsAndStopsBeginAtTheirCommand : Obligations.SwapsAndStopsBeginAtTheirCommand := by
  intro req resume comp headers s hon st clear t jobs u
  have ht : t = s.swapReady resume := rfl
  have hmodels : jobs = t.swapModels comp headers := rfl
  have hread : u = t.srcRead := rfl
  clear_value u jobs t
  subst hread hmodels ht
  refine ⟨fun hbusy hfailed i hi => ?busy, fun hfree himage i hi => ?noImage, fun hfree himage => ?begins, fun _ _ => rfl⟩
  case busy =>
    obtain ⟨begun, hexec⟩ := exec_wldTaken resume hon hi
    rw [hexec, State.wldTaken_busy begun hbusy hfailed]
  case noImage =>
    obtain ⟨begun, hexec⟩ := exec_wldTaken resume hon hi
    rw [hexec, State.wldTaken_noImage begun hfree himage]
  case begins =>
    have hswap {c : Option (List Byte)} {w : State} (h : (s.swapReady resume).swapCheck headers c = w) :
        exec (.swap req resume c headers) s = .next (answered req w) := by
      rw [exec_swap resume hon, State.wldTaken_running _ hfree himage, h]
    rw [← s.swapReady_image resume]
    refine ⟨?stop, hswap rfl, fun hdiffers => hswap (State.swapCheck_differs hdiffers), fun hequal =>
      ⟨fun c m hjobs => hswap (State.swapCheck_badJob hequal hjobs),
        fun js hjobs hkeeps => hswap (State.swapCheck_otherModel hequal hjobs hkeeps),
        fun js hjobs hkeeps => hswap (State.swapCheck_passes hequal hjobs hkeeps)⟩⟩
    rw [exec_stop resume hon, State.wldTaken_running _ hfree himage]
    rfl

end Sys2Proof.Machine
end

section
/-!
PROOFS. The transfer of a model from a neighbouring module (R287, R288, R290, R291): the handshake's messages at the source and at the
receiver, and the segments that deliver the listed tiles.
-/
namespace Sys2Proof.Machine
namespace State

/-! ### The source of a transfer (R290) -/

section Source
variable {s : State}

/-- A receiver whose chain is trusted gets the source's quote over its nonce. -/
theorem helloTake_trusted {nr chain : List Byte} (model : List Byte) (hchain : Config.chainOk chain = true) :
    s.helloTake nr chain model =
      let n := s.fresh 256
      let own := n.2.quote nr
      State.emit
        { own.2 with txSession := { Session.idle with step := 2, nr := nr, ns := leBytes 32 n.1, chain := chain, wanted := model } }
        (.handshake 2 [own.1, Config.ownChain, leBytes 32 n.1]) := if_pos hchain

theorem helloTake_untrusted (nr : List Byte) {chain : List Byte} (model : List Byte) (hchain : ¬ Config.chainOk chain = true) :
    s.helloTake nr chain model = s.txFail false := if_neg hchain

/-- A receiver whose quote verifies gets the session key, wrapped to its own key and signed. -/
theorem quoteAtSource_verified {q : List Byte} (hquote : quoteOk q s.txSession.chain s.txSession.ns s.fuse.archrev = true) :
    s.quoteAtSource q =
      let tx := s.txSession
      let k := s.fresh 256
      let n := k.2.fresh 32
      let m := n.2.heldModel tx.wanted
      let id := (Store.get [] n.2.loader.inForce m).take tx.wanted.length
      let blob := Config.oaepSeal (Config.chainModulus tx.chain) (leBytes 32 k.1 ++ leBytes 4 n.1 ++ tx.nr ++ tx.ns ++ id) n.2.free
      let g := State.signMsg { n.2 with free := n.2.free + 1 } blob
      State.emit { g.2 with txSession := { tx with step := 4, model := m, sk := leBytes 32 k.1, snonce := leBytes 4 n.1 } }
        (.handshake 4 [blob, g.1]) := if_pos hquote

theorem quoteAtSource_refused {q : List Byte} (hquote : ¬ quoteOk q s.txSession.chain s.txSession.ns s.fuse.archrev = true) :
    s.quoteAtSource q = s.txFail false := if_neg hquote

section List
variable {d : List Byte} (hstep : s.txSession.step = 4)
include hstep

theorem listTake_refused (hopen : openAs s.txSession (2 ^ 64 - 1) d = none) : s.listTake d = s.txFail false := by
  rw [listTake, if_neg (not_not_intro hstep), hopen]

/-- What the source has of the tiles that an opened list names: where it holds each, or none. -/
def heldTiles (s : State) (b : List Byte) : List (Option (Nat × Nat × Nat)) :=
  (listTiles b.length b).map (s.holdsTile (mappedTiles s.image s.place) s.txSession.model)

variable {b : List Byte} (hopen : openAs s.txSession (2 ^ 64 - 1) d = some b)
include hopen

theorem listTake_missing (hmissing : (s.heldTiles b).any Option.isNone = true) : s.listTake d = s.txFail true := by
  rw [listTake, if_neg (not_not_intro hstep), hopen]
  exact if_pos hmissing

/-- A source that holds every listed tile sends them as segments of 64, the last padded with zeros. -/
theorem listTake_held (hheld : ¬ (s.heldTiles b).any Option.isNone = true) :
    s.listTake d =
      let tx := s.txSession
      let ts := listTiles b.length b
      let tiles := (s.heldTiles b).filterMap fun e => e.map fun e => s.tileBytes e.1 e.2.1 e.2.2
      (List.range (ceilDiv ts.length 64)).foldl (fun s k => s.emit (.handshake 6 [leBytes 8 k,
        sealAs tx k (padTo 1048576 ((tiles.drop (64 * k)).take 64).flatten)]))
        { s with txSession := { tx with step := 6, tiles := ts } } := by
  rw [listTake, if_neg (not_not_intro hstep), hopen]
  exact if_neg hheld

end List

section Done
variable {d : List Byte} (hstep : s.txSession.step = 6)
include hstep

theorem doneTake_authentic (hopen : (openAs s.txSession (2 ^ 64 - 2) d).isSome = true) :
    s.doneTake d = { s with txSession := Session.idle } := by
  rw [doneTake, if_neg (not_not_intro hstep), if_pos hopen]

theorem doneTake_refused (hopen : ¬ (openAs s.txSession (2 ^ 64 - 2) d).isSome = true) : s.doneTake d = s.txFail false := by
  rw [doneTake, if_neg (not_not_intro hstep), if_neg hopen]

end Done
end Source

/-! ### The receiver (R290, R291) -/

section Receiver
variable {s : State}

/-- A source whose chain and quote verify gets the receiver's own quote over its nonce. -/
theorem quoteAtReceiver_verified {q chain : List Byte} (ns : List Byte)
    (hquote : (Config.chainOk chain && quoteOk q chain s.rxSession.nr s.fuse.archrev) = true) :
    s.quoteAtReceiver q chain ns =
      State.emit { (s.quote ns).2 with rxSession := { s.rxSession with step := 3, ns := ns, chain := chain } }
        (.handshake 3 [(s.quote ns).1] s.rxSession.path) := if_pos hquote

theorem quoteAtReceiver_refused {q chain : List Byte} (ns : List Byte)
    (hquote : ¬ (Config.chainOk chain && quoteOk q chain s.rxSession.nr s.fuse.archrev) = true) :
    s.quoteAtReceiver q chain ns = s.rxFail := if_neg hquote

section Key
variable {msg sig : List Byte} (hstep : s.rxSession.step = 3)
include hstep

theorem keyTake_unsigned (hsigned : ¬ Config.pssVerify s.rxSession.chain ([0x4C, 0x57, 0x48, 0x53] ++ msg) sig = true) :
    s.keyTake msg sig = s.rxFail := by
  rw [keyTake, if_neg (not_not_intro hstep), if_pos ((Bool.not_eq_true' _).mpr (eq_false_of_ne_true hsigned))]

variable (hsigned : Config.pssVerify s.rxSession.chain ([0x4C, 0x57, 0x48, 0x53] ++ msg) sig = true)
include hsigned

theorem keyTake_unopened (hopen : Config.oaepOpen msg = none) : s.keyTake msg sig = s.rxFail := by
  rw [keyTake, if_neg (not_not_intro hstep), if_neg (by rw [hsigned]; exact Bool.false_ne_true), hopen]

/-- Does an opened session-key message name the nonces and the identifier of the receiver's session (R290)? -/
def keyMatches (x : Session) (b : List Byte) : Prop := bytesAt b 36 32 = x.nr ∧ bytesAt b 68 32 = x.ns ∧ b.drop 100 = x.wanted

/-- The receiver's session with the opened session key, and the tiles of its model, ascending, for the request list (R290). -/
def keyedSession (s : State) (b : List Byte) : Session :=
  let x := s.rxSession
  let ts := (s.loader.tiles.filter fun t => MappedTile.model t == x.model).map MappedTile.mtile
  { x with step := 5, sk := bytesAt b 0 32, snonce := bytesAt b 32 4, tiles := ascending (ts.foldl Nat.max 0 + 1) ts }

variable {b : List Byte} (hopen : Config.oaepOpen msg = some b)
include hopen

theorem keyTake_otherSession (hother : ¬ keyMatches s.rxSession b) : s.keyTake msg sig = s.rxFail := by
  rw [keyTake, if_neg (not_not_intro hstep), if_neg (by rw [hsigned]; exact Bool.false_ne_true), hopen]
  exact if_neg hother

/-- The key of its own session lets the receiver seal its request list. -/
theorem keyTake_accepted (hown : keyMatches s.rxSession b) :
    s.keyTake msg sig =
      State.emit { s with rxSession := s.keyedSession b }
        (.handshake 5 [sealAs (s.keyedSession b) (2 ^ 64 - 1) (listBytes (tileRuns (s.keyedSession b).tiles))] s.rxSession.path) := by
  rw [keyTake, if_neg (not_not_intro hstep), if_neg (by rw [hsigned]; exact Bool.false_ne_true), hopen]
  exact if_pos hown

end Key

section Segment
variable {d pt : List Byte} {j : ModelJob}

/-- The tiles that the next segment brings. -/
def nextPart (x : Session) : List Nat := (x.tiles.drop (64 * x.next)).take 64

section Taken
variable (hstep : s.rxSession.step = 5)
include hstep

theorem segmentTake_lost : s.segmentTake none = s.loadFail 10 s.rxSession.next := by
  rw [segmentTake, if_neg (not_not_intro hstep)]

variable (hjob : (s.loader.models.find? fun j => j.m == s.rxSession.model) = some j)
include hjob

theorem segmentTake_waits (hwaits : s.partWaits (nextPart s.rxSession) = true) : s.segmentTake (some d) = s := by
  unfold segmentTake
  rw [if_neg (not_not_intro hstep), hjob]
  exact if_pos hwaits

theorem segmentTake_opened (hidle : s.partWaits (nextPart s.rxSession) = false) : s.segmentTake (some d) = s.segmentOpen j d := by
  unfold segmentTake
  rw [if_neg (not_not_intro hstep), hjob]
  exact if_neg (hidle ▸ Bool.false_ne_true)

end Taken

theorem fetchShown_rxSession (s : State) : s.fetchShown.rxSession = s.rxSession := by
  unfold fetchShown
  split
  · exact s.setFld_rxSession _ 3
  · rfl

theorem segmentOpen_refused (hopen : openAs s.rxSession s.rxSession.next d = none) :
    s.segmentOpen j d = s.fetchShown.segmentRetry j s.rxSession.next := by
  unfold segmentOpen
  dsimp only
  rw [hopen]
  rfl

theorem segmentOpen_authentic (hopen : openAs s.rxSession s.rxSession.next d = some pt) :
    s.segmentOpen j d = s.fetchShown.segmentWrite pt := by
  unfold segmentOpen
  dsimp only
  rw [hopen]
  rfl

/-- The next segment's tiles are written, and it is no more to be fetched. -/
def partWritten (s : State) (x : Session) (pt : List Byte) : State :=
  (s.writeSegment x.model pt fun t => (nextPart x).findIdx? fun u => u == MappedTile.mtile t).modJob x.model fun j =>
    { j with todo := j.todo.erase x.next }

theorem segmentWrite_more {x : Session} (hx : s.rxSession = x) (hmore : x.next + 1 < ceilDiv x.tiles.length 64) :
    s.segmentWrite pt = { s.partWritten x pt with rxSession := { x with next := x.next + 1 } } := by
  subst hx
  exact if_pos hmore

/-- After the last segment DONE goes out, the session's key is forgotten and the loader goes on. -/
theorem segmentWrite_last {x : Session} (hx : s.rxSession = x) (hlast : ¬ x.next + 1 < ceilDiv x.tiles.length 64) :
    s.segmentWrite pt =
      State.loadAdvance
        { (s.partWritten x pt).emit (.handshake 7 [sealAs x (2 ^ 64 - 2) []] x.path) with rxSession := Session.idle } := by
  subst hx
  exact if_neg hlast

end Segment

theorem abortTake_receiver (hstep : s.rxSession.step ≠ 0) (missing : Bool) :
    s.abortTake missing = State.loadFail { s with rxSession := Session.idle } (if missing then 11 else 9) s.rxSession.model :=
  if_pos hstep

theorem abortTake_source (hstep : s.rxSession.step = 0) (missing : Bool) :
    s.abortTake missing = { s with txSession := Session.idle } := if_neg (not_not_intro hstep)

end Receiver
end State

/-! ### The messages -/

theorem exec_hello (nr chain model : List Byte) (s : State) :
    exec (.hello nr chain model) s = .next (s.helloTake nr chain model) := rfl

/-- A quote that comes to a module that waits for it as the receiver alone. -/
theorem exec_transferQuote_receiver {s : State} (q chain ns : List Byte) (htx : s.txSession.step ≠ 2) (hrx : s.rxSession.step = 1) :
    exec (.transferQuote q chain ns) s = .next (s.quoteAtReceiver q chain ns) :=
  congrArg _ ((if_neg fun h => htx h.1).trans (if_pos hrx))

/-- A quote that comes to a module that waits for it as the source alone. -/
theorem exec_transferQuote_source {s : State} (q chain ns : List Byte) (htx : s.txSession.step = 2) (hrx : s.rxSession.step ≠ 1) :
    exec (.transferQuote q chain ns) s = .next (s.quoteAtSource q) :=
  congrArg _ (if_pos ⟨htx, .inl hrx⟩)

theorem exec_sessionKey (msg sig : List Byte) (s : State) : exec (.sessionKey msg sig) s = .next (s.keyTake msg sig) := rfl

theorem exec_requestList (d : List Byte) (s : State) : exec (.requestList d) s = .next (s.listTake d) := rfl

theorem exec_transferSegment (d : Option (List Byte)) (s : State) : exec (.transferSegment d) s = .next (s.segmentTake d) := rfl

theorem exec_transferDone (d : List Byte) (s : State) : exec (.transferDone d) s = .next (s.doneTake d) := rfl

theorem exec_transferAbort (missing : Bool) (s : State) : exec (.transferAbort missing) s = .next (s.abortTake missing) := rfl

/-! ### The obligations -/

/-- Settles O43: message by message, by the check that the message must pass. -/
theorem transferHandshakesCheckEachMessage : Obligations.TransferHandshakesCheckEachMessage := by
  intro a b c s rx tx n own
  refine ⟨?hello, fun htx hrx => ?sourceQuote, fun htx hrx => ?receiverQuote, fun hrx => ?sessionKey⟩
  case hello =>
    rw [exec_hello]
    refine congrArg _ ?_
    split
    next hchain => exact State.helloTake_trusted c hchain
    next hchain => exact State.helloTake_untrusted a c hchain
  case sourceQuote =>
    rw [exec_transferQuote_receiver a b c htx hrx]
    refine congrArg _ ?_
    split
    next hquote => exact State.quoteAtReceiver_verified c hquote
    next hquote => exact State.quoteAtReceiver_refused c hquote
  case receiverQuote =>
    intro k n m id blob g
    rw [exec_transferQuote_source a b c htx hrx]
    refine congrArg _ ?_
    split
    next hquote => exact State.quoteAtSource_verified hquote
    next hquote => exact State.quoteAtSource_refused hquote
  case sessionKey =>
    intro mapped ts
    rw [exec_sessionKey]
    refine congrArg _ ?_
    split
    next hsigned =>
      split
      next hopen => exact State.keyTake_unopened hrx hsigned hopen
      next k hopen =>
        split
        next hown => exact State.keyTake_accepted hrx hsigned hopen hown
        next hother => exact State.keyTake_otherSession hrx hsigned hopen hother
    next hsigned => exact State.keyTake_unsigned hrx hsigned

/-- Settles O44: the request list by the tiles that the source holds, a segment by its order and authentication, and the two messages
that end a session. -/
theorem transferSegmentsDeliverTheTiles : Obligations.TransferSegmentsDeliverTheTiles := by
  intro d j missing s rx tx
  refine ⟨fun htx => ?list, fun hrx => ⟨?lost, fun hjob => ?segment⟩, fun htx => ?done, fun hrx => ?receiverAbort,
    fun hrx => ?sourceAbort⟩
  case list =>
    rw [exec_requestList]
    refine congrArg _ ?_
    split
    next hopen => exact State.listTake_refused htx hopen
    next b hopen =>
      by_cases hmissing : (s.heldTiles b).any Option.isNone = true
      · exact (State.listTake_missing htx hopen hmissing).trans (if_pos hmissing).symm
      · exact (State.listTake_held htx hopen hmissing).trans (if_neg hmissing).symm
  case lost => rw [exec_transferSegment, State.segmentTake_lost hrx]
  case segment =>
    intro part v
    rw [exec_transferSegment]
    refine ⟨fun hwaits => congrArg _ (State.segmentTake_waits hrx hjob hwaits), fun hidle => congrArg _ ?_⟩
    rw [State.segmentTake_opened hrx hjob hidle]
    have hsession : v.rxSession = rx := s.fetchShown_rxSession
    split
    next hopen => exact State.segmentOpen_refused hopen
    next pt hopen =>
      refine (State.segmentOpen_authentic hopen).trans ?_
      by_cases hmore : rx.next + 1 < ceilDiv rx.tiles.length 64
      · exact (State.segmentWrite_more hsession hmore).trans (if_pos hmore).symm
      · exact (State.segmentWrite_last hsession hmore).trans (if_neg hmore).symm
  case done =>
    rw [exec_transferDone]
    refine congrArg _ ?_
    split
    next hopen => exact State.doneTake_authentic htx hopen
    next hopen => exact State.doneTake_refused htx hopen
  case receiverAbort => rw [exec_transferAbort, State.abortTake_receiver hrx]
  case sourceAbort => rw [exec_transferAbort, State.abortTake_source hrx]

end Sys2Proof.Machine
end

section
/-!
PROOFS. Global operations (R288, R291, R324 to R328): a write of GOP_CMD, the markers that come from the array, and how a hold ends.
-/
namespace Sys2Proof.Machine
open Sys2Proof.Claims

namespace State

/-! ### Broadcasts and their markers -/

/-- The first copy of a marker is noted with its data (R325). -/
def bcastNoted (s : State) (id origin data : Nat) : State :=
  (((s.setGop { s.gop with seen := s.gop.seen ++ [(origin, id)] }).setFld Rg.GOP_BCAST_ORIGIN origin).setFld Rg.GOP_BCAST_ID id).wr
    Rg.GOP_BDATA data

/-- The first copy of a marker acts and leaves on the other edges; a later one has no effect (R325). -/
theorem bcastTake_eq (s : State) (side kind id origin data : Nat) :
    s.bcastTake side kind id origin data =
      if (origin, id) ∈ s.gop.seen then s
      else ((s.bcastNoted id origin data).bcastAct kind id data).marks ((List.range 4).filter fun e => e != side) kind id origin data :=
  ite_congr (propext List.contains_iff_mem) (fun _ => rfl) fun _ => rfl

/-- ARRIVE counts once from a child edge, and not for an abandoned barrier (R324, R328). -/
theorem arriveTake_eq (s : State) (side id : Nat) :
    s.arriveTake side id =
      if side ∈ s.gopChildren ∧ s.gop.dead ≠ some id ∧ (side, id) ∉ s.gop.arrived then
        (s.setGop { s.gop with arrived := s.gop.arrived ++ [(side, id)] }).gopTry
      else s :=
  ite_congr (by simp [and_assoc]) (fun _ => rfl) fun _ => rfl

/-- RELEASE of the outstanding barrier counts from the parent edge (R324). -/
theorem releaseTake_eq (s : State) (side id : Nat) :
    s.releaseTake side id =
      if s.gop.bar = true ∧ s.gop.id = id ∧ s.gopParent = some side then s.gopRelease id else s :=
  ite_congr (by simp [and_assoc]) (fun _ => rfl) fun _ => rfl

/-! ### Writes of GOP_CMD -/

theorem accessWrite_gopCmd {s : State} {req : Requester} (v : Word) (hon : s.answers req = true) :
    s.accessWrite req Rg.GOP_CMD v none = answered req (s.gopCmd v.toNat) :=
  accessWrite_edgeRegister (i := 0) v hon (by decide) ⟨rfl, rfl⟩ rfl rfl

end State

/-- The word of a command holds its ID and its operation (R328). -/
theorem gopWord_bits {op : Nat} (hop : op < 16) (id : BitVec 15) :
    bits (BitVec.ofNat 32 (op * 2 ^ 28 + id.toNat)).toNat 14 0 = id.toNat
      ∧ bits (BitVec.ofNat 32 (op * 2 ^ 28 + id.toNat)).toNat 31 28 = op := by
  have hid : id.toNat < 2 ^ 15 := id.isLt
  simp only [bits, BitVec.toNat_ofNat, Nat.shiftRight_eq_div_pow]
  omega

theorem gopAccess_arrive {s : State} {req : Requester} (id : BitVec 15) (hon : s.answers req = true) :
    gopAccess 1 req id s = answered req (s.arrive id.toNat) := by
  obtain ⟨hid, hop⟩ := gopWord_bits (op := 1) (by decide) id
  rw [gopAccess, State.accessWrite_gopCmd _ hon, State.gopCmd, hid, hop]
  rfl

/-- Operations 2 to 5 begin a broadcast of the next kind (R325, R326). -/
theorem gopAccess_bcast {s : State} {req : Requester} {op : Nat} (id : BitVec 15) (hon : s.answers req = true)
    (hop : op ∈ [2, 3, 4, 5]) : gopAccess op req id s = answered req (s.bcast (op + 1) id.toNat) := by
  have hlt : op < 16 := by
    simp only [List.mem_cons, List.not_mem_nil, or_false] at hop
    omega
  obtain ⟨hid, hcode⟩ := gopWord_bits hlt id
  rw [gopAccess, State.accessWrite_gopCmd _ hon, State.gopCmd, hid, hcode]
  simp only [List.mem_cons, List.not_mem_nil, or_false] at hop
  obtain rfl | rfl | rfl | rfl := hop <;> rfl

/-- Settles O30: a write of GOP_CMD by its operation, a marker by whether it counts. What a broadcast does here is `bcastAct` of its kind,
which computes for each of the four. -/
theorem globalOperationsBeginAndSpread : Obligations.GlobalOperationsBeginAndSpread := by
  refine ⟨fun req id s hon => ?command, fun edge id origin data s => ⟨?arrive, ?release, ?broadcast⟩⟩
  case command =>
    refine ⟨congrArg _ (gopAccess_arrive id hon), ?_, ?_, ?_, ?_⟩
    all_goals exact congrArg _ (gopAccess_bcast id hon (by decide))
  case arrive => exact congrArg _ (s.arriveTake_eq _ _)
  case release => exact congrArg _ (s.releaseTake_eq _ _)
  case broadcast =>
    intro i f hrow
    simp only [List.mem_cons, List.not_mem_nil, or_false, Prod.mk.injEq] at hrow
    obtain ⟨rfl, rfl⟩ | ⟨rfl, rfl⟩ | ⟨rfl, rfl⟩ | ⟨rfl, rfl⟩ := hrow
    all_goals exact congrArg _ (s.bcastTake_eq ..)

/-! ### How a hold ends (R326 to R328) -/

namespace State

/-- A module whose regions all wait is HELD (R326). -/
theorem becomeHeld_eq {s : State} (hhold : s.gop.hold ≠ 0) (hheld : s.gop.held = false) (hlate : s.gop.holdLate = false) :
    s.becomeHeld = if s.allHeld then s.setGop { s.gop with held := true } else s :=
  ite_congr (by simp [hhold, hheld, hlate]) (fun _ => rfl) fun _ => rfl

/-- What a domain reset clears: the regions that the yield map does not fence, and the ports' queues (R327). -/
def resetQueues (s : State) : State := ((List.range 32).foldl (fun s p => s.emptyPort p) s.resetRegions).portsRun

/-- A domain reset of a module that a quiesce holds (R291, R298, R327). -/
theorem domainReset_held {s : State} (hhold : s.gop.hold = 5) (hheld : s.gop.held = true) (hlate : s.gop.late = false)
    (hholdLate : s.gop.holdLate = false) (hidle : s.gop.resetAt = none) :
    s.domainReset =
      let t := s.resetQueues
      let w := if t.loader.job = .swap ∧ t.usedRegions.any t.yFenced = true then t.loadFail 14 0 else t
      State.holdFinish { w with gop := { w.gop with resetAt := some w.time.cb }, crypto := { w.crypto with slots := [] }
                                rxSession := Session.idle, txSession := Session.idle } :=
  if_pos (by simp [hhold, hheld, hlate, hholdLate, hidle])

/-- The second half of a guarded pair that its requester armed applies the register (R459). -/
theorem accessPair_armed {s : State} {req : Requester} {a : Nat} {v : Word} {p : Nat → Bool} (hon : s.answers req = true)
    (hrange : a + 4 < cmemBase ∧ (a + 4) % 4 = 0) (hguard : guardedFirst (a + 4) = false ∧ guardedSecond (a + 4) = true)
    (harmed : armedWith req a v s) (hp : p v.toNat = true) :
    s.accessPair req a (~~~v) p = answered req ((s.disarmPair a).guardedApply a v.toNat) := by
  obtain ⟨d, hfind, hdue⟩ := harmed
  rw [accessPair, hfind]
  dsimp only
  rw [if_pos hp, s.accessWrite_second req (a + 4) _ none hon hrange.2 hguard.1 hguard.2 (s.routed_low _ hrange.1),
    s.secondHalf_applied req a _ ⟨v, req, d⟩ hfind rfl rfl hdue, answered]

theorem guardedApply_gopReset (s : State) (v : Nat) : s.guardedApply Rg.GOP_RESET v = (s.wr Rg.GOP_RESET v).domainReset := rfl

/-- After its 50 µs a domain reset leaves no image, and the unit IDLE (R327). -/
theorem domainResetEnd_over {s : State} {t : Nat} (hreset : s.gop.resetAt = some t) (hover : t + 75000 ≤ s.time.cb) :
    s.domainResetEnd =
      (s.setGop { s.gop with resetAt := none, hold := 0, held := false, late := false, holdLate := false }).setImgState 0 := by
  rw [domainResetEnd, hreset]
  exact if_neg (Nat.not_lt.mpr hover)

/-! ### Timeouts (R328) -/

theorem gopPast_iff (s : State) (t : Nat) :
    s.gopPast t = true ↔ s.fld Rg.GOP_TMO_US ≠ 0 ∧ t + s.fld Rg.GOP_TMO_US * 1500 ≤ s.time.cb := by
  rw [gopPast, Bool.and_eq_true, bne_iff_ne, decide_eq_true_iff, usCb]

theorem barrierLate_eq (s : State) :
    s.barrierLate =
      let us := s.fld Rg.GOP_TMO_US
      if s.gop.bar = true ∧ us ≠ 0 ∧ s.gop.since + us * 1500 ≤ s.time.cb then
        (s.setGop { s.gop with bar := false, up := false, late := true, dead := some s.gop.id
                               arrived := s.gop.arrived.filter fun e => e.2 != s.gop.id }).logEdge 0x407 1 s.gop.id 0
      else s :=
  ite_congr (by rw [Bool.and_eq_true, gopPast_iff]) (fun _ => rfl) fun _ => rfl

theorem holdLate_eq (s : State) :
    s.holdLate =
      let us := s.fld Rg.GOP_TMO_US
      if s.gop.hold ≠ 0 ∧ s.gop.held = false ∧ s.gop.holdLate = false ∧ us ≠ 0 ∧ s.gop.holdSince + us * 1500 ≤ s.time.cb then
        (s.setGop { s.gop with holdLate := true }).logEdge 0x407 (s.gop.hold - 1) s.gop.holdId 0
      else s :=
  ite_congr (by simp only [Bool.and_eq_true, bne_iff_ne, Bool.not_eq_true', gopPast_iff, and_assoc]) (fun _ => rfl) fun _ => rfl

@[simp] theorem setGop_gop (s : State) (g : Gop) : (s.setGop g).gop = g := setFld_gop { s with gop := g } _ _

@[simp] theorem setGop_time (s : State) (g : Gop) : (s.setGop g).time = s.time := setFld_time { s with gop := g } _ _

/-- The unit shows itself in GOP_STAT; every field of another register stays (R328). -/
theorem fld_setGop_ne (s : State) (g : Gop) {f : Fld} (h : f.addr ≠ Rg.GOP_STAT_STATE.addr) : (s.setGop g).fld f = s.fld f :=
  fld_setFld_ne { s with gop := g } _ f _ h

theorem fld_emit (s : State) (o : Output) (f : Fld) : (s.emit o).fld f = s.fld f := rfl

/-- An entry about a global operation is sent at once (R400). -/
theorem logEdge_globalOp (s : State) (op id : Nat) : ∃ o, s.logEdge 0x407 op id 0 = s.emit o :=
  have hmerge : mergeCode 0x407 = false := by decide
  ⟨_, s.log_sent 96 { code := 0x407, cluster := 0xFE, loc0 := op, loc1 := id } hmerge (by decide : 0x407 % 65536 ≠ 0x305)⟩

/-- A barrier's timeout leaves the hold and the time limit (R328). -/
theorem barrierLate_keepsHold (s : State) :
    (s.barrierLate.gop.hold = s.gop.hold ∧ s.barrierLate.gop.holdId = s.gop.holdId ∧ s.barrierLate.gop.holdSince = s.gop.holdSince)
      ∧ (s.barrierLate.gop.held = s.gop.held ∧ s.barrierLate.gop.holdLate = s.gop.holdLate)
      ∧ s.barrierLate.time = s.time ∧ s.barrierLate.fld Rg.GOP_TMO_US = s.fld Rg.GOP_TMO_US := by
  unfold barrierLate
  split
  · obtain ⟨o, ho⟩ := logEdge_globalOp (s.setGop { s.gop with
      bar := false, up := false, late := true, dead := some s.gop.id, arrived := s.gop.arrived.filter fun e => e.2 != s.gop.id }) 1 s.gop.id
    rw [ho, emit_gop, emit_time, fld_emit, setGop_gop, setGop_time]
    exact ⟨⟨rfl, rfl, rfl⟩, ⟨rfl, rfl⟩, rfl, s.fld_setGop_ne _ (by decide)⟩
  · exact ⟨⟨rfl, rfl, rfl⟩, ⟨rfl, rfl⟩, rfl, rfl⟩

/-- A barrier and a hold time out apart (R328). -/
theorem gopLate_eq (s : State) :
    s.gopLate =
      let us := s.fld Rg.GOP_TMO_US
      let b := s.barrierLate
      if s.gop.hold ≠ 0 ∧ s.gop.held = false ∧ s.gop.holdLate = false ∧ us ≠ 0 ∧ s.gop.holdSince + us * 1500 ≤ s.time.cb then
        (b.setGop { b.gop with holdLate := true }).logEdge 0x407 (s.gop.hold - 1) s.gop.holdId 0
      else b := by
  obtain ⟨⟨hhold, hid, hsince⟩, ⟨hheld, hlate⟩, htime, hlimit⟩ := s.barrierLate_keepsHold
  rw [gopLate, holdLate_eq, hhold, hid, hsince, hheld, hlate, htime, hlimit]

end State

theorem exec_gopReset (req : Requester) (w : Word) (s : State) :
    exec (.gopReset req w) s = .next (s.accessPair req Rg.GOP_RESET w fun _ => true) := rfl

/-- Settles O31: a hold that is HELD, its domain reset and that reset's end, and the timeouts. -/
theorem holdsEndInHeldResetOrTimeout : Obligations.HoldsEndInHeldResetOrTimeout := by
  intro req v s
  refine ⟨fun hhold hheld hlate => congrArg _ (State.becomeHeld_eq hhold hheld hlate),
    fun hon harmed hhold hheld hlate hholdLate hidle => ?reset,
    fun t hreset hover => congrArg _ (State.domainResetEnd_over hreset hover), ?timeout⟩
  case reset =>
    intro u
    rw [exec_gopReset, State.accessPair_armed hon (by decide) ⟨rfl, rfl⟩ harmed rfl, State.guardedApply_gopReset,
      State.domainReset_held (s := u) hhold hheld hlate hholdLate hidle]
    rfl
  case timeout =>
    intro us b
    refine congrArg _ (s.gopLate_eq.trans ?_)
    rw [show s.barrierLate = b from s.barrierLate_eq]

end Sys2Proof.Machine
end

section
/-!
PROOFS. The training of a Vybin port (R305 to R307, R310, R482): the writes that begin one, its phases, and the capability words of the
peer.
-/
namespace Sys2Proof.Machine
open Sys2Proof.Claims

namespace State

/-! ### Writes of VYB_CTL (R305, R310) -/

/-- VYB_CTL of each port is a register of its own row (R310). -/
theorem findRow_vybCtl (p : Fin 32) : ∃ w, findRow (Rg.VYB_CTL p) edgeRows = some (w, p.val) ∧ w.off = 0x20000 := by
  have hrow : ∀ p : Fin 32, (findRow (Rg.VYB_CTL p) edgeRows).map (fun x => (x.1.off, x.2)) = some (0x20000, p.val) := by decide
  obtain ⟨⟨w, i⟩, hfind, heq⟩ := Option.map_eq_some_iff.mp (hrow p)
  obtain ⟨hoff, rfl⟩ := Prod.mk.inj heq
  exact ⟨w, hfind, hoff⟩

theorem vybCtl_unguarded (p : Fin 32) : guardedFirst (Rg.VYB_CTL p) = false ∧ guardedSecond (Rg.VYB_CTL p) = false := by
  revert p
  decide

/-- VYB_CTL is no configuration: its write acts at once (R305). -/
theorem accessWrite_vybCtl {s : State} {req : Requester} (p : Fin 32) (v : Word) (hon : s.answers req = true) :
    s.accessWrite req (Rg.VYB_CTL p) v none = answered req (s.vybCtl p v.toNat) := by
  obtain ⟨w, hrow, hoff⟩ := findRow_vybCtl p
  have hrange : Rg.VYB_CTL p < cmemBase ∧ Rg.VYB_CTL p % 4 = 0 := by
    simp only [Rg.VYB_CTL, cmemBase]
    omega
  exact accessWrite_edgeRegister v hon hrange (vybCtl_unguarded p) hrow (by simp only [edgeWrite, hoff])

section
variable {s : State} {p v : Nat} (hen : v.testBit 31 = true)
include hen

/-- Setting EN trains a port that was off (R305). -/
theorem vybCtl_enables (hwas : s.flag (Rg.VYB_CTL_EN p) = false) :
    s.vybCtl p v = (s.wr (Rg.VYB_CTL p) (v &&& 0xBE000000)).train p false := by
  simp only [vybCtl, bit, hen, hwas, Bool.not_true, Bool.not_false, Bool.false_eq_true, if_false, if_true]

/-- RETRAIN takes a port that was on out of its link (R310). -/
theorem vybCtl_retrains (hwas : s.flag (Rg.VYB_CTL_EN p) = true) (hretrain : v.testBit 30 = true) :
    s.vybCtl p v = ((s.wr (Rg.VYB_CTL p) (v &&& 0xBE000000)).portLeave p).train p false := by
  simp only [vybCtl, bit, hen, hwas, hretrain, Bool.not_true, Bool.false_eq_true, if_false, if_true]

end

/-! ### Phases (R305) -/

section
variable (s : State) (p : Nat)

theorem enterPhase_later {ph : Phase} (h : ph ≠ .equalise) :
    s.enterPhase p ph = s.modPort p fun y =>
      { y with phase := ph, since := s.time.cb, copies := 0, peer := if ph = .exchange then [] else y.peer } := by
  have hfast : (ph != .equalise) = true := bne_iff_ne.mpr h
  simp only [enterPhase, h, false_and, if_false, hfast, Bool.and_true]

theorem enterPhase_lock :
    s.enterPhase p .lock = s.modPort p fun y => { y with phase := .lock, since := s.time.cb, copies := 0 } :=
  s.enterPhase_later p (by decide)

theorem enterPhase_exchange :
    s.enterPhase p .exchange = s.modPort p fun y => { y with phase := .exchange, since := s.time.cb, copies := 0, peer := [] } :=
  s.enterPhase_later p (by decide)

theorem enterPhase_check :
    s.enterPhase p .check = s.modPort p fun y => { y with phase := .check, since := s.time.cb, copies := 0 } :=
  s.enterPhase_later p (by decide)

/-- A pass from EQUALISE is counted and no fast one; after three the port becomes FAILED. -/
theorem enterPhase_equalise :
    s.enterPhase p .equalise =
      if 3 ≤ (s.port p).passes then s.portFail p
      else s.modPort p fun y => { y with phase := .equalise, since := s.time.cb, copies := 0, passes := y.passes + 1, fast := false } := by
  simp [enterPhase]

theorem fastOver_iff : s.fastOver p = true ↔ (s.port p).began + 5000 * 1500 < s.time.cb := by
  rw [fastOver, decide_eq_true_iff, usCb]

end

section
variable {s : State} {p : Nat}

/-! ### DETECT -/

theorem detectAgain_early (signal : Bool) (hearly : s.time.cb < (s.port p).since + 15000000) : s.detectAgain p signal = s :=
  if_pos (.inr hearly)

section
variable (hphase : (s.port p).phase = .detect)
include hphase

theorem phaseDone_dark (lanes dom : Nat) (hdark : s.portLit p = false) : s.phaseDone p lanes dom = s := by
  simp [phaseDone, hphase, hdark]

/-- A signal leads to EQUALISE, or a fast retrain within its 5 ms to LOCK. -/
theorem phaseDone_detect (lanes dom : Nat) (hlit : s.portLit p = true) :
    s.phaseDone p lanes dom =
      if (s.port p).fast = true ∧ ¬ (s.port p).began + 5000 * 1500 < s.time.cb then s.enterPhase p .lock else s.enterPhase p .equalise := by
  have hfast : ((s.port p).fast && !s.fastOver p) = true ↔ (s.port p).fast = true ∧ ¬ (s.port p).began + 5000 * 1500 < s.time.cb := by
    rw [Bool.and_eq_true, Bool.not_eq_true', ← Bool.not_eq_true, fastOver_iff]
  simp only [phaseDone, hphase, hlit, if_true, hfast]
  exact apply_ite ..

variable (hdue : (s.port p).since + 15000000 ≤ s.time.cb)
include hdue

/-- Once its 10 ms are over DETECT is tried again. -/
theorem detectAgain_due (signal : Bool) :
    s.detectAgain p signal =
      if signal && s.portLit p then s.phaseDone p 0 0 else s.modPort p fun y => { y with since := s.time.cb } :=
  if_neg (not_or_intro (not_not_intro hphase) (Nat.not_lt.mpr hdue))

end

/-! ### The phases after DETECT -/

theorem phaseDone_equalise (lanes dom : Nat) (hphase : (s.port p).phase = .equalise) :
    s.phaseDone p lanes dom = s.enterPhase p .lock := by
  simp only [phaseDone, hphase]

/-- LOCK keeps the lanes that locked and sends 16 capability words (R306). -/
theorem phaseDone_lock (lanes dom : Nat) (hphase : (s.port p).phase = .lock) :
    s.phaseDone p lanes dom =
      (List.range 16).foldl (fun t _ => t.sendCap p) ((s.modPort p fun y => { y with lanes := lanes }).enterPhase p .exchange) := by
  simp only [phaseDone, hphase]

section
variable (hphase : (s.port p).phase = .exchange)
include hphase

theorem phaseDone_waits (lanes dom : Nat) (hfew : (s.port p).copies < 16) : s.phaseDone p lanes dom = s := by
  simp only [phaseDone, hphase, hfew, if_true]

variable (hcopies : 16 ≤ (s.port p).copies)
include hcopies

theorem phaseDone_disagrees (lanes : Nat) {dom : Nat} (hdeal : s.agreed p dom = none) : s.phaseDone p lanes dom = s.portFail p := by
  simp only [phaseDone, hphase, Nat.not_lt.mpr hcopies, if_false, hdeal]

theorem phaseDone_agrees (lanes : Nat) {dom : Nat} {d : Nat × Nat × Nat} (hdeal : s.agreed p dom = some d) :
    s.phaseDone p lanes dom = (s.modPort p fun y => { y with deal := d }).enterPhase p .check := by
  simp only [phaseDone, hphase, Nat.not_lt.mpr hcopies, if_false, hdeal]

end

/-- CHECK with every lane of the deal good makes the port UP (R307). -/
theorem phaseDone_check (lanes dom : Nat) (hphase : (s.port p).phase = .check) :
    s.phaseDone p lanes dom =
      if lanes &&& (s.port p).deal.2.1 = (s.port p).deal.2.1 then
        s.portEnter p (s.port p).deal.1 (s.port p).deal.2.1 (s.port p).deal.2.2
      else s.enterPhase p .equalise := by
  simp only [phaseDone, hphase]

/-- Past the limit of its phase, or that of a fast retrain, a port makes another pass. -/
theorem phaseLate_limited {us : Nat} (hlimit : phaseLimit (s.port p).phase = us) (hus : us ≠ 0) :
    s.phaseLate p =
      if (s.port p).since + us * 1500 < s.time.cb ∨ ((s.port p).fast = true ∧ (s.port p).began + 5000 * 1500 < s.time.cb) then
        s.enterPhase p .equalise
      else s := by
  subst hlimit
  simp only [phaseLate, hus, usCb, fastOver_iff, ne_eq, not_false_eq_true, true_and]

end

end State

/-! ### The commands of a training -/

section
variable (p : Fin 32) (s : State)

theorem exec_detectRetry (signal : Bool) : exec (.detectRetry p signal) s = .next (s.detectAgain p signal) := rfl

theorem exec_trainingPhaseComplete (lanes : Byte) (dom : BitVec 4) :
    exec (.trainingPhaseComplete p lanes dom) s = .next (s.phaseDone p lanes.toNat dom.toNat) := rfl

theorem exec_trainingPhaseLimit : exec (.trainingPhaseLimit p) s = .next (s.phaseLate p) := rfl

theorem exec_trainingFlit (f : List Byte) (fec : Nat × Nat) :
    exec (.trainingFlit p f fec) s = .next (s.fromPeer p fec fun t => t.training p f) := rfl

theorem exec_portEn {req : Requester} {v : Word} (hon : s.answers req = true) (hen : v.toNat.testBit 31 = true) :
    exec (.portEn req p v) s = .next (answered req (s.vybCtl p v.toNat)) :=
  congrArg _ ((if_pos hen).trans (State.accessWrite_vybCtl p v hon))

theorem exec_retrain {req : Requester} {v : Word} (hon : s.answers req = true) (hretrain : v.toNat.testBit 30 = true) :
    exec (.retrain req p v) s = .next (answered req (s.vybCtl p v.toNat)) :=
  congrArg _ ((if_pos hretrain).trans (State.accessWrite_vybCtl p v hon))

end

namespace State

/-- Near-end loopback cuts the peer off (R310). -/
theorem fromPeer_cut {s : State} {p : Nat} (hloop : s.flag (Rg.VYB_CTL_LOOP p) = true) (fec : Nat × Nat) (f : State → State) :
    s.fromPeer p fec f = s := if_pos hloop

theorem fromPeer_taken {s : State} {p : Nat} (hloop : s.flag (Rg.VYB_CTL_LOOP p) = false) (fec : Nat × Nat) (f : State → State) :
    s.fromPeer p fec f = f (s.fecSeen p fec) := if_neg (hloop ▸ Bool.false_ne_true)

/-- In EXCHANGE a training flit is counted, and the own capability word repeated (R306). -/
theorem training_exchange {s : State} {p : Nat} {f : List Byte} (hok : flitOk f = true) (htype : bits (byteAt f 0) 3 0 = 3)
    (hdown : s.portUp p = false) (hphase : (s.port p).phase = .exchange) :
    s.training p f = (s.modPort p fun y =>
      if y.peer = bytesAt f 8 64 then { y with copies := y.copies + 1 } else { y with peer := bytesAt f 8 64, copies := 1 }).sendCap p := by
  simp [training, hok, htype, hdown, hphase]

end State

/-- Settles O45: the two writes that begin a training, DETECT, each later phase at its completion and past its limit, the capability
words of EXCHANGE, and the port that becomes UP. -/
theorem portsTrainPhaseByPhase : Obligations.PortsTrainPhaseByPhase := by
  intro p s x failed again spent
  have hagain : s.enterPhase p .equalise = again := s.enterPhase_equalise p
  refine ⟨fun req v hon hen => ⟨fun hwas => ?enable, fun hwas hretrain => ?retrain⟩, fun hphase hearly b => ?early,
    fun hphase hdue => ⟨?noSignal, fun hlit => ?signal, fun hdark => ?dark⟩, fun lanes dom => ?complete, fun us hrow => ?late,
    fun f fec hloop hok htype => ?word, fun v mask fec => rfl⟩
  case enable => rw [exec_portEn p s hon hen, State.vybCtl_enables hen hwas]
  case retrain => rw [exec_retrain p s hon hretrain, State.vybCtl_retrains hen hwas hretrain]
  case early => rw [exec_detectRetry, State.detectAgain_early b hearly]
  case noSignal =>
    rw [exec_detectRetry, State.detectAgain_due hphase hdue]
    rfl
  case signal =>
    rw [exec_detectRetry, State.detectAgain_due hphase hdue, hlit]
    rfl
  case dark =>
    rw [exec_detectRetry, State.detectAgain_due hphase hdue, hdark]
    rfl
  case complete =>
    rw [exec_trainingPhaseComplete]
    refine ⟨fun hphase hdark => ?_, fun hphase hlit => ?_, fun hphase => ?_, fun hphase => ?_, fun hphase hfew => ?_,
      fun hphase hcopies hdeal => ?_, fun d hphase hcopies hdeal => ?_, fun hphase => ?_⟩
    · rw [State.phaseDone_dark hphase _ _ hdark]
    · rw [State.phaseDone_detect hphase _ _ hlit, hagain, State.enterPhase_lock]
    · rw [State.phaseDone_equalise _ _ hphase, State.enterPhase_lock]
    · rw [State.phaseDone_lock _ _ hphase, State.enterPhase_exchange]
      rfl
    · rw [State.phaseDone_waits hphase _ _ hfew]
    · rw [State.phaseDone_disagrees hphase hcopies _ hdeal]
      rfl
    · rw [State.phaseDone_agrees hphase hcopies _ hdeal, State.enterPhase_check]
      rfl
    · rw [State.phaseDone_check _ _ hphase, hagain]
  case late =>
    have hlimit : State.phaseLimit (s.port p).phase = us ∧ us ≠ 0 := by
      simp only [List.mem_cons, List.not_mem_nil, or_false, Prod.mk.injEq] at hrow
      obtain ⟨hphase, rfl⟩ | ⟨hphase, rfl⟩ | ⟨hphase, rfl⟩ | ⟨hphase, rfl⟩ := hrow
      all_goals exact ⟨congrArg State.phaseLimit hphase, by decide⟩
    rw [exec_trainingPhaseLimit, State.phaseLate_limited hlimit.1 hlimit.2, hagain]
  case word =>
    intro u hdown hphase w
    rw [exec_trainingFlit, State.fromPeer_taken hloop, State.training_exchange hok htype hdown hphase]

end Sys2Proof.Machine
end

section
/-!
PROOFS. The flits of a Vybin link (R288, R302 to R304, R309 to R311): how a port takes the flits of its peer, what it sends with one,
and how it loses its link.
-/
namespace Sys2Proof.Machine
open Sys2Proof.Claims

namespace State

/-! ### Codewords (R310) -/

/-- A count of what may be nothing: the counter saturates, every other register stays. -/
theorem rd_countSome (s : State) (a b n : Nat) :
    (if n = 0 then s else s.count a n).rd b = if b = a then Nat.min (s.rd a + n) 0xFFFFFFFF else s.rd b := by
  split
  next hzero =>
    have hmin : Nat.min (s.rd a + n) 0xFFFFFFFF = s.rd a := by
      rw [hzero]
      exact Nat.min_eq_left (Nat.le_of_lt_succ (s.rd_lt a))
    rw [hmin]
    split
    next hb => rw [hb]
    next => rfl
  next => exact s.rd_count a b n

theorem fecSeen_on {s : State} (p : Nat) (fec : Nat × Nat) (hon : s.power.on = true) :
    s.fecSeen p fec =
      let t := if fec.1 = 0 then s else s.count (Rg.VYB_FEC_CE p) fec.1
      if fec.2 = 0 then t else t.count (Rg.VYB_FEC_UE p) fec.2 :=
  if_neg (by rw [hon]; exact Bool.false_ne_true)

section
variable {s : State} (p : Nat) (fec : Nat × Nat) (hon : s.power.on = true)
include hon

theorem fecSeen_corrected : (s.fecSeen p fec).rd (Rg.VYB_FEC_CE p) = Nat.min (s.rd (Rg.VYB_FEC_CE p) + fec.1) 0xFFFFFFFF := by
  have hne : Rg.VYB_FEC_CE p ≠ Rg.VYB_FEC_UE p := by
    simp only [Rg.VYB_FEC_CE, Rg.VYB_FEC_UE]
    omega
  rw [fecSeen_on p fec hon, rd_countSome, if_neg hne, rd_countSome, if_pos rfl]

theorem fecSeen_uncorrectable : (s.fecSeen p fec).rd (Rg.VYB_FEC_UE p) = Nat.min (s.rd (Rg.VYB_FEC_UE p) + fec.2) 0xFFFFFFFF := by
  have hne : Rg.VYB_FEC_UE p ≠ Rg.VYB_FEC_CE p := by
    simp only [Rg.VYB_FEC_CE, Rg.VYB_FEC_UE]
    omega
  rw [fecSeen_on p fec hon, rd_countSome, if_pos rfl, rd_countSome, if_neg hne]

end

/-! ### Flits at a port that is UP (R302) -/

section
variable {s : State} {p : Nat} {f : List Byte} (hup : s.portUp p = true)
include hup

section
variable (hbad : flitOk f = false)
include hbad

theorem numbered_bad (type : Nat) (take : State → State) : s.numbered p type f take = (s.badFlit p).portRun p := by
  simp only [numbered, hup, hbad, Bool.not_true, Bool.not_false, Bool.false_eq_true, if_false, if_true]

theorem idleTake_bad : s.idleTake p f = (s.badFlit p).portRun p := by
  simp only [idleTake, hup, hbad, Bool.not_true, Bool.not_false, Bool.false_eq_true, if_false, if_true]

theorem training_bad : s.training p f = (s.badFlit p).portRun p := by
  simp only [training, hup, hbad, Bool.not_false, if_true]

end

section
variable (hok : flitOk f = true)
include hok

theorem idleTake_ok (htype : bits (byteAt f 0) 3 0 = 0) : s.idleTake p f = (s.takeCredits p f).portRun p := by
  simp only [idleTake, hup, hok, htype, Bool.not_true, Bool.false_eq_true, if_false, ne_eq, not_true_eq_false]

variable (hstays : (s.takeCredits p f).portUp p = true)
include hstays

/-- A numbered flit in sequence is accepted and its payload taken, one out of sequence discarded. -/
theorem numbered_ok {type : Nat} (take : State → State) (htype : bits (byteAt f 0) 3 0 = type) :
    s.numbered p type f take =
      let u := s.takeCredits p f
      State.portRun (if bits (fieldAt f 1 2) 11 0 = (u.port p).rxNext then take (u.accept p) else u.outOfOrder p) p := by
  simp only [numbered, hup, hok, htype, hstays, Bool.not_true, Bool.false_eq_true, if_false, ne_eq, not_true_eq_false]
  split <;> rfl

/-- A training flit brings the peer's capability word (R306). -/
theorem training_up (htype : bits (byteAt f 0) 3 0 = 3) :
    s.training p f =
      State.portRun (((((s.takeCredits p f).modPort p fun x => { x with peer := bytesAt f 8 64 }).takePeer p).peerCheck p)) p := by
  simp only [training, hup, hok, htype, hstays, Bool.not_true, Bool.false_eq_true, if_false, if_true, ne_eq, not_true_eq_false]

end
end

/-! ### Losing the link (R309) -/

/-- The counter of losses is no part of a port's state (R310). -/
theorem portUp_countLoss (s : State) (p n : Nat) : (s.count (Rg.VYB_LOSS p) n).portUp p = s.portUp p := by
  have hne : Rg.VYB_STAT p ≠ Rg.VYB_LOSS p := by
    simp only [Rg.VYB_STAT, Rg.VYB_LOSS]
    omega
  have hrd : (s.count (Rg.VYB_LOSS p) n).rd (Rg.VYB_STAT p) = s.rd (Rg.VYB_STAT p) := (s.rd_count _ _ _).trans (if_neg hne)
  simp only [portUp, fld, Rg.VYB_STAT_STATE, hrd]

/-- A port that leaves its link: a transfer may lose its path, and the queues are fenced if an image runs (R288, R309). -/
theorem portLeave_up {s : State} {p : Nat} (hup : s.portUp p = true) :
    s.portLeave p =
      let t := s.pathLost p
      let t := if t.fld Rg.IMG_STAT_STATE = 4 then t.fencePort p else t
      let t := ((t.setFld (Rg.VYB_STAT_VER p) 0).setFld (Rg.VYB_STAT_LANES p) 0).setFld (Rg.VYB_STAT_FEC p) 0
      t.setFld (Rg.VYB_PEER_MATCH p) 0 := if_pos hup

/-- A loss is counted, and the port trains again, fast from version 2 on. -/
theorem portDown_up {s : State} {p : Nat} (hup : s.portUp p = true) :
    s.portDown p = ((s.count (Rg.VYB_LOSS p) 1).portLeave p).train p (decide (2 ≤ s.fld (Rg.VYB_STAT_VER p))) := if_pos hup

/-- The path of a transfer is lost with the last of its ports that is UP (R288). -/
theorem pathLost_eq (s : State) (p : Nat) :
    s.pathLost p =
      let x := s.rxSession
      let path := (List.range x.path.2).map fun i => x.path.1 + i
      if x.step ≠ 0 ∧ p ∈ path ∧ (∀ q ∈ path, q = p ∨ s.portUp q = false) then
        State.loadFail { s with rxSession := Session.idle } 10 (if x.step = 5 then x.next else x.model)
      else s :=
  ite_congr (by simp only [Bool.and_eq_true, decide_eq_true_eq, List.contains_iff_mem, List.all_eq_true, Bool.or_eq_true, beq_iff_eq,
    Bool.not_eq_true', and_assoc]) (fun _ => rfl) fun _ => rfl

/-- A flit tells the port's acknowledgement, credits and NAK, and goes out to the peer (R302, R303). -/
theorem sendFlit_eq {s : State} {p : Nat} (type seq : Nat) (pay : List Byte) (hloop : s.flag (Rg.VYB_CTL_LOOP p) = false) :
    s.sendFlit p type seq pay =
      let x := s.port p
      (s.modPort p fun x => { x with told := (x.freedD, x.freedC, x.rxNext), nakDue := false }).emit
        (.flit p (flitBytes type seq ((x.rxNext + 4095) % 4096) x.freedD x.freedC x.nakDue pay)) :=
  if_neg fun h => Bool.false_ne_true (hloop.symm.trans h)

end State

/-! ### The commands of a link -/

section
variable (p : Fin 32) (f : List Byte) (flip : BitVec 1096) (fec : Nat × Nat) (lost : Option (BitVec 16)) (s : State)

theorem exec_linkDataFlit :
    exec (.linkDataFlit p f flip fec) s =
      .next (s.fromPeer p fec fun t => t.numbered p 1 f fun t => t.inbound p (bytesAt f 8 128) flip) := rfl

theorem exec_linkControlFlit :
    exec (.linkControlFlit p f fec lost) s =
      .next (s.fromPeer p fec fun t => t.numbered p 2 f fun t => t.ctlWords p (bytesAt f 8 128) lost) := rfl

theorem exec_idleFlit : exec (.idleFlit p f fec) s = .next (s.fromPeer p fec fun t => t.idleTake p f) := rfl

/-- Every flit of the peer meets near-end loopback first, and one whose CRC fails is treated alike at a port that is UP. -/
theorem exec_peerFlit {i : Instr}
    (hi : i ∈ [Instr.linkDataFlit p f flip fec, .linkControlFlit p f fec lost, .idleFlit p f fec, .trainingFlit p f fec]) :
    ∃ g : State → State, exec i s = .next (s.fromPeer p fec g) ∧
      ∀ t : State, t.portUp p = true → flitOk f = false → g t = (t.badFlit p).portRun p := by
  simp only [List.mem_cons, List.not_mem_nil, or_false] at hi
  obtain rfl | rfl | rfl | rfl := hi
  · exact ⟨_, exec_linkDataFlit .., fun t hup hbad => State.numbered_bad hup hbad _ _⟩
  · exact ⟨_, exec_linkControlFlit .., fun t hup hbad => State.numbered_bad hup hbad _ _⟩
  · exact ⟨_, exec_idleFlit .., fun t hup hbad => State.idleTake_bad hup hbad⟩
  · exact ⟨_, exec_trainingFlit .., fun t hup hbad => State.training_bad hup hbad⟩

theorem exec_linkLost {i : Instr} (hi : i ∈ [Instr.linkLoss p, .peerSilent p]) : exec i s = .next (s.portDown p) := by
  simp only [List.mem_cons, List.not_mem_nil, or_false] at hi
  obtain rfl | rfl := hi <;> rfl

end

/-- Settles O46: loopback and the codewords before every flit, then a flit by its CRC and type, the loss of the link and of a transfer's
path, and the flit that goes out. -/
theorem flitsAreTakenInOrder : Obligations.FlitsAreTakenInOrder := by
  intro p f flip fec lost s all v ask nak rows
  refine ⟨fun hloop i hi => ?cut, fun hon => ⟨State.fecSeen_corrected p fec hon, State.fecSeen_uncorrectable p fec hon⟩,
    fun hloop hup => ⟨fun hbad i hi => ?bad, fun hok => ⟨fun hstays => ⟨?numbered, fun htype => ?word⟩, fun htype => ?idle⟩⟩,
    fun hup i hi => ?loss, s.pathLost_eq p, fun type seq pay hloop => State.sendFlit_eq type seq pay hloop⟩
  case cut =>
    obtain ⟨g, hexec, -⟩ := exec_peerFlit p f flip fec lost s hi
    rw [hexec, State.fromPeer_cut hloop]
  case bad =>
    obtain ⟨g, hexec, hg⟩ := exec_peerFlit p f flip fec lost s hi
    rw [hexec, State.fromPeer_taken hloop, hg v hup hbad]
    rfl
  case numbered =>
    intro k i take hrow htype a
    have hexec : exec i s = .next (s.fromPeer p fec fun t => t.numbered p k f take) := by
      simp only [rows, List.mem_cons, List.not_mem_nil, or_false, Prod.mk.injEq] at hrow
      obtain ⟨rfl, rfl, rfl⟩ | ⟨rfl, rfl, rfl⟩ := hrow
      · exact exec_linkDataFlit ..
      · exact exec_linkControlFlit ..
    rw [hexec, State.fromPeer_taken hloop, State.numbered_ok hup hok hstays take htype]
    rfl
  case word => rw [exec_trainingFlit, State.fromPeer_taken hloop, State.training_up hup hok hstays htype]
  case idle => rw [exec_idleFlit, State.fromPeer_taken hloop, State.idleTake_ok hup hok htype]
  case loss =>
    rw [exec_linkLost p s hi, State.portDown_up hup, State.portLeave_up ((s.portUp_countLoss p 1).trans hup)]

end Sys2Proof.Machine
end

section
/-!
PROOFS. Relay packets (R174, R320, R322, R323): a packet on its way, and how each kind is served at its destination.
-/
namespace Sys2Proof.Machine
namespace State

/-! ### On the way (R323) -/

section
variable {s : State} {hdr : DWord} (addr : DWord) (data : List DWord) (f : State → RelayHdr → State) (hon : s.power.on = true)
include hon

theorem relayTake_goesOn {side : Nat} {h : RelayHdr} (hhop : (RelayHdr.ofNat hdr.toNat).hop = some (side, h)) :
    s.relayTake hdr addr data f = s.relayOut side h addr data := by
  simp [relayTake, hon, hhop]

theorem relayTake_arrived (hhop : (RelayHdr.ofNat hdr.toNat).hop = none) :
    s.relayTake hdr addr data f = f s (RelayHdr.ofNat hdr.toNat) := by
  simp [relayTake, hon, hhop]

end

/-- A packet with hops left takes the edge's lowest-numbered port UP. -/
theorem relayOut_port {s : State} {side p : Nat} (h : RelayHdr) (addr : DWord) (data : List DWord) (hport : s.edgePort side = some p) :
    s.relayOut side h addr data = s.portSend p ⟨0xB, 0x8000, 0x8000, 0, 0, h.flit data.length :: addr :: data, false⟩ := by
  rw [relayOut, hport]

/-- A packet reaches its port over powered, unfenced regions (R174). -/
theorem portSend_reaches {s : State} {p : Nat} (k : Packet) (hreach : s.portReach p = true) :
    s.portSend p k = (s.modPort p fun x => { x with ctl := x.ctl ++ k.words }).portRun p := if_pos hreach

theorem portSend_lost {s : State} {p : Nat} (k : Packet) (hreach : s.portReach p = false) : s.portSend p k = s :=
  if_neg (hreach ▸ Bool.false_ne_true)

/-! ### At the destination -/

section
variable {s : State} (h : RelayHdr) (addr : DWord)

section
variable (hpassive : s.flag Rg.HB_CFG_ACTIVE = false)
include hpassive

theorem hrdServe_passive (host : Option (List Byte)) : s.hrdServe h addr host = s.relayReply (h.reply 2 3 0) addr [] := by
  simp only [hrdServe, hpassive, Bool.not_false, if_true]

theorem hwrServe_passive (data : List DWord) : s.hwrServe h addr data = s.relayReply (h.reply 6 3 0) addr [] := by
  simp only [hwrServe, hpassive, Bool.not_false, if_true]

theorem irqServe_passive : s.irqServe h addr = s.relayReply (h.reply 6 3 0) addr [] := by
  simp only [irqServe, hpassive, Bool.not_false, if_true]

end

section
variable {h} (hactive : s.flag Rg.HB_CFG_ACTIVE = true)
include hactive

theorem hrdServe_unknown (host : Option (List Byte)) (hsender : s.relaySender h = none) :
    s.hrdServe h addr host = s.logEdge 0x403 0x8000 0xB 5 := by
  simp only [hrdServe, hactive, hsender, Bool.not_true, Bool.false_eq_true, if_false, Option.isNone_none, if_true, relayUnknown]

theorem irqServe_unknown (hsender : s.relaySender h = none) : s.irqServe h addr = s.logEdge 0x403 0x8000 0xB 5 := by
  simp only [irqServe, hactive, hsender, Bool.not_true, Bool.false_eq_true, if_false, relayUnknown]

end

theorem hostUp_active (hon : s.power.on = true) (hactive : s.flag Rg.HB_CFG_ACTIVE = true) (hrate : s.fld Rg.HB_CFG_RATE ≠ 0) :
    s.hostUp = true := by
  simp [hostUp, hon, hactive, hrate]

section
variable {h} {m : Nat} (hactive : s.flag Rg.HB_CFG_ACTIVE = true) (hup : s.hostUp = true)
include hactive hup

/-- Data of a member's HWR, at most 48 bytes, goes to host memory (R322). -/
theorem hwrServe_writes (data : List DWord) (hlen : h.len ≤ 48) :
    s.hwrServe h addr data = s.emit (.hostWrite addr.toNat ((ofWords data).take h.len)) := by
  simp only [hwrServe, hactive, hup, hlen, Bool.not_true, Bool.false_eq_true, if_false, and_self, if_true]

variable (hsender : s.relaySender h = some m)
include hsender

/-- A member's HRD of 1 to 4096 bytes is answered with what the host holds, by HRDD packets of at most 48 bytes (R322). -/
theorem hrdServe_reads (bs : List Byte) (hlo : 1 ≤ h.len) (hhi : h.len ≤ 4096) :
    s.hrdServe h addr (some bs) = s.sendHrdd h addr.toNat 86 (padTo h.len (bs.take h.len)) := by
  simp only [hrdServe, hactive, hup, hsender, hlo, hhi, Bool.not_true, Bool.false_eq_true, if_false, Option.isNone_some, and_self,
    if_true]

theorem hrdServe_unserved : s.hrdServe h addr none = s.relayReply (h.reply 2 1 0) addr [] := by
  simp only [hrdServe, hactive, hup, hsender, Bool.not_true, Bool.false_eq_true, if_false, Option.isNone_some]

/-- Vectors 0 to 63 of a member's IRQ are the module's own (R320). -/
theorem irqServe_shared (hlow : h.len % 256 < 64) : s.irqServe h addr = s.emit (.msix (h.len % 256)) := by
  simp only [irqServe, hactive, hup, hsender, hlow, Bool.not_true, Bool.false_eq_true, if_false, if_true]

/-- Vectors 64 to 67 of a member's IRQ are the member's four (R320). -/
theorem irqServe_member (hlow : 64 ≤ h.len % 256) (hhigh : h.len % 256 < 68) :
    s.irqServe h addr = s.emit (.msix (64 + 4 * m + (h.len % 256 - 64))) := by
  simp only [irqServe, hactive, hup, hsender, Nat.not_lt.mpr hlow, hhigh, Bool.not_true, Bool.false_eq_true, if_false, if_true]

end
end
end State

/-! ### The commands of the relay -/

/-- The data flits that a CRSP carries (R322). -/
def crspFlits (hdr : DWord) (v : Word) : List DWord := if bits hdr.toNat 26 24 = 0 then [] else [BitVec.ofNat 64 v.toNat]

section
variable (hdr addr : DWord) (s : State)

theorem exec_hrd (host : Option (List Byte)) :
    exec (.hrd hdr addr host) s = .next (s.relayTake hdr addr [] fun s h => s.hrdServe h addr host) := rfl

theorem exec_hrdd (data : List DWord) :
    exec (.hrdd hdr addr data) s = .next (s.relayTake hdr addr data fun s h => s.relayResponse h data) := rfl

theorem exec_hwr (data : List DWord) :
    exec (.hwr hdr addr data) s = .next (s.relayTake hdr addr data fun s h => s.hwrServe h addr data) := rfl

theorem exec_crd : exec (.crd hdr addr) s = .next (s.relayTake hdr addr [] fun s h => s.crdServe h addr) := rfl

theorem exec_cwr (v : Word) :
    exec (.cwr hdr addr v) s = .next (s.relayTake hdr addr [BitVec.ofNat 64 v.toNat] fun s h => s.cwrServe h addr v) := rfl

theorem exec_crsp (v : Word) :
    exec (.crsp hdr addr v) s = .next (s.relayTake hdr addr (crspFlits hdr v) fun s h => s.relayResponse h (crspFlits hdr v)) := rfl

theorem exec_irq : exec (.irq hdr addr) s = .next (s.relayTake hdr addr [] fun s h => s.irqServe h addr) := rfl

/-- Every relay packet is taken alike until it has arrived (R323). -/
theorem exec_relay (data : List DWord) (v : Word) {i : Instr} {ds : List DWord}
    (hi : (i, ds) ∈ [(Instr.hrd hdr addr none, []), (.hrdd hdr addr data, data), (.hwr hdr addr data, data), (.crd hdr addr, []),
      (.cwr hdr addr v, [BitVec.ofNat 64 v.toNat]), (.crsp hdr addr v, crspFlits hdr v), (.irq hdr addr, [])]) :
    ∃ f, exec i s = .next (s.relayTake hdr addr ds f) := by
  simp only [List.mem_cons, List.not_mem_nil, or_false, Prod.mk.injEq] at hi
  obtain ⟨rfl, rfl⟩ | ⟨rfl, rfl⟩ | ⟨rfl, rfl⟩ | ⟨rfl, rfl⟩ | ⟨rfl, rfl⟩ | ⟨rfl, rfl⟩ | ⟨rfl, rfl⟩ := hi
  all_goals exact ⟨_, rfl⟩

end

/-- Settles O47: a packet on its way by its port, one that has arrived by its kind, the bridge and the sender. -/
theorem relayPacketsGoOnOrAreServed : Obligations.RelayPacketsGoOnOrAreServed := by
  intro hdr addr data v host s hon h flits
  refine ⟨fun side h' p hhop hport i ds hi => ?goesOn, fun p k => ⟨State.portSend_reaches k, State.portSend_lost k⟩,
    fun hhop => ⟨?crd, ?cwr, ?hrdd, ?crsp, fun hpassive => ?passive, fun hactive hsender => ?unknown,
      fun m hactive hrate hsender => ?served⟩⟩
  case goesOn =>
    obtain ⟨f, hexec⟩ := exec_relay hdr addr s data v hi
    rw [hexec, State.relayTake_goesOn addr ds f hon hhop, State.relayOut_port h' addr ds hport]
  case crd =>
    rw [exec_crd, State.relayTake_arrived _ _ _ hon hhop]
    rfl
  case cwr =>
    rw [exec_cwr, State.relayTake_arrived _ _ _ hon hhop]
    rfl
  case hrdd => rw [exec_hrdd, State.relayTake_arrived _ _ _ hon hhop]
  case crsp =>
    rw [exec_crsp, State.relayTake_arrived _ _ _ hon hhop]
    rfl
  case passive =>
    rw [exec_hrd, exec_hwr, exec_irq]
    simp only [State.relayTake_arrived _ _ _ hon hhop]
    exact ⟨congrArg _ (State.hrdServe_passive h addr hpassive _), congrArg _ (State.hwrServe_passive h addr hpassive data),
      congrArg _ (State.irqServe_passive h addr hpassive)⟩
  case unknown =>
    rw [exec_hrd, exec_irq]
    simp only [State.relayTake_arrived _ _ _ hon hhop]
    exact ⟨congrArg _ (State.hrdServe_unknown addr hactive _ hsender), congrArg _ (State.irqServe_unknown addr hactive hsender)⟩
  case served =>
    have hup : s.hostUp = true := State.hostUp_active hon hactive hrate
    rw [exec_hrd, exec_hrd, exec_hwr, exec_irq]
    simp only [State.relayTake_arrived _ _ _ hon hhop]
    exact ⟨fun hlo hhi => ⟨congrArg _ (State.hrdServe_reads addr hactive hup hsender host hlo hhi),
        congrArg _ (State.hrdServe_unserved addr hactive hup hsender)⟩,
      fun hlen => congrArg _ (State.hwrServe_writes addr hactive hup data hlen),
      fun hlow => congrArg _ (State.irqServe_shared addr hactive hup hsender hlow),
      fun hlow hhigh => congrArg _ (State.irqServe_member addr hactive hup hsender hlow hhigh)⟩

end Sys2Proof.Machine
end

section
/-!
PROOFS. The guarded registers of a region's power (R298, R345, R358, R459): a write of RPWR_VSET and a fence of the driver, and how the
fence takes the region down.
-/
namespace Sys2Proof.Machine
open Sys2Proof.Claims

namespace State

/-! ### The registers of a region's pairs -/

/-- The two pairs of a region end at second addresses that begin no pair (R346, R458). -/
theorem regionPair_second (r : Fin 96) {a : Nat} (ha : a ∈ [Rg.RPWR_VSET r, Rg.RPWR_CTL r]) :
    (a + 4 < cmemBase ∧ (a + 4) % 4 = 0) ∧ guardedFirst (a + 4) = false ∧ guardedSecond (a + 4) = true := by
  have hall : ∀ r : Fin 96, ∀ a ∈ [Rg.RPWR_VSET r, Rg.RPWR_CTL r],
      (a + 4 < cmemBase ∧ (a + 4) % 4 = 0) ∧ guardedFirst (a + 4) = false ∧ guardedSecond (a + 4) = true := by decide +kernel
  exact hall r a ha

/-- The second half of an armed pair of a region applies its register (R459). -/
theorem accessPair_region {s : State} {req : Requester} {r : Fin 96} {a : Nat} {v : Word} (hon : s.answers req = true)
    (ha : a ∈ [Rg.RPWR_VSET r, Rg.RPWR_CTL r]) (harmed : armedWith req a v s) :
    s.accessPair req a (~~~v) (fun _ => true) = answered req ((s.disarmPair a).guardedApply a v.toNat) :=
  accessPair_armed hon (regionPair_second r ha).1 (regionPair_second r ha).2 harmed rfl

/-- A register of the power manager's regions is none of the three pairs outside it (R458). -/
theorem guardedApply_region (s : State) {a : Nat} (v : Nat) (hlo : 0x31000 ≤ a) (hhi : a < 0x31600) :
    s.guardedApply a v =
      if a % 16 = 0 then (if bit v 31 then ((s.wr a 0x80000000).driverFence ((a - 0x31000) / 16) v).p3Go else s)
      else s.vsetWrite ((a - 0x31000) / 16) v := by
  obtain ⟨hreset, hfuse, hcrypto⟩ : a ≠ Rg.GOP_RESET ∧ a ≠ Rg.FUSE_PGM ∧ a ≠ Rg.CRY_CMD := by
    simp only [Rg.GOP_RESET, Rg.FUSE_PGM, Rg.CRY_CMD]
    omega
  rw [guardedApply, if_neg hreset, if_neg hfuse, if_neg hcrypto]

theorem guardedApply_vset (s : State) (r : Fin 96) (v : Nat) : s.guardedApply (Rg.RPWR_VSET r) v = s.vsetWrite r v := by
  obtain ⟨hlo, hhi, hoff, hr⟩ : 0x31000 ≤ Rg.RPWR_VSET r ∧ Rg.RPWR_VSET r < 0x31600 ∧ Rg.RPWR_VSET r % 16 ≠ 0
      ∧ (Rg.RPWR_VSET r - 0x31000) / 16 = r := by
    simp only [Rg.RPWR_VSET]
    omega
  rw [s.guardedApply_region v hlo hhi, if_neg hoff, hr]

theorem guardedApply_rpwrCtl (s : State) (r : Fin 96) (v : Nat) :
    s.guardedApply (Rg.RPWR_CTL r) v = if bit v 31 then ((s.wr (Rg.RPWR_CTL r) 0x80000000).driverFence r v).p3Go else s := by
  obtain ⟨hlo, hhi, hoff, hr⟩ : 0x31000 ≤ Rg.RPWR_CTL r ∧ Rg.RPWR_CTL r < 0x31600 ∧ Rg.RPWR_CTL r % 16 = 0
      ∧ (Rg.RPWR_CTL r - 0x31000) / 16 = r := by
    simp only [Rg.RPWR_CTL]
    omega
  rw [s.guardedApply_region v hlo hhi, if_pos hoff, hr]

/-! ### What the registers do -/

theorem vcoreUp_iff (s : State) (r : Nat) :
    s.vcoreUp r = true ↔
      s.fld (Rg.RPWR_STAT_STATE r) = 2
        ∨ (s.fld (Rg.RPWR_STAT_STATE r) = 1 ∨ s.fld (Rg.RPWR_STAT_STATE r) = 5) ∧ 750 ≤ s.fld (Rg.RPWR_MEAS_VSRAM r) := by
  simp only [vcoreUp, Bool.or_eq_true, Bool.and_eq_true, beq_iff_eq, decide_eq_true_iff]

/-- The setpoint takes a value, and VCORE follows where the regulator holds it there (R336). -/
theorem setVset_eq (s : State) (r mv : Nat) :
    s.setVset r mv =
      let w := s.setFld (Rg.RPWR_VSET_MV r) mv
      let st := w.fld (Rg.RPWR_STAT_STATE r)
      if st = 2 ∨ (st = 1 ∨ st = 5) ∧ 750 ≤ w.fld (Rg.RPWR_MEAS_VSRAM r) then w.vcoreFollow r else w :=
  ite_congr (propext (vcoreUp_iff ..)) (fun _ => rfl) fun _ => rfl

/-- A write of RPWR_VSET within the range sets the override and the setpoint (R358). -/
theorem vsetWrite_eq (s : State) (r v : Nat) :
    s.vsetWrite r v =
      if 600 ≤ bits v 9 0 ∧ bits v 9 0 ≤ 850 then
        let w := (s.setFld (Rg.RPWR_VSET_OVR r) (bits v 31 31)).setFld (Rg.RPWR_VSET_MV r) (bits v 9 0)
        let st := w.fld (Rg.RPWR_STAT_STATE r)
        if st = 2 ∨ (st = 1 ∨ st = 5) ∧ 750 ≤ w.fld (Rg.RPWR_MEAS_VSRAM r) then w.vcoreFollow r else w
      else s := by
  rw [vsetWrite, setVset_eq]

/-- FENCE fences a region with cause 7 unless it is FENCED, and ends a swap (R298, R345). -/
theorem driverFence_fence (s : State) (r : Nat) {v : Nat} (hfence : v.testBit 31 = true) :
    s.driverFence r v =
      if s.fld (Rg.RPWR_STAT_STATE r) = 6 then s
      else
        let t := (if s.fld (Rg.RPWR_STAT_STATE r) = 0 then (s.halt r).regionOff r 6 else s.fenceDown r).yieldFence r 7
        if t.loader.job = .swap then t.loadFail 14 r else t :=
  ite_congr (by simp [bit, hfence]) (fun _ => rfl) fun _ => rfl

/-! ### A region that a fence takes down (R345) -/

theorem halt_halted (s : State) (r : Nat) : ((s.halt r).region r).halted = true := by
  rw [halt, region_modRegion, if_pos rfl]

/-- A field is read from the registers alone (R455). -/
theorem fld_congr {s t : State} (h : s.regs = t.regs) (f : Fld) : s.fld f = t.fld f := by
  simp only [fld, rd, reg, h]

theorem fld_withPower (s : State) (p : Power) (f : Fld) : ({ s with power := p } : State).fld f = s.fld f := fld_congr rfl f

/-- The state of a region reads what was written to it, and its voltage and current stay (R358). -/
theorem fld_setPowerState (s : State) (r v : Nat) :
    (s.setFld (Rg.RPWR_STAT_STATE r) v).fld (Rg.RPWR_STAT_STATE r) = v % 16
      ∧ (s.setFld (Rg.RPWR_STAT_STATE r) v).fld (Rg.RPWR_STAT_VCORE r) = s.fld (Rg.RPWR_STAT_VCORE r)
      ∧ (s.setFld (Rg.RPWR_STAT_STATE r) v).fld (Rg.RPWR_STAT_ICORE r) = s.fld (Rg.RPWR_STAT_ICORE r) := by
  refine ⟨fld_setFld _ _ _ ?_ ?_, fld_setFld_field _ _ _ _ ?_ ?_ ?_ (.inr ?_), fld_setFld_field _ _ _ _ ?_ ?_ ?_ (.inr ?_)⟩
  all_goals simp [Rg.RPWR_STAT_STATE, Rg.RPWR_STAT_VCORE, Rg.RPWR_STAT_ICORE]

/-- A field takes at most the value that is written to it. -/
theorem fld_setFld_le (s : State) (f : Fld) (v : Nat) (h : f.lo ≤ f.hi) (h32 : f.hi < 32) : (s.setFld f v).fld f ≤ v := by
  rw [fld_setFld s f v h h32]
  exact Nat.mod_le _ _

theorem fenceDown_regions (s : State) (r : Nat) : (s.fenceDown r).regions = (s.halt r).regions := rfl

theorem fenceDown_halted (s : State) (r : Nat) : ((s.fenceDown r).region r).halted = true := by
  rw [region, fenceDown_regions]
  exact s.halt_halted r

/-- A fenced region is FENCED, and its readings are not above those before. -/
theorem fenceDown_readings (s : State) (r : Nat) :
    (s.fenceDown r).fld (Rg.RPWR_STAT_STATE r) = 6
      ∧ (s.fenceDown r).fld (Rg.RPWR_STAT_VCORE r) ≤ s.fld (Rg.RPWR_STAT_VCORE r)
      ∧ (s.fenceDown r).fld (Rg.RPWR_STAT_ICORE r) ≤ s.fld (Rg.RPWR_STAT_ICORE r) := by
  have hmod (a b : Nat) : a % (b + 1) ≤ b := Nat.lt_succ_iff.mp (Nat.mod_lt _ (Nat.succ_pos _))
  unfold fenceDown
  extract_lets v i x t
  obtain ⟨hstate, hvcore, hicore⟩ := fld_setPowerState
    ((x.2.setFld (Rg.RPWR_STAT_VCORE r) (x.1 % 1024 % (v + 1))).setFld (Rg.RPWR_STAT_ICORE r) (x.1 / 1024 % (i + 1))) r 6
  simp only [fld_withPower]
  refine ⟨hstate, Nat.le_trans (Nat.le_of_eq hvcore) ?_,
    Nat.le_trans (Nat.le_of_eq hicore) (Nat.le_trans (fld_setFld_le _ _ _ ?_ ?_) (hmod _ i))⟩
  · rw [fld_setFld_field]
    · exact Nat.le_trans (fld_setFld_le _ _ _ (by simp [Rg.RPWR_STAT_VCORE]) (by simp [Rg.RPWR_STAT_VCORE])) (hmod _ v)
    all_goals simp [Rg.RPWR_STAT_VCORE, Rg.RPWR_STAT_ICORE]
  all_goals simp [Rg.RPWR_STAT_ICORE]

/-- The rails of a fenced region are off 5 ms later (log 6). -/
theorem fenceDown_falling (s : State) (r : Nat) :
    (s.fenceDown r).power.falling = s.power.falling ++ [(r, s.time.cb + 7500000)] := rfl

end State

theorem exec_vset (req : Requester) (r : Fin 96) (w : Word) (s : State) :
    exec (.vset req r w) s = .next (s.accessPair req (Rg.RPWR_VSET r) w fun _ => true) := rfl

theorem exec_regionFence (req : Requester) (r : Fin 96) (w : Word) (s : State) :
    exec (.regionFence req r w) s = .next (s.accessPair req (Rg.RPWR_CTL r) w fun _ => true) := rfl

/-- Settles O32: the two pairs by their second halves, and the region that a fence takes down. -/
theorem regionPairsFenceAndSetVoltage : Obligations.RegionPairsFenceAndSetVoltage := by
  intro req r v s hon
  refine ⟨fun harmed => ?vset, fun harmed => ?fence, fun k => ?down⟩
  case down =>
    obtain ⟨hstate, hvcore, hicore⟩ := k.fenceDown_readings r
    exact ⟨k.fenceDown_halted r, hstate, hvcore, hicore, k.fenceDown_falling r⟩
  case vset => rw [exec_vset, State.accessPair_region (r := r) hon (by simp) harmed, State.guardedApply_vset, State.vsetWrite_eq]
  case fence =>
    intro u u'
    rw [exec_regionFence, State.accessPair_region (r := r) hon (by simp) harmed, State.guardedApply_rpwrCtl, bit]
    by_cases hfence : v.toNat.testBit 31 = true
    · rw [if_pos hfence, if_neg (Bool.not_eq_false _ ▸ hfence), State.driverFence_fence _ _ hfence, apply_ite State.p3Go]
    · rw [if_neg hfence, if_pos (Bool.not_eq_true _ ▸ hfence)]

end Sys2Proof.Machine
end

section
/-!
PROOFS. The regulators of a region (R335, R336, R338, R343 to R345): the loop of its voltage, its sense points and droops, the shorts
that latch it off, and its retry.
-/
namespace Sys2Proof.Machine
open Sys2Proof.Claims

namespace State

/-! ### A region that is ON -/

section
variable {s : State} {r : Nat} (hon : s.powered r = true)
include hon

/-- A sense point that was valid is marked and logged, and VCORE and TCAP follow (R335). -/
theorem senseBad_valid {p : Nat} (mv : Nat) (hvalid : (s.fld (Rg.RPWR_STAT_SENSE r)).testBit p = true) :
    s.senseBad r p mv = State.tcapHeld
      (((s.setFld (Rg.RPWR_STAT_SENSE r) (s.fld (Rg.RPWR_STAT_SENSE r) - 2 ^ p)).logPower r 0x408 p 0 mv).vcoreFollow r) r :=
  if_pos ⟨hon, hvalid⟩

/-- A period is stretched while a detector fires, and once after (R338). -/
theorem droop_powered (firing : Bool) :
    s.droop r firing =
      if firing = true ∨ (s.region r).droop = true then
        (s.modRegion r fun g => { g with droop := firing }).count (Rg.DROOP_CNT r) 1
      else s :=
  ite_congr (by simp [hon]) (fun _ => rfl) fun _ => rfl

end

/-! ### Latches (R343, R344) -/

theorem fld_wr_ne (s : State) {a : Nat} (v : Nat) {f : Fld} (h : f.addr ≠ a) : (s.wr a v).fld f = s.fld f := by
  simp [fld, rd_wr, h]

/-- A record goes to the outbox or marks its buffer full: it leaves every field of another register (R403). -/
theorem fld_record (s : State) (b : Nat) (e : BitVec 256) {f : Fld} (h : f.addr ≠ (bufOvf b).addr) : (s.record b e).fld f = s.fld f := by
  unfold record
  split
  · exact fld_congr rfl f
  · exact fld_setFld_ne _ _ _ _ h

theorem fld_shortRecord (s : State) (r cause peak again : Nat) {f : Fld} (h : f.addr ≠ Rg.EDGE_FBSTAT) :
    (s.shortRecord r cause peak again).fld f = s.fld f := s.fld_record 96 _ h

theorem fld_modRegion (s : State) (r : Nat) (g : Region → Region) (f : Fld) : (s.modRegion r g).fld f = s.fld f := fld_congr rfl f

/-- The state of a region that has lost power is the one named (R343, R345). -/
theorem regionOff_state (s : State) (r : Nat) {st : Nat} (hst : st < 16) : (s.regionOff r st).fld (Rg.RPWR_STAT_STATE r) = st := by
  have hvset : Rg.RPWR_STAT r ≠ Rg.RPWR_VSET r := by
    simp only [Rg.RPWR_STAT, Rg.RPWR_VSET]
    omega
  have hmeas : Rg.RPWR_STAT r ≠ Rg.RPWR_MEAS r := by
    simp only [Rg.RPWR_STAT, Rg.RPWR_MEAS]
    omega
  have hread : (s.regionOff r st).rd (Rg.RPWR_STAT r) = st * 2 ^ 28 % 2 ^ 32 := by
    simp only [regionOff, rd_wr, hvset, hmeas, if_false, if_true]
  simp only [fld, Rg.RPWR_STAT_STATE, hread, bits, Nat.shiftRight_eq_div_pow]
  omega

/-- A fence in the yield map leaves the region's state in RPWR_STAT (R387). -/
theorem yieldFence_powerState (s : State) {r : Nat} (hr : r < 96) (cause : Nat) :
    (s.yieldFence r cause).fld (Rg.RPWR_STAT_STATE r) = s.fld (Rg.RPWR_STAT_STATE r) := by
  have hcl : Rg.RPWR_STAT r ≠ Rg.YMAP_CL r := by
    simp only [Rg.RPWR_STAT, Rg.YMAP_CL]
    omega
  have hfence : Rg.RPWR_STAT r ≠ Rg.YMAP_FENCE (r / 32) := by
    simp only [Rg.RPWR_STAT, Rg.YMAP_FENCE]
    omega
  unfold yieldFence
  extract_lets old c
  rw [fld_wr_ne _ _ hfence, fld_setFld_ne _ _ _ _ hcl, fld_setFld_ne _ _ _ _ hcl]

/-- An entry about a retry is sent at once (R400). -/
theorem logPower_retry (s : State) (r loc : Nat) : ∃ o, s.logPower r 0x40C loc 0 0 = s.emit o :=
  have hmerge : mergeCode 0x40C = false := by decide
  ⟨_, s.log_sent 96 { code := 0x40C, region := r, loc0 := loc } hmerge (by decide : 0x40C % 65536 ≠ 0x305)⟩

/-- The first latch of a region: its retry is due 100 ms later (R344). -/
def latchedFirst (s : State) (r cause peak : Nat) : State :=
  let off := (s.regionOff r 4).shortRecord r cause peak 0
  off.modRegion r fun g => { g with retryAt := off.time.cb + 150000000 }

/-- A later latch of a region, which is fenced with cause 2; one that ends a retry is logged (R345). -/
def latchedAgain (s : State) (r cause peak : Nat) : State :=
  let last := ((s.regionOff r 6).shortRecord r cause peak 1).yieldFence r 2
  if s.fld (Rg.RPWR_STAT_STATE r) = 5 then last.logPower r 0x40C 1 0 0 else last

theorem latch_first {s : State} {r : Nat} (cause peak : Nat) (h : (s.region r).retried = false) :
    s.latch r cause peak = s.latchedFirst r cause peak := if_neg (h ▸ Bool.false_ne_true)

theorem latch_again {s : State} {r : Nat} (cause peak : Nat) (h : (s.region r).retried = true) :
    s.latch r cause peak = s.latchedAgain r cause peak :=
  (if_pos h).trans (ite_congr (propext beq_iff_eq) (fun _ => rfl) fun _ => rfl)

section
variable (s : State) {r : Nat} (hr : r < 96) (cause peak : Nat)
include hr

theorem rpwrStat_ne_edgeFbstat : (Rg.RPWR_STAT_STATE r).addr ≠ Rg.EDGE_FBSTAT := by
  simp only [Rg.RPWR_STAT_STATE, Rg.RPWR_STAT, Rg.EDGE_FBSTAT]
  omega

theorem latchedFirst_state : (s.latchedFirst r cause peak).fld (Rg.RPWR_STAT_STATE r) = 4 := by
  rw [latchedFirst, fld_modRegion, fld_shortRecord _ _ _ _ _ (rpwrStat_ne_edgeFbstat hr), s.regionOff_state r (by decide)]

theorem latchedAgain_state : (s.latchedAgain r cause peak).fld (Rg.RPWR_STAT_STATE r) = 6 := by
  have hlast : (((s.regionOff r 6).shortRecord r cause peak 1).yieldFence r 2).fld (Rg.RPWR_STAT_STATE r) = 6 := by
    rw [yieldFence_powerState _ hr, fld_shortRecord _ _ _ _ _ (rpwrStat_ne_edgeFbstat hr), s.regionOff_state r (by decide)]
  unfold latchedAgain
  extract_lets last
  split
  · obtain ⟨o, ho⟩ := last.logPower_retry r 1
    rw [ho, fld_emit, hlast]
  · exact hlast

end

/-! ### Shorts (R343) and retries (R345) -/

theorem fencedOff_iff (s : State) (r : Nat) : s.fencedOff r = true ↔ s.fld (Rg.RPWR_STAT_STATE r) = 6 := beq_iff_eq

theorem short_eq (s : State) (r cause peak : Nat) :
    s.short r cause peak = if s.fld (Rg.RPWR_STAT_STATE r) ∈ [1, 2, 3, 5] then s.latch r cause peak else s :=
  ite_congr (by simp) (fun _ => rfl) fun _ => rfl

/-- A short finds nothing to latch where no rails are up. -/
theorem shortTake_down {s : State} {r : Nat} (cause peak : Nat) (h : s.fld (Rg.RPWR_STAT_STATE r) ∉ [1, 2, 3, 5]) :
    s.shortTake r cause peak = s := by
  simp only [shortTake, short_eq, h, if_false, Bool.not_and_self, Bool.false_eq_true]

/-- A short latches a region whose rails are up; P3 goes on where that fences it. -/
theorem shortTake_up {s : State} {r : Nat} (cause peak : Nat) (h : s.fld (Rg.RPWR_STAT_STATE r) ∈ [1, 2, 3, 5]) :
    s.shortTake r cause peak =
      if (s.latch r cause peak).fld (Rg.RPWR_STAT_STATE r) = 6 then (s.latch r cause peak).p3Retried r else s.latch r cause peak := by
  have hwas : s.fencedOff r = false := by
    rw [← Bool.not_eq_true, fencedOff_iff]
    intro h6
    simp [h6] at h
  simp only [shortTake, short_eq, h, hwas, if_true, Bool.not_false, Bool.true_and, fencedOff_iff]

theorem p3Retried_eq (s : State) (r : Nat) :
    s.p3Retried r =
      if s.fencedOff r = true ∧ 3 < s.bring.stage then s.report 3 0 0 s.ns ((List.range 96).flatMap s.p3Record) else s.p3Go :=
  ite_congr (by simp) (fun _ => rfl) fun _ => rfl

theorem p3Retried_fenced {s : State} {r : Nat} (h : s.fld (Rg.RPWR_STAT_STATE r) = 6) :
    s.p3Retried r = if 3 < s.bring.stage then s.report 3 0 0 s.ns ((List.range 96).flatMap s.p3Record) else s.p3Go := by
  rw [p3Retried_eq, (s.fencedOff_iff r).mpr h]
  exact ite_congr (by simp) (fun _ => rfl) fun _ => rfl

theorem retryDue_of {s : State} {r : Nat} (hon : s.power.on = true) (hdown : s.power.down = none) (hmay : s.mayRamp r = true)
    (hdue : s.fld (Rg.RPWR_STAT_STATE r) = 5
      ∨ s.fld (Rg.RPWR_STAT_STATE r) = 4 ∧ (s.region r).retried = false ∧ (s.region r).retryAt ≤ s.time.cb) :
    s.retryDue r = true := by
  simpa [retryDue, hon, hdown, hmay, and_assoc] using hdue

/-- The retry of a region: it latches again, or it is ON and runs its steps of P3. -/
theorem shortRetry_due {s : State} {find : RegionBist} (hdue : s.retryDue find.r = true) :
    s.shortRetry find =
      let t := ((s.modRegion find.r fun g => { g with retried := true }).setFld (Rg.RPWR_STAT_STATE find.r) 5).rampRegion 5 find
      let u := t.logPower find.r 0x40C 0 0 0
      let v := if t.powered find.r then (if find.locks then u.tryLock find.r else u).p3Region find else t
      if v.fencedOff find.r = true ∧ 3 < v.bring.stage then v.report 3 0 0 v.ns ((List.range 96).flatMap v.p3Record) else v.p3Go :=
  (if_pos hdue).trans (p3Retried_eq ..)

end State

theorem exec_avsTick (r : Fin 96) (a b c d : Byte) (ro : BitVec 16) (s : State) :
    exec (.avsTick r a b c d ro) s = .next (s.avs r [a.toNat, b.toNat, c.toNat, d.toNat] ro.toNat) := rfl

theorem exec_regionShort (r : Fin 96) (cause : Fin 4) (peak : BitVec 12) (s : State) :
    exec (.regionShort r cause peak) s = .next (s.shortTake r (cause + 1) peak.toNat) := rfl

theorem exec_shortRetry (find : RegionBist) (s : State) : exec (.shortRetry find) s = .next (s.shortRetry find) := rfl

/-- Settles O49: the loop of a region that is ON, its sense points and droops, a short by what the region has had before, and the
retry. -/
theorem regionsFollowTheirSupply : Obligations.RegionsFollowTheirSupply := by
  intro r s
  refine ⟨fun hon => ⟨?avs, fun p mv hvalid => congrArg _ (State.senseBad_valid hon _ hvalid),
    fun firing => congrArg _ (State.droop_powered hon firing)⟩, ?short, ?retry⟩
  case avs =>
    intro a b c d ro x t v g hold calm u cool
    have hslack : [a.toNat, b.toNat, c.toNat, d.toNat].map (BitVec.ofNat 8) = [a, b, c, d] := by simp
    rw [exec_avsTick, State.avs, hslack, hon]
    rfl
  case short =>
    intro cause peak st last off done
    rw [exec_regionShort]
    refine ⟨fun hdown => ?_, fun hup hfirst => ?_, fun hup hagain => ?_⟩
    · rw [State.shortTake_down _ _ hdown]
    · rw [State.shortTake_up _ _ hup, State.latch_first _ _ hfirst, if_neg (by rw [s.latchedFirst_state r.isLt]; decide)]
      rfl
    · rw [State.shortTake_up _ _ hup, State.latch_again _ _ hagain, if_pos (s.latchedAgain_state r.isLt _ _),
        State.p3Retried_fenced (s.latchedAgain_state r.isLt _ _)]
      rfl
  case retry =>
    intro find hfind hon hdown hmay hdue
    subst hfind
    exact congrArg _ (State.shortRetry_due (State.retryDue_of hon hdown hmay hdue))

end Sys2Proof.Machine
end

section
/-!
PROOFS. The module's power (R332, R333, R339, R341, R376, R377, R482): what powers it up, what begins a power-down, and the power of the
cables.
-/
namespace Sys2Proof.Machine
open Sys2Proof.Claims

namespace State

/-! ### Power-up (R339, R376, R377) -/

section
variable {s : State} (hoff : s.power.on = false) (hdown : s.power.down = none)
include hoff hdown

/-- Input out of range, or less than 1 s since the module went off, powers nothing up (R487). -/
theorem powerUp_refused {vin : Nat} (vaux vedge vsd075 vsd12 rails : Nat)
    (h : vin < 11400 ∨ 12600 < vin ∨ ∃ t, s.power.offAt = some t ∧ s.time.cb < t + 1500000000) :
    s.powerUp vin vaux vedge vsd075 vsd12 rails = s := by
  by_cases hrange : vin < 11400 ∨ 12600 < vin
  · exact if_pos (.inr (.inr hrange))
  · obtain ⟨t, hat, hearly⟩ := (or_assoc.mpr h).resolve_left hrange
    rw [powerUp, hat, if_neg (by simp [hoff, hdown, hrange])]
    exact if_pos (decide_eq_true hearly)

theorem powerUp_taken {vin : Nat} (vaux vedge vsd075 vsd12 rails : Nat) (hlo : 11400 ≤ vin) (hhi : vin ≤ 12600)
    (h : ∀ t, s.power.offAt = some t → t + 1500000000 ≤ s.time.cb) :
    s.powerUp vin vaux vedge vsd075 vsd12 rails =
      let up : State := { s.powerBegin with power := { s.powerBegin.power with rails := s.powerBegin.power.rails.join (Rails.upTo rails) } }
      if rails < 4 then up.vcabAll else up.vcabAll.poweredUp vin vaux vedge vsd075 vsd12 := by
  have hrange : ¬(vin < 11400 ∨ 12600 < vin) := by omega
  rw [powerUp, if_neg (by simp [hoff, hdown, hrange])]
  refine if_neg ?_
  cases hat : s.power.offAt with
  | none => exact Bool.false_ne_true
  | some t => exact fun hearly => Nat.not_lt.mpr (h t hat) (of_decide_eq_true hearly)

end

/-! ### Power-down (R332, R333, R341) -/

theorem powerDown_unbegun {s : State} (h : s.power.began = false) : s.powerDown = s := if_pos (by simp [h])

theorem powerDown_running {s : State} (h : s.power.down ≠ none) : s.powerDown = s :=
  if_pos (by simp [Option.isSome_iff_ne_none.mpr h])

theorem powerDown_begins {s : State} (hbegan : s.power.began = true) (hdown : s.power.down = none) :
    s.powerDown =
      let low := s.pgoodLow.haltAll
      { low with power := { low.power with down := some ⟨none, some low.time.cb, 0⟩ } } := if_neg (by simp [hbegan, hdown])

/-! ### Cables (R482) -/

theorem cable_setCable (s : State) (g : Nat) (c : Cable) : (s.setCable g c).cable g = c := by
  simp [cable, setCable, Store.get_set]

/-- VCAB of a connector is switched where what it follows has changed. -/
theorem vcabStep_setCable (s : State) (g : Nat) {c : Cable} {vsd on : Bool} (h : (c.mated && c.active && vsd && !c.latched) = on) :
    (s.setCable g c).vcabStep g vsd =
      if on = c.on then s.setCable g c else ((s.setCable g c).setCable g { c with on := on }).emit (.vcab g on) := by
  rw [vcabStep, cable_setCable]
  subst h
  rfl

end State

section
variable (s : State)

theorem exec_powerUp (vin vaux vedge vsd075 vsd12 : BitVec 16) (rails : Fin 5) :
    exec (.powerUp vin vaux vedge vsd075 vsd12 rails) s =
      .next (s.powerUp vin.toNat vaux.toNat vedge.toNat vsd075.toNat vsd12.toNat rails) := rfl

/-- Each of the four begins a power-down (R332, R341). -/
theorem exec_fall {i : Instr} (hi : i ∈ [Instr.pwrEnFall false, .pwrEnFall true, .inputUndervoltage, .inputOvervoltage]) :
    exec i s = .next s.powerDown := by
  simp only [List.mem_cons, List.not_mem_nil, or_false] at hi
  obtain rfl | rfl | rfl | rfl := hi <;> rfl

theorem exec_railFault (rail : Fin 4) (stack : Fin 24) :
    exec (.railFault rail stack) s = .next
      (if s.power.rails.has rail stack = true then
        (({ s with power := { s.power with rails := s.power.rails.without rail stack } } : State).vcabAll.logEdge 0x409 (rail + 1)
          (if rail.val = 3 then stack else 0) 0).powerDown
      else s) := rfl

theorem exec_inputCollapse : exec .inputCollapse s = .next (if s.power.began = true then s.offAtOnce else s) := rfl

theorem exec_cableMated (g : Fin 4) (active : Bool) :
    exec (.cableMated g active) s =
      .next ((s.setCable g { s.cable g with mated := true, active := active }).vcabStep g s.power.rails.vsd) := rfl

theorem exec_cableRemoved (g : Fin 4) :
    exec (.cableRemoved g) s =
      .next (((s.setCable g { s.cable g with mated := false, active := false }).vcabStep g s.power.rails.vsd).segmentDark g) := rfl

theorem exec_vcabOvercurrent {g : Fin 4} (h : (s.cable g).on = true) :
    exec (.vcabOvercurrent g) s =
      .next (((s.setCable g { s.cable g with latched := true }).vcabStep g s.power.rails.vsd).segmentDark g) := congrArg _ (if_pos h)

end

/-- Settles O50: power-up by its conditions and rails, what begins a power-down, the content that is lost, and the cables. -/
theorem modulePowerFollowsItsInput : Obligations.ModulePowerFollowsItsInput := by
  intro s
  refine ⟨fun vin vaux vedge vsd075 vsd12 rails hoff hdown => ?up, ?down, ⟨rfl, rfl, rfl, rfl, rfl, rfl, rfl⟩, fun g active => ?cable⟩
  case up =>
    intro s' up u
    rw [exec_powerUp]
    refine ⟨fun hbad => ?_, fun hlo hhi hlong => ⟨fun hfew => ?_, fun hall => ?_⟩⟩
    · rw [State.powerUp_refused hoff hdown _ _ _ _ _ hbad]
    · rw [State.powerUp_taken hoff hdown _ _ _ _ _ hlo hhi hlong]
      exact congrArg _ (if_pos hfew)
    · rw [State.powerUp_taken hoff hdown _ _ _ _ _ hlo hhi hlong]
      exact congrArg _ (if_neg (by omega))
  case down =>
    intro low falls
    refine ⟨fun hoff i hi => ?_, fun hrunning i hi => ?_, fun hbegan hdown i hi => ?_, fun rail stack hout => ?_,
      fun rail stack hin => ?_, fun hoff => ?_, fun hbegan => ?_⟩
    · rw [exec_fall s hi, State.powerDown_unbegun hoff]
    · rw [exec_fall s hi, State.powerDown_running hrunning]
    · rw [exec_fall s hi, State.powerDown_begins hbegan hdown]
      rfl
    · rw [exec_railFault, if_neg (hout ▸ Bool.false_ne_true)]
    · rw [exec_railFault, if_pos hin]
      rfl
    · rw [exec_inputCollapse, if_neg (hoff ▸ Bool.false_ne_true)]
    · rw [exec_inputCollapse, if_pos hbegan]
      rfl
  case cable =>
    intro c mated removed on
    refine ⟨?_, ?_, fun hon => ?_⟩
    · rw [exec_cableMated, State.vcabStep_setCable s g (on := on) rfl]
    · rw [exec_cableRemoved, State.vcabStep_setCable s g (on := false) rfl, apply_ite (State.segmentDark · g)]
      exact congrArg _ (ite_congr (propext eq_comm) (fun _ => rfl) fun _ => rfl)
    · rw [exec_vcabOvercurrent s hon, State.vcabStep_setCable s g (on := false) (by simp),
        if_neg (hon ▸ Bool.false_ne_true)]

end Sys2Proof.Machine
end

section
/-!
PROOFS. References and region clocks (R347 to R350): the entry's choice, a region's inputs that go and come, and the relock of a clean
hold.
-/
namespace Sys2Proof.Machine
open Sys2Proof.Claims

namespace State

/-! ### The reference entry (R347) -/

theorem refDrop_valid {s : State} {b : Nat} (h : (s.fld Rg.REF_STAT_VALID).testBit b = true) :
    s.refDrop b =
      let t := s.setFld Rg.REF_STAT_VALID (s.fld Rg.REF_STAT_VALID - 2 ^ b)
      if t.fld Rg.REF_STAT_STATE = b then t.refSelect else t := if_pos h

theorem refGain_invalid {s : State} {b : Nat} (h : (s.fld Rg.REF_STAT_VALID).testBit b = false) :
    s.refGain b =
      let t := s.setFld Rg.REF_STAT_VALID (s.fld Rg.REF_STAT_VALID + 2 ^ b)
      if t.fld Rg.REF_STAT_STATE = 2 ∨ (t.flag Rg.REF_CTL_REVERT = true ∧ t.fld Rg.REF_CTL_PREF = b) then t.refSelect else t :=
  if_neg (ne_true_of_eq_false h)

/-! ### Region inputs (R349, R350) -/

/-- Input `k` of the region is no longer valid and advertises nothing. -/
def inputMarked (s : State) (r k : Nat) : State :=
  (s.setFld (Rg.CLKSRC_VALID r) (s.fld (Rg.CLKSRC_VALID r) - 2 ^ k)).modRegion r fun g => { g with depths := g.depths.set k 31 }

section
variable {s : State} {r k : Nat} (hon : s.powered r = true)
include hon

theorem inputDrop_valid (hvalid : (s.fld (Rg.CLKSRC_VALID r)).testBit k = true) :
    s.inputDrop r k =
      let t := (s.inputMarked r k).inputGone r (s.inputInUse r k)
      if s.inputInUse r k then t.depthChanged r else t := if_pos (by simp [hon, inputOk, bit, hvalid])

theorem inputGain_heard {d : Nat} (hd : d < 31) :
    s.inputGain r k d =
      let t := s.modRegion r fun g => { g with depths := g.depths.set k d }
      let t := if t.inputOk r k then t else t.setFld (Rg.CLKSRC_VALID r) (t.fld (Rg.CLKSRC_VALID r) + 2 ^ k)
      if t.fld (Rg.CLKSRC_STATE r) = 1 ∧ t.inputOn r k = true then t.setFld (Rg.CLKSRC_STATE r) 2
      else if t.inputInUse r k = true then (t.inputUse r k).depthChanged r else t := if_pos (by simp [hon, hd])

/-- A region in clean hold locks to a valid input that is enabled (R350). -/
theorem relock_held (hhold : s.clockHold r = true) (henabled : s.inputOn r k = true) (hvalid : s.inputOk r k = true) :
    s.relock r k = ((s.setFld (Rg.CLKSRC_STATE r) 0).inputUse r k).depthChanged r :=
  if_pos (by rw [hon, henabled, hvalid, Bool.and_true, Bool.and_true]; exact hhold)

end

theorem inputDepth_setFld (s : State) (f : Fld) (v r k : Nat) : (s.setFld f v).inputDepth r k = s.inputDepth r k := by
  simp only [inputDepth, region, setFld_regions]

/-- The loss of an input that is not in use matters only to a region that relocks, with none left to select (R350). -/
theorem inputGone_unused (s : State) (r : Nat) :
    s.inputGone r false =
      if s.fld (Rg.CLKSRC_STATE r) = 2 ∧ s.inputPick r 31 = none then
        (s.setFld (Rg.CLKSRC_STATE r) 1).modRegion r fun g => { g with holdAt := s.time.cb }
      else s := by
  rw [inputGone, if_neg Bool.false_ne_true]
  exact ite_congr (by rw [Option.isNone_iff_eq_none]) (fun _ => rfl) fun _ => rfl

theorem inputGone_used (s : State) (r : Nat) : s.inputGone r true = s.inputLeave r := if_pos rfl

/-- Another input is selected, hitlessly and counted (R349). -/
theorem inputLeave_some {s : State} {r j : Nat} (h : s.inputPick r (s.fld (Rg.CLKSRC_DEPTH r)) = some j) :
    s.inputLeave r = (s.inputUse r j).count (Rg.REFSW_CNT r) 1 := by
  rw [inputLeave, h]

/-- Without one left the region makes a clean hold (R350). -/
theorem inputLeave_none {s : State} {r : Nat} (h : s.inputPick r (s.fld (Rg.CLKSRC_DEPTH r)) = none) :
    s.inputLeave r = s.cleanHold r := by
  rw [inputLeave, h]

/-- A clean hold: depth 31, and the region halts with record 0x0221 (R350). -/
theorem cleanHold_eq (s : State) (r : Nat) :
    s.cleanHold r =
      let u := ((s.setFld (Rg.CLKSRC_STATE r) 1).setFld (Rg.CLKSRC_DEPTH r) 31).modRegion r fun g => { g with holdAt := s.time.cb }
      u.raise r { code := 0x221, detail := s.fld (Rg.CLKSRC_SEL r) * 256 + s.fld (Rg.CLKSRC_DEPTH r)
                  aux := if u.fld Rg.REF_STAT_STATE = 2 then 1 else 0 } := by
  dsimp only [cleanHold]
  rw [setFld_time, setFld_time]

end State

section
variable (r : Fin 96) (side : Side) (s : State)

theorem exec_refLost (b : Bool) : exec (.refLost b) s = .next (s.refDrop b.toNat) := rfl

theorem exec_refValid (b : Bool) : exec (.refValid b) s = .next (s.refGain b.toNat) := rfl

theorem exec_regionRefLost : exec (.regionRefLost r side) s = .next (s.inputDrop r (inputCode side)) := rfl

theorem exec_regionInputValid (d : BitVec 5) :
    exec (.regionInputValid r side d) s = .next (s.inputGain r (inputCode side) d.toNat) := rfl

theorem exec_regionRelock : exec (.regionRelock r side) s = .next (s.relock r (inputCode side)).p3Go := rfl

end

/-- Settles O51: the entry's choice, a reference that goes or comes, and a region's inputs by whether they are in use. -/
theorem clocksFollowValidReferences : Obligations.ClocksFollowValidReferences := by
  intro b r side s n valid k mask
  refine ⟨fun t => rfl, fun hvalid => ?lost, fun hinvalid => ?valid, fun hon => ⟨fun hvalid => ?gone, fun d hd => ?come,
    fun hhold henabled hvalid => ?relock⟩⟩
  case lost =>
    rw [exec_refLost, State.refDrop_valid hvalid]
  case valid =>
    rw [exec_refValid, State.refGain_invalid hinvalid]
  case gone =>
    intro t
    have hmarked : s.inputMarked r k = t := rfl
    rw [exec_regionRefLost, State.inputDrop_valid hon hvalid, hmarked]
    refine ⟨fun hunused => ?_, fun hused => ⟨fun j hpick => ?_, fun hpick => ?_⟩⟩
    · rw [hunused, State.inputGone_unused]
      exact congrArg _ (if_neg Bool.false_ne_true)
    · rw [hused, State.inputGone_used, State.inputLeave_some hpick]
      exact congrArg _ (if_pos rfl)
    · rw [hused, State.inputGone_used, State.inputLeave_none hpick, State.cleanHold_eq]
      exact congrArg _ (if_pos rfl)
  case come =>
    rw [exec_regionInputValid, State.inputGain_heard hon hd]
  case relock =>
    rw [exec_regionRelock, State.relock_held hon hhold henabled hvalid, State.inputUse, State.inputDepth_setFld]
    rfl

end Sys2Proof.Machine
end

section
/-!
PROOFS. The limits of a region's clock and of the module's power (R330, R353, R355 to R357): the steps of EFF and of ILIM, the power
cap, and the brake.
-/
namespace Sys2Proof.Machine
open Sys2Proof.Claims

namespace State

/-! ### EFF and ILIM (R353, R355) -/

/-- EFF rests at its target, and for 2 µs after a step. -/
theorem effMove_rests {s : State} {r : Nat} (settled : Bool)
    (h : s.eff r = s.effTarget r ∨ s.time.cb < (s.region r).effAt + 3000) : s.effMove r settled = s := if_pos (.inr h)

section
variable {s : State} {r : Nat} (hon : s.powered r = true)
include hon

/-- A step of EFF that is due: down at once, up once the setpoint has settled at that of the new step. -/
theorem effMove_due (settled : Bool) (hdue : (s.region r).effAt + 3000 ≤ s.time.cb) (hmoves : s.eff r ≠ s.effTarget r) :
    s.effMove r settled =
      let move (u : State) (n : Nat) : State :=
        (u.setFld (Rg.CLKTUNE_EFF r) n).modRegion r fun g => { g with effAt := u.time.cb }
      if s.effTarget r < s.eff r then move s (s.eff r - 1)
      else
        let v := s.vinit r (s.eff r + 1)
        let u := if s.flag (Rg.RPWR_VSET_OVR r) = true ∨ v ≤ s.fld (Rg.RPWR_VSET_MV r) then s else s.setVset r v
        if settled then move u (s.eff r + 1) else u := by
  have hearly : ¬ s.time.cb < (s.region r).effAt + 2 * usCb := Nat.not_lt.mpr hdue
  exact if_neg (by simp [hon, hmoves, hearly])

theorem ilim_powered (mean : Nat) :
    s.ilim r mean =
      let l := s.fld (Rg.CLKTUNE_ILIM r)
      let run (n : Nat) (u : State) : State := u.modRegion r fun g => { g with ilimRun := n }
      if 300 < mean then run 0 (s.setFld (Rg.CLKTUNE_ILIM r) (Nat.max 1 (l - 1)))
      else if mean < 280 then
        if 100 ≤ (s.region r).ilimRun + 1 then run 0 (s.setFld (Rg.CLKTUNE_ILIM r) (Nat.min 64 (l + 1)))
        else run ((s.region r).ilimRun + 1) s
      else run 0 s := if_neg (by simp [hon])

end

/-! ### The power cap (R356) -/

section
variable {s : State} {p : Nat}

theorem capStep_above (h : s.pcapEff < p) : s.capStep p = s.capLower := if_pos h

theorem capLower_none (h : s.capFast = []) : s.capLower = s.capPut (s.power.above + 1) 0 := by
  rw [capLower, h]
  rfl

theorem capLower_some {q : Nat}
    (h : bestBy (fun a b => decide (b ≤ a)) (fun r => s.fld (Rg.RPWR_STAT_ICORE r)) s.capFast = some q) :
    s.capLower = (s.setPlim q (s.eff q - 1)).capPut 0 0 := by
  rw [capLower, h]

theorem capRaise_some {q : Nat}
    (h : bestBy (fun a b => decide (a < b)) (fun r => s.fld (Rg.CLKCAP_PLIM r))
      (s.regionsOn.filter fun r => decide (s.fld (Rg.CLKCAP_PLIM r) < 64)) = some q) :
    s.capRaise = (s.setPlim q (s.fld (Rg.CLKCAP_PLIM q) + 1)).capPut 0 0 := by
  rw [capRaise, h]

variable (hcap : p ≤ s.pcapEff)
include hcap

theorem capStep_near (h : s.pcapEff * 97 ≤ p * 100) : s.capStep p = s.capPut 0 0 := by
  rw [capStep, if_neg (Nat.not_lt.mpr hcap), if_neg (Nat.not_lt.mpr h)]

/-- Below 97 % of the cap the calm samples are counted, and the hundredth raises a limit. -/
theorem capStep_below (h : p * 100 < s.pcapEff * 97) :
    s.capStep p = if 99 ≤ s.power.calm then s.capRaise else s.capPut 0 (s.power.calm + 1) := by
  rw [capStep, if_neg (Nat.not_lt.mpr hcap), if_pos h]
  exact ite_congr (by simp) (fun _ => rfl) fun _ => rfl

end

/-! ### The brake (R330, R357) -/

/-- The brake engages once, for the current of the part or for power that stays above the cap. -/
theorem brakeOn_eq {s : State} (power : Bool) (pin iin : Nat) (hon : s.power.on = true) :
    s.brakeOn power pin iin =
      let u := s.setFld Rg.PM_IN_IIN iin
      if s.power.brake = false ∧ if power = true then 1000 ≤ s.power.above else s.fuse.variant.current < iin then
        (State.count { u with power := { u.power with brake := true } } Rg.PM_BRAKE_CNT 1).logEdge 0x40B (if power then 2 else 1) 0 pin
      else u := by
  rw [brakeOn, if_pos hon, ← ite_not]
  refine ite_congr (propext ?_) (fun _ => rfl) fun _ => rfl
  cases power <;> grind [setFld_power, setFld_fuse]

theorem brakeOff_below {s : State} {p : Nat} (hbrake : s.power.brake = true) (h : p < s.pcapEff) :
    s.brakeOff p = { s with power := { s.power with brake := false } } := if_pos (by simp [hbrake, h])

end State

section
variable (r : Fin 96) (s : State)

theorem exec_effStep (settled : Bool) : exec (.effStep r settled) s = .next (s.effMove r settled) := rfl

theorem exec_ilimTick (mean : Nat) : exec (.ilimTick r mean) s = .next (s.ilim r mean) := rfl

theorem exec_powerCapTick (p : Nat) (icore isram : List Nat) (iin : BitVec 16) (vin : Option (BitVec 16)) :
    exec (.powerCapTick p icore iin isram vin) s = .next (((s.vinRead vin).capRead p iin.toNat icore isram).capStep p) := rfl

theorem exec_currentBrake (power : Bool) (pin iin : BitVec 16) :
    exec (.currentBrake power pin iin) s = .next (s.brakeOn power pin.toNat iin.toNat) := rfl

theorem exec_brakeRelease (p : Nat) : exec (.brakeRelease p) s = .next (s.brakeOff p) := rfl

end

/-- Settles O52: EFF and ILIM of a region that is ON, the power cap by the power read, and the brake. -/
theorem regionLimitsMoveStepByStep : Obligations.RegionLimitsMoveStepByStep := by
  intro r s
  refine ⟨fun hon => ⟨fun hrests settled => congrArg _ (State.effMove_rests settled hrests),
      fun hdue => ⟨fun hdown settled => ?down, fun hup => ?up⟩, fun mean => congrArg _ (State.ilim_powered hon mean)⟩,
    fun p iin icore isram vin => ?cap, fun power pin iin hon => ?brake,
    fun p hbrake hbelow => congrArg _ (State.brakeOff_below hbrake hbelow)⟩
  case down => exact congrArg _ ((State.effMove_due hon settled hdue (Nat.ne_of_gt hdown)).trans (if_pos hdown))
  case up =>
    intro u
    have hmoves (settled : Bool) := (State.effMove_due hon settled hdue (Nat.ne_of_lt hup)).trans (if_neg (Nat.not_lt_of_gt hup))
    exact ⟨congrArg _ (hmoves true), congrArg _ (hmoves false)⟩
  case cap =>
    intro s₀ s' t t' t'' fast put
    have hread : (s.vinRead vin).capRead p iin.toNat icore isram = t'' := rfl
    rw [exec_powerCapTick, hread]
    refine ⟨fun habove hfast => ?_, fun q habove _ hq => ?_, fun hcap hnear => ?_, fun hcap hbelow hfew => ?_,
      fun q hcap hbelow hlong hq => ?_⟩
    · rw [State.capStep_above habove, State.capLower_none hfast]
      rfl
    · rw [State.capStep_above habove, State.capLower_some hq]
      rfl
    · rw [State.capStep_near hcap hnear]
      rfl
    · rw [State.capStep_below hcap hbelow, if_neg (by omega)]
      rfl
    · rw [State.capStep_below hcap hbelow, if_pos hlong, State.capRaise_some hq]
      rfl
  case brake =>
    intro u due
    rw [exec_currentBrake, State.brakeOn_eq power _ _ hon]
    exact ⟨fun hdue => congrArg _ (if_pos hdue), fun hidle => congrArg _ (if_neg hidle)⟩

end Sys2Proof.Machine
end

section
/-!
PROOFS. The step of the module (log 4), its invariants - the queue, the canonical form of the memories, the fuses (R466, R467) - and what
power-up leaves (R358, R462, R466).
-/
namespace Sys2Proof.Machine

/-! ### The step -/

theorem step_front {c : Instr} {rest : List Instr} {s : State} (h : s.pending = c :: rest) :
    step s = exec c { s with pending := rest } := by
  rw [step, h]

theorem step_idle {s : State} (h : s.pending = []) : step s = .next s.tick := by
  rw [step, h]

/-- Settles O57: by the equations of the step. -/
theorem stepsRunTheFrontCommand : Obligations.StepsRunTheFrontCommand :=
  ⟨fun _ _ _ h => step_front h, fun _ _ => step_front rfl, fun _ h => step_idle h⟩

/-- A property that no command and no step of the clock ends, and that does not depend on the queue, is one that no step ends. -/
theorem step_keeps {P : State → Prop} (hqueue : ∀ s rest, P s → P { s with pending := rest })
    (hexec : ∀ c s t, exec c s = .next t → P s → P t) (htick : ∀ s : State, P s → P s.tick) {s t : State} (h : step s = .next t)
    (hs : P s) : P t := by
  cases hq : s.pending with
  | nil =>
    rw [step_idle hq] at h
    exact Host.Outcome.next.inj h ▸ htick s hs
  | cons c rest =>
    rw [step_front hq] at h
    exact hexec c _ t h (hqueue s rest hs)

/-! ### The queue and the memories -/

theorem fuseEnd_pending (s : State) : s.fuseEnd.pending = s.pending := by
  unfold State.fuseEnd
  split <;> rfl

/-- Only the end of fuse programming is no steady command, and it does not touch the queue either. -/
theorem exec_pending {c : Instr} {s t : State} (h : exec c s = .next t) : t.pending = s.pending := by
  by_cases hc : c = .fusePgmDone
  · subst hc
    cases h
    exact fuseEnd_pending s
  · exact (exec_steady c s t hc h).1

/-- Settles O59: the queue by the frame of every command, the memories by the step lemma. -/
theorem commandsLeaveTheQueue : Obligations.CommandsLeaveTheQueue := by
  refine ⟨fun c s t h => exec_pending h, fun s => (steady_tick s).1, fun c rest s t hq h => ?_, memWf_reset, fun s t hs h => ?_⟩
  · rw [step_front hq] at h
    exact exec_pending h
  · exact step_keeps (P := fun s => s.memWf = true) (fun _ _ h => h) exec_stored stored_tick h hs

/-! ### The fuses -/

theorem bitsWithin_or_right {a b : Nat} (c : Nat) (h : bitsWithin a b = true) : bitsWithin a (b ||| c) = true := by
  simp only [bitsWithin, bit, List.all_eq_true, Bool.or_eq_true, Bool.not_eq_true'] at h ⊢
  intro k hk
  rw [Nat.testBit_or, Bool.or_eq_true]
  exact (h k hk).imp_right Or.inl

theorem fusesLe_fuseAfter {f g : Fuses} {v : Nat} (data : List Word) (h : Fuses.le f g)
    (hsvn : bits v 31 28 ≠ 1 → bits v 31 28 ≠ 2 → g.svnmin ≤ bits v 23 0) : Fuses.le f (State.fuseAfter g v data) := by
  obtain ⟨hprog, hrevoked, hmin, hrest⟩ := h
  unfold State.fuseAfter
  split
  · exact ⟨bitsWithin_or_right _ hprog, hrevoked, hmin, hrest⟩
  · exact ⟨hprog, bitsWithin_or_right _ hrevoked, hmin, hrest⟩
  · next h1 h2 => exact ⟨hprog, hrevoked, hmin.trans (hsvn h1 h2), hrest⟩

theorem FusesFrom.fuseEnd {f : Fuses} {s : State} (h : FusesFrom f s) : FusesFrom f s.fuseEnd := by
  obtain ⟨hle, hjob⟩ := h
  unfold State.fuseEnd
  split
  · next v data hv =>
    exact ⟨fusesLe_fuseAfter data hle (hjob v data hv), fun _ _ hnone => nomatch hnone⟩
  · exact ⟨hle, hjob⟩

theorem FusesFrom.steady {f : Fuses} {s t : State} (h : FusesFrom f s) (hsteady : s.Steady t) : FusesFrom f t := by
  obtain ⟨_, hfuse, hjob⟩ := hsteady
  exact ⟨hfuse ▸ h.1, hjob h.2⟩

/-- Settles O60: every command is steady but the end of programming, which adds bits and takes the SVNMIN that R466 let begin. -/
theorem fusesNeverRegress : Obligations.FusesNeverRegress := by
  intro f s t hs h
  refine step_keeps (P := FusesFrom f) (fun _ _ h => h) (fun c s t h hs => ?_) (fun s hs => hs.steady (steady_tick s)) h hs
  by_cases hc : c = .fusePgmDone
  · subst hc
    cases h
    exact hs.fuseEnd
  · exact hs.steady (exec_steady c s t hc h)

end Sys2Proof.Machine
end

section
/-!
PROOFS. The bits of a written register (R455, R463), one by one.
-/
namespace Sys2Proof.Machine

/-- Taking the bits of a mask away takes away no other bit: nothing is borrowed. -/
theorem testBit_sub_and (x m k : Nat) : (x - (x &&& m)).testBit k = (x.testBit k && !m.testBit k) := by
  induction k generalizing x m with
  | zero =>
    have hparity : (x &&& m) % 2 = x % 2 &&& m % 2 := Nat.and_mod_two_pow (n := 1)
    have hle : x &&& m ≤ x := Nat.and_le_left
    obtain hx | hx := Nat.mod_two_eq_zero_or_one x <;> obtain hm | hm := Nat.mod_two_eq_zero_or_one m <;>
      simp only [hx, hm, Nat.reduceAnd] at hparity <;> simp only [Nat.testBit_zero, hx, hm] <;> simp <;> omega
  | succ k ih =>
    have hhalf : (x &&& m) / 2 = x / 2 &&& m / 2 := Nat.and_div_two
    have hparity : (x &&& m) % 2 ≤ x % 2 := by
      rw [Nat.and_mod_two_pow (n := 1)]
      exact Nat.and_le_left
    have hle : x / 2 &&& m / 2 ≤ x / 2 := Nat.and_le_left
    have hsub : (x - (x &&& m)) / 2 = x / 2 - (x / 2 &&& m / 2) := by omega
    rw [Nat.testBit_succ, hsub, ih, Nat.testBit_succ, Nat.testBit_succ]

theorem testBit_maskInto (old m v k : Nat) :
    (maskInto old m v).testBit k = if m.testBit k then v.testBit k else old.testBit k := by
  rw [maskInto, Nat.testBit_or, testBit_sub_and, Nat.testBit_and]
  cases m.testBit k <;> simp

theorem RegRow.written_counter {w : RegRow} (en : Bool) (old v : Nat) (h : w.counter = true) :
    w.written en old v = if v % 2 = 1 then 0 else old := by
  rw [RegRow.written, if_pos h, bit, Nat.testBit_zero]
  exact ite_congr (by simp) (fun _ => rfl) fun _ => rfl

theorem RegRow.testBit_written {w : RegRow} (en : Bool) (old v k : Nat) (h : w.counter = false) :
    (w.written en old v).testBit k =
      ((if (w.rw.testBit k || (!en && w.rwd.testBit k)) then v.testBit k else old.testBit k)
        && !(v.testBit k && w.w1c.testBit k)) := by
  rw [RegRow.written, if_neg (by simp [h])]
  simp only [testBit_sub_and, testBit_maskInto, Nat.testBit_or, Nat.testBit_and]
  cases en <;> simp

/-- Settles O25: the bit of the written value by the masks that hold it. -/
theorem writtenBitsFollowTheirAccess : Obligations.WrittenBitsFollowTheirAccess := by
  refine fun w en old v k => ⟨fun hcounter => ?_, w.written_counter en old v⟩
  rw [w.testBit_written en old v k hcounter]
  refine ⟨fun hrw hw1c => ?plain, fun hrwd hrw hw1c => ?config, fun hw1c hrw hrwd => ?clear, fun hrw hrwd hw1c => ?other⟩
  case plain => simp [hrw, hw1c]
  case config => cases en <;> simp [hrwd, hrw, hw1c]
  case clear => simp [hrw, hrwd, hw1c]
  case other => simp [hrw, hrwd, hw1c]

end Sys2Proof.Machine
end

section
/-!
PROOFS. What power-up leaves (R358, R462, R466) and what the registers that read the fuses give (R195, R466).
-/
namespace Sys2Proof.Machine

/-- Where the fuse registers stand: each offset is `4 * i` beyond its row's (R466). -/
theorem placeOf_fuse {o : Nat} (ho : o ∈ State.fuseOffsets) :
    ∃ w i, placeOf (0x70000 + o) = .edgeReg w i ∧ (0x70000 ≤ w.off ∧ w.off < 0x70200) ∧ w.off - 0x70000 + 4 * i = o := by
  have hrows : ∀ o ∈ State.fuseOffsets, (match findRow (0x70000 + o) edgeRows with
      | some (w, i) => decide ((0x70000 ≤ w.off ∧ w.off < 0x70200) ∧ w.off - 0x70000 + 4 * i = o) | none => false) = true := by
    decide +kernel
  have hlow : ∀ o ∈ State.fuseOffsets, 0x70000 + o < cmemBase := by decide +kernel
  have h := hrows o ho
  split at h
  · next w i hfind => exact ⟨w, i, placeOf_edge _ (hlow o ho) w i hfind, of_decide_eq_true h⟩
  · exact nomatch h

namespace State

/-- A read of an aligned register of the edge window but TB_LO gives its value and changes nothing (R455). -/
theorem busRead_edge {s : State} (req : Requester) {a i : Nat} {w : RegRow} (h4 : a % 4 = 0) (hplace : placeOf a = .edgeReg w i)
    (htb : a ≠ Rg.TB_LO) : s.busRead req a = (0, s.edgeRead w.off i (s.rd a), s) := by
  rw [busRead, if_neg (by omega), hplace]
  simp only [if_neg htb]

theorem edgeRead_fuse (s : State) {off i : Nat} (v : Nat) (h : 0x70000 ≤ off ∧ off < 0x70200) :
    s.edgeRead off i v = s.fuseReg (off - 0x70000 + 4 * i) := if_pos h

theorem busRead_fuse (s : State) (req : Requester) {o : Nat} (ho : o ∈ fuseOffsets) :
    s.busRead req (0x70000 + o) = (0, s.fuseReg o, s) := by
  have haligned : ∀ o ∈ fuseOffsets, (0x70000 + o) % 4 = 0 ∧ 0x70000 + o ≠ Rg.TB_LO := by decide +kernel
  obtain ⟨w, i, hplace, hfuse, hoff⟩ := placeOf_fuse ho
  rw [busRead_edge req (haligned o ho).1 hplace (haligned o ho).2, edgeRead_fuse s _ hfuse, hoff]

/-- PM_POWER.CAPEFF is the effective cap (R358). -/
theorem busRead_pmPower (s : State) (req : Requester) :
    s.busRead req Rg.PM_POWER = (0, setBits (s.rd Rg.PM_POWER) 31 16 s.pcapEff, s) := by
  obtain ⟨w, i, hplace, hoff⟩ := placeOf_edge_at Rg.PM_POWER (by decide) (by decide)
  rw [busRead_edge req (by decide) hplace (by decide), hoff]
  rfl

/-- PM_CREDCAP is the fused credit cap of the variant (R195). -/
theorem busRead_pmCredcap (s : State) (req : Requester) : s.busRead req Rg.PM_CREDCAP = (0, credcap s.fuse.variant, s) := by
  obtain ⟨w, i, hplace, hoff⟩ := placeOf_edge_at Rg.PM_CREDCAP (by decide) (by decide)
  rw [busRead_edge req (by decide) hplace (by decide), hoff]
  rfl

end State

/-- What is fused at manufacture permits itself: nothing is being programmed at power-up. -/
theorem fusesFrom_reset : FusesFrom Config.fuses.ofPart State.reset := by
  have hrefl (a : Nat) : bitsWithin a a = true := by simp [bitsWithin]
  exact ⟨⟨hrefl _, hrefl _, Nat.le_refl _, rfl, rfl, rfl, rfl, rfl, rfl, rfl, rfl⟩, fun _ _ hnone => nomatch hnone⟩

/-- Settles O58: no register is listed at power-up, and the fused ones are read from the fuses. -/
theorem powerUpLeavesTheResetValues : Obligations.PowerUpLeavesTheResetValues := by
  refine ⟨fun a => ⟨rfl, rfl⟩, by decide +kernel, by decide +kernel, by decide +kernel, by decide +kernel, by decide +kernel,
    by decide +kernel, by decide +kernel, by decide +kernel, by decide +kernel, fun req s => ⟨fun o => s.busRead_fuse req,
      s.busRead_pmPower req, ?credcap⟩, rfl, rfl, rfl, fusesFrom_reset⟩
  case credcap =>
    rw [s.busRead_pmCredcap req]
    cases s.fuse.variant <;> rfl

end Sys2Proof.Machine
end

section
/-!
PROOFS. The error-log assist: its packets, its notification, and the entries that sources send again or hold (R400 to R403, R441).
-/
namespace Sys2Proof.Machine
namespace State

theorem cmSetWords_eq (s : State) (w : Nat) (ds : List DWord) : ∃ m, s.cmSetWords w ds = { s with cmem := m } := by
  induction ds generalizing s w with
  | nil => exact ⟨s.cmem, rfl⟩
  | cons d ds ih => exact ih (s.cmWrite w d) (w + 1)

/-- No register is in control memory. -/
theorem rd_cmSetWords (s : State) (w : Nat) (ds : List DWord) (a : Nat) : (s.cmSetWords w ds).rd a = s.rd a := by
  obtain ⟨m, hm⟩ := s.cmSetWords_eq w ds
  rw [hm]
  rfl

theorem elogWrite_eq (s : State) (e : BitVec 256) :
    s.elogWrite e =
      let t := (s.cmSetWords ((0xFC00000 + 32 * (s.rd Rg.ELOG_TAIL % 65536)) / 8) (recFlits e)).wr Rg.ELOG_TAIL (s.rd Rg.ELOG_TAIL + 1)
      ({ t with recent := (e :: t.recent).take 256 } : State).elogSignal := by
  simp only [elogWrite, rd_cmSetWords]

/-- The last NOTIFY of the error log is at least 10 ms old, if there was one (R441). -/
theorem elogRecent_old {s : State} (h : ∀ a, s.mg.elogAt = some a → a + 10 * msCb ≤ s.time.cb) : s.elogRecent = false := by
  unfold elogRecent
  split
  · next t ht => exact decide_eq_false (Nat.not_lt.mpr (h t ht))
  · rfl

theorem elogRecent_young {s : State} {a : Nat} (ha : s.mg.elogAt = some a) (h : s.time.cb < a + 10 * msCb) : s.elogRecent = true := by
  rw [elogRecent, ha]
  exact decide_eq_true h

theorem elogSignal_recent {s : State} (h : s.elogRecent = true) :
    s.elogSignal = { s.receive (.event 3) with mg := { s.mg with elogDue := s.mg.elogDue || s.notifies } } := if_pos h

theorem elogSignal_due {s : State} (h : s.elogRecent = false) : s.elogSignal = (s.receive (.event 3)).elogNotify :=
  if_neg (h ▸ Bool.false_ne_true)

theorem elogNotify_sends {s : State} (h : s.notifies = true) :
    s.elogNotify = ({ s with mg := { s.mg with elogDue := false, elogAt := some s.time.cb } } : State).notify 0x5000 1 := if_pos h

theorem log_merges {f : LogRec} (s : State) (b : Nat) (h : mergeCode f.code = true) :
    s.log b f = s.modRegion b fun g =>
      { g with merged := (mergeInto (f.image s.ns) g.merged).getD (g.merged ++ [⟨f.image s.ns, s.time.cb⟩]) } := if_pos h

end State

section
variable (src : BitVec 16) (e : BitVec 256) (ord : Bool) (s : State)

theorem exec_fault (lost : Option (BitVec 16)) :
    exec (.fault src e ord lost) s =
      .next (s.carried ord src.toNat 0x8000 6 lost fun s => s.takeFault (State.bufOfNode src.toNat) e) := rfl

theorem exec_errlog (lost : Option (BitVec 16)) :
    exec (.errlog src e ord lost) s = .next (s.carried ord src.toNat 0x8000 7 lost fun s => s.takeEntry e) := rfl

end

theorem exec_faultResend (r : Option (Fin 96)) (s : State) : exec (.faultResend r) s = .next (s.resend (bufOf r)) := rfl

theorem exec_errlogHoldExpiry (r : Option (Fin 96)) (s : State) : exec (.errlogHoldExpiry r) s = .next (s.holdExpire (bufOf r)) := rfl

/-- Settles O20: a packet on an open path by the ring's space, the notification by its age, and what sources keep by its age. -/
theorem errorLogAssistKeepsAndResends : Obligations.ErrorLogAssistKeepsAndResends := by
  refine ⟨fun src e ord s hopen => ⟨?fault, ?entry, fun node hon => ⟨?lostFault, ?lostEntry⟩⟩, fun t => ⟨?first, ?again⟩,
    fun r s => ⟨?resend, ?expire, fun f t h => t.log_merges _ h⟩⟩
  case fault =>
    rw [exec_fault, State.carried_arrives 6 _ hopen, State.takeFault, State.elogWrite_eq]
    rfl
  case entry =>
    rw [exec_errlog, State.carried_arrives 7 _ hopen, State.takeEntry, State.elogWrite_eq]
    rfl
  case lostFault => exact congrArg _ (if_pos hon)
  case lostEntry => exact congrArg _ (if_pos hon)
  case first =>
    intro hnotifies hold
    rw [State.elogSignal_due (State.elogRecent_old hold)]
    exact State.elogNotify_sends hnotifies
  case again => exact fun a ha hyoung => State.elogSignal_recent (State.elogRecent_young ha hyoung)
  case resend => simp only [exec_faultResend, State.resend, decide_eq_true_eq]
  case expire => rfl

end Sys2Proof.Machine
end

section
/-!
PROOFS. The cold plate, the temperature limits and trips of regions and stacks, and a received ALARM (R361 to R373).
-/
namespace Sys2Proof.Machine
namespace State

/-! ### ALARM (R370 to R372, R431) -/

/-- ALARM is raised once, and only of a module that has begun its power-up (R371, R395). -/
theorem alarmIgnored {s : State} (cause : Nat)
    (h : s.power.began = false ∨ s.flag Rg.CP_STAT_ALARM = true ∨ s.fld Rg.MG_CHAIN_PHASE = 2) : s.alarm cause = s := by
  refine if_pos ?_
  obtain h | h | h := h <;> simp [h]

/-- ALARM is driven on, recorded while VEDGE is up, halts every region and takes over a power-down that runs. -/
theorem alarmRaised {s : State} (cause : Nat) (hbegan : s.power.began = true) (halarm : s.flag Rg.CP_STAT_ALARM = false)
    (hphase : s.fld Rg.MG_CHAIN_PHASE ≠ 2) :
    s.alarm cause =
      let u := ((s.alarmDrive.pgoodLow).alarmRecord cause).haltAll
      { u with power := { u.power with down := some (u.power.down.elim ⟨some u.time.cb, none, 0⟩ fun d =>
          { d with alarm := some (d.alarm.getD u.time.cb) }) } } := by
  rw [alarm, if_neg (by simp [hbegan, halarm, hphase])]
  cases h : ((s.alarmDrive.pgoodLow).alarmRecord cause).haltAll.power.down <;> simp [h]

theorem alarmDrive_vaux {s : State} (h : s.power.rails.vaux = true) :
    s.alarmDrive = (s.setFld Rg.MG_CHAIN_PHASE 2).emit (.chain .alarm) := if_pos h

/-! ### The cold plate (R361 to R363) -/

theorem plateSample_on {s : State} (x : PlateSample) (hon : s.power.on = true) :
    s.plateSample x = ((({ s with plate := plateNext s.plate x } : State).plateRegs x).plateBits (plateNext s.plate x)).plateAlarm :=
  if_neg (by simp [hon])

/-- Too little heat, or too small a rise, for a share of the flow: the cap follows flow and inlet alone (R362). -/
theorem coolingCap_cold {n flow p : Nat} {tin tout : Int} (h : p < 6000 ∨ (tout - tin).toNat < 100 * n) :
    coolingCap n flow tin tout p =
      (Nat.min 0xFFFF (30 * flow * (if tin ≤ 3200 * n then 1600 * n else (4800 * n - tin).toNat) / (1600 * n * n)), 0xFFFF, false) := by
  have hcold : ¬(6000 ≤ p ∧ 100 * n ≤ (tout - tin).toNat) := by omega
  simp [coolingCap, hcold]

theorem coolingCap_heated {n flow p : Nat} {tin tout : Int} (hp : 6000 ≤ p) (hrise : 100 * n ≤ (tout - tin).toNat) :
    coolingCap n flow tin tout p =
      let d := (tout - tin).toNat
      let k := if tin ≤ 3200 * n then 1600 * n else (4800 * n - tin).toNat
      (Nat.min 0xFFFF (if 1000 * n * n * p < 77 * d * flow then 30000 * p * k / (77 * d * 1600) else 30 * flow * k / (1600 * n * n)),
        Nat.min 0xFFFE (1000 * n * p / (77 * d)), decide (10000 * n * n * p < 616 * d * flow)) := by
  have hheat : decide (6000 ≤ p ∧ 100 * n ≤ (tout - tin).toNat) = true := decide_eq_true ⟨hp, hrise⟩
  simp only [coolingCap, hheat, Bool.true_and, if_true, decide_eq_true_eq]

/-- The cap from the means of R362, which are the operands before there is a sample (log 72). -/
theorem pcool_on {s : State} (flow₀ : Nat) (tin₀ tout₀ : Int) (p : Nat) (hon : s.power.on = true) :
    s.pcool flow₀ tin₀ tout₀ p =
      let x := coolingCap (if s.plate.flows = [] then 1 else s.plate.flows.length)
        (if s.plate.flows = [] then flow₀ else s.plate.flows.foldl (· + ·) 0)
        (if s.plate.flows = [] then tin₀ else s.plate.inlets.foldl (· + ·) 0)
        (if s.plate.flows = [] then tout₀ else (s.plate.outlet.take 100).foldl (· + ·) 0) p
      ((s.setFld Rg.CP_FLOW_FHEAT x.2.1).setFld Rg.CP_STAT_FLOWSUS (if x.2.2 then 1 else 0)).setFld Rg.CP_CAP_PCOOL x.1 := by
  rw [pcool, if_neg (by simp [hon])]
  by_cases h : s.plate.flows = [] <;> simp [h]

theorem overtemp_due {s : State} (hon : s.power.on = true) (h : 1000 < s.plate.above) :
    s.overtemp = ({ s with plate := { s.plate with above := 0 } } : State).coolantEntry.powerDown := if_pos (by simp [hon, h])

theorem overtemp_early {s : State} (h : s.plate.above ≤ 1000) : s.overtemp = s := if_neg (by simp [h])

/-! ### Stacks (R367 to R369) -/

/-- What on-die ECC counts are counters of regions: the edge ring stays powered. -/
theorem onDieEcc_power (s : State) (n : Nat) (ecc : List (Nat × Nat)) : (s.onDieEcc n ecc).power = s.power := by
  unfold onDieEcc
  generalize List.range 4 = l
  induction l generalizing s with
  | nil => rfl
  | cons k l ih =>
    rw [List.foldl_cons, ih]
    dsimp only
    split
    · rw [count_power, count_power]
    · rfl

theorem stackSample_on {s : State} (n : Nat) (ts : List Nat) (hon : s.power.on = true) :
    s.stackSample n ts =
      let x := (s.stackSuspects n (s.stackRuns n ts)).stackTemp n ts
      x.2.stackAct n x.1 (s.validQuarters n).length (s.stackRuns n ts) := if_neg (by simp [hon])

theorem stlim_on {s : State} (n : Nat) (hon : s.power.on = true) :
    s.stlim n =
      let l := s.fld (Rg.STK_THERM_STLIM n)
      if (s.validQuarters n).length < 2 then s.setFld (Rg.STK_THERM_STLIM n) 16
      else if 680 ≤ s.fld (Rg.STK_THERM_TSTK n) then
        (if 4 < l then s.setFld (Rg.STK_THERM_STLIM n) (Nat.max 4 (l / 2)) else s)
      else if 100 < (s.stackHeat n).cool then s.setFld (Rg.STK_THERM_STLIM n) (Nat.min 64 (2 * l))
      else s := if_neg (by simp [hon])

theorem stackClear_cool {s : State} {n : Nat} (hon : s.power.on = true) (htrip : s.stackHolds n = true)
    (hcool : 1000 < (s.stackHeat n).clear) :
    s.stackClear n = ((s.setFld (Rg.STK_THERM_TTRIP n) 0).setFld (Rg.STK_THERM_STLIM n)
      (if (s.validQuarters n).length < 2 then 16 else 4)).replay := if_pos (by simp [hon, htrip, hcool])

/-! ### Regions (R364 to R366) -/

section
variable {s : State} {r : Nat} (hon : s.powered r = true)
include hon

theorem regionSample_on (hs : List HotSpot) :
    s.regionSample r hs =
      let temps := s.spotTemps r hs
      let thot := temps.foldl Nat.max 0
      let u := ((List.range 4).foldl (fun s i => s.pairSample r i (hs.getD i ⟨0, 0, 0⟩)) s).regionTemps r thot
        ((hs.map HotSpot.est).foldl Nat.max 0)
      if 3 ≤ (u.region r).tripRun then u.trip r (temps.findIdx (· == thot)) thot else u := if_neg (by simp [hon])

theorem tlim_on :
    s.tlim r =
      let t := s.fld (Rg.THERM_STAT_THOT r)
      let l := s.fld (Rg.CLKCAP_TLIM r)
      let cool (k : Nat) (u : State) : State := u.modRegion r fun g => { g with coolRun := k }
      if 760 ≤ t then cool 0 (s.setFld (Rg.CLKCAP_TLIM r) (Nat.max 1 (l - 1)))
      else if t < 736 then
        if 100 ≤ (s.region r).coolRun + 1 then cool 0 (s.setFld (Rg.CLKCAP_TLIM r) (Nat.min 64 (l + 1)))
        else cool ((s.region r).coolRun + 1) s
      else cool 0 s := if_neg (by simp [hon])

theorem tripClear_cool (htrip : s.tripped r = true) (hcool : 50000 < (s.region r).clearRun) :
    s.tripClear r = (s.setFld (Rg.THERM_STAT_TTRIP r) 0).setFld (Rg.CLKCAP_TLIM r) 32 := if_pos (by simp [hon, htrip, hcool])

end

end State

section
variable (s : State)

theorem exec_alarmReceived : exec .alarmReceived s = .next (if s.power.rails.vaux then s.alarm 5 else s.emit (.chain .alarm)) := rfl

theorem exec_cpSample (x : PlateSample) : exec (.cpSample x) s = .next (s.plateSample x) := rfl

theorem exec_pcoolTick (flow : Nat) (tin tout : Int) (p : Nat) : exec (.pcoolTick flow tin tout p) s = .next (s.pcool flow tin tout p) :=
  rfl

theorem exec_stackThermalSample (n : Fin 24) (t0 t1 t2 t3 : Nat) (ecc : List (Nat × Nat)) :
    exec (.stackThermalSample n t0 t1 t2 t3 ecc) s = .next ((s.onDieEcc n ecc).stackSample n [t0, t1, t2, t3]) := rfl

theorem exec_regionThermalSample (r : Fin 96) (h0 h1 h2 h3 : HotSpot) :
    exec (.regionThermalSample r h0 h1 h2 h3) s = .next (s.regionSample r [h0, h1, h2, h3]) := rfl

end

/-- Settles O53: ALARM of a module with VAUX, plate and stacks of a module that is on, sensors of a region that is ON. -/
theorem temperaturesThrottleAndTrip : Obligations.TemperaturesThrottleAndTrip := by
  intro r n s
  refine ⟨fun hvaux => ⟨fun honce => ?once, fun hbegan halarm hphase => ?alarm⟩, fun hon => ⟨fun x => ⟨?plate, rfl, rfl, rfl, rfl⟩,
    fun p flow₀ tin₀ tout₀ => ?cap, fun hhot => congrArg _ (State.overtemp_due hon hhot),
    fun hcool => congrArg _ (State.overtemp_early hcool), fun t0 t1 t2 t3 ecc => ?stack, congrArg _ (State.stlim_on n hon),
    fun htrip hcool => congrArg _ (State.stackClear_cool hon htrip hcool)⟩, fun hon => ⟨fun h0 h1 h2 h3 => ?region,
    congrArg _ (State.tlim_on hon), fun htrip hcool => congrArg _ (State.tripClear_cool hon htrip hcool)⟩⟩
  case once => rw [exec_alarmReceived, if_pos hvaux, State.alarmIgnored 5 honce]
  case alarm =>
    rw [exec_alarmReceived, if_pos hvaux, State.alarmRaised 5 hbegan halarm hphase, State.alarmDrive_vaux hvaux]
    rfl
  case plate =>
    rw [exec_cpSample, State.plateSample_on x hon]
    rfl
  case cap =>
    intro means flow tin tout rise k cap
    rw [exec_pcoolTick, State.pcool_on flow₀ tin₀ tout₀ p hon]
    refine ⟨fun hcold => ?_, fun hp hrise => ?_⟩
    · rw [State.coolingCap_cold hcold]
      rfl
    · rw [State.coolingCap_heated hp hrise]
      simp only [decide_eq_true_eq]
      rfl
  case stack => exact congrArg _ (State.stackSample_on n _ ((s.onDieEcc_power n ecc).symm ▸ hon))
  case region => exact congrArg _ (State.regionSample_on hon _)

end Sys2Proof.Machine
end

section
/-!
PROOFS. The stages of bring-up P1 to P7 and their reports (R378 to R395).
-/
namespace Sys2Proof.Machine
open Sys2Proof.Claims
namespace State

/-! ### P1: the boot ROM (R380 to R383) -/

/-- A write of BOOT_CTL is a command of the boot ROM (R380). -/
theorem accessWrite_bootCtl {s : State} {req : Requester} (v : Word) (h : Option HostAns) (hon : s.answers req = true) :
    s.accessWrite req Rg.BOOT_CTL v h = answered req (s.bootCtl v.toNat h) := by
  obtain ⟨w, i, hplace, hoff⟩ := placeOf_edge_at Rg.BOOT_CTL (by decide) rfl
  have heffect : s.edgeWrite w i req Rg.BOOT_CTL v.toNat h = s.bootCtl v.toNat h := by
    simp only [edgeWrite, hoff, Rg.BOOT_CTL]
  rw [s.accessWrite_edge req Rg.BOOT_CTL v h w i hon rfl rfl rfl hplace, heffect, answered]

/-- GO fetches with what the host answers for the image and the retirement list. -/
theorem bootCtl_go (s : State) (fw rl : Option (List Byte)) :
    s.bootCtl (0x80000000 : Word).toNat (some ⟨fw, rl, []⟩) = s.bootGo fw rl :=
  if_pos (by decide)

section
variable {s : State} {k : Nat} (hon : s.power.on = true) (hdown : s.power.down = none) (hstage : s.bring.stage = k)
include hon hdown hstage

/-- A module that is on and does not power down is in the stage that it holds (R395). -/
theorem inStage_of : s.inStage k = true := by simp [inStage, hon, hdown, hstage]

end

theorem bootGo_starts {s : State} (fw rl : Option (List Byte)) (hstage : s.inStage 1 = true)
    (hidle : s.fld Rg.BOOT_STAT_STATE = 0 ∨ s.fld Rg.BOOT_STAT_STATE = 4) :
    s.bootGo fw rl =
      let t := ((s.setFld Rg.BOOT_STAT_CAUSE 0).setFld Rg.BOOT_STAT_STATE 1).bootSend fw
      { t with bring := { t.bring with boot := some (fw, rl) } } := if_neg (by simp [hstage]; omega)

theorem bootGo_busy {s : State} (fw rl : Option (List Byte)) (hwait : s.fld Rg.BOOT_STAT_STATE ≠ 0)
    (hfailed : s.fld Rg.BOOT_STAT_STATE ≠ 4) : s.bootGo fw rl = s := if_pos (Or.inr ⟨hwait, hfailed⟩)

section
variable {s : State} {fw rl : Option (List Byte)} (hstage : s.inStage 1 = true) (hboot : s.bring.boot = some (fw, rl))
include hstage hboot

theorem bootStep_fetch (hfetch : s.fld Rg.BOOT_STAT_STATE = 1) :
    s.bootStep = if s.bootPath = true ∧ fw ≠ none ∧ rl ≠ none then s.setFld Rg.BOOT_STAT_STATE 2
      else ({ s with bring := { s.bring with boot := none } } : State).bootFail 1 [] s.bootRelay := by
  simp only [bootStep, hboot, hstage, hfetch, Bool.not_true, Bool.false_eq_true, if_false, if_true]
  refine ite_congr ?_ (fun _ => rfl) fun _ => rfl
  simp [Option.isSome_iff_ne_none, and_assoc]

theorem bootStep_check (hfetch : s.fld Rg.BOOT_STAT_STATE ≠ 1) :
    s.bootStep = ({ s with bring := { s.bring with boot := none } } : State).bootImage (fw.getD []) (rl.getD []) := by
  simp only [bootStep, hboot, hstage, hfetch, Bool.not_true, Bool.false_eq_true, if_false]

end

/-! ### P2 and P3 (R384, R385, R395) -/

theorem clockSeed_held {s : State} (hstage : s.inStage 2 = true) (href : s.refHeld = true) :
    s.clockSeed = (s.p2Body.2.report 2 0 0 s.p2Body.2.bring.start s.p2Body.1).enterStage 3 := if_pos (by simp [hstage, href])

theorem clockSeedLate_first {s : State} (hstage : s.inStage 2 = true) (href : s.refHeld = false) (hfirst : s.bring.seedLate = false)
    (hlate : s.bring.stageAt + 1000 * msCb ≤ s.time.cb) :
    s.clockSeedLate = (s.p2Body.2.report 2 1 1 s.p2Body.2.bring.start s.p2Body.1).seedMissed :=
  if_pos (by simp [hstage, href, hfirst, hlate])

theorem wavefront_turn {s : State} {x : Nat} (finds : List RegionBist) (hstage : s.inStage 3 = true) (hcol : s.bring.col = x)
    (hsettled : x = 0 ∨ s.columnSettled (x - 1) = true) :
    s.wavefront x finds =
      let a := s.fresh 16
      let t := a.2.listFenced x
      let fs := ((List.range 8).map fun y => findOf finds (12 * y + x) a.1).filter fun f =>
        t.fld (Rg.RPWR_STAT_STATE f.r) == 0 || t.fld (Rg.RPWR_STAT_STATE f.r) == 1
      let u := fs.foldl (fun s f => if s.mayRamp f.r then s.rampRegion 1 f else s) t
      let v := (List.range 8).foldl (fun s _ => (fs.filter RegionBist.locks).foldl (fun s f =>
        if s.powered f.r && !s.locked f.r then s.tryLock f.r else s) s) u
      ((fs.foldl p3Region v).columnDone x).p3Go := by
  have hturn : (s.inStage 3 && s.bring.col == x && (x == 0 || s.columnSettled (x - 1))) = true := by
    simpa [hstage, hcol] using hsettled
  exact if_pos hturn

theorem p3Advance_next {s : State} {f : RegionBist} (n : Nat)
    (hnext : (s.bring.pend.find? fun f => s.p3Ready f.r || s.fencedOff f.r) = some f) :
    s.p3Advance (n + 1) = (s.p3One f).p3Advance n := by
  rw [p3Advance, hnext]

theorem clockHoldLate_fences {s : State} {r : Nat} (hon : s.power.on = true) (hdown : s.power.down = none) (hlo : 3 ≤ s.bring.stage)
    (hhi : s.bring.stage ≤ 6) (hpowered : s.powered r = true) (hhold : s.fld (Rg.CLKSRC_STATE r) = 1)
    (hlate : (s.region r).holdAt + 1000 * msCb ≤ s.time.cb) : s.clockHoldLate r = (s.fenceOff r 3).p3Go :=
  if_pos (by simp [hon, hdown, hlo, hhi, hpowered, hhold, hlate])

/-! ### P4 to P7 (R390 to R394) -/

theorem stacksUp_cool {s : State} (finds : List StackBist) (hstage : s.inStage 4 = true)
    (hcool : ((List.range 24).all fun n => !s.flag (Rg.STK_THERM_TTRIP n)) = true) :
    s.stacksUp finds =
      let t := (finds.foldl fenceChannels s).dramZero
      let u := t.report 4 0 0 t.bring.start ((List.range 24).flatMap (t.stackRecord finds))
      (u.bring.rl.foldl retireEntry u).enterStage 5 := if_pos (by rw [hstage, hcool]; rfl)

/-- Every port with EN set is UP or FAILED (R391). -/
def portsSettled (s : State) : Bool := (List.range 32).all fun p =>
  !s.flag (Rg.VYB_CTL_EN p) || s.fld (Rg.VYB_STAT_STATE p) == 2 || s.fld (Rg.VYB_STAT_STATE p) == 3

theorem linksUp_eq {s : State} (hstage : s.inStage 5 = true) :
    s.linksUp = if s.portsSettled = true ∨ s.bring.stageAt + 300 * msCb ≤ s.time.cb then
        (s.report 5 0 0 s.bring.start ((List.range 32).flatMap fun p =>
          leBytes 4 (s.rd (Rg.VYB_STAT p)) ++ leBytes 4 (s.rd (Rg.VYB_PEER p)))).enterStage 6
      else s := by
  refine ite_congr ?_ (fun _ => rfl) fun _ => rfl
  simp only [hstage, Bool.true_and, Bool.or_eq_true, decide_eq_true_eq]
  rfl

theorem runFailed_eq (s : State) (e : Fin 8 × Site) :
    s.runFailed e = if e.1.val = 5 ∨ e.1.val = 6 then s.fenceOff e.2.r 4
      else s.setUsable e.2.r (s.fld (Rg.YMAP_CL_USABLE e.2.r) &&& (0xFFFFFFF ^^^ 2 ^ e.2.c.val)) :=
  ite_congr (by simp [regionRun]) (fun _ => rfl) fun _ => rfl

theorem knownAnswers_staged {s : State} (failed : List (Fin 8 × Site)) (regions : List (Fin 96)) (results spread : List Byte)
    (ok : Bool) (hstage : s.inStage 6 = true) :
    s.knownAnswers failed regions results spread ok =
      let t := regions.foldl (fun s r => s.fenceOff r 4) (failed.foldl runFailed s)
      (t.report 6 (if ok then 0 else 1) (if ok then 0 else 8) t.bring.start
        (padTo 64 (sha512 (if t.usableCount = 0 then results else Config.kaResults))
          ++ padTo 64 (sha512 (if ok then padTo 88 Config.kaSpread else spread))
          ++ ((List.range 8).map fun k => (failed.filter fun e => e.1.val == k).length).flatMap (leBytes 2)
          ++ leBytes 2 (regionsFailed failed regions) ++ leBytes 110 0)).enterStage 7 := if_pos hstage

theorem ready_first {s : State} (hstage : s.inStage 7 = true) (hdone : s.flag Rg.BU_STAT_DONE = false) :
    s.ready =
      let o := if s.outspec then 1 else 0
      let t := s.report 7 o 0 s.bring.start
        (leBytes 2 s.usableCount ++ leBytes 1 s.fencedCount ++ leBytes 1 o ++ leBytes 4 (72 * s.usableCount) ++ padTo 64 s.ymapDig
          ++ leBytes 56 0)
      (t.setBu (setBits (setBits (t.rd Rg.BU_STAT) 26 26 o) 27 27 1)).receive (.event 3) := if_pos (by simp [hstage, hdone])

end State

section
variable (s : State)

theorem exec_bootGo {req : Requester} (fw rl : Option (List Byte)) (hon : s.answers req = true) :
    exec (.bootGo req fw rl) s = .next (answered req (s.bootGo fw rl)) := by
  have hexec : exec (.bootGo req fw rl) s = .next (s.accessWrite req Rg.BOOT_CTL 0x80000000 (some ⟨fw, rl, []⟩)) := rfl
  rw [hexec, State.accessWrite_bootCtl _ _ hon, State.bootCtl_go]

theorem exec_clockSeed : exec .clockSeed s = .next s.clockSeed := rfl

theorem exec_clockSeedTimeout : exec .clockSeedTimeout s = .next s.clockSeedLate := rfl

theorem exec_regionWavefront (x : Fin 12) (finds : List RegionBist) : exec (.regionWavefront x finds) s = .next (s.wavefront x finds) :=
  rfl

theorem exec_clockHoldTimeout (r : Fin 96) : exec (.clockHoldTimeout r) s = .next (s.clockHoldLate r) := rfl

theorem exec_stackBringup (finds : List StackBist) : exec (.stackBringup finds) s = .next (s.stacksUp finds) := rfl

theorem exec_linkStage : exec .linkStage s = .next s.linksUp := rfl

theorem exec_knownAnswerRuns (failed : List (Fin 8 × Site)) (regions : List (Fin 96)) (results spread : List Byte) (ok : Bool) :
    exec (.knownAnswerRuns failed regions results spread ok) s = .next (s.knownAnswers failed regions results spread ok) := rfl

theorem exec_bringupReady : exec .bringupReady s = .next s.ready := rfl

end

/-- Settles O54: each stage by what it waits for and what its report holds. -/
theorem bringUpTakesItsStages : Obligations.BringUpTakesItsStages := by
  intro s hon hdown stage
  have hin {k : Nat} (hstage : s.bring.stage = k) : s.inStage k = true := State.inStage_of hon hdown hstage
  refine ⟨fun req f l hreq hstage => ⟨fun hidle => ?bootGo, fun hwait hfailed => ?bootBusy⟩, fun f l hstage hboot => ?bootStep,
    ⟨fun hstage href => ?seed, fun hstage href hfirst hlate => ?seedLate⟩, fun x finds hstage hcol hsettled => ?wavefront,
    fun f n hnext => ?advance, fun r hlo hhi hpowered hhold hlate => ?hold, fun finds hstage hcool => ?dram,
    fun hstage => ?links, fun failed regions results spread ok hstage => ?answers, fun hstage hdone => ?ready⟩
  case bootGo => rw [exec_bootGo s f l hreq, State.bootGo_starts f l (hin hstage) hidle]
  case bootBusy => rw [exec_bootGo s f l hreq, State.bootGo_busy f l hwait hfailed]
  case bootStep =>
    intro t relay fw rl n len body digest u b v good
    exact ⟨State.bootStep_fetch (hin hstage) hboot, State.bootStep_check (hin hstage) hboot⟩
  case seed => rw [exec_clockSeed, State.clockSeed_held (hin hstage) href]
  case seedLate =>
    rw [exec_clockSeedTimeout, State.clockSeedLate_first (hin hstage) href hfirst hlate]
    rfl
  case wavefront =>
    rw [exec_regionWavefront, State.wavefront_turn finds (hin hstage) hcol hsettled]
    rfl
  case advance => exact State.p3Advance_next n hnext
  case hold => rw [exec_clockHoldTimeout, State.clockHoldLate_fences hon hdown hlo hhi hpowered hhold hlate]
  case dram => rw [exec_stackBringup, State.stacksUp_cool finds (hin hstage) hcool]
  case links =>
    intro settled
    rw [exec_linkStage, State.linksUp_eq (hin hstage)]
    refine ⟨fun hdue => congrArg _ (if_pos hdue), fun hwaits hearly => congrArg _ (if_neg ?_)⟩
    exact not_or.mpr ⟨fun hsettled => Bool.false_ne_true (hwaits.symm.trans hsettled), Nat.not_le.mpr hearly⟩
  case answers =>
    intro drop t count out results' spread'
    have hfolded : regions.foldl (fun s r => s.fenceOff r 4) (failed.foldl State.runFailed s) = t := by
      rw [funext₂ State.runFailed_eq]
    have hresults : (if t.usableCount = 0 then results' else Config.kaResults) = results' :=
      ite_eq_left_iff.mpr fun hsome => (if_neg hsome).symm
    have hspread : (if ok = true then padTo 88 Config.kaSpread else spread') = spread' :=
      ite_eq_right_iff.mpr fun hok => (if_pos hok).symm
    rw [exec_knownAnswerRuns, State.knownAnswers_staged failed regions results' spread' ok (hin hstage), hfolded]
    simp only [hresults, hspread]
    rfl
  case ready => rw [exec_bringupReady, State.ready_first (hin hstage) hdone]

end Sys2Proof.Machine
end

section
/-!
PROOFS. Quivor requests: what is answered, kept and stored (R427, R437 to R444, R451).
-/
namespace Sys2Proof.Machine
namespace State

/-! ### The status of a WRITE (R438) -/

section
variable {s : State} {idx sub len v : Nat}

theorem writeStatus_unknown (h : dictObj idx sub = none) : s.writeStatus idx sub len v = 1 := by
  rw [writeStatus, h]

variable {o : DictObj} (h : dictObj idx sub = some o)
include h

/-- The status of a WRITE of a known object is the first of those that fail. -/
theorem writeStatus_object :
    s.writeStatus idx sub len v =
      if o.acc = 0 then 2 else if len ≠ o.size then 3 else if !s.dictInRange idx sub v then 4
      else if s.writeBusy idx sub o then 5
      else if s.jmode = 1 ∧ s.jhead + 4080 ≤ s.mg.jseq ∧ ¬ (idx = 0x7000 ∧ sub = 3) then 7 else 0 := by
  rw [writeStatus, h]

end

/-! ### A request (R437 to R439) -/

section
variable {s : State} {op mac : Nat} {f : List Byte}

theorem quivorRequest_other (h : s.quivorFor op f = false) : s.quivorRequest op f mac = s := if_pos (by rw [h]; rfl)

variable (hfor : s.quivorFor op f = true)
include hfor

theorem quivorRequest_kept {e : Nat × Nat × List Byte}
    (hkept : (s.mg.kept.find? fun e => e.1 == byteAt f 2 && e.2.1 == fieldAt f 4 2) = some e) :
    s.quivorRequest op f mac = s.frame mac 0x88B5 e.2.2 := by
  simp only [quivorRequest, hfor, hkept, Bool.not_true, Bool.false_eq_true, if_false]

end

section
variable {s : State} {mac : Nat} {f : List Byte}

theorem quivorRequest_read (hfor : s.quivorFor 1 f = true)
    (hnew : (s.mg.kept.find? fun e => e.1 == byteAt f 2 && e.2.1 == fieldAt f 4 2) = none) :
    s.quivorRequest 1 f mac =
      let x := s.quivorRead (fieldAt f 6 2) (byteAt f 8) (fieldAt f 10 2) (fieldAt f 12 4)
      s.respond mac (byteAt f 2) (fieldAt f 4 2) (fieldAt f 6 2) (byteAt f 8) x.1
        (if (dictObj (fieldAt f 6 2) (byteAt f 8)).any fun o => o.size == 0 then fieldAt f 12 4 else 0) x.2 := by
  simp only [quivorRequest, hfor, hnew, Bool.not_true, Bool.false_eq_true, if_false, if_true]
  cases dictObj (fieldAt f 6 2) (byteAt f 8) with
  | none => rfl
  | some o => rfl

theorem quivorRequest_write (hfor : s.quivorFor 2 f = true)
    (hnew : (s.mg.kept.find? fun e => e.1 == byteAt f 2 && e.2.1 == fieldAt f 4 2) = none) :
    s.quivorRequest 2 f mac =
      let v := leNat (bytesAt f 16 (fieldAt f 10 2))
      let st := s.writeStatus (fieldAt f 6 2) (byteAt f 8) (fieldAt f 10 2) v
      (if st = 0 then s.writeAccept (byteAt f 2) mac (fieldAt f 4 2) (fieldAt f 6 2) (byteAt f 8) v else s).respond mac (byteAt f 2)
        (fieldAt f 4 2) (fieldAt f 6 2) (byteAt f 8) st 0 [] := by
  simp only [quivorRequest, hfor, hnew, Bool.not_true, Bool.false_eq_true, if_false, OfNat.ofNat_ne_one]

theorem quivorRequest_refused (hfor : s.quivorFor 2 f = true)
    (hnew : (s.mg.kept.find? fun e => e.1 == byteAt f 2 && e.2.1 == fieldAt f 4 2) = none) {st : Nat}
    (hst : s.writeStatus (fieldAt f 6 2) (byteAt f 8) (fieldAt f 10 2) (leNat (bytesAt f 16 (fieldAt f 10 2))) = st) (hfails : st ≠ 0) :
    s.quivorRequest 2 f mac = s.respond mac (byteAt f 2) (fieldAt f 4 2) (fieldAt f 6 2) (byteAt f 8) st 0 [] := by
  simp only [quivorRequest_write hfor hnew, hst, if_neg hfails]

/-- An accepted WRITE is stored and journaled before its answer. -/
theorem quivorRequest_accepted (hfor : s.quivorFor 2 f = true)
    (hnew : (s.mg.kept.find? fun e => e.1 == byteAt f 2 && e.2.1 == fieldAt f 4 2) = none)
    (hst : s.writeStatus (fieldAt f 6 2) (byteAt f 8) (fieldAt f 10 2) (leNat (bytesAt f 16 (fieldAt f 10 2))) = 0) :
    s.quivorRequest 2 f mac =
      (s.writeAccept (byteAt f 2) mac (fieldAt f 4 2) (fieldAt f 6 2) (byteAt f 8) (leNat (bytesAt f 16 (fieldAt f 10 2)))).respond mac
        (byteAt f 2) (fieldAt f 4 2) (fieldAt f 6 2) (byteAt f 8) 0 0 [] := by
  simp only [quivorRequest_write hfor hnew, hst, if_true]

end

/-- The 10 ms after an error-log NOTIFY end while another is due (R441). -/
theorem notifyTick_due {s : State} {t : Nat} (hat : s.mg.elogAt = some t) (hdue : s.mg.elogDue = true)
    (hover : t + 10 * msCb ≤ s.time.cb) : s.notifyTick = s.elogNotify := by
  rw [notifyTick, hat]
  exact if_pos (by simp [hdue, hover])

end State

/-! ### The commands -/

theorem exec_read (f : List Byte) (mac : BitVec 48) (s : State) : exec (.read f mac) s = .next (s.quivorRequest 1 f mac.toNat) := rfl

/-- BOOTCLOSE and QUOTE_GO are WRITEs that name their object (R429, R451). -/
theorem exec_quivorWrite {f : List Byte} {mac : BitVec 48} {i : Instr} (s : State)
    (hi : i = .write f mac ∨ (i = .bootclose f mac ∧ fieldAt f 6 2 = 0x18F0 ∧ byteAt f 8 = 1)
      ∨ (i = .quoteGo f mac ∧ fieldAt f 6 2 = 0x1200 ∧ byteAt f 8 = 3)) :
    exec i s = .next (s.quivorRequest 2 f mac.toNat) := by
  obtain rfl | ⟨rfl, hidx, hsub⟩ | ⟨rfl, hidx, hsub⟩ := hi
  · rfl
  · exact congrArg _ (if_pos (by simp [State.quivorNames, hidx, hsub]))
  · exact congrArg _ (if_pos (by simp [State.quivorNames, hidx, hsub]))

theorem exec_notifyTimer (s : State) : exec .notifyTimer s = .next s.notifyTick := rfl

/-- Settles O55: a request by what is kept of its source, a WRITE by the first status that fails. -/
theorem quivorRequestsAreServedOnce : Obligations.QuivorRequestsAreServedOnce := by
  intro f mac s src seq idx sub len off v st write kept
  refine ⟨fun hother => ?otherRead, fun hfor => ⟨fun e he => ?keptRead, fun hnew => ?read⟩,
    fun i hi => ⟨fun hother => ?otherWrite, fun hfor => ⟨fun e he => ?keptWrite, fun hnew hst => ?refused, fun hnew hst => ?accepted⟩⟩,
    State.writeStatus_unknown, fun o ho => ?status, fun t hat hdue hover => ?timer⟩
  case otherRead => rw [exec_read, State.quivorRequest_other hother]
  case keptRead => rw [exec_read, State.quivorRequest_kept hfor he]
  case read => rw [exec_read, State.quivorRequest_read hfor hnew]
  case otherWrite => rw [exec_quivorWrite s hi, State.quivorRequest_other hother]
  case keptWrite => rw [exec_quivorWrite s hi, State.quivorRequest_kept hfor he]
  case refused => rw [exec_quivorWrite s hi, State.quivorRequest_refused hfor hnew rfl hst]
  case accepted => rw [exec_quivorWrite s hi, State.quivorRequest_accepted hfor hnew hst]
  case status =>
    have hfirst : st = _ := State.writeStatus_object ho
    rw [hfirst]
    refine ⟨fun hacc => if_pos hacc, fun hacc hlen => ?_, fun hacc hlen hrange => ?_, fun hacc hlen hrange hbusy => ?_,
      fun hacc hlen hrange hfree => ?_⟩
    · rw [if_neg hacc, if_pos hlen]
    · rw [if_neg hacc, if_neg (not_not.mpr hlen), hrange]
      rfl
    · rw [if_neg hacc, if_neg (not_not.mpr hlen), hrange, hbusy]
      rfl
    · rw [if_neg hacc, if_neg (not_not.mpr hlen), hrange, hfree]
      rfl
  case timer => exact congrArg _ (State.notifyTick_due hat hdue hover)

end Sys2Proof.Machine
end

section
/-!
PROOFS. The chain and the time base (R425 to R430, R434, R435).
-/
namespace Sys2Proof.Machine
namespace State
variable {s : State}

/-! ### Patterns on the chain (R425, R426) -/

theorem chainIn_bypass (p : ChainOut) (f : State → State) (h : s.vaux = false) : s.chainIn p f = s.emit (.chain p) :=
  if_neg (h ▸ Bool.false_ne_true)

theorem chainIn_taken (p : ChainOut) (f : State → State) (h : s.vaux = true) : s.chainIn p f = f s := if_pos h

theorem addressTake_numbers (n : Nat) (h : s.fld Rg.MG_CHAIN_PHASE ≠ 2) :
    s.addressTake n =
      let valid := decide (1 ≤ n ∧ n ≤ 31)
      let x := if valid then (n, s) else s.fresh 6
      let t := ((x.2.setFld Rg.MG_NODE_VALID (if valid then 1 else 0)).setFld Rg.MG_NODE_OVF (if 32 ≤ n then 1 else 0)).setFld
        Rg.MG_NODE_NODE x.1
      let u : State := { t with mg := { t.mg with kept := [] } }
      (u.emit (.chain (.token (if valid then n + 1 else n)))).setFld Rg.MG_CHAIN_PHASE 1 := if_neg h

/-- In TIME phase a pulse goes on, and gives the phase once CHAINDLY is written and the node number is valid (R430). -/
theorem pulseTake_time (h : s.fld Rg.MG_CHAIN_PHASE = 1) :
    s.pulseTake =
      let t := s.emit (.chain .pulse)
      let d := t.dict 0x4010 1 0
      let n := t.fld Rg.MG_NODE_NODE
      if d ≠ 0 ∧ t.flag Rg.MG_NODE_VALID = true then
        { t with mg := { t.mg with pulse := some ((t.ns : Int) - (nearestSecond t.ns + n * d + (n - 1) * 1000 : Nat)) } }
      else t := if_neg (not_not.mpr h)

theorem badPattern_flagged (h : s.fld Rg.MG_CHAIN_PHASE ≠ 2) : s.badPattern = s.setFld Rg.MG_CHAIN_BADPAT 1 := if_neg h

/-! ### The boot window (R429) -/

theorem windowTimeout_due {t : Nat} (hvaux : s.vaux = true) (hat : s.mg.pgoodAt = some t) (hover : t + 10000 * msCb ≤ s.time.cb) :
    s.windowTimeout = s.closeWindow := by
  rw [windowTimeout, hat]
  exact if_pos (by simp [hvaux, hover])

theorem closeWindow_open (h : s.flag Rg.MG_CHAIN_BOOTWIN = true) :
    s.closeWindow =
      let b := s.dict 0x1810 1 0
      let u : State := { s with mg := { s.mg with hostbridge := b } }
      (u.setFld Rg.MG_CHAIN_BOOTWIN 0).setFld Rg.HB_CFG_ACTIVE b := if_pos h

/-! ### gPTP and the offset (R434, R435) -/

theorem syncTake_vaux (a : Nat) (h : s.vaux = true) : s.syncTake a = { s with mg := { s.mg with ptp := some ((s.ns : Int) - a) } } :=
  if_pos h

theorem peerDelay_vaux (q : Nat) (h : s.vaux = true) :
    s.peerDelay q = s.frame 0x0180C200000E 0x88F7 (Config.pdelayResp q s.ns) := if_pos h

/-- The state in which the offset of a second has been noted, before its correction. -/
def offsetNoted (s : State) (off : Int) (st : Nat) : State :=
  let t := (s.wr Rg.TB_OFS (satI32 off)).setFld Rg.TB_STAT_STATE st
  { t with mg := { t.mg with ptp := none, pulse := none, alignedAt := some t.time.cb } }

theorem offsetStep_some {off : Int} {st : Nat} (hvaux : s.vaux = true) (hnow : s.offsetNow = some (off, st)) :
    s.offsetStep = if s.mg.alignedAt.isNone = true ∨ off < -1000000 then (s.offsetNoted off st).stepTime off
      else { s.offsetNoted off st with mg := { (s.offsetNoted off st).mg with correct := -3 * off } } := by
  simp only [offsetStep, hvaux, hnow, Bool.not_true, Bool.false_eq_true, if_false]
  rfl

theorem offsetStep_none {t : Nat} (hvaux : s.vaux = true) (hnow : s.offsetNow = none) (haligned : s.mg.alignedAt = some t) :
    s.offsetStep = if t + 10000 * msCb ≤ s.time.cb then s.setFld Rg.TB_STAT_STATE 3 else s := by
  simp only [offsetStep, hvaux, hnow, haligned, Bool.not_true, Bool.false_eq_true, if_false]

end State

/-! ### The commands -/

section
variable (s : State)

theorem exec_addressToken (n : BitVec 6) :
    exec (.addressToken n) s = .next (s.chainIn (.token n.toNat) fun s => s.addressTake n.toNat) := rfl

theorem exec_timePulse : exec .timePulse s = .next (s.chainIn .pulse State.pulseTake) := rfl

theorem exec_badpat : exec .badpat s = .next (s.chainIn .unknown State.badPattern) := rfl

theorem exec_bootWindowTimeout : exec .bootWindowTimeout s = .next s.windowTimeout := rfl

theorem exec_offsetTick : exec .offsetTick s = .next s.offsetStep := rfl

end

/-- Settles O56: each pattern by VAUX and the phase, the offset by what the second's messages gave. -/
theorem theChainNumbersAndAlignsTheModule : Obligations.TheChainNumbersAndAlignsTheModule := by
  intro s
  refine ⟨fun hdark => ⟨fun n => ?token, ?pulse, ?unknown, ?alarm⟩, fun hvaux => ⟨fun n hphase => ?address, fun hphase => ?time,
    fun hphase => ?badpat, fun t hat hover hopen => ?window, fun a => congrArg _ (State.syncTake_vaux a hvaux),
    fun q => congrArg _ (State.peerDelay_vaux _ hvaux), fun off st hnow => ?offset, fun hnow t haligned => ?holdover,
    fun hptp haligned => ?nothing, fun o hptp hpulse haligned => ?pulses, fun p hptp hpulse => ?seconds, fun o p hptp hpulse => ?both⟩⟩
  case token => exact congrArg _ (State.chainIn_bypass _ _ hdark)
  case pulse => exact congrArg _ (State.chainIn_bypass _ _ hdark)
  case unknown => exact congrArg _ (State.chainIn_bypass _ _ hdark)
  case alarm => exact congrArg _ (State.chainIn_bypass .alarm (fun t => t.alarm 5) hdark)
  case address =>
    rw [exec_addressToken, State.chainIn_taken _ _ hvaux]
    exact congrArg _ (State.addressTake_numbers n.toNat hphase)
  case time =>
    rw [exec_timePulse, State.chainIn_taken _ _ hvaux, State.pulseTake_time hphase]
    refine ⟨fun hdelay hvalid => congrArg _ (if_pos ⟨hdelay, hvalid⟩), fun hunknown => congrArg _ (if_neg ?_)⟩
    obtain hdelay | hvalid := hunknown
    · exact fun h => h.1 hdelay
    · exact fun h => Bool.false_ne_true (hvalid.symm.trans h.2)
  case badpat =>
    rw [exec_badpat, State.chainIn_taken _ _ hvaux, State.badPattern_flagged hphase]
  case window =>
    rw [exec_bootWindowTimeout, State.windowTimeout_due hvaux hat hover, State.closeWindow_open hopen]
  case offset =>
    intro t u
    rw [exec_offsetTick, State.offsetStep_some hvaux hnow]
    refine ⟨fun hstep => congrArg _ (if_pos ?_), fun hsome hsmall => congrArg _ (if_neg ?_)⟩
    · exact hstep.imp_left Option.isNone_iff_eq_none.mpr
    · rintro (hnone | hlarge)
      · simp [Option.isNone_iff_eq_none.mp hnone] at hsome
      · omega
  case holdover => rw [exec_offsetTick, State.offsetStep_none hvaux hnow haligned]
  case nothing =>
    unfold State.offsetNow
    rw [hptp, haligned]
    cases s.mg.pulse <;> rfl
  case pulses => simp only [State.offsetNow, hptp, hpulse, haligned, if_true]
  case seconds => simp only [State.offsetNow, hptp, hpulse]
  case both => simp only [State.offsetNow, hptp, hpulse]

end Sys2Proof.Machine
end

section
/-!
PROOFS. The event table of the guarded registers (R346, R458, R459).
-/
namespace Sys2Proof.Machine
open Sys2Proof.Claims

/-- Where the guarded registers stand: two words in the edge window, of which only the first begins a pair (R458). -/
theorem guardedPairs_at {a : Nat} (ha : a ∈ guardedPairs) :
    (a + 4 < cmemBase ∧ a % 4 = 0) ∧ guardedFirst a = true ∧ guardedFirst (a + 4) = false ∧ guardedSecond (a + 4) = true := by
  have hall : ∀ a ∈ guardedPairs,
      (a + 4 < cmemBase ∧ a % 4 = 0) ∧ guardedFirst a = true ∧ guardedFirst (a + 4) = false ∧ guardedSecond (a + 4) = true := by
    decide +kernel
  exact hall a ha

theorem toNat_ofNat_edge {a : Nat} (h : a < cmemBase) : (BitVec.ofNat 48 a).toNat = a := by
  rw [BitVec.toNat_ofNat, Nat.mod_eq_of_lt]
  exact h.trans (by decide)

namespace State
variable {s : State} {req : Requester} {a : Nat} {v : Word}

/-! ### The halves of a pair (R459) -/

theorem lapse_eq (s : State) {x : Armed} (hx : Store.find s.armed a = some x) :
    s.lapse a = if x.deadline < s.time.cb then (s.disarmPair a).count Rg.GP_LAPSE 1 else s := by
  rw [lapse, hx]

/-- A pair whose deadline has not passed does not lapse. -/
theorem lapse_early (h : ∀ x, Store.find s.armed a = some x → s.time.cb ≤ x.deadline) : s.lapse a = s := by
  cases hx : Store.find s.armed a with
  | none => rw [lapse, hx]
  | some x => rw [s.lapse_eq hx, if_neg (Nat.not_lt.mpr (h x hx))]

section
variable (hearly : ∀ x, Store.find s.armed a = some x → s.time.cb ≤ x.deadline)
include hearly

theorem firstHalf_arms (hfree : s.armRefused a = false) (hown : ∀ x, Store.find s.armed a = some x → x.req = req) :
    s.firstHalf req a v = (0, { s with armed := Store.put s.armed a ⟨v, req, s.time.cb + 1024⟩ }) := by
  simp only [firstHalf, lapse_early hearly, hfree, Bool.false_eq_true, if_false]
  cases hx : Store.find s.armed a with
  | none => rfl
  | some x => exact if_pos (hown x hx)

theorem firstHalf_refused (h : s.armRefused a = true ∨ ∃ x, Store.find s.armed a = some x ∧ x.req ≠ req) :
    s.firstHalf req a v = (1, s) := by
  simp only [firstHalf, lapse_early hearly]
  by_cases harm : s.armRefused a = true
  · exact if_pos harm
  · obtain ⟨x, hx, hother⟩ := h.resolve_left harm
    rw [if_neg harm, hx]
    exact if_neg hother

theorem secondHalf_refused (h : ∀ x, Store.find s.armed a = some x → x.req ≠ req ∨ v ≠ ~~~ x.value) :
    s.secondHalf req (a + 4) v =
      (1, if (Store.find s.armed a).isSome then (s.disarmPair a).count Rg.GP_REFUSED 1 else s.count Rg.GP_REFUSED 1) := by
  simp only [secondHalf, Nat.add_sub_cancel, lapse_early hearly]
  cases hx : Store.find s.armed a with
  | none => rfl
  | some x =>
    have hno : ¬(x.req = req ∧ v = ~~~ x.value) := not_and_or.mpr (h x hx)
    exact if_neg hno

end

/-! ### The accesses -/

section
variable (ha : a ∈ guardedPairs) (hon : s.answers req = true)
include ha hon

theorem accessWrite_firstHalf {st : Nat} {t : State} (h : s.firstHalf req a v = (st, t)) :
    s.accessWrite req a v none = t.emit (.access req st none) := by
  obtain ⟨⟨_, haligned⟩, hfirst, _, _⟩ := guardedPairs_at ha
  rw [s.accessWrite_first req a v none hon haligned hfirst, h]

theorem accessWrite_secondHalf {st : Nat} {t : State} (h : s.secondHalf req (a + 4) v = (st, t)) :
    s.accessWrite req (a + 4) v none = t.emit (.access req st none) := by
  obtain ⟨⟨hlow, haligned⟩, _, hnot, hsecond⟩ := guardedPairs_at ha
  rw [s.accessWrite_second req (a + 4) v none hon (by omega) hnot hsecond (s.routed_low _ hlow), h]

end

end State

/-! ### The commands -/

section
variable {s : State} {req : Requester} {a : Nat} {v : Word} (ha : a ∈ guardedPairs)
include ha

theorem exec_gpFirstHalf : exec (.gpFirstHalf req (BitVec.ofNat 48 a) v) s = .next (s.accessWrite req a v none) := by
  obtain ⟨⟨hlow, _⟩, hfirst, _, _⟩ := guardedPairs_at ha
  have haddr := toNat_ofNat_edge (Nat.lt_of_le_of_lt (Nat.le_add_right a 4) hlow)
  show execGpFirstHalf req (BitVec.ofNat 48 a) v s = _
  rw [execGpFirstHalf, haddr, if_pos hfirst]

theorem exec_gpSecondHalfRefused (hrefused : (s.secondHalf req (a + 4) v).1 = 1) :
    exec (.gpSecondHalfRefused req (BitVec.ofNat 48 (a + 4)) v) s = .next (s.accessWrite req (a + 4) v none) := by
  obtain ⟨⟨hlow, _⟩, _, _, hsecond⟩ := guardedPairs_at ha
  show execGpSecondHalfRefused req (BitVec.ofNat 48 (a + 4)) v s = _
  rw [execGpSecondHalfRefused, toNat_ofNat_edge hlow, hsecond, hrefused]
  rfl

theorem exec_registerWrite_pair :
    exec (.registerWrite req (BitVec.ofNat 48 (a + 4)) v) s = .next (s.accessWrite req (a + 4) v none) := by
  obtain ⟨⟨hlow, _⟩, _⟩ := guardedPairs_at ha
  show execRegisterWrite req (BitVec.ofNat 48 (a + 4)) v s = _
  rw [execRegisterWrite, toNat_ofNat_edge hlow]

theorem exec_gpLapse : exec (.gpLapse (BitVec.ofNat 48 a)) s = .next (s.lapse a) := by
  obtain ⟨⟨hlow, _⟩, _⟩ := guardedPairs_at ha
  have haddr := toNat_ofNat_edge (Nat.lt_of_le_of_lt (Nat.le_add_right a 4) hlow)
  show execGpLapse (BitVec.ofNat 48 a) s = _
  rw [execGpLapse, haddr]

end

theorem State.guardedApply_fusePgm (s : State) (v : Nat) : s.guardedApply Rg.FUSE_PGM v = (s.wr Rg.FUSE_PGM v).fuseApply v := rfl

theorem State.guardedApply_cryCmd (s : State) (v : Nat) :
    s.guardedApply Rg.CRY_CMD v = (s.wr Rg.CRY_CMD (v &&& 0xFC000000)).cryApply v := rfl

/-- Settles O27: the event table entry by entry. -/
theorem guardedPairsFollowTheirTable : Obligations.GuardedPairsFollowTheirTable := by
  intro a ha req v s hon hearly
  refine ⟨fun hfree hown => ?arms, fun hrefused => ?other, fun hrefused => ?second, fun harmed => ?applies, fun t x hx => ?lapse⟩
  case arms => rw [exec_gpFirstHalf ha, State.accessWrite_firstHalf ha hon (State.firstHalf_arms hearly hfree hown), answered]
  case other => rw [exec_gpFirstHalf ha, State.accessWrite_firstHalf ha hon (State.firstHalf_refused hearly hrefused), busError]
  case second =>
    have hhalf := State.secondHalf_refused hearly hrefused
    rw [exec_gpSecondHalfRefused ha (congrArg Prod.fst hhalf), State.accessWrite_secondHalf ha hon hhalf, busError]
  case applies =>
    obtain ⟨d, hfind, hdue⟩ := harmed
    intro t
    have hhalf := s.secondHalf_applied req a (~~~v) ⟨v, req, d⟩ hfind rfl rfl hdue
    refine ⟨?_, fun h => h ▸ t.guardedApply_gopReset _, fun h => h ▸ t.guardedApply_fusePgm _, fun h => h ▸ t.guardedApply_cryCmd _,
      fun r hr => ⟨fun h => h ▸ t.guardedApply_vset ⟨r, hr⟩ _, fun h => h ▸ t.guardedApply_rpwrCtl ⟨r, hr⟩ _⟩⟩
    rw [exec_registerWrite_pair ha, State.accessWrite_secondHalf ha hon hhalf]
    rfl
  case lapse =>
    rw [exec_gpLapse ha, t.lapse_eq hx]
    rfl

end Sys2Proof.Machine
end

section
/-!
PROOFS. The crypto engine: a completed pair of CRY_CMD and the end of a request (R450, R451, R468).
-/
namespace Sys2Proof.Machine
open Sys2Proof.Claims

namespace State
variable {s : State}

/-! ### A completed pair of CRY_CMD -/

theorem cryApply_busy (v : Nat) (h : s.fld Rg.CRY_STAT_STATE = 1) : s.cryApply v = s.setFld Rg.CRY_STAT_CAUSE 1 := if_pos h

theorem cryApply_idle {v op : Nat} (hidle : s.fld Rg.CRY_STAT_STATE ≠ 1) (hop : bits v 31 28 = op) (hrange : 1 ≤ op ∧ op ≤ 5) :
    s.cryApply v = (s.cryStat 1 0).cryPush (.command op (bits v 27 26) (s.fld Rg.CRY_ARG_OFF / 64 * 64)) := by
  subst hop
  exact (if_neg hidle).trans (if_pos hrange)

/-! ### The end of a request -/

theorem quoteEnd_network {js : List CryJob} (h : s.crypto.jobs = .network :: js) :
    s.quoteEnd = ({ s with free := s.free + 1, crypto := { s.crypto with
      quote := s.crypto.body ++ Config.pssSign s.crypto.body s.free } } : State).cryNext := by
  simp only [quoteEnd, h]

theorem quoteEnd_command {slot arg : Nat} {js : List CryJob} (h : s.crypto.jobs = .command 1 slot arg :: js)
    (hbody : s.crypto.body ≠ []) :
    s.quoteEnd = ((({ s with free := s.free + 1 } : State).cmSetBytes (arg + 64)
      (s.crypto.body ++ Config.pssSign s.crypto.body s.free)).cryStat 2 0).cryNext := by
  simp only [quoteEnd, h]
  exact if_neg (by simpa using hbody)

theorem cryEnd_erase {slot arg : Nat} {js : List CryJob} (h : s.crypto.jobs = .command 5 slot arg :: js) :
    s.cryEnd = (s.cmdErase slot).cryNext := by
  simp only [cryEnd, h]

/-- A full slot takes no key of UNWRAP or WRAP (R468). -/
theorem cryEnd_slotFull {op slot arg : Nat} {js : List CryJob} (hop : op ∈ [3, 4]) (h : s.crypto.jobs = .command op slot arg :: js)
    (hfull : (s.keySlot slot).isSome = true) : s.cryEnd = (s.cryStat 3 3).cryNext := by
  simp only [List.mem_cons, List.not_mem_nil, or_false] at hop
  obtain rfl | rfl := hop
  · simp only [cryEnd, h, cmdUnwrap, hfull, if_true]
  · simp only [cryEnd, h, cmdWrap, hfull, if_true]

end State

/-! ### The commands -/

/-- Each row is the second half of CRY_CMD whose armed value names its OP (R468). -/
theorem exec_cryCommand {req : Requester} {v : Word} {op : Nat} {i : Instr} (s : State)
    (hi : (op, i) ∈ [(1, Instr.cryQuote req (~~~v)), (2, .sign req (~~~v)), (3, .unwrap req (~~~v)), (4, .wrap req (~~~v)),
      (5, .erase req (~~~v))]) :
    (1 ≤ op ∧ op ≤ 5) ∧ exec i s = .next (s.accessPair req Rg.CRY_CMD (~~~v) fun v => bits v 31 28 == op) := by
  simp only [List.mem_cons, List.not_mem_nil, or_false, Prod.mk.injEq] at hi
  obtain ⟨rfl, rfl⟩ | ⟨rfl, rfl⟩ | ⟨rfl, rfl⟩ | ⟨rfl, rfl⟩ | ⟨rfl, rfl⟩ := hi <;> exact ⟨by decide, rfl⟩

theorem exec_quoteDone (s : State) : exec .quoteDone s = .next s.quoteEnd := rfl

theorem exec_cryDone (s : State) : exec .cryDone s = .next s.cryEnd := rfl

/-- Settles O33: a command by whether one runs, an end by the request at the front. -/
theorem cryptoCommandsRunAndDeliver : Obligations.CryptoCommandsRunAndDeliver := by
  refine ⟨fun req v s hon harmed op i hi hop => ?command, fun slot arg js s => ⟨fun hjob => ?network, fun hjob hbody => ?quote,
    fun hjob => ?erase, fun op hop hjob hfull => ?full, fun t => ⟨rfl, fun _ _ => rfl⟩⟩⟩
  case command =>
    intro u
    obtain ⟨hrange, hexec⟩ := exec_cryCommand s hi
    rw [hexec, State.accessPair_armed (p := fun v => bits v 31 28 == op) hon (by decide) ⟨rfl, rfl⟩ harmed (beq_iff_eq.mpr hop),
      State.guardedApply_cryCmd]
    by_cases hbusy : u.fld Rg.CRY_STAT_STATE = 1
    · rw [if_pos hbusy, State.cryApply_busy (s := u) _ hbusy]
    · rw [if_neg hbusy, State.cryApply_idle (s := u) hbusy hop hrange]
      rfl
  case network => exact congrArg _ (State.quoteEnd_network hjob)
  case quote => exact congrArg _ (State.quoteEnd_command hjob hbody)
  case erase => exact congrArg _ (State.cryEnd_erase hjob)
  case full => exact congrArg _ (State.cryEnd_slotFull hop hjob hfull)

end Sys2Proof.Machine
end

section
/-!
PROOFS. Fuse programming: the causes of a refusal, the start and the end (R466, R467).
-/
namespace Sys2Proof.Machine
open Sys2Proof.Claims

namespace State
variable {s : State}

theorem fuseApply_busy (v : Nat) (h : s.fld Rg.FUSE_STAT_STATE = 1) : s.fuseApply v = s.setFld Rg.FUSE_STAT_CAUSE 5 := if_pos h

section
variable (hidle : s.fld Rg.FUSE_STAT_STATE ≠ 1)
include hidle

theorem fuseApply_image (v : Nat) (himage : s.fld Rg.IMG_STAT_STATE ≠ 0) : s.fuseApply v = s.fuseRefuse 1 :=
  (if_neg hidle).trans (if_pos himage)

variable (himage : s.fld Rg.IMG_STAT_STATE = 0)
include himage

theorem fuseApply_beforeBringUp (v : Nat) (hdone : s.flag Rg.BU_STAT_DONE = false) :
    s.fuseApply v = (s.fresh 8).2.fuseRefuse (s.fresh 8).1 :=
  ((if_neg hidle).trans (if_neg (not_not.mpr himage))).trans (if_pos (by rw [hdone]; rfl))

theorem fuseApply_allowed (v : Nat) (hdone : s.flag Rg.BU_STAT_DONE = true) :
    s.fuseApply v = if s.fuseCause v ≠ 0 then s.fuseRefuse (s.fuseCause v) else
      let t := (s.setFld Rg.FUSE_STAT_STATE 1).setFld Rg.FUSE_STAT_CAUSE 0
      { t with crypto := { t.crypto with fuse := some (v, (List.range 16).map fun w => t.reg (Rg.FUSE_PGM_DATA w)) } } := by
  rw [fuseApply, if_neg hidle, if_neg (not_not.mpr himage), if_neg (by simp [hdone])]
  cases s.fuseCause v with
  | zero => rfl
  | succ c => rfl

end

/-- The causes of a refusal while idle, in their order (R466). -/
theorem fuseCause_eq (s : State) {v op : Nat} (hop : bits v 31 28 = op) (hrange : 1 ≤ op ∧ op ≤ 3) :
    s.fuseCause v =
      let k := bits v 27 24
      if op ≠ 3 ∧ (k < 1 ∨ 4 < k) then 6
      else if op = 1 ∧ s.fuse.prog.testBit (k - 1) then 2
      else if op = 2 ∧ ¬(s.fuse.prog.testBit (k - 1) ∧ ¬ s.fuse.revoked.testBit (k - 1)) then 3
      else if op = 3 ∧ bits v 23 0 < s.fuse.svnmin then 4 else 0 := by
  simp only [fuseCause, hop, slotLive, bit]
  generalize bits v 27 24 = k, bits v 23 0 = n
  rw [if_congr (show (op < 1 ∨ 3 < op ∨ op ≠ 3 ∧ (k < 1 ∨ 4 < k)) ↔ op ≠ 3 ∧ (k < 1 ∨ 4 < k) by omega) rfl rfl]
  by_cases hp : s.fuse.prog.testBit (k - 1) = true <;> by_cases hr : s.fuse.revoked.testBit (k - 1) = true <;>
    obtain rfl | rfl | rfl : op = 1 ∨ op = 2 ∨ op = 3 := by omega
  all_goals simp [hp, hr]

/-! ### The end -/

theorem fuseEnd_eq {v : Nat} {data : List Word} (h : s.crypto.fuse = some (v, data)) :
    s.fuseEnd = (({ s with fuse := fuseAfter s.fuse v data, crypto := { s.crypto with fuse := none } } : State).setFld
      Rg.FUSE_STAT_STATE 2).setFld Rg.FUSE_STAT_CAUSE 0 := by
  rw [fuseEnd, h]

end State

/-- Each row is the second half of FUSE_PGM whose armed value names its OP (R467). -/
theorem exec_fuseCommand {req : Requester} {v : Word} {op : Nat} {i : Instr} (s : State)
    (hi : (op, i) ∈ [(1, Instr.fuseProgramSlot req (~~~v)), (2, .fuseRevokeSlot req (~~~v)), (3, .fuseRaiseSvnmin req (~~~v))]) :
    (1 ≤ op ∧ op ≤ 3) ∧ exec i s = .next (s.accessPair req Rg.FUSE_PGM (~~~v) fun v => bits v 31 28 == op) := by
  simp only [List.mem_cons, List.not_mem_nil, or_false, Prod.mk.injEq] at hi
  obtain ⟨rfl, rfl⟩ | ⟨rfl, rfl⟩ | ⟨rfl, rfl⟩ := hi <;> exact ⟨by decide, rfl⟩

theorem exec_fusePgmDone (s : State) : exec .fusePgmDone s = .next s.fuseEnd := rfl

/-- Settles O34: a completed pair by what the engine, the image and bring-up allow, then by its cause; the end by its OP. -/
theorem fuseProgrammingFollowsItsRules : Obligations.FuseProgrammingFollowsItsRules := by
  intro req v s
  refine ⟨fun hon harmed op i hi hop => ?command, fun w k data hjob hk _ _ => ?done⟩
  case command =>
    intro u k bad
    obtain ⟨hrange, hexec⟩ := exec_fuseCommand s hi
    have happly : exec i s = .next (answered req (u.fuseApply v.toNat)) := by
      rw [hexec, State.accessPair_armed (p := fun v => bits v 31 28 == op) hon (by decide) ⟨rfl, rfl⟩ harmed (beq_iff_eq.mpr hop),
        State.guardedApply_fusePgm]
    have hbad : u.fuseCause v.toNat = bad := u.fuseCause_eq hop hrange
    rw [happly]
    refine ⟨fun hbusy => ?_, fun hidle himage => ?_, fun hidle himage hdone => ?_, fun hidle himage hdone => ?_⟩
    · rw [State.fuseApply_busy (s := u) _ hbusy]
    · rw [State.fuseApply_image (s := u) hidle _ himage]
      rfl
    · rw [State.fuseApply_beforeBringUp (s := u) hidle himage _ hdone]
      rfl
    · rw [State.fuseApply_allowed (s := u) hidle himage _ hdone, hbad]
      rfl
  case done =>
    refine ⟨s.fuseEnd, exec_fusePgmDone s, ?_⟩
    rw [State.fuseEnd_eq hjob]
    refine ⟨rfl, ?_, State.fld_setFld _ _ _ (by decide) (by decide), fun hop => ?_, fun hop => ?_, fun hop => ?_⟩
    · rw [State.fld_setFld_field _ _ _ _ (by decide) (by decide) (by decide) (by decide),
        State.fld_setFld _ _ _ (by decide) (by decide)]
      rfl
    · simp only [State.setFld_fuse, State.fuseAfter, hop, hk, State.fuseAfter.padWords]
    · simp only [State.setFld_fuse, State.fuseAfter, hop, hk]
    · simp only [State.setFld_fuse, State.fuseAfter, hop]

end Sys2Proof.Machine
end

section
/-!
PROOFS. Writes by the kind of their address (R17, R146, R174, R319, R454, R455) and the configuration writes that an enabled block
ignores (R461 to R463).
-/
namespace Sys2Proof.Machine
open Sys2Proof.Claims

/-! ### Places -/

/-- The places of a region's window are none of the edge window, of control memory or of a stack. -/
theorem regionPlace_ne_stack (r o n off : Nat) : regionPlace r o ≠ .stack n off := by
  unfold regionPlace clusterPlace
  repeat' split
  all_goals exact nofun

/-- The stack windows name their stack and offset (R17). -/
theorem stack_of_placeOf {a n off : Nat} (h : placeOf a = .stack n off) :
    (a - 0x100000000000) / 0x2000000000 = n ∧ (a - 0x100000000000) % 0x2000000000 = off := by
  unfold placeOf at h
  split at h
  · split at h
    · exact absurd h nofun
    · split at h <;> exact absurd h nofun
  · split at h
    · exact Place.stack.inj h
    · split at h
      · exact absurd h (regionPlace_ne_stack _ _ _ _)
      · exact absurd h nofun

namespace State
variable {s : State} {req : Requester}

/-! ### A write and its completion -/

/-- A misaligned write of the host ends at the bridge (R319). -/
theorem accessWrite_hostMisaligned {a : Nat} (v : Word) (hon : s.answers .host = true) (h4 : a % 4 ≠ 0) :
    s.accessWrite .host a v none = s.emit (.hostDone 3 none) := by
  rw [accessWrite, if_pos ⟨rfl, h4⟩, if_pos hon]

/-- A write that reaches its node is completed with the status the node gives (R174, R454). -/
theorem accessWrite_arrived {a : Nat} (v : Word) (hon : s.answers req = true) (hown : ¬(req = .host ∧ a % 4 ≠ 0))
    (hpath : s.routed a = true) {st : Nat} {t : State} (hbus : s.busWrite req a v none = (st, t)) :
    s.accessWrite req a v none = t.emit (.access req st none) := by
  obtain ⟨hthere, hback⟩ := Bool.and_eq_true _ _ ▸ hpath
  rw [accessWrite, if_neg hown, if_pos hon, sentWrite, if_pos hthere]
  simp only [if_pos hback, hbus]

/-- A write that is discarded on its way has no effect, and its requester sees no answer (R174). -/
theorem accessWrite_lost {a : Nat} (v : Word) (hon : s.answers req = true) (h4 : a % 4 = 0)
    (hlost : s.pathOpen false 0x8000 (s.answerNode a) = false) : s.accessWrite req a v none = s.emit (.access req 2 none) := by
  rw [accessWrite, if_neg (fun h => h.2 h4), if_pos hon, sentWrite, if_neg (by rw [hlost]; decide)]

theorem busWrite_misaligned {a : Nat} (v : Word) (h4 : a % 4 ≠ 0) : s.busWrite req a v none = (1, s) := if_pos h4

/-! ### What a node does with an aligned write of an address that is not guarded -/

section
variable {a : Nat} {v : Word} (hplain : a % 4 = 0 ∧ guardedFirst a = false ∧ guardedSecond a = false)
include hplain

theorem busWrite_none (hplace : placeOf a = .none) : s.busWrite req a v none = (1, s) := by
  obtain ⟨h4, hfirst, hsecond⟩ := hplain
  rw [busWrite, if_neg (by omega), hfirst, hsecond, hplace]
  rfl

theorem busWrite_edge {w : RegRow} {i : Nat} (hplace : placeOf a = .edgeReg w i) :
    s.busWrite req a v none = (0, s.edgeWrite w i req a v.toNat none) := by
  obtain ⟨h4, hfirst, hsecond⟩ := hplain
  rw [busWrite, if_neg (by omega), hfirst, hsecond, hplace]
  rfl

theorem busWrite_cmem {off : Nat} (hplace : placeOf a = .cmem off) : s.busWrite req a v none = (0, s.cmHalfWrite off v) := by
  obtain ⟨h4, hfirst, hsecond⟩ := hplain
  rw [busWrite, if_neg (by omega), hfirst, hsecond, hplace]
  rfl

theorem busWrite_stack {n off : Nat} (hplace : placeOf a = .stack n off) : s.busWrite req a v none = s.stackPut n off a v := by
  obtain ⟨h4, hfirst, hsecond⟩ := hplain
  obtain ⟨rfl, rfl⟩ := stack_of_placeOf hplace
  rw [busWrite, if_neg (by omega), hfirst, hsecond, hplace]
  simp only [Bool.false_eq_true, if_false, stackWrite]

theorem busWrite_region {r i : Nat} {w : RegRow} (hplace : placeOf a = .regionReg r w i) :
    s.busWrite req a v none = if s.reachable r then (0, s.regionWrite r w i req a v.toNat) else (2, s) := by
  obtain ⟨h4, hfirst, hsecond⟩ := hplain
  rw [busWrite, if_neg (by omega), hfirst, hsecond, hplace]
  simp only [Bool.false_eq_true, if_false]

theorem busWrite_cluster {r c i : Nat} {w : RegRow} (hplace : placeOf a = .clusterReg r c w i) :
    s.busWrite req a v none = if s.reachable r then (0, s.regWrite (.clusterReg r c w i) w req a v.toNat) else (2, s) := by
  obtain ⟨h4, hfirst, hsecond⟩ := hplain
  rw [busWrite, if_neg (by omega), hfirst, hsecond, hplace]
  rfl

/-- The memory windows of a cluster: each takes its word as a raw write (R146). -/
theorem busWrite_window {r c off tile : Nat} {row : Place × State}
    (hrow : row ∈ [(Place.weight r c off, s.tileWrite r c (off / 16384) (off % 16384) (leBytes 4 v.toNat)),
      (.spRaw r c off, s.spRawWrite r c off v), (.prog r c off, s.progRawWrite r c off v), (.tagArray r c tile, s.tagWrite r c tile v)])
    (hplace : placeOf a = row.1) : s.busWrite req a v none = s.rawWrite r c fun _ => row.2 := by
  obtain ⟨h4, hfirst, hsecond⟩ := hplain
  rw [busWrite, if_neg (by omega), hfirst, hsecond, hplace]
  simp only [List.mem_cons, List.not_mem_nil, or_false] at hrow
  obtain rfl | rfl | rfl | rfl := hrow <;> rfl

end

/-! ### A raw write -/

theorem rawWrite_disabled {r c : Nat} (f : State → State) (hreach : s.reachable r = true) (hoff : s.enabled r c = false) :
    s.rawWrite r c f = (0, f s) := by
  rw [rawWrite, hreach, hoff]
  rfl

theorem rawWrite_enabled {r c : Nat} (f : State → State) (hreach : s.reachable r = true) (hon : s.enabled r c = true) :
    s.rawWrite r c f = (1, s) := by
  rw [rawWrite, hreach, hon]
  rfl

theorem rawWrite_unreachable {r c : Nat} (f : State → State) (hreach : s.reachable r = false) : s.rawWrite r c f = (2, s) := by
  rw [rawWrite, hreach]
  rfl

/-! ### A write of a stack's word (R17, R369) -/

section
variable {n off a : Nat} {v : Word} {t : State}

theorem stackPut_ok (h : s.dramWrite n off (leBytes 4 v.toNat) = (.ok (), t)) : s.stackPut n off a v = (0, t) := by
  rw [stackPut, h]

theorem stackPut_absent (h : s.dramWrite n off (leBytes 4 v.toNat) = (.error .absent, t)) :
    s.stackPut n off a v = if t.blocked then (2, s.hold (.write a v)) else (1, t) := by
  rw [stackPut, h]

theorem stackPut_fenced {l : DramLoc} (h : s.dramWrite n off (leBytes 4 v.toNat) = (.error (.fenced l), t)) :
    s.stackPut n off a v = (2, t) := by
  rw [stackPut, h]

end

/-! ### Registers and what their write starts -/

/-- A register of the edge window whose write starts nothing takes its value by the access of its fields (R455). -/
theorem edgeWrite_plain {w : RegRow} (i a v : Nat) (hoff : w.off ∉ starts) :
    s.edgeWrite w i req a v none = s.regWrite (.edgeReg w i) w req a v := by
  unfold edgeWrite
  simp only [starts, List.mem_cons, List.not_mem_nil, or_false, not_or] at hoff
  obtain ⟨h1, h2, h3, h4, h5, h6, h7, h8, h9, h10, h11, h12, h13, h14⟩ := hoff
  split
  case h_15 => rfl
  all_goals exact absurd ‹w.off = _› ‹_›

/-- HB_MEMBER 0 names the module itself and stays (R321). -/
theorem edgeWrite_hbMember {w : RegRow} (i a v : Nat) (hoff : w.off = 0x22040) :
    s.edgeWrite w i req a v none = if i = 0 then s else s.regWrite (.edgeReg w i) w req a v := by
  simp only [edgeWrite, hoff]

/-- CQHEAD makes room: the ABORTs that wait are tried again (R256). -/
theorem edgeWrite_cqhead {w : RegRow} (i a v : Nat) (hoff : w.off = 0x1101C) :
    s.edgeWrite w i req a v none = (s.regWrite (.edgeReg w i) w req a v).retryAborts := by
  simp only [edgeWrite, hoff]

/-- RCFG keeps a size outside 8 to 20 out of a disabled ring pair (R241). -/
theorem edgeWrite_rcfg {w : RegRow} (i a v : Nat) (hoff : w.off = 0x11010) :
    s.edgeWrite w i req a v none = if s.flag (Rg.RCFG_EN i) then s.regWrite (.edgeReg w i) w req a v
      else s.regWrite (.edgeReg w i) w req a (rcfgValue (s.rd a) v) := by
  simp only [edgeWrite, hoff]

theorem edgeWrite_refCtl {w : RegRow} (i a v : Nat) (hoff : w.off = 0x30100) :
    s.edgeWrite w i req a v none = s.refCtlWrite v := by
  simp only [edgeWrite, hoff]

/-- A changed preference, or REVERT, selects the reference again (R347). -/
theorem refCtl_eq (s : State) (v : Nat) :
    s.refCtl v = if v % 2 ≠ s.rd Rg.REF_CTL % 2 ∨ v.testBit 1 = true then (s.wr Rg.REF_CTL (v % 4)).refSelect
      else s.wr Rg.REF_CTL (v % 4) := by
  rfl

/-- A register of a region whose write starts nothing takes its value by the access of its fields (R455). -/
theorem regionWrite_plain {w : RegRow} (r i a v : Nat) (hoff : w.off ∉ regionStarts) :
    s.regionWrite r w i req a v = s.regWrite (.regionReg r w i) w req a v := by
  unfold regionWrite
  simp only [regionStarts, List.mem_cons, List.not_mem_nil, or_false, not_or] at hoff
  obtain ⟨h1, h2, h3, h4, h5, h6⟩ := hoff
  split
  case h_7 => rfl
  all_goals exact absurd ‹w.off = _› ‹_›

theorem regionWrite_auPeak {w : RegRow} (r i a v : Nat) (hoff : w.off = 0x1F0000208) :
    s.regionWrite r w i req a v = if v.testBit 31 = true then s.setFld (Rg.AU_PEAK_PEAK r) 0 else s := by
  simp only [regionWrite, hoff, bit]
  rfl

theorem regionWrite_remapStat {w : RegRow} (r i a v : Nat) (hoff : w.off = 0x1F0000300) :
    s.regionWrite r w i req a v = s.remapWrite r w req a v := by
  simp only [regionWrite, hoff]

/-- A write of REMAPSTAT that takes effect asks for remaps, once per region (R416). -/
theorem remapWrite_eq (s : State) (r : Nat) (w : RegRow) (req : Requester) (a v : Nat) :
    s.remapWrite r w req a v =
      let t := s.regWrite (.regionReg r w 0) w req a v
      if s.blockOn (.regionReg r w 0) = true ∨ r ∈ t.loader.asked then t
      else { t with loader := { t.loader with asked := t.loader.asked ++ [r] } } := by
  refine if_congr ?_ rfl rfl
  rw [Bool.or_eq_true, List.contains_iff_mem]

theorem regionWrite_clksrc {w : RegRow} (r i a v : Nat) (hoff : w.off = 0x1F0000808) :
    s.regionWrite r w i req a v = s.clksrcWrite r v := by
  simp only [regionWrite, hoff]

/-- CLKSRC sets the order and the enables; an input disabled while in use is lost (R359). -/
theorem clksrcWrite_eq (s : State) (r v : Nat) :
    s.clksrcWrite r v =
      let k := s.fld (Rg.CLKSRC_SEL r)
      let t := (s.setFld (Rg.CLKSRC_ORDER r) (bits v 15 8)).setFld (Rg.CLKSRC_INEN r) (bits v 3 0)
      let gone := t.inputInUse r k && t.inputOk r k && !t.inputOn r k
      if gone then (t.inputGone r true).depthChanged r else t.inputGone r false := by
  simp only [clksrcWrite]
  split
  case isTrue hgone => rw [hgone]
  case isFalse hgone => rw [Bool.eq_false_iff.mpr hgone]

end State

theorem exec_registerWrite (req : Requester) (a : BitVec 48) (v : Word) (s : State) :
    exec (.registerWrite req a v) s = .next (s.accessWrite req a.toNat v none) := rfl

/-- An aligned write that reaches its node, is not of a guarded register, and is done there with status `st`. -/
theorem exec_registerWrite_arrived {req : Requester} {a : BitVec 48} {v : Word} {s t : State} {st : Nat} (hon : s.answers req = true)
    (h4 : a.toNat % 4 = 0) (hpath : s.routed a.toNat = true) (hbus : s.busWrite req a.toNat v none = (st, t)) :
    exec (.registerWrite req a v) s = .next (t.emit (.access req st none)) := by
  rw [exec_registerWrite, State.accessWrite_arrived v hon (fun h => h.2 h4) hpath hbus]

/-- Settles O24: each kind of address by what its node does with the write. -/
theorem writesCompleteByTheirAddress : Obligations.WritesCompleteByTheirAddress := by
  intro req a v s hon run silent
  refine ⟨fun h4 hhost => ?host, fun h4 hhost hpath => ?misaligned, fun h4 hlost => ?lost, fun h4 hfirst hsecond hpath => ?aligned⟩
  case host =>
    subst hhost
    exact congrArg Host.Outcome.next (State.accessWrite_hostMisaligned v hon h4)
  case misaligned =>
    exact congrArg Host.Outcome.next
      (State.accessWrite_arrived v hon (fun h => hhost h.1) hpath (State.busWrite_misaligned v h4))
  case lost => exact congrArg Host.Outcome.next (State.accessWrite_lost v hon h4 hlost)
  case aligned =>
    have hplain : a.toNat % 4 = 0 ∧ guardedFirst a.toNat = false ∧ guardedSecond a.toNat = false := ⟨h4, hfirst, hsecond⟩
    have harrived {st : Nat} {t : State} (hbus : s.busWrite req a.toNat v none = (st, t)) :
        run = .next (t.emit (.access req st none)) := exec_registerWrite_arrived hon h4 hpath hbus
    refine ⟨fun hplace => ?none, fun w i hplace => ?edge, fun off hplace => ?cmem, fun n off hplace => ?dram,
      fun r w i hplace => ?region, fun r c w i hplace => ?cluster, fun r c off tile row hrow hplace => ?window⟩
    case none => exact harrived (State.busWrite_none hplain hplace)
    case edge =>
      intro plain size sized ref picked
      have hedge := harrived (State.busWrite_edge hplain hplace)
      refine ⟨fun hoff => ?_, fun hoff => ?_, fun hoff => ?_, fun hoff => ?_, fun hoff => ?_⟩
      · rw [hedge, State.edgeWrite_plain _ _ _ hoff, answered]
      · rw [hedge, State.edgeWrite_hbMember _ _ _ hoff, answered]
      · rw [hedge, State.edgeWrite_cqhead _ _ _ hoff]
        rfl
      · rw [hedge, State.edgeWrite_rcfg _ _ _ hoff]
        rfl
      · rw [hedge, State.edgeWrite_refCtl _ _ _ hoff, State.refCtlWrite, State.refCtl_eq, answered]
    case cmem => exact harrived (State.busWrite_cmem hplain hplace)
    case dram =>
      intro x
      have hstack := State.busWrite_stack (s := s) (req := req) (v := v) hplain hplace
      refine ⟨fun hok => ?_, fun habsent hfree => ?_, fun habsent hheld => ?_, fun l hfenced => ?_⟩
      · exact harrived (hstack.trans (State.stackPut_ok (Prod.ext hok rfl)))
      · exact harrived (hstack.trans ((State.stackPut_absent (Prod.ext habsent rfl)).trans (if_neg (by rw [hfree]; decide))))
      · exact harrived (hstack.trans ((State.stackPut_absent (Prod.ext habsent rfl)).trans (if_pos hheld)))
      · exact harrived (hstack.trans (State.stackPut_fenced (Prod.ext hfenced rfl)))
    case region =>
      intro plain
      have hregion := State.busWrite_region (s := s) (req := req) (v := v) hplain hplace
      refine ⟨fun hreach => ?_, fun hsilent => harrived (hregion.trans (if_neg (by rw [hsilent]; decide)))⟩
      have hdone := harrived (hregion.trans (if_pos hreach))
      refine ⟨fun hoff => ?_, fun hoff => ?_, fun hoff => ?_, fun hoff => ?_⟩
      · rw [hdone, State.regionWrite_plain _ _ _ _ hoff, answered]
      · rw [hdone, State.regionWrite_auPeak _ _ _ _ hoff, answered]
      · rw [hdone, State.regionWrite_remapStat _ _ _ _ hoff, State.remapWrite_eq]
        rfl
      · rw [hdone, State.regionWrite_clksrc _ _ _ _ hoff, State.clksrcWrite_eq]
        rfl
    case cluster =>
      have hcluster := State.busWrite_cluster (s := s) (req := req) (v := v) hplain hplace
      exact ⟨fun hreach => harrived (hcluster.trans (if_pos hreach)),
        fun hsilent => harrived (hcluster.trans (if_neg (by rw [hsilent]; decide)))⟩
    case window =>
      have hwindow := State.busWrite_window (req := req) hplain hrow hplace
      exact ⟨fun hreach hoff => harrived (hwindow.trans (State.rawWrite_disabled _ hreach hoff)),
        fun hreach hen => harrived (hwindow.trans (State.rawWrite_enabled _ hreach hen)),
        fun hsilent => harrived (hwindow.trans (State.rawWrite_unreachable _ hsilent))⟩

end Sys2Proof.Machine
end

section
/-!
PROOFS. Configuration writes that an enabled block ignores (R461 to R463).
-/
namespace Sys2Proof.Machine
open Sys2Proof.Claims

/-- A write names a configuration field with another value while the block is enabled (R462). -/
theorem RegRow.ignored_iff (w : RegRow) (en : Bool) (old v : Nat) :
    w.ignored en old v = true ↔ en = true ∧ old &&& w.rwd ≠ v &&& w.rwd := by
  rw [RegRow.ignored, Bool.and_eq_true, bne_iff_ne]

namespace State
variable {s : State} {req : Requester}

/-- A register takes its value by the access of its fields, and an ignored field is captured (R455, R462). -/
theorem regWrite_eq (s : State) (p : Place) (w : RegRow) (req : Requester) (a v : Nat) :
    s.regWrite p w req a v =
      if s.blockOn p = true ∧ s.rd a &&& w.rwd ≠ v &&& w.rwd then (s.wr a (w.written (s.blockOn p) (s.rd a) v)).cfgIgn p req a
      else s.wr a (w.written (s.blockOn p) (s.rd a) v) :=
  if_congr (w.ignored_iff _ _ _) rfl rfl

/-- What an ignored write of a register of the edge window leaves: its block's bit, and the first access that was ignored (R462). -/
theorem cfgIgn_edge {w : RegRow} {k : Nat} (hbit : w.blk.ignBit = k) (i a : Nat) :
    s.cfgIgn (.edgeReg w i) req a =
      let t := s.wr Rg.EDGE_CFGIGN (s.rd Rg.EDGE_CFGIGN ||| 2 ^ k)
      if t.flag Rg.CFGIGN_CAP1_VALID then t
      else (t.wr Rg.CFGIGN_CAP0 (a % 2 ^ 32)).wr Rg.CFGIGN_CAP1 (2 ^ 31 + 2 ^ 16 * requesterCode req + a / 2 ^ 32 % 65536) := by
  subst hbit
  rfl

/-- The blocks of the edge window with configuration fields: their bit of EDGE_CFGIGN, and whether they are enabled (R461, R462);
`i` is the ring pair of a register of the ring pairs. -/
def edgeBlocks (s : State) (i : Nat) : List (Blk × Nat × Bool) :=
  let img := s.fld Rg.IMG_STAT_STATE
  [(.kv, 0, decide (2 ≤ img)), (.serving, 1, img == 3 || img == 4), (.ring, 2, s.flag (Rg.RCFG_EN i)),
    (.loader, 3, s.fld Rg.WLD_STAT_STATE != 0 && s.fld Rg.WLD_STAT_STATE != 5),
    (.port, 4, decide (2 ≤ img) && !(s.gop.hold == 5 && s.gop.held)),
    (.boot, 5, s.fld Rg.BOOT_STAT_STATE != 0 && s.fld Rg.BOOT_STAT_STATE != 4)]

theorem imgInForce_eq (s : State) : s.imgInForce = (s.fld Rg.IMG_STAT_STATE == 3 || s.fld Rg.IMG_STAT_STATE == 4) := by
  rw [imgInForce]
  generalize s.fld Rg.IMG_STAT_STATE = img
  rw [Bool.eq_iff_iff]
  simp only [Bool.and_eq_true, Bool.or_eq_true, decide_eq_true_eq, beq_iff_eq]
  omega

/-- The table of blocks is what governs a register of the edge window. -/
theorem blockOn_edge {w : RegRow} {i k : Nat} {on : Bool} (h : (w.blk, k, on) ∈ s.edgeBlocks i) :
    s.blockOn (.edgeReg w i) = on ∧ w.blk.ignBit = k := by
  simp only [edgeBlocks, List.mem_cons, List.not_mem_nil, or_false, Prod.mk.injEq] at h
  obtain ⟨hblk, rfl, rfl⟩ | ⟨hblk, rfl, rfl⟩ | ⟨hblk, rfl, rfl⟩ | ⟨hblk, rfl, rfl⟩ | ⟨hblk, rfl, rfl⟩ |
    ⟨hblk, rfl, rfl⟩ := h
  all_goals refine ⟨?_, by rw [hblk]; rfl⟩
  case inr.inl => simp only [blockOn, hblk, imgInForce_eq]
  all_goals simp only [blockOn, hblk, quiesced]

theorem blockOn_region {w : RegRow} {r i : Nat} (hblk : w.blk = .regionCtl) :
    s.blockOn (.regionReg r w i) = (!(s.gop.hold == 5 && s.gop.held) && !(s.enabledClusters r).isEmpty) := by
  rw [blockOn, hblk]
  rfl

theorem blockOn_cluster {w : RegRow} {r c i : Nat} (hblk : w.blk = .cluster ∨ w.blk = .weightTier) :
    s.blockOn (.clusterReg r c w i) = (!(s.gop.hold == 5 && s.gop.held) && s.enabled r c) := by
  obtain hblk | hblk := hblk <;> rw [blockOn, hblk] <;> rfl

end State

/-- Settles O26: a write that starts nothing leaves its register by the access of its fields; the block's row says whether it is
enabled and which flag the ignored write sets. -/
theorem ignoredConfigurationWritesAreCaptured : Obligations.IgnoredConfigurationWritesAreCaptured := by
  intro req a v s hon h4 hfirst hsecond hpath run img held caught took
  have hplain : a.toNat % 4 = 0 ∧ guardedFirst a.toNat = false ∧ guardedSecond a.toNat = false := ⟨h4, hfirst, hsecond⟩
  have harrived {t : State} (hbus : s.busWrite req a.toNat v none = (0, t)) : run = .next (answered req t) :=
    exec_registerWrite_arrived hon h4 hpath hbus
  refine ⟨fun w i hplace hoff k on hblk => ?edge, fun w i hplace hoff hen hblk => ?ring, fun r w i hplace hoff hblk hreach => ?region,
    fun r c w i hplace hblk hreach => ?cluster, fun t b n => ?counter⟩
  case edge =>
    obtain ⟨hen, hbit⟩ := State.blockOn_edge (s := s) hblk
    rw [harrived (State.busWrite_edge hplain hplace), State.edgeWrite_plain _ _ _ hoff, State.regWrite_eq, hen,
      State.cfgIgn_edge hbit]
  case ring =>
    have hblock : s.blockOn (.edgeReg w i) = true := by rw [State.blockOn, hblk]; exact hen
    rw [harrived (State.busWrite_edge hplain hplace), State.edgeWrite_rcfg _ _ _ hoff, if_pos hen, State.regWrite_eq, hblock,
      State.cfgIgn_edge (k := 2) (by rw [hblk]; rfl)]
  case region =>
    rw [harrived ((State.busWrite_region hplain hplace).trans (if_pos hreach)), State.regionWrite_plain _ _ _ _ hoff, State.regWrite_eq,
      State.blockOn_region hblk]
    rfl
  case cluster =>
    rw [harrived ((State.busWrite_cluster hplain hplace).trans (if_pos hreach)), State.regWrite_eq, State.blockOn_cluster hblk]
    rfl
  case counter => rw [State.rd_count, if_pos rfl]

end Sys2Proof.Machine
end

section
/-!
PROOFS. What the memories hold after a write (R121, R123, R129, R134, R212) and after a clear of control memory (R470).
-/
namespace Sys2Proof

namespace Store
variable {α : Type}

/-! ### What is listed after a write -/

theorem find_put (a b : Nat) (v : α) (m : List (Nat × α)) : find (put m a v) b = if b = a then some v else find m b := by
  induction m with
  | nil => simp only [put, find, eq_comm]
  | cons e m ih =>
    obtain ⟨k, w⟩ := e
    unfold put
    split
    · simp only [find, eq_comm]
    · split
      next heq => subst heq; simp only [find]; grind
      next hlt hne => simp only [find, ih]; grind

/-- A filter by address keeps what is listed at the addresses it accepts. -/
theorem find_filter (p : Nat → Bool) (b : Nat) (m : List (Nat × α)) :
    find (m.filter fun e => p e.1) b = if p b then find m b else none := by
  induction m with
  | nil => simp only [List.filter_nil, find, ite_self]
  | cons e m ih =>
    obtain ⟨k, w⟩ := e
    by_cases hk : p k = true
    · rw [List.filter_cons_of_pos (by exact hk)]
      simp only [find, ih]
      grind
    · rw [List.filter_cons_of_neg (by exact hk)]
      simp only [find, ih]
      grind

/-- Consecutive contents are at their addresses, and every other address is as before. -/
theorem get_setMany [DecidableEq α] (d : α) (b : Nat) (vs : List α) (m : List (Nat × α)) (a : Nat) :
    get d (setMany d m a vs) b = if a ≤ b ∧ b < a + vs.length then vs.getD (b - a) d else get d m b := by
  induction vs generalizing m a with
  | nil => rw [if_neg (by simp only [List.length_nil]; omega), setMany]
  | cons v vs ih =>
    rw [setMany, ih, get_set, List.length_cons]
    by_cases hfirst : b = a
    · subst hfirst
      rw [if_neg (by omega), if_pos rfl, if_pos (by omega), Nat.sub_self, List.getD_cons_zero]
    · rw [if_neg hfirst]
      refine ite_congr (propext (by omega)) (fun hin => ?_) (fun _ => rfl)
      obtain ⟨i, rfl⟩ : ∃ i, b = a + 1 + i := ⟨b - (a + 1), by omega⟩
      rw [Nat.add_sub_cancel_left, show a + 1 + i - a = i + 1 by omega, List.getD_cons_succ]

end Store

namespace Machine

/-! ### Bytes of a number -/

theorem bits_byte (x i : Nat) : bits x (8 * i + 7) (8 * i) = x / 256 ^ i % 256 := by
  rw [bits, Nat.shiftRight_eq_div_pow, show 8 * i + 7 + 1 - 8 * i = 8 by omega, Nat.pow_mul]
  rfl

/-- Byte `i` of the number of a list of bytes is byte `i` of the list. -/
theorem byte_leNat (bs : List Byte) (i : Nat) : BitVec.ofNat 8 (leNat bs / 256 ^ i % 256) = bs.getD i 0 := by
  induction bs generalizing i with
  | nil => simp [leNat]
  | cons b bs ih =>
    have hb := b.isLt
    cases i with
    | zero => rw [leNat, Nat.pow_zero, Nat.div_one, Nat.add_mul_mod_self_left, Nat.mod_eq_of_lt hb, BitVec.ofNat_toNat,
        BitVec.setWidth_eq, List.getD_cons_zero]
    | succ i =>
      rw [leNat, Nat.pow_succ', ← Nat.div_div_eq_div_mul, Nat.add_mul_div_left _ _ (by decide), Nat.div_eq_of_lt hb, Nat.zero_add, ih,
        List.getD_cons_succ]

theorem length_leBytes (n x : Nat) : (leBytes n x).length = n := by
  induction n generalizing x with
  | zero => rfl
  | succ n ih => rw [leBytes, List.length_cons, ih]

theorem getD_leBytes (n x i : Nat) (hi : i < n) : (leBytes n x).getD i 0 = BitVec.ofNat 8 (x / 256 ^ i % 256) := by
  induction n generalizing x i with
  | zero => omega
  | succ n ih =>
    cases i with
    | zero => rw [leBytes, List.getD_cons_zero, Nat.pow_zero, Nat.div_one]; exact BitVec.eq_of_toNat_eq (by simp)
    | succ i => rw [leBytes, List.getD_cons_succ, ih _ _ (by omega), Nat.pow_succ', Nat.div_div_eq_div_mul]

theorem leNat_lt (bs : List Byte) : leNat bs < 256 ^ bs.length := by
  induction bs with
  | nil => decide
  | cons b bs ih =>
    have hb := b.isLt
    rw [leNat, List.length_cons, Nat.pow_succ]
    omega

/-- The bytes in place are the new ones, the others the old. -/
theorem getD_spliced {old bs : List Byte} {o : Nat} (h : o + bs.length ≤ old.length) (i : Nat) :
    (spliced old o bs).getD i 0 = if o ≤ i ∧ i < o + bs.length then bs.getD (i - o) 0 else old.getD i 0 := by
  simp only [spliced, List.getD_eq_getElem?_getD, List.append_assoc, List.getElem?_append, List.length_take, List.getElem?_take,
    List.getElem?_drop]
  grind

theorem length_spliced {old bs : List Byte} {o : Nat} (h : o + bs.length ≤ old.length) : (spliced old o bs).length = old.length := by
  simp only [spliced, List.length_append, List.length_take, List.length_drop]
  omega

/-! ### Control memory -/

namespace State
variable {s : State}

/-- Word `k` of control memory is invalid or holds no error (R134). -/
def cmClean (s : State) (k : Nat) : Prop := ∀ x, Store.find s.cmem k = some x → x.flip = 0 ∧ x.twin = true

theorem ecc_clean {x : Cell} (h : x.flip = 0) : eccOf 72 x.flip.toNat = .clean := by
  rw [h]
  decide

theorem cmData_clean {x : Cell} (h : x.flip = 0) : cmData x = x.data := by
  unfold cmData
  split
  next hecc => exact nomatch (ecc_clean h).symm.trans hecc
  next => rfl

/-- A write of part of a word without error leaves one without error. -/
theorem narrowCell_clean {old : Option Cell} (h : ∀ x, old = some x → x.flip = 0 ∧ x.twin = true) (d : DWord) :
    narrowCell old d = Cell.ofWord d := by
  cases old with
  | none => rfl
  | some x =>
    obtain ⟨hflip, htwin⟩ := h x rfl
    simp only [narrowCell, htwin, if_true, narrowFlip, ecc_clean hflip]
    rfl

/-- The part of a write that falls in word `k`: a word without error takes the bytes and holds no error. -/
theorem find_cmPut {w : Nat × List Byte} {k : Nat} (hclean : s.cmClean k) :
    Store.find (s.cmPut w).cmem k = if k = w.1 / 8
      then some (Cell.ofWord (BitVec.ofNat 64 (leNat (spliced (leBytes 8 (s.cmWord k).toNat) (w.1 % 8) w.2))))
      else Store.find s.cmem k := by
  rw [cmPut, Store.find_put]
  split
  next hk =>
    subst hk
    rw [narrowCell_clean hclean, ite_self]
  next => rfl

theorem cmClean_cmPut {k : Nat} (hclean : s.cmClean k) (w : Nat × List Byte) : (s.cmPut w).cmClean k := by
  intro x hx
  rw [find_cmPut hclean] at hx
  split at hx
  next =>
    cases hx
    exact ⟨rfl, rfl⟩
  next => exact hclean x hx

theorem cmByte_eq (s : State) (b : Nat) : s.cmByte b = BitVec.ofNat 8 ((s.cmWord (b / 8)).toNat / 256 ^ (b % 8) % 256) := by
  rw [cmByte, bits_byte]

/-- A part of a write, inside one word: its bytes read as written, and every other byte as before. -/
theorem cmByte_cmPut {w : Nat × List Byte} {b : Nat} (hclean : s.cmClean (b / 8)) (hfit : w.1 % 8 + w.2.length ≤ 8) :
    (s.cmPut w).cmByte b = if w.1 ≤ b ∧ b < w.1 + w.2.length then w.2.getD (b - w.1) 0 else s.cmByte b := by
  rw [cmByte_eq, cmWord, find_cmPut hclean]
  by_cases hword : b / 8 = w.1 / 8
  · have hlen : w.1 % 8 + w.2.length ≤ (leBytes 8 (s.cmWord (b / 8)).toNat).length := by rwa [length_leBytes]
    have hlt := leNat_lt (spliced (leBytes 8 (s.cmWord (b / 8)).toNat) (w.1 % 8) w.2)
    rw [length_spliced hlen, length_leBytes, show 256 ^ 8 = 2 ^ 64 by decide] at hlt
    rw [if_pos hword, Option.map_some, Option.getD_some, cmData_clean rfl, Cell.ofWord, BitVec.toNat_ofNat, Nat.mod_eq_of_lt hlt,
      byte_leNat, getD_spliced hlen, getD_leBytes _ _ _ (by omega), ← cmByte_eq]
    refine ite_congr (propext (by omega)) (fun _ => ?_) (fun _ => rfl)
    rw [show b % 8 - w.1 % 8 = b - w.1 by omega]
  · rw [if_neg hword, if_neg (by omega), cmByte_eq]
    rfl

/-- A write by its parts, for any bound on their number that is enough. -/
theorem cmByte_wordParts {b : Nat} (n a : Nat) (bs : List Byte) (hn : bs.length ≤ n) (hclean : s.cmClean (b / 8)) :
    ((wordParts n a bs).foldl cmPut s).cmByte b = if a ≤ b ∧ b < a + bs.length then bs.getD (b - a) 0 else s.cmByte b := by
  induction n generalizing s a bs with
  | zero => rw [wordParts, List.foldl_nil, if_neg (by omega)]
  | succ n ih =>
    rw [wordParts]
    by_cases hempty : bs = []
    · subst hempty
      rw [List.isEmpty_nil, if_pos rfl, List.foldl_nil, if_neg (by simp only [List.length_nil]; omega)]
    · have hne : 0 < bs.length := List.length_pos_iff.mpr hempty
      have hlen : (bs.take (8 - a % 8)).length = min (8 - a % 8) bs.length := List.length_take
      rw [if_neg (by simpa using hempty), List.foldl_cons, ih _ _ (by rw [List.length_drop]; omega) (cmClean_cmPut hclean _),
        cmByte_cmPut hclean (by dsimp only; omega), List.length_drop]
      simp only [hlen, List.getD_eq_getElem?_getD, List.getElem?_drop, List.getElem?_take]
      grind

theorem cmByte_cmSetBytes {b : Nat} (a : Nat) (bs : List Byte) (hclean : s.cmClean (b / 8)) :
    (s.cmSetBytes a bs).cmByte b = if a ≤ b ∧ b < a + bs.length then bs.getD (b - a) 0 else s.cmByte b :=
  cmByte_wordParts _ a bs (Nat.le_refl _) hclean

/-- The end of a clear: only words outside its range, and those written since that it did not reach again, stay listed (R470). -/
theorem find_clearEnd {w n : Nat} {keep : List Nat} (h : s.crypto.clear = some (w, n, keep)) (x : Nat) :
    Store.find s.clearEnd.cmem x = if w ≤ x ∧ x < w + n ∧ x ∉ keep then none else Store.find s.cmem x := by
  rw [clearEnd, h, setFld_cmem, Store.find_filter fun k => k < w || w + n ≤ k || keep.contains k]
  simp only [Bool.or_eq_true, decide_eq_true_eq, List.contains_iff_mem]
  grind

/-! ### DRAM -/

/-- A key names its stack, channel and word. -/
theorem dramKey_inj {n m ch dh b d : Nat} (hch : ch < 32) (hdh : dh < 32) (hb : b < 2 ^ 32) (hd : d < 2 ^ 32) :
    dramKey m dh d = dramKey n ch b ↔ m = n ∧ dh = ch ∧ d / 8 = b / 8 := by
  unfold dramKey
  omega

/-- A word of DRAM reads as written, and every other word as before. -/
theorem dramCell_setDramCell {n m ch dh b d : Nat} (x : DCell) (hch : ch < 32) (hdh : dh < 32) (hb : b < 2 ^ 32) (hd : d < 2 ^ 32) :
    (s.setDramCell n ch b x).dramCell m dh d = if m = n ∧ dh = ch ∧ d / 8 = b / 8 then x else s.dramCell m dh d := by
  have hkey := dramKey_inj (n := n) (m := m) hch hdh hb hd
  simp only [dramCell, setDramCell, Store.get_set, hkey]
  by_cases hsame : m = n ∧ dh = ch ∧ d / 8 = b / 8
  · simp only [if_pos hsame]
    obtain ⟨rfl, rfl, hword⟩ := hsame
    rw [hkey.mpr ⟨rfl, rfl, hword⟩]
    split
    next => rfl
    next => rw [BitVec.xor_assoc, BitVec.xor_self, BitVec.xor_zero]
  · simp only [if_neg hsame]

/-! ### A cluster's memories -/

theorem cluster_key {r q : Fin 96} {c d : Fin 28} : 28 * q.val + d.val = 28 * r.val + c.val ↔ q = r ∧ d = c := by
  have hc := c.isLt
  have hd := d.isLt
  constructor
  · intro h
    exact ⟨Fin.ext (by omega), Fin.ext (by omega)⟩
  · rintro ⟨rfl, rfl⟩
    rfl

/-- A change of cluster `c` of region `r` leaves the others. -/
theorem cluster_modCluster_site (s : State) (r q : Fin 96) (c d : Fin 28) (f : Cluster → Cluster) :
    (s.modCluster r c f).cluster q d = if q = r ∧ d = c then f (s.cluster q d) else s.cluster q d := by
  rw [cluster_modCluster]
  simp only [cluster_key]
  split
  next h => obtain ⟨rfl, rfl⟩ := h; rfl
  next => rfl

theorem find_spPut (s : State) (r q : Fin 96) (c d : Fin 28) (key : Nat) (x : Cell) (a : Nat) :
    Store.find ((s.spPut r c key x).cluster q d).sp a =
      if q = r ∧ d = c ∧ a = key then some x else Store.find (s.cluster q d).sp a := by
  rw [spPut, cluster_modCluster_site]
  split
  next h => rw [Store.find_put]; simp only [h, true_and]
  next h => exact (if_neg fun hin => h ⟨hin.1, hin.2.1⟩).symm

theorem get_tileWrite (s : State) (r q : Fin 96) (c d : Fin 28) (t o : Nat) (bs : List Byte) (a : Nat) :
    Store.get 0 ((s.tileWrite r c t o bs).cluster q d).wt a =
      if q = r ∧ d = c ∧ s.wtAddr r c t o ≤ a ∧ a < s.wtAddr r c t o + bs.length then bs.getD (a - s.wtAddr r c t o) 0
      else Store.get 0 (s.cluster q d).wt a := by
  rw [tileWrite, cluster_modCluster_site]
  split
  next h => rw [Store.get_setMany]; simp only [h, true_and]
  next h => exact (if_neg fun hin => h ⟨hin.1, hin.2.1⟩).symm

theorem get_tileTag (s : State) (r q : Fin 96) (c d : Fin 28) (t : Nat) (tag : Word) (a : Nat) :
    Store.get 0 ((s.tileTag r c t tag).cluster q d).tags a =
      if q = r ∧ d = c ∧ a = t then tag else Store.get 0 (s.cluster q d).tags a := by
  rw [tileTag, cluster_modCluster_site]
  split
  next h => rw [Store.get_set]; simp only [h, true_and]
  next h => exact (if_neg fun hin => h ⟨hin.1, hin.2.1⟩).symm

end State

theorem exec_cmclrDone (s : State) : exec .cmclrDone s = .next s.clearEnd := rfl

/-- Settles O35: what is found after each of the writes, from the laws of sparse memories. -/
theorem clearedControlMemoryReadsAsZero : Obligations.ClearedControlMemoryReadsAsZero := by
  refine ⟨fun w n keep s hclear => ?clear, fun a b bs s hclean => State.cmByte_cmSetBytes a bs hclean,
    fun n m ch dh b d x s hch hdh hb hd => State.dramCell_setDramCell x hch hdh hb hd,
    fun r q c d s => ⟨fun key a x => s.find_spPut r q c d key x a, fun t o bs a => s.get_tileWrite r q c d t o bs a,
      fun t tag a => s.get_tileTag r q c d t tag a, fun hwf => ?canonical⟩⟩
  case clear =>
    refine ⟨s.clearEnd, exec_cmclrDone s, ?_, ?_, State.find_clearEnd hclear, stored_clearEnd s⟩
    · rw [State.clearEnd, hclear, State.fld_setFld _ _ _ (by decide) (by decide)]
      rfl
    · rw [State.clearEnd, hclear]
      rfl
  case canonical =>
    exact ⟨fun a bs => stored_cmSetBytes s a bs hwf, fun n ch b x => stored_setDramCell s n ch b x hwf,
      fun key x => stored_spPut s r c key x hwf, fun t o bs => stored_tileWrite s r c t o bs hwf,
      fun t tag => stored_tileTag s r c t tag hwf, fun off v => stored_progRawWrite s r c off v hwf⟩

end Machine
end Sys2Proof
end

section
/-!
PROOFS. Reads by what their address holds (R131, R134, R145, R146, R212, R436, R455) and writes of the tag array (R128).
-/
namespace Sys2Proof.Machine
open Sys2Proof.Claims

/-! ### Parts of a little-endian number -/

theorem leNat_take (bs : List Byte) (n : Nat) : leNat (bs.take n) = leNat bs % 256 ^ n := by
  induction bs generalizing n with
  | nil => rw [List.take_nil, leNat, Nat.zero_mod]
  | cons b bs ih =>
    cases n with
    | zero => rw [List.take_zero, leNat, Nat.pow_zero, Nat.mod_one]
    | succ n =>
      have hb := b.isLt
      rw [List.take_succ_cons, leNat, leNat, ih, Nat.pow_succ', Nat.mod_mul, Nat.add_mul_mod_self_left, Nat.mod_eq_of_lt hb,
        Nat.add_mul_div_left _ _ (by decide), Nat.div_eq_of_lt hb, Nat.zero_add]

theorem leNat_drop (bs : List Byte) (n : Nat) : leNat (bs.drop n) = leNat bs / 256 ^ n := by
  induction bs generalizing n with
  | nil => rw [List.drop_nil, leNat, Nat.zero_div]
  | cons b bs ih =>
    cases n with
    | zero => rw [List.drop_zero, Nat.pow_zero, Nat.div_one]
    | succ n =>
      have hb := b.isLt
      rw [List.drop_succ_cons, ih, leNat, Nat.pow_succ', ← Nat.div_div_eq_div_mul, Nat.add_mul_div_left _ _ (by decide),
        Nat.div_eq_of_lt hb, Nat.zero_add]

theorem leNat_leBytes (n x : Nat) : leNat (leBytes n x) = x % 256 ^ n := by
  induction n generalizing x with
  | zero => rw [leBytes, leNat, Nat.pow_zero, Nat.mod_one]
  | succ n ih => rw [leBytes, leNat, ih, Nat.pow_succ', Nat.mod_mul, BitVec.toNat_ofNat]

/-- Four bytes of a 64-bit word. -/
theorem leNat_half (d : DWord) (o : Nat) : leNat (((ofWords [d]).drop o).take 4) = bits d.toNat (8 * o + 31) (8 * o) := by
  have hd : d.toNat < 256 ^ 8 := d.isLt
  rw [leNat_take, leNat_drop, ofWords, List.flatMap_singleton, leNat_leBytes, Nat.mod_eq_of_lt hd, bits,
    Nat.shiftRight_eq_div_pow, Nat.pow_mul, show 8 * o + 31 + 1 - 8 * o = 32 by omega]
  rfl

namespace State
variable {s : State} {req : Requester} {a : Nat}

/-! ### What a node does with an aligned read -/

section
variable (h4 : a % 4 = 0)
include h4

/-- The second address of a guarded register reads 0; an unimplemented address is a bus error (R454, R458). -/
theorem busRead_none (hplace : placeOf a = .none) : s.busRead req a = if guardedSecond a then (0, 0, s) else (1, 0, s) := by
  rw [busRead, if_neg (by omega), hplace]

theorem busRead_region {r i : Nat} {w : RegRow} (hplace : placeOf a = .regionReg r w i) :
    s.busRead req a = if s.reachable r then (0, s.regionRead r w.off i (s.rd a), s) else (2, 0, s) := by
  rw [busRead, if_neg (by omega), hplace]

theorem busRead_cluster {r c i : Nat} {w : RegRow} (hplace : placeOf a = .clusterReg r c w i) :
    s.busRead req a = if s.reachable r then (0, s.rd a, s) else (2, 0, s) := by
  rw [busRead, if_neg (by omega), hplace]

theorem busRead_cmem {off : Nat} (hplace : placeOf a = .cmem off) : s.busRead req a = s.cmHalf req off := by
  rw [busRead, if_neg (by omega), hplace]

theorem busRead_stack {n off : Nat} (hplace : placeOf a = .stack n off) : s.busRead req a = s.stackRead n off := by
  rw [busRead, if_neg (by omega), hplace]

/-- What a memory window of a disabled cluster gives (R146). -/
def windowRead (s : State) (a : Nat) : Place → Nat × Nat × State
  | .weight r c off => (0, leNat (Store.getMany 0 (s.cluster r c).wt (s.wtAddr r c (off / 16384) (off % 16384)) 4), s)
  | .tagArray r c t => (0, (Store.get 0 (s.cluster r c).tags t).toNat, s)
  | .spRaw r c off => s.spRawRead r c a off
  | .prog r c off => s.progRawRead r c a off
  | _ => (1, 0, s)

/-- A read of a memory window of a cluster (R146). -/
theorem busRead_window {r c off t : Nat} {q : Place}
    (hq : q ∈ [Place.weight r c off, .spRaw r c off, .prog r c off, .tagArray r c t]) (hplace : placeOf a = q) :
    s.busRead req a = if !s.reachable r then (2, 0, s) else if s.enabled r c then (1, 0, s) else s.windowRead a q := by
  rw [busRead, if_neg (by omega), hplace]
  simp only [List.mem_cons, List.not_mem_nil, or_false] at hq
  obtain rfl | rfl | rfl | rfl := hq <;> rfl

end

/-! ### Registers that read as they are held (R455) -/

theorem edgeRead_held {off : Nat} (i v : Nat) (hown : off ∉ [0x1011C, 0x20010, 0x30004, 0x3000C, 0x5000C, 0x60010, 0x51000, 0x51400])
    (hfuse : off < 0x70000 ∨ 0x70200 ≤ off) : s.edgeRead off i v = v := by
  simp only [List.mem_cons, List.not_mem_nil, or_false, not_or] at hown
  obtain ⟨h1, h2, h3, h4, h5, h6, h7, h8⟩ := hown
  unfold edgeRead
  rw [if_neg (by omega)]
  split
  case h_9 => rfl
  all_goals exact absurd rfl ‹_›

theorem regionRead_held {off : Nat} (r i v : Nat)
    (hown : off ∉ [0x1F0001000, 0x1F0000320, 0x1F0002000, 0x1F0002400, 0x1F0000000, 0x1F0004130, 0x1F0005010]) :
    s.regionRead r off i v = v := by
  simp only [List.mem_cons, List.not_mem_nil, or_false, not_or] at hown
  obtain ⟨h1, h2, h3, h4, h5, h6, h7⟩ := hown
  unfold regionRead
  split
  case h_8 => rfl
  all_goals exact absurd rfl ‹_›

/-- A read of TB_LO gives the low word of the time base and captures the high one (R436). -/
theorem busRead_tbLo (s : State) (req : Requester) :
    s.busRead req Rg.TB_LO = (0, s.ns % 2 ^ 32, s.wr Rg.TB_HI (s.ns / 2 ^ 32 % 2 ^ 32)) := by
  obtain ⟨w, i, hplace, hoff⟩ := placeOf_edge_at Rg.TB_LO (by decide) (by decide)
  have hread : s.edgeRead w.off i (s.rd Rg.TB_LO) = s.ns % 2 ^ 32 := by
    rw [hoff]
    rfl
  rw [busRead, if_neg (by decide), hplace]
  simp only [hread, if_true]

/-! ### Control memory (R134) -/

section
variable {off : Nat} (hclear : s.clearing (off / 8) = false)
include hclear

theorem cmHalf_read {d : DWord} (h : ∀ who, s.cmRead (off / 8) who = (some d, s)) :
    s.cmHalf req off = (0, bits d.toNat (8 * (off % 8) + 31) (8 * (off % 8)), s) := by
  simp only [cmHalf, h, hclear]
  rfl

omit hclear in
theorem cmHalf_bad {t : Nat → State} (h : ∀ who, s.cmRead (off / 8) who = (none, t who)) :
    s.cmHalf req off = (1, 0, { t (s.cmReader req).1 with free := (s.cmReader req).2.free }) := by
  simp only [cmHalf, h]

end

theorem cmRead_invalid {w : Nat} (h : Store.find s.cmem w = none) (who : Nat) : s.cmRead w who = (some 0, s) := by
  rw [cmRead, h]

/-- An invalid word of control memory reads as zero (R134). -/
theorem cmHalf_invalid {off : Nat} (hclear : s.clearing (off / 8) = false) (h : Store.find s.cmem (off / 8) = none) :
    s.cmHalf req off = (0, 0, s) := by
  have hzero : bits (0 : DWord).toNat (8 * (off % 8) + 31) (8 * (off % 8)) = 0 := by
    simp only [bits, BitVec.ofNat_eq_ofNat, BitVec.toNat_ofNat, Nat.zero_mod, Nat.zero_shiftRight]
  rw [cmHalf_read hclear (cmRead_invalid h), hzero]

section
variable {w : Nat} {x : Cell} (h : Store.find s.cmem w = some x)
include h

theorem cmRead_clean (htwin : x.twin = true) (hecc : eccOf 72 x.flip.toNat = .clean) (who : Nat) : s.cmRead w who = (some x.data, s) := by
  simp only [cmRead, h, htwin, hecc]
  rfl

theorem cmRead_corrected {q : Nat} (htwin : x.twin = true) (hecc : eccOf 72 x.flip.toNat = .corrected q) (who : Nat) :
    s.cmRead w who = (some (x.data ^^^ BitVec.ofNat 64 q), s) := by
  simp only [cmRead, h, htwin, hecc]
  rfl

theorem cmRead_bad (hbad : x.twin = false ∨ eccOf 72 x.flip.toNat = .bad) (who : Nat) :
    s.cmRead w who = (none, s.log 96 { code := 0x410, cluster := 0xFE, loc0 := 8 * w, loc1 := who }) := by
  simp only [cmRead, h]
  obtain htwin | hecc := hbad
  · rw [if_pos (by rw [htwin]; rfl)]
  · rw [hecc]
    exact ite_self _

end

/-! ### Stacks (R212, R369) -/

section
variable {n off : Nat} (h4 : off % 4 = 0)
include h4

theorem dramWords_half (s : State) : s.dramWords n (off / 8 * 8) ((off % 8 + 4 + 7) / 8) = dramJoin [] (s.dramWord n (off / 8 * 8)) := by
  rw [show (off % 8 + 4 + 7) / 8 = 1 by omega]
  rfl

/-- A half word of a stack lies in one word. -/
theorem dramRead_half {d : DWord} {t : State} (h : s.dramWord n (off / 8 * 8) = (.ok d, t)) :
    s.dramRead n off 4 = (.ok (((ofWords [d]).drop (off % 8)).take 4), t.countTxn n off 4) := by
  rw [dramRead, dramWords_half h4, h]
  rfl

theorem dramRead_error {e : DramErr} {t : State} (h : s.dramWord n (off / 8 * 8) = (.error e, t)) :
    s.dramRead n off 4 = (.error e, t) := by
  rw [dramRead, dramWords_half h4, h]
  rfl

theorem stackRead_ok {d : DWord} {t : State} (h : s.dramWord n (off / 8 * 8) = (.ok d, t)) :
    s.stackRead n off = (0, bits d.toNat (8 * (off % 8) + 31) (8 * (off % 8)), t.countTxn n off 4) := by
  rw [stackRead, dramRead_half h4 h, ← leNat_half]

theorem stackRead_absent {t : State} (h : s.dramWord n (off / 8 * 8) = (.error .absent, t)) :
    s.stackRead n off = if t.blocked then (2, 0, { t with blocked := false }) else (1, 0, t) := by
  rw [stackRead, dramRead_error h4 h]

theorem stackRead_fenced {l : DramLoc} {t : State} (h : s.dramWord n (off / 8 * 8) = (.error (.fenced l), t)) :
    s.stackRead n off = (2, 0, t) := by
  rw [stackRead, dramRead_error h4 h]

end

theorem dramWord_beyond {n b : Nat} (h : s.chanOf n b = none) : s.dramWord n b = (.error .absent, s) := by
  rw [dramWord, h]

section
variable {n b ch c : Nat} (h : s.chanOf n b = some (ch, c))
include h

theorem dramWord_fenced (hfenced : s.chanFenced n ch = true) : s.dramWord n b = (.error (.fenced ⟨n, ch, b⟩), s) := by
  rw [dramWord, h]
  exact if_pos hfenced

theorem dramWord_held (hopen : s.chanFenced n ch = false) (hheld : s.stackHolds n = true) :
    s.dramWord n b = (.error .absent, { s with blocked := true }) := by
  rw [dramWord, h]
  exact (if_neg (by rw [hopen]; decide)).trans (if_pos hheld)

theorem dramWord_found (hopen : s.chanFenced n ch = false) (hfree : s.stackHolds n = false) :
    s.dramWord n b = s.dramFound n ch b c (s.dramCell n ch c) (eccOf 72 (s.dramCell n ch c).flip.toNat) := by
  rw [dramWord, h]
  exact (if_neg (by rw [hopen]; decide)).trans (if_neg (by rw [hfree]; decide))

end

/-! ### The scratchpad and program memory of a disabled cluster (R131, R145, R146) -/

section
variable {r c off : Nat}

theorem spRawRead_invalid (h : Store.find (s.cluster r c).sp (off / 8) = none) : s.spRawRead r c a off = (0, 0, s) := by
  simp only [spRawRead, h]

section
variable {x : Cell} (h : Store.find (s.cluster r c).sp (off / 8) = some x)
include h

theorem spRawRead_clean (htwin : x.twin = true) (hecc : eccOf 72 x.flip.toNat = .clean) :
    s.spRawRead r c a off = (0, bits x.data.toNat (8 * (off % 8) + 31) (8 * (off % 8)), s) := by
  simp only [spRawRead, h, htwin, hecc]
  rfl

theorem spRawRead_corrected {q : Nat} (htwin : x.twin = true) (hecc : eccOf 72 x.flip.toNat = .corrected q) :
    s.spRawRead r c a off = (0, bits (x.data ^^^ BitVec.ofNat 64 q).toNat (8 * (off % 8) + 31) (8 * (off % 8)),
      (s.log r { code := 0x301, region := r, cluster := c, loc0 := off / 8 / 8192, loc1 := off / 8 % 8192,
                 detail := Config.syndrome 72 x.flip.toNat }).count (Rg.SP_CE_COUNT r c) 1) := by
  simp only [spRawRead, h, htwin, hecc]
  rfl

theorem spRawRead_bad (hbad : x.twin = false ∨ eccOf 72 x.flip.toNat = .bad) : s.spRawRead r c a off = s.rawBad r c a := by
  simp only [spRawRead, h]
  obtain htwin | hecc := hbad
  · rw [if_pos (by rw [htwin]; rfl)]
  · rw [hecc]
    exact ite_self _

end

/-- The half word at byte `off` of program word `x`, whose part is corrected by `q`. -/
def progHalf (x : PCell) (off q : Nat) : Nat :=
  bits (bits x.w.toNat (64 * (off % 32 / 8) + 63) (64 * (off % 32 / 8)) ^^^ q) (8 * (off % 8) + 31) (8 * (off % 8))

section
variable {x : PCell} (h : Store.get PCell.zero (s.cluster r c).prog (off / 32) = x)
include h

theorem progRawRead_clean (hecc : eccOf 72 (progFlip x (off % 32 / 8)) = .clean) :
    s.progRawRead r c a off = (0, progHalf x off 0, s) := by
  subst h
  unfold progRawRead
  rw [progFlip] at hecc
  dsimp only
  rw [hecc]
  rfl

theorem progRawRead_corrected {q : Nat} (hecc : eccOf 72 (progFlip x (off % 32 / 8)) = .corrected q) :
    s.progRawRead r c a off = (0, progHalf x off q,
      (s.log r { code := 0x302, region := r, cluster := c, loc0 := off / 32, loc1 := off % 32 / 8,
                 detail := Config.syndrome 72 (progFlip x (off % 32 / 8)) }).count (Rg.PM_CE_COUNT r c) 1) := by
  subst h
  unfold progRawRead
  rw [progFlip] at hecc
  dsimp only
  rw [hecc]
  rfl

theorem progRawRead_bad (hecc : eccOf 72 (progFlip x (off % 32 / 8)) = .bad) : s.progRawRead r c a off = s.rawBad r c a := by
  subst h
  unfold progRawRead
  rw [progFlip] at hecc
  dsimp only
  rw [hecc]

end
end
end State

/-! ### The commands -/

theorem exec_tbLoRead (req : Requester) (s : State) : exec (.tbLoRead req) s = .next (s.accessRead req Rg.TB_LO) := rfl

theorem exec_tagArrayWrite (req : Requester) (p : Site) (tile : BitVec 13) (v : Word) (s : State) :
    exec (.tagArrayWrite req p tile v) s =
      .next (s.accessWrite req (clusterBase p.r p.c + 0xA000000 + 4 * tile.toNat) v none) := rfl

theorem exec_rawWindowRead (req : Requester) (a : BitVec 48) (s : State) :
    exec (.rawWindowRead req a) s = .next (s.accessRead req a.toNat) := rfl

/-- The place of a tile's tag (R128, R464). -/
theorem placeOf_tag (p : Site) {tile : Nat} (h : tile < 4608) :
    placeOf (clusterBase p.r p.c + 0xA000000 + 4 * tile) = .tagArray p.r p.c tile := by
  rw [Nat.add_assoc, placeOf_cluster p.r p.c _ p.r.isLt p.c.isLt (by omega), clusterPlace, if_neg (by omega), if_neg (by omega),
    if_neg (by omega), if_pos (by omega), show (0xA000000 + 4 * tile - 0xA000000) / 4 = tile by omega]

/-- No address of a cluster's window is one of a guarded register. -/
theorem unguarded_cluster (r c o : Nat) :
    guardedFirst (clusterBase r c + o) = false ∧ guardedSecond (clusterBase r c + o) = false :=
  ⟨guardedFirst_lt _ (by unfold clusterBase regionBase; omega), guardedSecond_lt _ (by unfold clusterBase regionBase; omega)⟩

/-- A half word of a stack is aligned as its address is (R17). -/
theorem aligned_of_stack {a n off : Nat} (h4 : a % 4 = 0) (hplace : placeOf a = .stack n off) : off % 4 = 0 := by
  obtain ⟨-, rfl⟩ := stack_of_placeOf hplace
  omega

section
variable {req : Requester} {a : BitVec 48} {s t : State}
  (hon : s.answers req = true) (h4 : a.toNat % 4 = 0) (hpath : s.routed a.toNat = true)
include hon h4 hpath

/-- A read that its node answers with data. -/
theorem rawWindowRead_gives {x : Nat} (hbus : s.busRead req a.toNat = (0, x, t)) :
    exec (.rawWindowRead req a) s = .next (t.emit (.access req 0 (some (BitVec.ofNat 32 x)))) := by
  rw [exec_rawWindowRead, s.accessRead_routed req _ hon h4 hpath, hbus]
  rfl

/-- A read that its node does not answer with data: a bus error, or no answer. -/
theorem rawWindowRead_fails {st : Nat} (hst : st ≠ 0) {x : Nat} (hbus : s.busRead req a.toNat = (st, x, t)) :
    exec (.rawWindowRead req a) s = .next (t.emit (.access req st none)) := by
  rw [exec_rawWindowRead, s.accessRead_routed req _ hon h4 hpath, hbus]
  simp only [if_neg hst]

end
/-- Settles O28: each read by what the node of its address gives. -/
theorem windowReadsAndTagWrites : Obligations.WindowReadsAndTagWrites := by
  intro req p tile v s hon
  refine ⟨?tbLo, fun hreach hpath htile => ?tag, fun a h4 hpath => ?read⟩
  case tbLo =>
    have hlow := s.routed_low Rg.TB_LO (by decide)
    rw [exec_tbLoRead, s.accessRead_routed req _ hon (by decide) hlow, State.busRead_tbLo]
    rfl
  case tag =>
    have hplace := placeOf_tag p htile
    have hguard := unguarded_cluster p.r p.c (0xA000000 + 4 * tile.toNat)
    rw [← Nat.add_assoc] at hguard
    have hplain := And.intro (show (clusterBase p.r p.c + 0xA000000 + 4 * tile.toNat) % 4 = 0 by
      unfold clusterBase regionBase; omega) hguard
    have hwindow := State.busWrite_window (s := s) (req := req) (v := v) (r := p.r) (c := p.c) (off := 0) (tile := tile.toNat)
      (row := (.tagArray p.r p.c tile.toNat, s.tagWrite p.r p.c tile.toNat v)) hplain
      (by simp only [List.mem_cons, true_or, or_true]) hplace
    have harrived {st : Nat} {t : State} (hraw : s.rawWrite p.r p.c (fun _ => s.tagWrite p.r p.c tile.toNat v) = (st, t)) :
        exec (.tagArrayWrite req p tile v) s = .next (t.emit (.access req st none)) := by
      rw [exec_tagArrayWrite, State.accessWrite_arrived v hon (fun h => h.2 hplain.1) hpath (hwindow.trans hraw)]
    exact ⟨fun hoff => harrived (State.rawWrite_disabled _ hreach hoff), fun hen => harrived (State.rawWrite_enabled _ hreach hen)⟩
  case read =>
    have hgives {x : Nat} {t : State} := rawWindowRead_gives (t := t) (x := x) hon h4 hpath
    have hfails {st : Nat} (hst : st ≠ 0) {x : Nat} {t : State} := rawWindowRead_fails (t := t) hon h4 hpath hst (x := x)
    intro run gives silent half
    refine ⟨fun hplace => ?none, fun w i hplace htb => ?edge, fun r w i hplace => ?region, fun r c w i hplace => ?cluster,
      fun off hplace hclear => ?cmem, fun n off hplace => ?dram, fun r c off t => ?window⟩
    case none =>
      have hnone := State.busRead_none (s := s) (req := req) h4 hplace
      exact ⟨fun hsecond => hgives (hnone.trans (if_pos hsecond)),
        fun hsecond => hfails (by decide) (hnone.trans (if_neg (by rw [hsecond]; decide)))⟩
    case edge =>
      have hedge := hgives (State.busRead_edge req h4 hplace htb)
      exact ⟨hedge, fun hown hfuse => by rwa [State.edgeRead_held _ _ hown hfuse] at hedge⟩
    case region =>
      have hregion := State.busRead_region (s := s) (req := req) h4 hplace
      refine ⟨fun hreach => ?_, fun hsilent => hfails (by decide) (hregion.trans (if_neg (by rw [hsilent]; decide)))⟩
      have hdone := hgives (hregion.trans (if_pos hreach))
      exact ⟨hdone, fun hown => by rwa [State.regionRead_held _ _ _ hown] at hdone⟩
    case cluster =>
      have hcluster := State.busRead_cluster (s := s) (req := req) h4 hplace
      exact ⟨fun hreach => hgives (hcluster.trans (if_pos hreach)),
        fun hsilent => hfails (by decide) (hcluster.trans (if_neg (by rw [hsilent]; decide)))⟩
    case cmem =>
      have hcm := State.busRead_cmem (s := s) (req := req) h4 hplace
      refine ⟨fun hinvalid => ?_, fun x hx => ⟨fun htwin hecc => ?_, fun q htwin hecc => ?_, fun hbad => ?_⟩⟩
      · exact hgives (hcm.trans (State.cmHalf_invalid hclear hinvalid))
      · exact hgives (hcm.trans (State.cmHalf_read hclear (State.cmRead_clean hx htwin hecc)))
      · exact hgives (hcm.trans (State.cmHalf_read hclear (State.cmRead_corrected hx htwin hecc)))
      · refine ⟨(s.cmReader req).1, (s.cmReader req).2.free, fun k hcore => ?_,
          hfails (by decide) (hcm.trans (State.cmHalf_bad (State.cmRead_bad hx hbad)))⟩
        subst hcore
        exact ⟨rfl, rfl⟩
    case dram =>
      have hoff := aligned_of_stack h4 hplace
      have hstack := State.busRead_stack (s := s) (req := req) h4 hplace
      refine ⟨fun hbeyond hfree => ?_, fun ch b hchan => ⟨fun hfenced => ?_, fun hopen hheld => ?_, fun hopen hfree => ?_⟩⟩
      · exact hfails (by decide) (hstack.trans ((State.stackRead_absent hoff (State.dramWord_beyond hbeyond)).trans
          (if_neg (by rw [hfree]; decide))))
      · exact hfails (by decide) (hstack.trans (State.stackRead_fenced hoff (State.dramWord_fenced hchan hfenced)))
      · exact hfails (by decide) (hstack.trans ((State.stackRead_absent hoff (State.dramWord_held hchan hopen hheld)).trans (if_pos rfl)))
      · have hword := State.dramWord_found hchan hopen hfree
        refine ⟨fun hecc => ?_, fun q hecc => ?_⟩
        · rw [hecc] at hword
          exact hgives (hstack.trans (State.stackRead_ok hoff hword))
        · rw [hecc] at hword
          exact hgives (hstack.trans (State.stackRead_ok hoff hword))
    case window =>
      have hwindow {q : Place} (hq : q ∈ [Place.weight r c off, .spRaw r c off, .prog r c off, .tagArray r c t])
          (hplace : placeOf a.toNat = q) := State.busRead_window (s := s) (req := req) h4 hq hplace
      refine ⟨fun q hq hplace => ⟨fun hsilent => ?_, fun hreach hen => ?_⟩, fun hreach hoff => ?_⟩
      · exact hfails (by decide) ((hwindow hq hplace).trans (if_pos (by rw [hsilent]; rfl)))
      · exact hfails (by decide) ((hwindow hq hplace).trans ((if_neg (by rw [hreach]; decide)).trans (if_pos hen)))
      · have hraw {q : Place} (hq : q ∈ [Place.weight r c off, .spRaw r c off, .prog r c off, .tagArray r c t])
            (hplace : placeOf a.toNat = q) : s.busRead req a.toNat = s.windowRead a.toNat q :=
          (hwindow hq hplace).trans ((if_neg (by rw [hreach]; decide)).trans (if_neg (by rw [hoff]; decide)))
        refine ⟨fun hplace => ?weight, fun hplace => ?tags, fun hplace => ?sp, fun hplace => ?prog⟩
        case weight => exact hgives (hraw (by simp only [List.mem_cons, true_or]) hplace)
        case tags => exact hgives (hraw (by simp only [List.mem_cons, true_or, or_true]) hplace)
        case sp =>
          have hsp : s.busRead req a.toNat = s.spRawRead r c a.toNat off :=
            hraw (q := .spRaw r c off) (by simp only [List.mem_cons, true_or, or_true]) hplace
          refine ⟨fun hinvalid => ?_, fun x hx => ⟨fun htwin hecc => ?_, fun q htwin hecc => ?_, fun hbad => ?_⟩⟩
          · exact hgives (hsp.trans (State.spRawRead_invalid hinvalid))
          · exact hgives (hsp.trans (State.spRawRead_clean hx htwin hecc))
          · exact hgives (hsp.trans (State.spRawRead_corrected hx htwin hecc))
          · exact hfails (by decide) (hsp.trans (State.spRawRead_bad hx hbad))
        case prog =>
          have hprog : s.busRead req a.toNat = s.progRawRead r c a.toNat off :=
            hraw (q := .prog r c off) (by simp only [List.mem_cons, true_or, or_true]) hplace
          intro x i e part
          have hx : Store.get PCell.zero (s.cluster r c).prog (off / 32) = x := rfl
          refine ⟨fun hecc => ?_, fun q hecc => ?_, fun hecc => ?_⟩
          · exact hgives (hprog.trans (State.progRawRead_clean hx hecc))
          · exact hgives (hprog.trans (State.progRawRead_corrected hx hecc))
          · exact hfails (by decide) (hprog.trans (State.progRawRead_bad hx hecc))

end Sys2Proof.Machine
end
